-- ==== Sys2Proof/Word.lean ====
section
/-! DEFINITION. The word types of the P1 and their plainest arithmetic (R7, R8). -/

namespace Sys2Proof

/-- One byte of device memory. -/
abbrev Byte := BitVec 8
/-- A 16-bit word. -/
abbrev W16 := BitVec 16
/-- A 32-bit word: an instruction word, an F32 lane, a vector-tile scalar. -/
abbrev W32 := BitVec 32
/-- A 64-bit word: a register of a register block, or X0 to X31. -/
abbrev W64 := BitVec 64

end Sys2Proof
end

