-- ==== Sys2Proof/Syntax.lean ====
section
/-! DEFINITION. The commands and events of the P1: one constructor per row of the opcode table. An
operand names the unit the event happens at, or is what reaches the P1 from outside. Rows that a
program or a ring names (the instructions of a sequencer or a vector tile, the commands of a queue)
take the unit alone: what they work on is read from the P1's own state. -/

namespace Sys2Proof

/-- What a DIMM's SPD reports (R208): a registered DIMM or not, device width, devices per subchannel, density
in Gb, package ranks, 3DS, data rate in MT/s, timings in ps, DRFM and RFM, and its serial number. -/
structure Spd where
  rdimm : Bool
  width : Nat
  devices : Nat
  density : Nat
  ranks : Nat
  stacked : Bool
  rate : Nat
  taa : Nat
  trcd : Nat
  trp : Nat
  tras : Nat
  twr : Nat
  trfc : Nat
  drfm : Bool
  rfm : Bool
  serial : Nat
deriving DecidableEq, Repr

/-- What an expander that a CXL port has detected shows (R302, Table 11.6): whether training and enumeration end
in time, what the checks look at, and what is mapped; `cap` is its volatile capacity in units of 256 MiB. -/
structure CxlDev where
  trains : Bool
  isCxl : Bool
  wantsCache : Bool
  isSwitch : Bool
  memClass : Bool
  multi : Bool
  width : Nat
  rate : Nat
  cap : Nat
  flit256 : Bool
  reversed : Bool
  vendor : Nat
  device : Nat
deriving DecidableEq, Repr

/-- A PTP message of the default profile (R285): its domain and sender, and the times it carries in units of
250 ps of TAI. `rank` orders masters as the default best-master algorithm does, the best lowest. -/
inductive PtpMsg where
  | announce (domain sender rank : Nat)
  | sync (domain sender : Nat) (origin : Option Nat)
  | followUp (domain sender origin : Nat)
  | delayResp (domain sender received : Nat)
deriving DecidableEq, Repr

/-- A frame that a sub-port takes in (R265, R299, R300). IPv4 addresses are numbers below 2^32; `plain` says that an
IP packet is no fragment and carries no options or extension headers. -/
inductive Frame where
  | bad
  | pause
  | pfc (quanta : List (Fin 8 × Fin 65536))
  | arp (ip : Nat)
  | nd (ip : Nat)
  | echo (v6 : Bool) (ip : Nat)
  | udp (v6 plain ce : Bool) (src dst sport dport : Nat) (payload : List Byte)
  | ptp (transport : Fin 4) (msg : PtpMsg)
  | other
deriving DecidableEq, Repr

/-- What the MAC sees of a frame beside its content (R299, R300): its size from the destination address to the FCS, its
destination address, the priority in its tag if it has one, its DSCP, and how many bytes of its priority the receive buffer
still holds as it arrives. -/
structure FrameMeta where
  size : Nat
  dmac : Nat
  tag : Option (Fin 8)
  dscp : Fin 64
  wait : Nat
deriving DecidableEq, Repr

/-- A frame as it comes in, with what the MAC sees of it. -/
structure RxFrame where
  frame : Frame
  info : FrameMeta
deriving DecidableEq, Repr

/-- One margin of each eye of a lane (R294): the lower or only eye, the middle and the upper one. -/
structure ByEye (n : Nat) where
  lower : Fin n
  middle : Fin n
  upper : Fin n
deriving DecidableEq, Repr

/-- A chunk of migration engine `eng`: lines of it, by number, with how many of their symbols or bits are in error. -/
structure ChunkRead where
  eng : Fin 8
  flaws : List (Fin 1024 × Fin 33) := []
deriving DecidableEq, Repr

/-- A turn of a memory target: the subchannel, of a DDR5 channel, and lines of the request served, by number, with how many
of their symbols or bits are in error. -/
structure TargetTurn where
  sub : Fin 2 := 0
  flaws : List (Fin 9 × Fin 33) := []
deriving DecidableEq, Repr

/-- An island that a packet wakes (R318): a router or gateway island as PWR_RTR numbers it, an engine, a herd in
retention. -/
inductive Island where
  | router (i : Fin 10)
  | engine (n : Fin 64)
  | herd (h : Fin 8)
deriving DecidableEq, Repr

/-- A request that a master's injection port holds (R316, R319): its source, TYPE, the port it leaves by where it is
of the peer class (0 ETH0, 1 ETH1), its address, context, data bytes and tag, whether its data are poisoned (R134), and
whether it is a partner run's (R77). -/
structure NocReq where
  src : Fin 186
  ty : Fin 7
  peer : Option (Fin 2)
  addr : Nat
  ctx : Fin 1024
  len : Fin 513
  tid : Fin 256
  poison : Bool := false
  partner : Bool := false
deriving DecidableEq, Repr

/-- A request that the logic of a fabric region gives one of its NoC ports (R342): a read of `len` bytes, a write of
data, or a gate signal. -/
inductive FabReq where
  | read (addr len : Nat)
  | write (addr : Nat) (data : List Byte) (poison : Bool)
  | gate (eng : Fin 64) (gate : Fin 256) (value : W32)
deriving DecidableEq, Repr

/-- Readings of a regulator: it answers or not, mV, 0.1 A, °C, STATUS_WORD. -/
structure Rail where
  answers : Bool
  vout : Nat
  iout : Nat
  temp : Nat
  status : Nat
deriving DecidableEq, Repr


/-- The flash device that discovery finds (R357): its JEDEC identifier, its capacity in MiB, and whether it changes to
8D-8D-8D. -/
structure FlashId where
  jedec : Fin 16777216
  cap : Fin 65536
  octal : Bool
deriving DecidableEq, Repr

/-- A fault that BIST finds in an engine (R408): an array row, an array column, a check row, a check column, or one
that no spare line can repair. -/
inductive BistFault where
  | row (i : Fin 128)
  | col (j : Fin 64)
  | checkRow
  | checkCol
  | other
deriving DecidableEq, Repr

/-- An instruction that is shifted in on the JTAG pins (R394). -/
inductive Jtag where
  | bypass
  | idcode
  | boundary
  | other
deriving DecidableEq, Repr

/-- What the governor reads (R413, R416): the device estimate's averages over 10 µs, 100 µs and 1 ms in W, the draw
in W of each fabric region (F00 to F47, then the halves of FS on CD0 and CD1), and the hottest sensor of CD0, of CD1 and of the IOD in °C. -/
structure Sensors where
  avg10 : Nat
  avg100 : Nat
  avg1000 : Nat
  regions : List Nat
  tcd0 : Fin 256
  tcd1 : Fin 256
  tiod : Fin 256
deriving DecidableEq, Repr

/-- The commands and events (one per row of the opcode table). -/
inductive Instr where
  /-- POWER_ON_RESET (R400). -/
  | powerOnReset (vbatt : Bool)
  /-- DEVICE_WARM_RESET (R424). -/
  | deviceWarmReset
  /-- RAIL_DROOP (R400). -/
  | railDroop
  /-- POWER_DOWN (R400). -/
  | powerDown
  /-- BOOT_CHAIN (R384). -/
  | bootChain (flash : Option FlashId)
  /-- BIST (R408). -/
  | bist (faults : List (Fin 64 × BistFault))
  /-- LANE_CALIBRATION (R408). -/
  | laneCalibration
  /-- HBM_TRAINING (R408). -/
  | hbmTraining
  /-- HBM_ZEROING (R409). -/
  | hbmZeroing
  /-- ENGINES_INTO_SERVICE (R408). -/
  | enginesIntoService
  /-- BOOT_FABRIC_LOAD (R370). -/
  | bootFabricLoad
  /-- ETHERNET_BRING_UP (R408). -/
  | ethernetBringUp
  /-- DDR5_TRAINING (R223). -/
  | ddr5Training (dimms : List (List Spd)) (failed : List (Fin 8))
  /-- DDR5_ZEROING (R409). -/
  | ddr5Zeroing
  /-- CXL_ZEROING (R409). -/
  | cxlZeroing (port : Fin 2)
  /-- ES_NOP (R121). -/
  | esNop (e : Fin 64) (sl : Fin 8)
  /-- ADD (R121). -/
  | add (e : Fin 64) (sl : Fin 8)
  /-- SUB (R121). -/
  | sub (e : Fin 64) (sl : Fin 8)
  /-- AND (R121). -/
  | and (e : Fin 64) (sl : Fin 8)
  /-- OR (R121). -/
  | or (e : Fin 64) (sl : Fin 8)
  /-- XOR (R121). -/
  | xor (e : Fin 64) (sl : Fin 8)
  /-- SHL (R121). -/
  | shl (e : Fin 64) (sl : Fin 8)
  /-- SHR (R121). -/
  | shr (e : Fin 64) (sl : Fin 8)
  /-- SRA (R121). -/
  | sra (e : Fin 64) (sl : Fin 8)
  /-- SLT (R121). -/
  | slt (e : Fin 64) (sl : Fin 8)
  /-- SLTU (R121). -/
  | sltu (e : Fin 64) (sl : Fin 8)
  /-- MUL (R121). -/
  | mul (e : Fin 64) (sl : Fin 8)
  /-- ADDI (R121). -/
  | addi (e : Fin 64) (sl : Fin 8)
  /-- ANDI (R121). -/
  | andi (e : Fin 64) (sl : Fin 8)
  /-- ORI (R121). -/
  | ori (e : Fin 64) (sl : Fin 8)
  /-- XORI (R121). -/
  | xori (e : Fin 64) (sl : Fin 8)
  /-- SHLI (R121). -/
  | shli (e : Fin 64) (sl : Fin 8)
  /-- SHRI (R121). -/
  | shri (e : Fin 64) (sl : Fin 8)
  /-- MOVI (R121). -/
  | movi (e : Fin 64) (sl : Fin 8)
  /-- MOVK (R121). -/
  | movk (e : Fin 64) (sl : Fin 8)
  /-- LD (R121). -/
  | ld (e : Fin 64) (sl : Fin 8)
  /-- ST (R121). -/
  | st (e : Fin 64) (sl : Fin 8)
  /-- LDW (R121). -/
  | ldw (e : Fin 64) (sl : Fin 8)
  /-- STW (R121). -/
  | stw (e : Fin 64) (sl : Fin 8)
  /-- LOAD_DATA_RETURN (R119). -/
  | loadDataReturn (e : Fin 64) (sl : Fin 8) (i : Nat)
  /-- BEQ (R121). -/
  | beq (e : Fin 64) (sl : Fin 8)
  /-- BNE (R121). -/
  | bne (e : Fin 64) (sl : Fin 8)
  /-- BLT (R121). -/
  | blt (e : Fin 64) (sl : Fin 8)
  /-- BGE (R121). -/
  | bge (e : Fin 64) (sl : Fin 8)
  /-- BLTU (R121). -/
  | bltu (e : Fin 64) (sl : Fin 8)
  /-- JMP (R121). -/
  | jmp (e : Fin 64) (sl : Fin 8)
  /-- JR (R121). -/
  | jr (e : Fin 64) (sl : Fin 8)
  /-- MPASS (R136). -/
  | mpass (e : Fin 64) (sl : Fin 8)
  /-- STRM (R129). -/
  | strm (e : Fin 64) (sl : Fin 8)
  /-- SWAIT (R121). -/
  | swait (e : Fin 64) (sl : Fin 8)
  /-- FENCE (R121). -/
  | fence (e : Fin 64) (sl : Fin 8)
  /-- VLAUNCH (R147). -/
  | vlaunch (e : Fin 64) (sl : Fin 8)
  /-- VWAIT (R121). -/
  | vwait (e : Fin 64) (sl : Fin 8)
  /-- GSIG (R144). -/
  | gsig (e : Fin 64) (sl : Fin 8)
  /-- GWAIT (R142). -/
  | gwait (e : Fin 64) (sl : Fin 8)
  /-- GWAIT_RETURN (R142). -/
  | gwaitReturn (e : Fin 64) (sl : Fin 8)
  /-- GSET (R121). -/
  | gset (e : Fin 64) (sl : Fin 8)
  /-- GRD (R121). -/
  | grd (e : Fin 64) (sl : Fin 8)
  /-- RDDT (R150). -/
  | rddt (e : Fin 64) (sl : Fin 8)
  /-- RDSR (R121). -/
  | rdsr (e : Fin 64) (sl : Fin 8)
  /-- PLRD (R140). -/
  | plrd (e : Fin 64) (sl : Fin 8)
  /-- YIELD (R124). -/
  | yield (e : Fin 64) (sl : Fin 8)
  /-- HALT (R125). -/
  | halt (e : Fin 64) (sl : Fin 8)
  /-- SLOT_HALTED (R254). -/
  | slotHalted (e : Fin 64) (sl : Fin 8)
  /-- STREAM_DESCRIPTOR_START (R129). -/
  | streamDescriptorStart (e : Fin 64) (se : Fin 4)
  /-- STREAM_DESCRIPTOR_COMPLETE (R139). -/
  | streamDescriptorComplete (e : Fin 64) (se : Fin 4)
  /-- PASS_ISSUE (R137). -/
  | passIssue (e : Fin 64)
  /-- DRAIN_START (R61). -/
  | drainStart (e : Fin 64) (faults : List (Fin 129 × Fin 65 × W32))
  /-- VERDICT (R72). -/
  | verdict (e : Fin 64)
  /-- RELEASE (R74). -/
  | release (e : Fin 64)
  /-- REPLAY (R77). -/
  | replay (e : Fin 64)
  /-- PARTNER_RUN (R77). -/
  | partnerRun (e : Fin 64) (faults : List (Fin 129 × Fin 65 × W32))
  /-- LINE_REMAP (R78). -/
  | lineRemap (e : Fin 64) (tests : List Bool)
  /-- PASS_PREEMPT (R80). -/
  | passPreempt (e : Fin 64) (groups : Nat)
  /-- PASS_RESUME (R82). -/
  | passResume (e : Fin 64) (bank : Fin 2)
  /-- VT_NOP (R94). -/
  | vtNop (e : Fin 64)
  /-- VLD (R95). -/
  | vld (e : Fin 64)
  /-- VLDS (R95). -/
  | vlds (e : Fin 64)
  /-- VST (R95). -/
  | vst (e : Fin 64)
  /-- VSTM (R95). -/
  | vstm (e : Fin 64)
  /-- SLD (R95). -/
  | sld (e : Fin 64)
  /-- SST (R95). -/
  | sst (e : Fin 64)
  /-- AMOV (R95). -/
  | amov (e : Fin 64)
  /-- AGET (R95). -/
  | aget (e : Fin 64)
  /-- VADD (R95). -/
  | vadd (e : Fin 64)
  /-- VSUB (R95). -/
  | vsub (e : Fin 64)
  /-- VMAX (R97). -/
  | vmax (e : Fin 64)
  /-- VMIN (R97). -/
  | vmin (e : Fin 64)
  /-- VAND (R95). -/
  | vand (e : Fin 64)
  /-- VOR (R95). -/
  | vor (e : Fin 64)
  /-- VXOR (R95). -/
  | vxor (e : Fin 64)
  /-- VSHL (R95). -/
  | vshl (e : Fin 64)
  /-- VSHR (R95). -/
  | vshr (e : Fin 64)
  /-- VCMP (R95). -/
  | vcmp (e : Fin 64)
  /-- VSEL (R95). -/
  | vsel (e : Fin 64)
  /-- VBCST (R95). -/
  | vbcst (e : Fin 64)
  /-- VPERM (R95). -/
  | vperm (e : Fin 64)
  /-- VEXTR (R95). -/
  | vextr (e : Fin 64)
  /-- VCVT (R99). -/
  | vcvt (e : Fin 64)
  /-- VMAXI (R107). -/
  | vmaxi (e : Fin 64)
  /-- VMINI (R107). -/
  | vmini (e : Fin 64)
  /-- SMAXI (R107). -/
  | smaxi (e : Fin 64)
  /-- SMINI (R107). -/
  | smini (e : Fin 64)
  /-- VTOPK (R108). -/
  | vtopk (e : Fin 64)
  /-- SADD (R95). -/
  | sadd (e : Fin 64)
  /-- SSUB (R95). -/
  | ssub (e : Fin 64)
  /-- SMUL (R95). -/
  | smul (e : Fin 64)
  /-- SMOVI (R95). -/
  | smovi (e : Fin 64)
  /-- SLUI (R95). -/
  | slui (e : Fin 64)
  /-- BR (R96). -/
  | br (e : Fin 64)
  /-- VARM (R105). -/
  | varm (e : Fin 64)
  /-- VDISARM (R95). -/
  | vdisarm (e : Fin 64)
  /-- VRETI (R105). -/
  | vreti (e : Fin 64)
  /-- VSIG (R95). -/
  | vsig (e : Fin 64)
  /-- VSRRD (R113). -/
  | vsrrd (e : Fin 64)
  /-- VSRWR (R113). -/
  | vsrwr (e : Fin 64)
  /-- VFLAGS (R95). -/
  | vflags (e : Fin 64)
  /-- VMUL (R95). -/
  | vmul (e : Fin 64)
  /-- VFMA (R97). -/
  | vfma (e : Fin 64)
  /-- VFMS (R97). -/
  | vfms (e : Fin 64)
  /-- VFNMA (R97). -/
  | vfnma (e : Fin 64)
  /-- VDOT2 (R95). -/
  | vdot2 (e : Fin 64)
  /-- VRSUM (R98). -/
  | vrsum (e : Fin 64)
  /-- VEXP2 (R109). -/
  | vexp2 (e : Fin 64)
  /-- VLOG2 (R109). -/
  | vlog2 (e : Fin 64)
  /-- VRCP (R109). -/
  | vrcp (e : Fin 64)
  /-- VRSQRT (R109). -/
  | vrsqrt (e : Fin 64)
  /-- VSILU (R109). -/
  | vsilu (e : Fin 64)
  /-- VGELU (R109). -/
  | vgelu (e : Fin 64)
  /-- VERF (R109). -/
  | verf (e : Fin 64)
  /-- RESULT_LAND (R90). -/
  | resultLand (e : Fin 64)
  /-- THREAD_END (R104). -/
  | threadEnd (e : Fin 64)
  /-- THREAD_SWITCH (R104). -/
  | threadSwitch (e : Fin 64)
  /-- BANK_DRAINED (R102). -/
  | bankDrained (e : Fin 64) (bank : Fin 2)
  /-- GATE_HANDLER_ENTRY (R105). -/
  | gateHandlerEntry (e : Fin 64)
  /-- GATE_SIGNAL_ARRIVAL (R146). -/
  | gateSignalArrival (e : Fin 64) (i : Nat)
  /-- NOP (R241). -/
  | nop (q : Fin 16384)
  /-- PART_CONFIG (R234). -/
  | partConfig (q : Fin 16384)
  /-- PART_GRANT (R452). -/
  | partGrant (q : Fin 16384)
  /-- PART_REGULATE (R250). -/
  | partRegulate (q : Fin 16384)
  /-- REG_READ (R450). -/
  | regRead (q : Fin 16384)
  /-- REG_WRITE (R450). -/
  | regWrite (q : Fin 16384)
  /-- HBM_REGION (R189). -/
  | hbmRegion (q : Fin 16384)
  /-- REKEY (R201). -/
  | rekey (q : Fin 16384)
  /-- RETIRE (R241). -/
  | retire (q : Fin 16384)
  /-- FW_PATCH (R388). -/
  | fwPatch (q : Fin 16384)
  /-- FW_IMAGE (R387). -/
  | fwImage (q : Fin 16384)
  /-- DUMP (R439). -/
  | dump (q : Fin 16384)
  /-- RESET (R425). -/
  | reset (q : Fin 16384)
  /-- QUEUE_CREATE (R236). -/
  | queueCreate (q : Fin 16384)
  /-- QUEUE_DELETE (R236). -/
  | queueDelete (q : Fin 16384)
  /-- CTX_CREATE (R251). -/
  | ctxCreate (q : Fin 16384)
  /-- CTX_CONFIG (R252). -/
  | ctxConfig (q : Fin 16384)
  /-- CTX_TEARDOWN (R430). -/
  | ctxTeardown (q : Fin 16384)
  /-- CTX_PLACE (R253). -/
  | ctxPlace (q : Fin 16384)
  /-- CTX_UNPLACE (R241). -/
  | ctxUnplace (q : Fin 16384)
  /-- IMEM_WRITE (R254). -/
  | imemWrite (q : Fin 16384)
  /-- RUN (R254). -/
  | run (q : Fin 16384)
  /-- CHAIN (R255). -/
  | chain (q : Fin 16384)
  /-- CONVERT (R256). -/
  | convert (q : Fin 16384)
  /-- COPY (R256). -/
  | copy (q : Fin 16384)
  /-- PAGE_MOVE (R200). -/
  | pageMove (q : Fin 16384)
  /-- XLATE_INVAL (R186). -/
  | xlateInval (q : Fin 16384)
  /-- GATE_SIGNAL (R241). -/
  | gateSignal (q : Fin 16384)
  /-- STOT_DISCARD (R241). -/
  | stotDiscard (q : Fin 16384)
  /-- FREEZE (R259). -/
  | freeze (q : Fin 16384)
  /-- UNFREEZE (R259). -/
  | unfreeze (q : Fin 16384)
  /-- PEER_SET (R269). -/
  | peerSet (q : Fin 16384)
  /-- PEER_CLEAR (R271). -/
  | peerClear (q : Fin 16384)
  /-- PEER_CLEAR_TIMEOUT (R271). -/
  | peerClearTimeout (ent : Fin 16392)
  /-- FAB_LOAD (R367). -/
  | fabLoad (q : Fin 16384)
  /-- FAB_BLANK (R366). -/
  | fabBlank (q : Fin 16384)
  /-- COMMAND_START (R247). -/
  | commandStart (id : Nat)
  /-- COMPLETION_RECORD_WRITE (R239). -/
  | completionRecordWrite (q : Fin 16384)
  /-- EVENT_RECORD (R260). -/
  | eventRecord (p : Fin 8)
  /-- FRAME_RECEIVE (R299). -/
  | frameReceive (port : Fin 2) (sub : Fin 4) (f : RxFrame)
  /-- WRITE (R277). -/
  | write (ent : Fin 16392)
  /-- READ (R281). -/
  | read (ent : Fin 16392)
  /-- READ_RESP (R277). -/
  | readResp (ent : Fin 16392)
  /-- DOORBELL (R237). -/
  | doorbell (ent : Fin 16392)
  /-- GATE_SIGNAL_MESSAGE (R281). -/
  | gateSignalMessage (ent : Fin 16392)
  /-- STOT (R280). -/
  | stot (ent : Fin 16392)
  /-- ACK (R274). -/
  | ack (ent : Fin 16392)
  /-- ACK_TIMER (R274). -/
  | ackTimer (ent : Fin 16392)
  /-- NOTICE (R282). -/
  | notice (ent : Fin 16392)
  /-- PROBE (R274). -/
  | probe (ent : Fin 16392)
  /-- PACKET_TRANSMIT (R279). -/
  | packetTransmit (ent : Fin 16392)
  /-- RETRANSMISSION_TIMER (R275). -/
  | retransmissionTimer (ent : Fin 16392) (seq : Nat)
  /-- HELLO (R391). -/
  | hello (part : Fin 8)
  /-- FINISH (R391). -/
  | finish (part : Fin 8)
  /-- ATTEST_REQ (R393). -/
  | attestReq (part : Fin 8)
  /-- CERTS_REQ (R390). -/
  | certsReq (part : Fin 8)
  /-- UNLOCK (R394). -/
  | unlock (part : Fin 8)
  /-- PTP_HOLDOVER (R286). -/
  | ptpHoldover
  /-- AUTO_NEGOTIATION (R297). -/
  | autoNegotiation (port : Fin 2) (sub : Fin 4) (media : Option (Fin 2))
  /-- LINK_TRAINING (R297). -/
  | linkTraining (port : Fin 2) (sub : Fin 4)
  /-- MAX_WAIT_TIMER (R297). -/
  | maxWaitTimer (port : Fin 2) (sub : Fin 4)
  /-- PCS_ALIGNMENT (R297). -/
  | pcsAlignment (port : Fin 2) (sub : Fin 4)
  /-- ALIGNMENT_TIMEOUT (R297). -/
  | alignmentTimeout (port : Fin 2) (sub : Fin 4)
  /-- FEC_WINDOW (R298). -/
  | fecWindow (port : Fin 2) (sub : Fin 4) (corr : Nat) (uc : Nat)
  /-- LOSS_OF_LINK (R283). -/
  | lossOfLink (port : Fin 2) (sub : Fin 4)
  /-- HOLD_OFF_EXPIRY (R298). -/
  | holdOffExpiry (port : Fin 2) (sub : Fin 4)
  /-- PFC_QUANTA_EXPIRY (R300). -/
  | pfcQuantaExpiry (port : Fin 2) (sub : Fin 4) (prio : Fin 8)
  /-- EYE_SCAN_START (R294). -/
  | eyeScanStart (l : Fin 48)
  /-- EYE_SCAN_DONE (R294). -/
  | eyeScanDone (l : Fin 48) (hl : ByEye 33) (hr : ByEye 33) (vu : ByEye 64) (vd : ByEye 64) (eye : Fin 3)
  /-- CXL_DETECT (R302). -/
  | cxlDetect (port : Fin 2) (found : Bool)
  /-- CXL_BRING_UP (R302). -/
  | cxlBringUp (port : Fin 2) (dev : CxlDev)
  /-- CXL_LINK_DOWN (R304). -/
  | cxlLinkDown (port : Fin 2)
  /-- CXL_MEDIA (R199). -/
  | cxlMedia (port : Fin 2)
  /-- CXL_HOT_ATTACH (R199). -/
  | cxlHotAttach (port : Fin 2) (dev : CxlDev)
  /-- CREDIT_REQUEST (R313). -/
  | creditRequest (src : Fin 186) (dst : Fin 2048)
  /-- CREDIT_GRANT (R313). -/
  | creditGrant (dst : Fin 2048)
  /-- PACKET_INJECT (R319). -/
  | packetInject (r : NocReq)
  /-- PACKET_EJECT (R324). -/
  | packetEject (i : Nat)
  /-- PARTITION_GRANT_RETURN (R320). -/
  | partitionGrantReturn (src : Fin 186) (part : Fin 8) (kind : Fin 4)
  /-- ISLAND_WAKE (R318). -/
  | islandWake (i : Island)
  /-- FABRIC_PORT_REQUEST (R342). -/
  | fabricPortRequest (p : Fin 96) (r : FabReq) (tid : Fin 256)
  /-- FABRIC_PORT_TIMEOUT (R341). -/
  | fabricPortTimeout (i : Nat)
  /-- REGION_RELEASE (R348). -/
  | regionRelease (f : Fin 49)
  /-- LOAD_SEGMENT (R367). -/
  | loadSegment (die : Fin 2)
  /-- REGION_BLANKING (R366). -/
  | regionBlanking (f : Fin 49)
  /-- READBACK (R371). -/
  | readback (faddr : W32)
  /-- READBACK_DONE (R371). -/
  | readbackDone
  /-- BBRAM_COMMIT (R362). -/
  | bbramCommit
  /-- BBRAM_ERASE (R362). -/
  | bbramErase
  /-- BROWSE_FRAME (R373). -/
  | browseFrame (u : Fin 2) (flips : List (Fin 4110))
  /-- BROWSE_WRITEBACK (R373). -/
  | browseWriteback (u : Fin 2) (flips : List (Fin 4110))
  /-- BROWSE_WATCHDOG (R375). -/
  | browseWatchdog (u : Fin 2)
  /-- QUEUE_PROCESSOR_PATCH (R388). -/
  | queueProcessorPatch
  /-- DC_WATCHDOG (R386). -/
  | dcWatchdog
  /-- DC_MEMORY_ERROR (R386). -/
  | dcMemoryError
  /-- DC_SELF_TEST (R386). -/
  | dcSelfTest (pass : Bool)
  /-- HBM_SKEW_SAMPLE_EXPIRY (R192). -/
  | hbmSkewSampleExpiry (pc : Fin 512) (occ : Fin 65) (sum : Nat) (counts : List (Fin 378 × Nat))
  /-- SOFT_REPAIR (R194). -/
  | softRepair (pc : Fin 512) (bank : Nat) (row : Nat) (left : Bool)
  /-- HBM_PC_RETIRE (R196). -/
  | hbmPcRetire (pc : Fin 512)
  /-- MIGRATION_CHUNK (R196). -/
  | migrationChunk (e : ChunkRead)
  /-- REFRESH (R217). -/
  | refresh (ch : Fin 8) (rank : Fin 4) (sub : Fin 2) (bank : Fin 32)
  /-- MR4_POLL (R217). -/
  | mr4Poll (ch : Fin 8) (rank : Fin 4) (fast : Bool)
  /-- TARGETED_REFRESH (R220). -/
  | targetedRefresh (ch : Fin 8) (rank : Fin 4) (sub : Fin 2) (bank : Fin 32)
  /-- ROW_DISTURBANCE_WINDOW (R220). -/
  | rowDisturbanceWindow (ch : Fin 8)
  /-- ACT_STORM (R221). -/
  | actStorm (ch : Fin 8) (rank : Fin 4) (sub : Fin 2) (bank : Fin 32)
  /-- DDR_SKEW (R222). -/
  | ddrSkew (ch : Fin 8) (rank : Fin 4) (sub : Fin 2) (bank : Fin 32) (occ : Nat) (sum : Nat)
  /-- DQS_TRACKING (R223). -/
  | dqsTracking (ch : Fin 8)
  /-- FREQUENCY_CHANGE (R224). -/
  | frequencyChange (ch : Fin 8)
  /-- RANK_RETIRE (R229). -/
  | rankRetire (ch : Fin 8) (rank : Fin 4) (parity : Bool) (copy : Bool)
  /-- SELF_REFRESH_ENTRY (R225). -/
  | selfRefreshEntry (ch : Fin 8)
  /-- SELF_REFRESH_EXIT (R225). -/
  | selfRefreshExit (ch : Fin 8)
  /-- LOW_TIMING_SET_ENTRY (R419). -/
  | lowTimingSetEntry (ch : Fin 8)
  /-- LOW_TIMING_SET_EXIT (R419). -/
  | lowTimingSetExit (ch : Fin 8)
  /-- ENGINE_CLOCK_GATE (R420). -/
  | engineClockGate (e : Fin 64)
  /-- HERD_RETENTION (R419). -/
  | herdRetention (h : Fin 8)
  /-- ROUTER_CLOCK_GATE (R419). -/
  | routerClockGate (i : Fin 8)
  /-- GOVERNOR_UPDATE (R414). -/
  | governorUpdate (g : Sensors)
  /-- GOVERNOR_CALIBRATION (R413). -/
  | governorCalibration (est : Nat)
  /-- CAPMISS (R415). -/
  | capmiss
  /-- TEMPERATURE_ALERT (R416). -/
  | temperatureAlert
  /-- THERMAL_TRIP (R417). -/
  | thermalTrip
  /-- DIMM_TEMPERATURE_READ (R416). -/
  | dimmTemperatureRead (temps : List (List Nat))
  /-- PMBUS_TELEMETRY (R402). -/
  | pmbusTelemetry (rails : List Rail)
  /-- PMBUS_ALERT (R402). -/
  | pmbusAlert (rails : List Rail)
  /-- ENGINE_WATCHDOG (R440). -/
  | engineWatchdog (e : Fin 64)
  /-- STREAM_WATCHDOG (R433). -/
  | streamWatchdog (e : Fin 64) (se : Fin 4)
  /-- QUEUE_WATCHDOG (R434). -/
  | queueWatchdog (p : Fin 4)
  /-- SUSPECT_REPLAY (R440). -/
  | suspectReplay (e : Fin 64) (pass : Bool)
  /-- QUIESCE_FENCE (R431). -/
  | quiesceFence (c : Fin 1024)
  /-- TEARDOWN_TIMEOUT (R432). -/
  | teardownTimeout (c : Fin 1024)
  /-- DUMP_COLLECT (R437). -/
  | dumpCollect
  /-- DUMP_ACCESS_TIMEOUT (R437). -/
  | dumpAccessTimeout
  /-- DUMP_SEND (R439). -/
  | dumpSend
  /-- ENGINE_RETIREMENT (R442). -/
  | engineRetirement (e : Fin 64) (lost : List (Fin 1024))
  /-- HEALTH_RECORD_WRITE (R444). -/
  | healthRecordWrite
  /-- MT_CKSTAT_CLEAR (R86). -/
  | mtCkstatClear (e : Fin 64)
  /-- HBM_ECC_CLEAR (R207). -/
  | hbmEccClear
  /-- DDR_ECC_CLEAR (R232). -/
  | ddrEccClear (ch : Fin 8)
  /-- ETH_FEC_CLEAR (R306). -/
  | ethFecClear (port : Fin 2) (sub : Fin 4)
  /-- CXL_ERR_CLEAR (R306). -/
  | cxlErrClear (port : Fin 2)
  /-- NOC_PRBCTL_CLEAR (R328). -/
  | nocPrbctlClear (p : Fin 40)
  /-- NOC_TRCTL_CLEAR (R328). -/
  | nocTrctlClear (b : Fin 3)
  /-- BRW_CNT_CLEAR (R378). -/
  | brwCntClear (u : Fin 2)
  /-- REGISTER_WRITE (R9). -/
  | registerWrite (off : Nat) (v : W64)
  /-- MEMORY_TARGET_RESPONSE (R316). -/
  | memoryTargetResponse (dst : Fin 2048) (ecc : TargetTurn)
  /-- FABRIC_LOGIC_RESPONSE (R341). -/
  | fabricLogicResponse (i : Nat) (data : List Byte) (poison : Bool)
  /-- REVOKE_ZEROING (R395). -/
  | revokeZeroing (p : Fin 8)
  /-- LOCAL_SUPPLY_DROOP (R407). -/
  | localSupplyDroop (i : Fin 124)
  /-- LOCAL_SUPPLY_RECOVERY (R407). -/
  | localSupplyRecovery (i : Fin 124)
  /-- VOTEFIX (R374). -/
  | votefix (u : Fin 2)
  /-- PCIE_RECOVERY (R295). -/
  | pcieRecovery (port : Fin 2) (replays : Nat)
  /-- PTP_DELAY_REQUEST (R285). -/
  | ptpDelayRequest
  /-- JTAG_INSTRUCTION (R394). -/
  | jtagInstruction (i : Jtag)
deriving DecidableEq, Repr

end Sys2Proof
end

