-- ==== Sys2Proof/Decode.lean ====
section
/-! DEFINITION. The command that a word spells by the table's bits. No row of the opcode table gives bits, so no word
spells a command: entries of the command set, sequencer words and vector bundles are read out of the state by the
meanings (Machine/Operands, Machine/EsDecode, Machine/VDecode). -/

namespace Sys2Proof

/-- No row has bits. -/
def decodeTableWord (_nbits _w : Nat) : Option Instr := none

end Sys2Proof
end

