-- ==== Sys2Proof/Config.lean ====
section
/-! DEFINITION. What the spec leaves open and each part fixes: the free values, and the functions that
the spec names by reference to a standard and whose results no rule states. None has a body, so no
proof can lean on a value of one. -/

namespace Sys2Proof

/-- A free value: the `n`-th one that a run takes. It stands for a random draw, for a value the spec
calls undefined, and for a result the spec does not state. -/
opaque Config.freeNat : Nat → Nat

/-- The value that the P1's content gives where R1 leaves it undefined, by position and address. -/
opaque Config.freeByte : Nat → Nat → BitVec 8

/-- The IOD unit number at which migration engine `e` takes responses, which no rule states (Table 12.5). -/
opaque Config.migUnit : Nat → Nat

/-- AES-256-GCM encryption under a key and a 96-bit nonce, with additional authenticated data: the
ciphertext and the 16-byte tag (R268). -/
opaque Config.gcmSeal : Nat → Nat → List (BitVec 8) → List (BitVec 8) → List (BitVec 8)

/-- AES-256-GCM decryption of a ciphertext and its tag; none where the tag does not verify (R268). -/
opaque Config.gcmOpen : Nat → Nat → List (BitVec 8) → List (BitVec 8) → Option (List (BitVec 8))

/-- SHA-384 of a message: 48 bytes (FIPS 180-4). -/
opaque Config.sha384 : List (BitVec 8) → List (BitVec 8)

/-- Do the Ed25519 and the ML-DSA-65 signature in a signature block both verify over a message against a key
pair: public keys, message, signatures (R360, R381)? -/
opaque Config.sigOk : List (BitVec 8) → List (BitVec 8) → List (BitVec 8) → Bool

/-- The public key pair, Ed25519 then ML-DSA-65, that a secret of the DICE layers gives: 1,984 bytes (R392). -/
opaque Config.pairPublic : List (BitVec 8) → List (BitVec 8)

/-- The two signatures, Ed25519 then ML-DSA-65, that a secret's key pair gives over a message: 3,373 bytes (R392). -/
opaque Config.pairSign : List (BitVec 8) → List (BitVec 8) → List (BitVec 8)

/-- The secret that HKDF under SHA-384 derives from another and an information string (R392). -/
opaque Config.dice : List (BitVec 8) → List (BitVec 8) → List (BitVec 8)

/-- The Alias certificate 0 (Ed25519) or 1 (ML-DSA-65) that the DeviceID secret issues over the Alias secret and the
measurements, DER-encoded (R392). -/
opaque Config.aliasCert : Nat → List (BitVec 8) → List (BitVec 8) → List (BitVec 8) → List (BitVec 8)

/-- The X25519 share of an ephemeral secret: 32 bytes (RFC 7748). -/
opaque Config.x25519Share : Nat → List (BitVec 8)

/-- The X25519 secret of an ephemeral secret and a peer's share: 32 bytes (RFC 7748). -/
opaque Config.x25519 : Nat → List (BitVec 8) → List (BitVec 8)

/-- ML-KEM-768 encapsulation with given randomness to a key: the ciphertext, 1,088 bytes, and the shared secret, 32
bytes (FIPS 203). -/
opaque Config.kemEncaps : Nat → List (BitVec 8) → List (BitVec 8) × List (BitVec 8)

/-- The 14 check bits of a frame's 4,096 bits: an extended Hamming code whose matrix no rule states (R354). -/
opaque Config.frameCheck : Nat → Nat

/-- The syndrome that a set of flipped bits of a frame gives (R354, R373). -/
opaque Config.frameSynd : List Nat → Nat

/-- The single bit, 0 to 4,109, that the syndrome of a set of three or more flipped bits names (R373). -/
opaque Config.frameBit : List Nat → Nat

/-- The element format of a contribution that comes from another device, as R44's code 0, 1 or 2 (F32, BF16, F16), by the
words of its stot header: Table 10.3 carries the format of the reduced tile alone, and R174 lets the sender's OFMT differ
from it. -/
opaque Config.wireOfmt : Nat → Fin 3

/-- Does the DDR5 code miscorrect the line read as number `n` with two devices in error (at most 2^-60 of such patterns,
R210)? -/
opaque Config.ddrMiss : Nat → Bool

/-- What a flash area holds after programming it has failed twice (R387): its bytes are not stated. -/
opaque Config.flashFault : Nat → List (BitVec 8) → List (BitVec 8)

/-- The router, of a herd's eight, through whose port 5 a pool address is reached: through any (R308). -/
opaque Config.poolRouter : Nat → Nat

/-- The bank and row of an HBM pseudo-channel in which a byte offset lies, which no rule states (R194). -/
opaque Config.hbmRow : Nat → Nat × Nat

/-- Where adaptation has a lane's equaliser at a DT (R292): its CTLE peaking in 0.5 dB steps and its DFE taps 0 to 15 in
mV. -/
opaque Config.laneCtle : Nat → Nat → Fin 49
opaque Config.laneDfe : Nat → Nat → Nat → Int

/-- The coefficient that link training, or the PCIe exchange, number `n` of a lane gives transmitter tap 0 to 5 (R291). -/
opaque Config.laneFfe : Nat → Nat → Int

/-! ### What the logic frames of a region, or of a half of FS, set (R330 to R346, R354). No rule says which bits of a frame
set what, so each setting is an opaque function of the logic frames, given as (FADDR, bits). -/

/-- Where the flip-flop of a cell takes D from (R330). -/
inductive DSource where
  | lut
  | splice
  | carry
  | i3
deriving DecidableEq, Repr, Inhabited

/-- The carry input of a cell (R333): the chain, or what begins one. -/
inductive CarryIn where
  | chain
  | zero
  | one
  | routed
deriving DecidableEq, Repr, Inhabited

/-- A cell (R330, R333): its look-up table by the number I3 I2 I1 I0, carry mode with its carry input, the D source, and
the flip-flop's reset value and initial value. -/
structure CellCfg where
  lut : BitVec 16
  carry : Bool
  ci : CarryIn
  d : DSource
  rval : Bool
  init : Bool
deriving DecidableEq, Repr, Inhabited

/-- A cluster (R330, R331): its clock of the region's four, and whether its reset net is asynchronous. -/
structure ClusterCfg where
  clock : Fin 4
  async : Bool
deriving DecidableEq, Repr, Inhabited

/-- What a write of a block-RAM port reads on the same cycle (R336). -/
inductive RamMode where
  | writeFirst
  | readFirst
  | noChange
deriving DecidableEq, Repr, Inhabited

/-- A port of a block RAM (R336): its clock, its width 2^wlog, its output register, its mode, and ECC (R338). -/
structure RamPortCfg where
  clock : Fin 4
  wlog : Fin 7
  outReg : Bool
  mode : RamMode
  ecc : Bool
deriving DecidableEq, Repr, Inhabited

/-- What routing may carry (R330, R331, R334, R335, R336, R346): the outputs of cells, splices and block RAMs (their data, then
the flags of a corrected and of an uncorrectable word), the inbound boundary signals, the signals from the other half of
FS, the DT bus, and the signals of the hard ports or the configuration bus. -/
inductive Wire where
  | const (v : Bool)
  | lut (cluster cell : Nat)
  | ff (cluster cell : Nat)
  | splice (cluster i : Nat)
  | inb (i : Nat)
  | cross (i : Nat)
  | ram (b : Nat) (port : Fin 2) (i : Nat)
  | dt (i : Nat)
  | hard (i : Nat)
deriving DecidableEq, Repr, Inhabited

/-- What routing feeds: cell inputs I0 to I3, the select inputs S1_0 to S1_3, S2_0, S2_1 and S3 as 0 to 6, a cluster's clock
enable, reset net and routed carry input, the outbound boundary signals, the signals to the other half of FS, and the
inputs of block-RAM ports. -/
inductive Pin where
  | cell (cluster cell i : Nat)
  | sel (cluster i : Nat)
  | ce (cluster : Nat)
  | rst (cluster : Nat)
  | ci (cluster : Nat)
  | out (i : Nat)
  | cross (i : Nat)
  | addr (b : Nat) (port : Fin 2) (i : Nat)
  | din (b : Nat) (port : Fin 2) (i : Nat)
  | we (b : Nat) (port : Fin 2)
  | be (b : Nat) (port : Fin 2) (i : Nat)
deriving DecidableEq, Repr, Inhabited

/-- The settings of a cell, of a cluster and of a block-RAM port, and the net that routing gives a pin. -/
opaque Config.fabCell : List (Nat × Nat) → Nat → Nat → CellCfg
opaque Config.fabCluster : List (Nat × Nat) → Nat → ClusterCfg
opaque Config.fabRam : List (Nat × Nat) → Nat → Fin 2 → RamPortCfg
opaque Config.fabRoute : List (Nat × Nat) → Pin → Wire

/-- The clock synthesiser's frequency beyond 400 MHz in steps of 1.6 MHz, up to 1,600 MHz, and the divider of each of the
four clocks, 0 (off) to 64 (R344). -/
opaque Config.fabSynth : List (Nat × Nat) → Fin 751 × (Fin 4 → Fin 65)

/-- What the check bits of a block-RAM word make of three or more flipped bits of its 72 (R338): nothing, the word that a
correction gives, or an error that they cannot correct; their code is not stated. -/
opaque Config.ramJudge : Nat → Option (Option Nat)

end Sys2Proof
end

