-- ==== Sys2Proof/Machine/Tab.lean ====
section
/-! DEFINITION. Sparse tables: plain data keyed by a number, in one canonical form. Every numbered
collection of the P1 (R13) is such a table: engines, contexts, queues, registers by offset. -/

namespace Sys2Proof.Machine

/-- A sparse table. Keys rise strictly and no entry holds the default, so equal tables are equal
data. -/
abbrev Tab (α : Type) := List (Nat × α)

/-- What table `t` holds at `k`; `d` is what an unlisted key holds. -/
def tget {α : Type} (d : α) : Tab α → Nat → α
  | [], _ => d
  | (j, v) :: t, k => if j = k then v else tget d t k

/-- Puts a value at a key without looking whether it is the default. -/
def tput {α : Type} (k : Nat) (v : α) : Tab α → Tab α
  | [] => [(k, v)]
  | (j, w) :: t =>
    if k < j then (k, v) :: (j, w) :: t
    else if k = j then (k, v) :: t
    else (j, w) :: tput k v t

/-- Takes a key out of a table. -/
def tdel {α : Type} (k : Nat) : Tab α → Tab α
  | [] => []
  | (j, w) :: t => if k = j then tdel k t else (j, w) :: tdel k t

/-- Sets a key, keeping the canonical form: the default is stored by taking the key out. -/
def tset {α : Type} [DecidableEq α] (d : α) (t : Tab α) (k : Nat) (v : α) : Tab α :=
  if v = d then tdel k t else tput k v t

/-- Changes what a key holds. -/
def tupd {α : Type} [DecidableEq α] (d : α) (t : Tab α) (k : Nat) (f : α → α) : Tab α :=
  tset d t k (f (tget d t k))

/-- The canonical form, from a lower bound on the keys. -/
def twfFrom {α : Type} [DecidableEq α] (d : α) (lo : Nat) : Tab α → Bool
  | [] => true
  | (j, w) :: t => decide (lo ≤ j) && decide (w ≠ d) && twfFrom d (j + 1) t

/-- The canonical form of a table: keys strictly rising, no entry equal to the default. -/
def twf {α : Type} [DecidableEq α] (d : α) (t : Tab α) : Bool := twfFrom d 0 t

/-- The option tables: an unlisted key holds nothing. -/
def oget {α : Type} (t : Tab α) (k : Nat) : Option α :=
  match t with
  | [] => none
  | (j, v) :: t => if j = k then some v else oget t k

/-- Sets or removes a key of an option table. -/
def oset {α : Type} (t : Tab α) (k : Nat) (v : Option α) : Tab α :=
  match v with
  | some v => tput k v t
  | none => tdel k t

end Sys2Proof.Machine
end

