-- ==== Sys2Proof/Machine/Num.lean ====
section
/-! DEFINITION. Exact numbers and the one rounding (R30, R38, R39). A number is held exactly, as an
integer times a power of two, and rounded once. -/

namespace Sys2Proof.Machine

/-- Bits [lo + n - 1 : lo] of a number (R7). -/
def bitsOf (w lo n : Nat) : Nat := (w >>> lo) % 2 ^ n

/-- Two's complement reading of the low `n` bits. -/
def sextNat (n w : Nat) : Int :=
  let v := w % 2 ^ n
  if v < 2 ^ (n - 1) then (v : Int) else (v : Int) - (2 ^ n : Nat)

/-- The low `n` bits of an integer, as a number. -/
def wrapInt (n : Nat) (v : Int) : Nat := (v % ((2 ^ n : Nat) : Int)).toNat

/-- An exact value: NaN, an infinity, or plus or minus `m * 2^e` (a zero keeps its sign). -/
inductive Val where
  | nan
  | inf (neg : Bool)
  | fin (neg : Bool) (m : Nat) (e : Int)
deriving DecidableEq, Repr

/-- Positive zero. -/
def Val.zero : Val := .fin false 0 0

/-- The exact value of an integer. -/
def Val.ofInt (v : Int) : Val := .fin (decide (v < 0)) v.natAbs 0

/-- Multiplies by a power of two, exactly. -/
def Val.scale (v : Val) (k : Int) : Val :=
  match v with
  | .fin s m e => .fin s m (e + k)
  | w => w

def Val.neg (v : Val) : Val :=
  match v with
  | .fin s m e => .fin (!s) m e
  | .inf s => .inf (!s)
  | .nan => .nan

def Val.isNaN : Val → Bool
  | .nan => true
  | _ => false

def Val.isInf : Val → Bool
  | .inf _ => true
  | _ => false

def Val.isZero : Val → Bool
  | .fin _ m _ => m == 0
  | _ => false

/-- The signed integer that `fin s m _` holds at exponent `q`, where `q` is no larger than its own. -/
def intAt (s : Bool) (m : Nat) (e q : Int) : Int :=
  let v : Int := ((m <<< (e - q).toNat : Nat) : Int)
  if s then -v else v

/-- Exact sum of two values. Infinities of opposite sign give NaN. The sum of two zeros is negative
only where both are; any other exact zero sum is positive (IEEE 754, round to nearest). -/
def Val.add (a b : Val) : Val :=
  match a, b with
  | .nan, _ => .nan
  | _, .nan => .nan
  | .inf s, .inf t => if s = t then .inf s else .nan
  | .inf s, _ => .inf s
  | _, .inf t => .inf t
  | .fin s m e, .fin t n f =>
    let q := min e f
    let v := intAt s m e q + intAt t n f q
    if v = 0 then .fin (s && t && (m == 0) && (n == 0)) 0 0
    else .fin (decide (v < 0)) v.natAbs q

/-- Exact product of two values. Zero times infinity is NaN. -/
def Val.mul (a b : Val) : Val :=
  match a, b with
  | .nan, _ => .nan
  | _, .nan => .nan
  | .inf s, .inf t => .inf (s != t)
  | .inf s, .fin t n _ => if n = 0 then .nan else .inf (s != t)
  | .fin s m _, .inf t => if m = 0 then .nan else .inf (s != t)
  | .fin s m e, .fin t n f => .fin (s != t) (m * n) (e + f)

/-- Ordering of exact values that are not NaN: does `a` lie strictly below `b`? Zeros are equal. -/
def Val.lt (a b : Val) : Bool :=
  match a, b with
  | .nan, _ => false
  | _, .nan => false
  | .inf s, .inf t => s && !t
  | .inf s, .fin _ _ _ => s
  | .fin _ _ _, .inf t => !t
  | .fin s m e, .fin t n f =>
    let q := min e f
    decide (intAt s m e q < intAt t n f q)

/-- Equality of exact values; NaN equals nothing and zeros are equal. -/
def Val.eqv (a b : Val) : Bool :=
  match a, b with
  | .inf s, .inf t => s == t
  | .fin s m e, .fin t n f =>
    let q := min e f
    decide (intAt s m e q = intAt t n f q)
  | _, _ => false

/-- The exponent of the leading one of `m * 2^e` (m not 0). -/
def msbExp (m : Nat) (e : Int) : Int := (m.log2 : Int) + e

/-- Rounds `m * 2^e` to a whole number of units `2^q` by rounding mode `mode` with draw `r`
(Table 2.5; a reserved mode acts as RNE, R44). -/
def roundUnits (mode r m : Nat) (e q : Int) : Nat :=
  if q ≤ e then m <<< (e - q).toNat
  else
    let sh := (q - e).toNat
    let t := m >>> sh
    let rem := m - (t <<< sh)
    if mode = 1 then t
    else if mode = 2 then
      if 2 ^ 24 ≤ ((rem <<< 24) >>> sh) + r then t + 1 else t
    else
      let half := 1 <<< sh
      if 2 * rem < half then t
      else if half < 2 * rem then t + 1
      else if t % 2 = 0 then t else t + 1

/-- The magnitude code of `m * 2^e` in a floating layout with `mb` mantissa bits and the given bias,
rounded by `mode`, as though the exponent field were unbounded (R41). Subnormals are honoured. -/
def encodeMag (mb bias : Nat) (mode r m : Nat) (e : Int) : Nat :=
  if m = 0 then 0
  else
    let q := max (msbExp m e) (1 - (bias : Int)) - (mb : Int)
    let n := roundUnits mode r m e q
    ((q + (mb : Int) + (bias : Int) - 1).toNat <<< mb) + n

/-- The exact value of a floating code of `eb` exponent bits, `mb` mantissa bits and a bias, special
codes aside (R30). -/
def decodeFin (eb mb bias : Nat) (w : Nat) : Val :=
  let s := bitsOf w (eb + mb) 1 = 1
  let e := bitsOf w mb eb
  let m := bitsOf w 0 mb
  if e = 0 then .fin (decide s) m (1 - (bias : Int) - mb)
  else .fin (decide s) (m + 2 ^ mb) ((e : Int) - bias - mb)

/-- The value of an IEEE code: as `decodeFin`, with infinities and NaNs at the top exponent. -/
def decodeIeee (eb mb bias : Nat) (w : Nat) : Val :=
  if bitsOf w mb eb = 2 ^ eb - 1 then
    if bitsOf w 0 mb = 0 then .inf (decide (bitsOf w (eb + mb) 1 = 1)) else .nan
  else decodeFin eb mb bias w

def decodeF32 (w : Nat) : Val := decodeIeee 8 23 127 w
def decodeBF16 (w : Nat) : Val := decodeIeee 8 7 127 w
def decodeF16 (w : Nat) : Val := decodeIeee 5 10 15 w

/-- The canonical F32 NaN (Table 2.4). -/
def nanF32 : Nat := 0x7FC00000

/-- Rounds an exact value to F32, round to nearest even, as IEEE 754 does: overflow gives infinity
and a NaN is the canonical one. -/
def rneF32 (v : Val) : Nat :=
  match v with
  | .nan => nanF32
  | .inf s => if s then 0xFF800000 else 0x7F800000
  | .fin s m e =>
    let c := encodeMag 23 127 0 0 m e
    (if s then 0x80000000 else 0) + (if 0x7F7FFFFF < c then 0x7F800000 else c)

/-- Is an F32 code a NaN? -/
def isNaNF32 (w : Nat) : Bool := decide (bitsOf w 23 8 = 255) && decide (bitsOf w 0 23 ≠ 0)

/-- F32 addition, one rounding. -/
def addF32 (a b : Nat) : Nat := rneF32 ((decodeF32 a).add (decodeF32 b))
/-- F32 multiplication, one rounding. -/
def mulF32 (a b : Nat) : Nat := rneF32 ((decodeF32 a).mul (decodeF32 b))
/-- F32 fused multiply-add, one rounding. -/
def fmaF32 (a b c : Nat) : Nat := rneF32 (((decodeF32 a).mul (decodeF32 b)).add (decodeF32 c))

/-- The exact value of an F32 code is subnormal and not zero. -/
def subnormalF32 (w : Nat) : Bool := bitsOf w 23 8 == 0 && bitsOf w 0 23 != 0

end Sys2Proof.Machine
end

