-- ==== Sys2Proof/Machine/Formats.lean ====
section
/-! DEFINITION. The number formats and every conversion between them (chapter 02, R29 to R55). -/

namespace Sys2Proof.Machine

/-- The element kinds of the formats of Table 2.1: the four floating layouts, the integers, and the
three OCP encodings. -/
inductive Elem where
  | f32 | bf16 | f16 | e4m3 | int8 | e2m1 | mx4 | mx8 | mxi8
deriving DecidableEq, Repr

/-- The formats of Table 2.1, by their 4-bit codes 0x0 to 0xA. -/
inductive Fmt where
  | f32 | bf16 | f16 | f8 | int8 | fb8 | fb4 | ib8 | mxfp4 | mxfp8 | mxint8
deriving DecidableEq, Repr

/-- The format of a format code; codes 0xB to 0xF are reserved (R29). -/
def Fmt.ofCode : Nat → Option Fmt
  | 0 => some .f32 | 1 => some .bf16 | 2 => some .f16 | 3 => some .f8 | 4 => some .int8
  | 5 => some .fb8 | 6 => some .fb4 | 7 => some .ib8 | 8 => some .mxfp4 | 9 => some .mxfp8
  | 10 => some .mxint8 | _ => none

def Fmt.elem : Fmt → Elem
  | .f32 => .f32 | .bf16 => .bf16 | .f16 => .f16 | .f8 => .e4m3 | .int8 => .int8
  | .fb8 => .e4m3 | .fb4 => .e2m1 | .ib8 => .int8
  | .mxfp4 => .mx4 | .mxfp8 => .mx8 | .mxint8 => .mxi8

/-- Bits of one element in storage (Table 2.1). -/
def Fmt.bits : Fmt → Nat
  | .f32 => 32 | .bf16 => 16 | .f16 => 16 | .fb4 => 4 | .mxfp4 => 4
  | .f8 => 8 | .int8 => 8 | .fb8 => 8 | .ib8 => 8 | .mxfp8 => 8 | .mxint8 => 8

def Fmt.isOcp : Fmt → Bool
  | .mxfp4 => true | .mxfp8 => true | .mxint8 => true | _ => false

/-- FB8, FB4 and IB8 carry a block scale. -/
def Fmt.isBlock : Fmt → Bool
  | .fb8 => true | .fb4 => true | .ib8 => true | _ => false

/-- Formats with a scale plane. -/
def Fmt.scaled (f : Fmt) : Bool := f.isBlock || f.isOcp

/-- INT8 and IB8 (the integer formats of a matrix pass). -/
def Fmt.isInt : Fmt → Bool
  | .int8 => true | .ib8 => true | _ => false

/-- The P1 block format that an OCP format maps to (Table 2.10). -/
def Fmt.pair : Fmt → Fmt
  | .mxfp4 => .fb4 | .mxfp8 => .fb8 | .mxint8 => .ib8 | f => f

/-- The exact value of an element code (R30, R31, R32; the OCP meanings of Table 2.10). -/
def Elem.decode (t : Elem) (w : Nat) : Val :=
  match t with
  | .f32 => decodeF32 w
  | .bf16 => decodeBF16 w
  | .f16 => decodeF16 w
  | .e4m3 => if w % 256 = 0x80 then .nan else decodeFin 4 3 7 w
  | .int8 => .ofInt (sextNat 8 w)
  | .e2m1 => if w % 16 = 8 then .nan else decodeFin 2 1 1 w
  | .mx4 => decodeFin 2 1 1 w
  | .mx8 => if w % 128 = 0x7F then .nan else decodeFin 4 3 7 w
  | .mxi8 => (Val.ofInt (sextNat 8 w)).scale (-6)

/-- The factor of a block scale byte: none for the NaN scale 0xFF (R35). -/
def scaleExp (e : Nat) : Option Int := if e = 0xFF then none else some ((e : Int) - 127)

/-- The value of an element under a scale byte (R35). -/
def Elem.scaled (t : Elem) (e w : Nat) : Val :=
  match scaleExp e with
  | none => .nan
  | some k => (t.decode w).scale k

/-- The conversion control byte CVTC (Table 2.9), after R44 has made the unavailable choices what the
vector tile makes of them. -/
structure Cvtc where
  blk32 : Bool
  fit : Bool
  round : Nat
  mode : Nat
deriving DecidableEq, Repr

def Cvtc.ofByte (b : Nat) : Cvtc :=
  { blk32 := bitsOf b 5 1 == 1, fit := bitsOf b 4 1 == 1, round := bitsOf b 2 2, mode := bitsOf b 0 2 }

/-- The block size that CVTC names. -/
def Cvtc.block (c : Cvtc) : Nat := if c.blk32 then 32 else 16

/-- Does the target have an infinity (Table 2.4)? -/
def Fmt.hasInf : Fmt → Bool
  | .f32 => true | .bf16 => true | .f16 => true | _ => false

/-- R44: is CVTC byte `b` refused for target `t`? The source block bit is the command's own. -/
def cvtcInvalid (t : Fmt) (b : Nat) : Bool :=
  let c := Cvtc.ofByte b
  (c.mode == 3 && !t.hasInf) || (c.mode == 2 && t == .int8) || c.round == 3 ||
    bitsOf b 6 2 != 0 || (t.isOcp && !c.blk32)

/-- R44, last paragraph: what the vector tile makes of a control it cannot check at issue. -/
def Cvtc.runtime (t : Fmt) (b : Nat) : Cvtc :=
  let c := Cvtc.ofByte b
  { c with
    round := if c.round = 3 then 0 else c.round
    mode := if (c.mode == 3 && !t.hasInf) || (c.mode == 2 && t == .int8) then 1 else c.mode }

/-- What one element conversion gives: its code and the two flags of R45. -/
structure Cvt where
  code : Nat
  sat : Bool := false
  inv : Bool := false
deriving DecidableEq, Repr

/-- A floating target of Table 2.2: exponent field width, mantissa width, bias, the largest finite
magnitude code, and the NaN it writes. -/
structure FloatLay where
  eb : Nat
  mb : Nat
  bias : Nat
  maxCode : Nat
  nan : Nat
  ieee : Bool
deriving DecidableEq, Repr

def Elem.lay : Elem → FloatLay
  | .f32 => { eb := 8, mb := 23, bias := 127, maxCode := 0x7F7FFFFF, nan := nanF32, ieee := true }
  | .bf16 => { eb := 8, mb := 7, bias := 127, maxCode := 0x7F7F, nan := 0x7FC0, ieee := true }
  | .f16 => { eb := 5, mb := 10, bias := 15, maxCode := 0x7BFF, nan := 0x7E00, ieee := true }
  | .e2m1 => { eb := 2, mb := 1, bias := 1, maxCode := 7, nan := 8, ieee := false }
  | .mx4 => { eb := 2, mb := 1, bias := 1, maxCode := 7, nan := 8, ieee := false }
  | .mx8 => { eb := 4, mb := 3, bias := 7, maxCode := 0x7E, nan := 0x7F, ieee := false }
  | _ => { eb := 4, mb := 3, bias := 7, maxCode := 0x7F, nan := 0x80, ieee := false }

/-- What a floating target holds when a value overflows (Tables 2.6 and 2.7). `exact` says that the
input was an infinity. -/
def FloatLay.overflow (l : FloatLay) (mode round : Nat) (neg exact : Bool) : Cvt :=
  let s := if neg then 2 ^ (l.eb + l.mb) else 0
  let inf := s + (2 ^ l.eb - 1) * 2 ^ l.mb
  if l.ieee then
    if mode = 1 then { code := s + l.maxCode, sat := true }
    else if mode = 2 then { code := l.nan, sat := true }
    else if exact then { code := inf }
    else if round = 1 then { code := s + l.maxCode, sat := true }
    else { code := inf, sat := true }
  else if mode = 2 then { code := l.nan, sat := true }
  else { code := s + l.maxCode, sat := true }

/-- Converts an exact value to a floating element (R38 to R43). -/
def cvtFloat (l : FloatLay) (round mode r : Nat) (v : Val) : Cvt :=
  match v with
  | .nan => { code := l.nan }
  | .inf s => l.overflow mode round s true
  | .fin s m e =>
    let c := encodeMag l.mb l.bias round r m e
    if l.maxCode < c then l.overflow mode round s false
    else if c = 0 ∧ ¬ l.ieee then { code := 0 }
    else { code := (if s then 2 ^ (l.eb + l.mb) else 0) + c }

/-- Converts an exact value to an 8-bit integer element: the limits are 127 and -128 (R41); a NaN
becomes 0 with the INV flag (R45). -/
def cvtInt8 (round r : Nat) (v : Val) : Cvt :=
  match v with
  | .nan => { code := 0, inv := true }
  | .inf s => { code := if s then 0x80 else 0x7F, sat := true }
  | .fin s m e =>
    let n := roundUnits round r m e 0
    if s then (if 128 < n then { code := 0x80, sat := true } else { code := wrapInt 8 (-(n : Int)) })
    else if 127 < n then { code := 0x7F, sat := true } else { code := n }

/-- Converts one exact value to one element (Table 2.7). -/
def cvtElem (t : Elem) (round mode r : Nat) (v : Val) : Cvt :=
  match t with
  | .int8 => cvtInt8 round r v
  | .mxi8 => cvtInt8 round r (v.scale 6)
  | _ => cvtFloat t.lay round mode r v

/-- Converts an F32 code to a plain format with RNE and AUTO. -/
def cvtAuto (t : Elem) (v : Val) : Nat := (cvtElem t 0 0 0 v).code

/-! ### Blocks -/

/-- A converted run of elements: one scale byte (127 for an unblocked target, where it is not stored),
the codes, and the flags. -/
structure CvtBlock where
  scale : Nat
  codes : List Nat
  sat : Bool := false
  inv : Bool := false
deriving DecidableEq, Repr

/-- Draws for a run of elements: none but under SR (R40); a missing draw counts as 0. -/
def drawAt (draws : List Nat) (i : Nat) : Nat := draws.getD i 0

/-- Converts each value of a run, element i taking draw i. -/
def cvtRun (t : Elem) (c : Cvtc) (draws : List Nat) (k : Int) : Nat → List Val → List Cvt
  | _, [] => []
  | i, v :: vs => cvtElem t c.round c.mode (drawAt draws i) (v.scale k) :: cvtRun t c draws k (i + 1) vs

/-- The larger of two finite magnitudes, each `m * 2^e`. -/
def maxMag (a b : Nat × Int) : Nat × Int :=
  if (Val.fin false a.1 a.2).lt (.fin false b.1 b.2) then b else a

/-- The largest finite magnitude of a block (0 where none is finite). -/
def amaxOf : List Val → Nat × Int
  | [] => (0, 0)
  | .fin _ m e :: vs => maxMag (m, e) (amaxOf vs)
  | _ :: vs => amaxOf vs

/-- The scale byte that R48 chooses for a block. -/
def blockScale (t : Fmt) (fit : Bool) (vs : List Val) : Nat :=
  let emax : Int := match t with | .fb4 => 2 | .fb8 => 8 | _ => 6
  let maxel : Nat := match t with | .fb4 => 6 | .fb8 => 480 | _ => 127
  let a := amaxOf vs
  if a.1 = 0 then 127
  else
    let sc := msbExp a.1 a.2 - emax + 127
    let big := (Val.fin false maxel 0).lt (.fin false a.1 (a.2 + 127 - sc))
    let sc := if fit && big then sc + 1 else sc
    (min (max sc 0) 254).toNat

/-- The block conversion procedure of R48 into FB4, FB8 or IB8. -/
def cvtBlock (t : Fmt) (c : Cvtc) (draws : List Nat) (vs : List Val) : CvtBlock :=
  if t = .ib8 ∧ vs.any Val.isNaN then { scale := 0xFF, codes := vs.map (fun _ => 0) }
  else
    let sc := blockScale t c.fit vs
    let out := cvtRun t.elem c draws (127 - (sc : Int)) 0 vs
    let sat := out.any Cvt.sat
    if t = .ib8 ∧ c.mode = 2 ∧ sat then { scale := 0xFF, codes := vs.map (fun _ => 0), sat := true }
    else { scale := sc, codes := out.map Cvt.code, sat := sat, inv := out.any Cvt.inv }

/-- A run of source elements of one block: its scale byte and codes. -/
structure SrcBlock where
  scale : Nat
  codes : List Nat
deriving DecidableEq, Repr

/-- The exact values of a source block. -/
def SrcBlock.vals (t : Elem) (b : SrcBlock) : List Val := b.codes.map (t.scaled b.scale)

/-- Element codes of an export whose block keeps its scale: each is the P1 element in the OCP element type (Table 2.10). -/
def exportRun (t : Fmt) (c : Cvtc) (draws : List Nat) (codes : List Nat) : List Cvt :=
  if t = .mxint8 then codes.map (fun w => { code := w }) else cvtRun t.elem c draws 0 0 (codes.map t.pair.elem.decode)

/-- Exports P1 blocks that together make 32 elements to an OCP block of the paired format (R51 to
R53): the scale is the larger one, each element is rounded once. A block of 32 under scale 0xFF keeps its codes as
Table 2.10 maps them; the codes of a merged block that is NaN are zero (DESIGN CHOICE, log 73: R52 gives none). -/
def cvtExport (t : Fmt) (c : Cvtc) (draws : List Nat) (src : List SrcBlock) : CvtBlock :=
  let codes := src.flatMap SrcBlock.codes
  let p := t.pair.elem
  let zeros : List Nat := List.replicate codes.length 0
  let nanElem := t = .mxfp4 ∧ (codes.map (fun w => w % 16)).any (· == 8)
  if nanElem then { scale := 0xFF, codes := zeros }
  else if src.any (fun b => b.scale == 0xFF) then
    if src.length = 1 then
      let out := exportRun t c draws codes
      { scale := 0xFF, codes := out.map Cvt.code, sat := out.any Cvt.sat }
    else { scale := 0xFF, codes := zeros }
  else
    let sc : Nat := src.foldl (fun (m : Nat) b => max m b.scale) 0
    let vals := src.flatMap (fun b => b.codes.map (fun w => (p.decode w).scale ((b.scale : Int) - (sc : Int))))
    if t = .mxint8 then
      let up : Int := ((sc - 248 : Nat) : Int)
      let out := cvtRun .int8 c draws up 0 vals
      let sat := out.any Cvt.sat
      if c.mode = 2 ∧ sat then { scale := 0xFF, codes := zeros, sat := true }
      else { scale := if 248 < sc then 254 else sc + 6, codes := out.map Cvt.code, sat := sat }
    else
      let out := cvtRun t.elem c draws 0 0 vals
      { scale := sc, codes := out.map Cvt.code, sat := out.any Cvt.sat }

/-- Imports one OCP run to the paired P1 format under the OCP scale (R51, R53). Codes beside the scale 0xFF pass unchanged
where Table 2.10 does not list them. -/
def cvtImport (s : Fmt) (c : Cvtc) (draws : List Nat) (b : SrcBlock) : CvtBlock :=
  if s = .mxint8 then
    if b.scale = 0xFF then { scale := 0xFF, codes := b.codes }
    else if 6 ≤ b.scale then { scale := b.scale - 6, codes := b.codes }
    else
      let vals := b.codes.map (fun w => (Elem.int8.decode w).scale ((b.scale : Int) - 6))
      { scale := 0, codes := (cvtRun .int8 c draws 0 0 vals).map Cvt.code }
  else if s = .mxfp4 then { scale := b.scale, codes := b.codes.map (fun w => if w % 16 = 8 then 0 else w) }
  else { scale := b.scale,
         codes := b.codes.map (fun w => if w % 256 = 0x80 then 0 else if w % 128 = 0x7F then 0x80 else w) }

/-- A conversion from anything but the paired P1 format into an OCP format: the block procedure into
the paired format's scale, with the OCP element as its target (R48, R50, R51). MXFP4 has no element NaN, so that a block
with a NaN, or with an overflow under CVT_MODE NAN, becomes NaN as a whole (Table 2.10). -/
def cvtToOcp (t : Fmt) (c : Cvtc) (draws : List Nat) (vs : List Val) : CvtBlock :=
  let zeros : List Nat := vs.map (fun _ => 0)
  if (t = .mxint8 ∨ t = .mxfp4) ∧ vs.any Val.isNaN then { scale := 0xFF, codes := zeros }
  else
    let sc := blockScale t.pair c.fit vs
    if t = .mxint8 then
      let sc' := min (sc + 6) 254
      let out := cvtRun .int8 c draws (133 - (sc' : Int)) 0 vs
      let sat := out.any Cvt.sat
      if c.mode = 2 ∧ sat then { scale := 0xFF, codes := zeros, sat := true }
      else { scale := sc', codes := out.map Cvt.code, sat := sat }
    else
      let out := cvtRun t.elem c draws (127 - (sc : Int)) 0 vs
      let sat := out.any Cvt.sat
      if t = .mxfp4 ∧ c.mode = 2 ∧ sat then { scale := 0xFF, codes := zeros, sat := true }
      else { scale := sc, codes := out.map Cvt.code, sat := sat }

/-- Cuts a list into chunks of `n`. -/
def chunks {α : Type} (n : Nat) : Nat → List α → List (List α)
  | 0, _ => []
  | _, [] => []
  | fuel + 1, x :: xs => (x :: xs).take n :: chunks n fuel ((x :: xs).drop n)

/-- Converts a run block by block, cutting its draws with it. -/
def cvtBlocks (f : List Nat → List Val → CvtBlock) (n : Nat) : Nat → List Nat → List Val → List CvtBlock
  | 0, _, _ => []
  | _, _, [] => []
  | fuel + 1, ds, v :: vs => f (ds.take n) ((v :: vs).take n) ::
      cvtBlocks f n fuel (ds.drop n) ((v :: vs).drop n)

/-- Splits source blocks of 32 into halves of 16 (R52). -/
def splitHalves (n : Nat) (src : List SrcBlock) : List SrcBlock :=
  src.flatMap (fun b => (chunks n (b.codes.length + 1) b.codes).map (fun cs => { scale := b.scale, codes := cs }))

def cvtImports (s : Fmt) (c : Cvtc) : List Nat → List SrcBlock → List CvtBlock
  | _, [] => []
  | ds, b :: bs => cvtImport s c ds b :: cvtImports s c (ds.drop b.codes.length) bs

def cvtExports (t : Fmt) (c : Cvtc) : Nat → List Nat → List SrcBlock → List CvtBlock
  | 0, _, _ => []
  | _, _, [] => []
  | fuel + 1, ds, b :: bs =>
    if b.codes.length < 32 then
      match bs with
      | b2 :: rest => cvtExport t c (ds.take 32) [b, b2] :: cvtExports t c fuel (ds.drop 32) rest
      | [] => [cvtExport t c (ds.take 32) [b]]
    else cvtExport t c (ds.take 32) [b] :: cvtExports t c fuel (ds.drop 32) bs

/-- Converts a run of elements from `s` to `t`; its length is a multiple of both block sizes. The result
has one block per target block, or one block with scale 127 for an unscaled target. `sblk` is the source's block size (0 for an unscaled
source); `draws` holds one draw per element under SR. An identity conversion copies every bit (R33). -/
def convertRun (s t : Fmt) (sblk : Nat) (c : Cvtc) (draws : List Nat) (src : List SrcBlock) :
    List CvtBlock :=
  let n := (src.flatMap SrcBlock.codes).length
  let vals := src.flatMap (SrcBlock.vals s.elem)
  if s = t ∧ (¬ t.scaled ∨ sblk = c.block) then src.map (fun b => { scale := b.scale, codes := b.codes })
  else if t.isOcp then
    if s = t.pair then cvtExports t c (n + 1) draws src
    else cvtBlocks (cvtToOcp t c) 32 (n + 1) draws vals
  else if t.isBlock then
    if s.isOcp ∧ s.pair = t then cvtImports s c draws (splitHalves c.block src)
    else cvtBlocks (cvtBlock t c) c.block (n + 1) draws vals
  else
    let out := cvtRun t.elem c draws 0 0 vals
    [{ scale := 127, codes := out.map Cvt.code, sat := out.any Cvt.sat, inv := out.any Cvt.inv }]

end Sys2Proof.Machine
end

