-- ==== Sys2Proof/Machine/Special.lean ====
section
/-! DEFINITION. The special functions of R109 and the generators of R111. Each function is evaluated in
fixed point with `fixP` fraction bits, far beyond what decides one rounding to F32, and the last bit is
made odd so that an inexact value is never mistaken for an exact one. -/

namespace Sys2Proof.Machine

/-! ### Generators (R111) -/

/-- The feedback taps of R111. -/
def lfsrTap : Nat := 0xD800000000000000

/-- `n` steps of the generator: the bits shifted out, first bit most significant, and the new state. -/
def lfsrSteps : Nat → Nat → Nat → Nat × Nat
  | 0, r, s => (r, s)
  | n + 1, r, s =>
    let b := s % 2
    let t := s >>> 1
    lfsrSteps n (2 * r + b) (if b = 1 then t ^^^ lfsrTap else t)

/-- One 24-bit draw: the draw and the state it leaves. -/
def draw (s : Nat) : Nat × Nat := lfsrSteps 24 0 s

/-- `n` draws in order, and the state they leave. -/
def drawsFrom : Nat → Nat → List Nat × Nat
  | 0, s => ([], s)
  | n + 1, s =>
    let d := draw s
    let rest := drawsFrom n d.2
    (d.1 :: rest.1, rest.2)

/-- A generator state as it is stored: a write of zero stores 1 (R111). -/
def seedState (s : Nat) : Nat := if s % 2 ^ 64 = 0 then 1 else s % 2 ^ 64

/-- SRV's seed constant (R112). -/
def srvXor : Nat := 0x9E3779B97F4A7C15

/-! ### Fixed point -/

/-- Fraction bits of the evaluation. -/
def fixP : Nat := 448

/-- 1 in fixed point. -/
def fixOne : Int := (2 ^ fixP : Nat)

/-- Product in fixed point (rounded down). -/
def fixMul (a b : Int) : Int := (a * b) >>> fixP

/-- `m * 2^e` in fixed point (rounded down). -/
def toFix (s : Bool) (m : Nat) (e : Int) : Int :=
  let k := e + (fixP : Int)
  let v : Int := if 0 ≤ k then ((m <<< k.toNat : Nat) : Int) else ((m >>> (-k).toNat : Nat) : Int)
  if s then -v else v

/-- Sum of z^(2k+1)/(2k+1): the inverse hyperbolic tangent series. -/
def atanhTaylor (z2 : Int) : Nat → Nat → Int → Int → Int
  | 0, _, _, acc => acc
  | n + 1, k, p, acc => atanhTaylor z2 n (k + 2) (fixMul p z2) (acc + p / (k : Int))

/-- ln y for y in [1, 2], by 2 atanh((y - 1)/(y + 1)). -/
def lnFix (y : Int) : Int :=
  let z := ((y - fixOne) <<< fixP) / (y + fixOne)
  2 * atanhTaylor (fixMul z z) 150 1 z 0

/-- ln 2. -/
def ln2Fix : Int := lnFix (2 * fixOne)

/-- Sum of t^k/k! from a given term. -/
def expTaylor (t : Int) : Nat → Nat → Int → Int → Int
  | 0, _, _, acc => acc
  | n + 1, k, p, acc => expTaylor t n (k + 1) (fixMul p t / (k : Int)) (acc + p)

/-- e^t for t in [0, 1). -/
def expFix (t : Int) : Int := expTaylor t 110 1 fixOne 0

/-- e^y as a fixed-point number in [1, 2) and a power of two. -/
def expSplit (y : Int) : Int × Int :=
  let n := y / ln2Fix
  (expFix (y - n * ln2Fix), n)

/-- Alternating inverse tangent series of 1/d: sum of (-1)^k / ((2k+1) d^(2k+1)). -/
def atanInv (d : Int) : Nat → Nat → Int → Int → Int
  | 0, _, _, acc => acc
  | n + 1, k, p, acc => atanInv d n (k + 2) (-(p / (d * d))) (acc + p / (k : Int))

/-- π, by Machin's formula. -/
def piFix : Int :=
  4 * (4 * atanInv 5 110 1 (fixOne / 5) 0 - atanInv 239 40 1 (fixOne / 239) 0)

/-- Integer square root, bit by bit from the top. -/
def isqrtBits : Nat → Nat → Nat → Nat
  | 0, _, r => r
  | b + 1, n, r => let t := r + 2 ^ b; isqrtBits b n (if t * t ≤ n then t else r)

def isqrt (n : Nat) : Nat := isqrtBits (n.log2 / 2 + 1) n 0

/-- Square root in fixed point. -/
def fixSqrt (a : Int) : Int := (isqrt (a.toNat <<< fixP) : Nat)

/-- 1/(1 + e^(-y)) as an exact-looking magnitude and exponent, for any y of moderate size. -/
def sigmoidFix (y : Int) : Nat × Int :=
  let p := expSplit (-y)
  -- 1 / (1 + p.1 * 2^p.2)
  if 0 ≤ p.2 then
    let den := fixOne + p.1 <<< p.2.toNat
    let sh := fixP + fixP + p.2.toNat
    ((2 ^ sh / den.toNat : Nat), (fixP : Int) - (sh : Int))
  else
    let den := fixOne + p.1 >>> (-p.2).toNat
    ((2 ^ (fixP + fixP) / den.toNat : Nat), -(fixP : Int))

/-- An inexact magnitude, with its last bit made odd. -/
def sticky (s : Bool) (m : Nat) (e : Int) : Val := .fin s (2 * m + 1) (e - 1)

/-! ### The functions of Table 4.8 -/

/-- The seven functions. -/
inductive SpFn where
  | exp2 | log2 | rcp | rsqrt | silu | gelu | erf
deriving DecidableEq, Repr

/-- What a function gives: its code and the flags it raises. -/
structure SpRes where
  code : Nat
  inv : Bool := false
  ovf : Bool := false
deriving DecidableEq, Repr

/-- Rounds a finite result once; overflow to infinity raises OVF. -/
def spRound (v : Val) : SpRes :=
  let w := rneF32 v
  { code := w, ovf := bitsOf w 0 31 == 0x7F800000 && !v.isInf }

def spNaN : SpRes := { code := nanF32 }
def spInf (s : Bool) : SpRes := { code := if s then 0xFF800000 else 0x7F800000 }

/-- 2^x of a finite x = ± m 2^e. -/
def spExp2 (s : Bool) (m : Nat) (e : Int) : SpRes :=
  if m = 0 then { code := 0x3F800000 }
  else if 8 ≤ msbExp m e then
    if s then spRound (sticky false 0 (-400)) else { code := 0x7F800000, ovf := true }
  else if !s && 7 ≤ msbExp m e then { code := 0x7F800000, ovf := true }
  else
    let v := toFix s m e
    let n := v / fixOne
    let f := v - n * fixOne
    if 0 ≤ e ∨ (m % 2 ^ (-e).toNat = 0) then spRound (.fin false 1 n)
    else if f = 0 then
      -- |x| below the grid: 2^x is 1 plus or minus something tiny
      spRound (if s then sticky false (2 ^ 300 - 1) (-300) else sticky false (2 ^ 300) (-300))
    else spRound (sticky false (expFix (fixMul f ln2Fix)).toNat (n - (fixP : Int)))

/-- log2 of a positive finite x = m 2^e. -/
def spLog2 (m : Nat) (e : Int) : SpRes :=
  let k := m.log2
  let ex : Int := (k : Int) + e
  if m = 2 ^ k then spRound (.ofInt ex)
  else
    let y : Int := ((m <<< (fixP - k) : Nat) : Int)
    let l := (lnFix y <<< fixP) / ln2Fix + ex * fixOne
    spRound (sticky (decide (l < 0)) (if l < 0 then (-l).toNat - 1 else l.toNat) (-(fixP : Int)))

/-- 1/x of a finite nonzero x. -/
def spRcp (s : Bool) (m : Nat) (e : Int) : SpRes :=
  let q := 2 ^ 200 / m
  if 2 ^ 200 % m = 0 then spRound (.fin s q (-200 - e)) else spRound (sticky s q (-200 - e))

/-- 1/√x of a positive finite x. -/
def spRsqrt (m : Nat) (e : Int) : SpRes :=
  let m' := if e % 2 = 0 then m else 2 * m
  let e' := if e % 2 = 0 then e else e - 1
  let n := 2 ^ 400 / m'
  let q := isqrt n
  if 2 ^ 400 % m' = 0 ∧ q * q = n then spRound (.fin false q (-200 - e' / 2))
  else spRound (sticky false q (-200 - e' / 2))

/-- x σ(y), where y is about the size of x or larger: SiLU and GELU share it. -/
def spGate (s : Bool) (m : Nat) (e : Int) (y : Int) (big : Bool) : SpRes :=
  if m = 0 then { code := if s then 0x80000000 else 0 }
  else if big then
    if s then spRound (sticky true 0 (-400))
    else spRound (.fin false ((m <<< 300) - 1) (e - 300))
  else
    let g := sigmoidFix y
    spRound (sticky s (m * g.1) (e + g.2))

def spSilu (s : Bool) (m : Nat) (e : Int) : SpRes :=
  spGate s m e (toFix s m e) (m != 0 && decide (8 ≤ msbExp m e))

def spGelu (s : Bool) (m : Nat) (e : Int) : SpRes :=
  let big := m != 0 && decide (6 ≤ msbExp m e)
  let x := toFix s m e
  let x3 := toFix s (m * m * m) (3 * e)
  let c := fixSqrt ((8 * fixOne <<< fixP) / piFix)
  spGate s m e (fixMul c (x + x3 * 44715 / 1000000)) big

/-- Sum of (-1)^n x^(2n+1) / (n! (2n+1)). -/
def erfTaylor (x2 : Int) : Nat → Nat → Int → Int → Int
  | 0, _, _, acc => acc
  | f + 1, n, p, acc => erfTaylor x2 f (n + 1) (-(fixMul p x2 / ((n : Int) + 1))) (acc + p / (2 * (n : Int) + 1))

def spErf (s : Bool) (m : Nat) (e : Int) : SpRes :=
  if m = 0 then { code := if s then 0x80000000 else 0 }
  else if 2 ^ 300 * 5 ≤ toFix false m (e + 300 - (fixP : Int)) then
    spRound (sticky s (2 ^ 300 - 1) (-300))
  else
    let x := toFix false m e
    let t := erfTaylor (fixMul x x) 260 0 x 0
    let r := (2 * t <<< fixP) / fixSqrt piFix
    spRound (sticky s r.toNat (-(fixP : Int)))

/-- A special function of an F32 code (R109). With FTZ, subnormal inputs are flushed before it and subnormal
results after it, to +0; a zero keeps its sign (R97). -/
def special (fn : SpFn) (ftz : Bool) (w : Nat) : SpRes :=
  let w := if ftz && subnormalF32 w then 0 else w
  let r : SpRes :=
    match decodeF32 w with
    | .nan => spNaN
    | .inf s =>
      match fn with
      | .exp2 => if s then { code := 0 } else spInf false
      | .log2 => if s then { code := nanF32, inv := true } else spInf false
      | .rcp => { code := if s then 0x80000000 else 0 }
      | .rsqrt => if s then { code := nanF32, inv := true } else { code := 0 }
      | .silu => if s then { code := 0 } else spInf false
      | .gelu => if s then { code := 0 } else spInf false
      | .erf => { code := if s then 0xBF800000 else 0x3F800000 }
    | .fin s m e =>
      match fn with
      | .exp2 => spExp2 s m e
      | .log2 => if m = 0 then spInf true else if s then { code := nanF32, inv := true } else spLog2 m e
      | .rcp => if m = 0 then spInf s else spRcp s m e
      | .rsqrt => if m = 0 then spInf s else if s then { code := nanF32, inv := true } else spRsqrt m e
      | .silu => spSilu s m e
      | .gelu => spGelu s m e
      | .erf => spErf s m e
  if ftz && subnormalF32 r.code then { r with code := 0 } else r

end Sys2Proof.Machine
end

