-- ==== Sys2Proof/Machine/Flags.lean ====
section
/-! DEFINITION. The flag computations: what raises INV, OVF, SAT and NANALL in an F32 operation
(R97, R109), a conversion (R45), a row sum (R163) and a search (R107). -/

namespace Sys2Proof.Machine

/-- The sticky flags INV, OVF, SAT and NANALL. -/
structure Fl where
  inv : Bool := false
  ovf : Bool := false
  sat : Bool := false
  nanall : Bool := false
deriving DecidableEq, Repr

def Fl.or (a b : Fl) : Fl :=
  { inv := a.inv || b.inv, ovf := a.ovf || b.ovf, sat := a.sat || b.sat, nanall := a.nanall || b.nanall }

def Fl.union (l : List Fl) : Fl := l.foldl Fl.or {}

/-- The flags as VFLAGS reads them: NANALL, SAT, OVF, INV in bits 3 to 0 (Table 4.16). -/
def Fl.bits (f : Fl) : Nat :=
  (if f.inv then 1 else 0) + (if f.ovf then 2 else 0) + (if f.sat then 4 else 0) + (if f.nanall then 8 else 0)

/-- A result code with the flags its making raised. -/
structure FRes where
  code : Nat
  fl : Fl := {}
deriving DecidableEq, Repr

/-- Rounds the exact result of an F32 operation: a NaN that no operand held raises INV, overflow to
infinity raises OVF (R97). -/
def fRound (v : Val) (nanIn : Bool) : FRes :=
  let w := rneF32 v
  { code := w, fl := { inv := v.isNaN && !nanIn, ovf := !v.isNaN && !v.isInf && bitsOf w 0 31 == 0x7F800000 } }

def fAdd (a b : Nat) : FRes := fRound ((decodeF32 a).add (decodeF32 b)) (isNaNF32 a || isNaNF32 b)
def fSub (a b : Nat) : FRes := fRound ((decodeF32 a).add (decodeF32 b).neg) (isNaNF32 a || isNaNF32 b)
def fMul (a b : Nat) : FRes := fRound ((decodeF32 a).mul (decodeF32 b)) (isNaNF32 a || isNaNF32 b)

/-- An F32 value divided by a whole number, correctly rounded (Table 6.3). -/
def fDivNat (a n : Nat) : FRes :=
  match decodeF32 a with
  | .fin s m e =>
    if n = 0 then
      if m = 0 then { code := nanF32, fl := { inv := true } } else { code := if s then 0xFF800000 else 0x7F800000 }
    else
      let t := m <<< 64
      if t % n = 0 then fRound (.fin s (t / n) (e - 64)) false
      else fRound (sticky s (t / n) (e - 64)) false
  | v => fRound v true

/-- A special function with its flags (R109). -/
def fSpecial (fn : SpFn) (ftz : Bool) (a : Nat) : FRes :=
  let r := special fn ftz a
  { code := r.code, fl := { inv := r.inv, ovf := r.ovf } }

/-- Conversion of one exact value to an unblocked format (R45). -/
def fConvert (t : Fmt) (c : Cvtc) (r : Nat) (w : Nat) : FRes :=
  if t = .f32 then { code := w }
  else
    let x := cvtElem t.elem c.round c.mode r (decodeF32 w)
    { code := x.code, fl := { sat := x.sat, inv := x.inv } }

/-! ### Row sums (R163) -/

/-- One run of at most 16 terms added to a row sum. -/
def rowRun (acc : FRes) (g : List Val) : FRes :=
  if isNaNF32 acc.code then acc
  else
    let bad : FRes := { code := nanF32, fl := { acc.fl with inv := true } }
    if g.any Val.isNaN || (g.any (· == .inf false) && g.any (· == .inf true)) then bad
    else
      let v := if g.any (· == .inf false) then Val.inf false
        else if g.any (· == .inf true) then Val.inf true else truncSumRow g
      let t := (decodeF32 acc.code).add v
      if t.isNaN then bad
      else
        let r := fRound t false
        { code := r.code, fl := acc.fl.or r.fl }
where
  /-- Sum of terms, each truncated to a multiple of 2^(emax - 48). -/
  truncSumRow (vs : List Val) : Val :=
    let m := amaxOf vs
    if m.1 = 0 then Val.zero
    else
      let u := msbExp m.1 m.2 - 48
      let v := vs.foldl (fun (a : Int) w => match w with
        | .fin s n e => a + (if u ≤ e then intAt s n e u else intAt s (n >>> (u - e).toNat) u u)
        | _ => a) 0
      .fin (decide (v < 0)) v.natAbs u

/-- The row sum of R163. -/
def rowSum (xs : List Val) : FRes := (chunks 16 (xs.length + 1) xs).foldl rowRun { code := 0 }

/-! ### Searches (R107, R108) -/

/-- Lane comparison in F32 or as INT32. -/
def laneLt (int : Bool) (a b : Nat) : Bool :=
  if int then decide (sextNat 32 a < sextNat 32 b) else (decodeF32 a).lt (decodeF32 b)

def laneEq (int : Bool) (a b : Nat) : Bool :=
  if int then decide (a % 2 ^ 32 = b % 2 ^ 32) else (decodeF32 a).eqv (decodeF32 b)

/-- Does the value-index pair `a` win over `b` (R107)? A NaN loses to any value. -/
def pairWins (int mini : Bool) (a b : Nat × Nat) : Bool :=
  if !int && isNaNF32 a.1 then false
  else if !int && isNaNF32 b.1 then true
  else if laneEq int a.1 b.1 then decide (a.2 < b.2)
  else if mini then laneLt int a.1 b.1 else laneLt int b.1 a.1

/-- The winner of a list of value-index pairs; where every value is NaN, the canonical NaN with the
lowest index and NANALL (R107). DESIGN CHOICE (log 77): FTZ flushes none of the values that are compared; R107 returns the
winner's own bits. -/
def searchPairs (int mini : Bool) (ps : List (Nat × Nat)) : (Nat × Nat) × Bool :=
  let low := ps.foldl (fun m p => min m p.2) (2 ^ 32 - 1)
  if !int && ps.all (fun p => isNaNF32 p.1) then ((nanF32, low), true)
  else
    match ps with
    | [] => ((nanF32, low), true)
    | p :: rest => (rest.foldl (fun b q => if pairWins int mini q b then q else b) p, false)

/-- An empty list entry (R108). -/
def emptyCand : Nat × Nat := (nanF32, 0xFFFFFFFF)

/-- Puts a pair into a best-first list before the first entry it precedes. -/
def candInsert (mini : Bool) (p : Nat × Nat) : List (Nat × Nat) → List (Nat × Nat)
  | [] => [p]
  | q :: qs => if pairWins false mini p q then p :: q :: qs else q :: candInsert mini p qs

/-- The best `k` of the pairs, best first, filled up with empty entries (R108). -/
def topK (mini : Bool) (k : Nat) (ps : List (Nat × Nat)) : List (Nat × Nat) :=
  let l := (ps.filter (fun p => !isNaNF32 p.1)).foldl (fun l p => candInsert mini p l) []
  let t := l.take k
  t ++ List.replicate (k - t.length) emptyCand

end Sys2Proof.Machine
end

