-- ==== Sys2Proof/Machine/MatrixNum.lean ====
section
/-! DEFINITION. The bits of a matrix pass (chapter 03): the group sums of R63, the integer path of R64,
the exception record of R66 and R67, the checksum lines of R70 and R71, the line tests of R72 and the
fault location of R76. -/

namespace Sys2Proof.Machine

/-- One lane of an operand as it arrives: its element codes in increasing k, and one scale byte per
block (none for an unblocked format, whose scale is 127). -/
structure Lane where
  codes : List Nat
  scales : List Nat
deriving DecidableEq, Repr

/-- One operand of a pass: its format, its block size and its fed lanes (R130). -/
structure Operand where
  fmt : Fmt
  blk32 : Bool
  lanes : List Lane
deriving DecidableEq, Repr

def blockOf (b : Bool) : Nat := if b then 32 else 16

/-- Does the pass take the integer path (Table 3.2)? -/
def intPath (r c : Fmt) : Bool := r == .int8 && c == .int8

/-- The k-group length of the floating path (Table 3.2); the integer path is pre-empted every 16 steps
(R80), so 16 stands for it too. -/
def groupLen (r : Fmt) (rb : Bool) (c : Fmt) (cb : Bool) : Nat :=
  if (r.isBlock || c.isBlock) && (!r.isBlock || rb) && (!c.isBlock || cb) then 32 else 16

/-- Is the element code a subnormal of its own format? -/
def Elem.subnormal (t : Elem) (w : Nat) : Bool :=
  match t with
  | .int8 => false
  | .mxi8 => false
  | _ => let l := t.lay; bitsOf w l.mb l.eb == 0 && bitsOf w 0 l.mb != 0

/-- An element value of a pass, flushed when FTZ is set (R63). -/
def passElem (ftz : Bool) (t : Elem) (w : Nat) : Val :=
  if ftz && t.subnormal w then Val.zero else t.decode w

/-- A lane's values of steps a to a + n - 1, and its block scale there (none: the NaN scale). -/
def laneGroup (ftz : Bool) (o : Operand) (l : Lane) (a n : Nat) : List Val × Option Int :=
  (((l.codes.drop a).take n).map (passElem ftz o.fmt.elem),
   if o.fmt.isBlock then scaleExp (l.scales.getD (a / blockOf o.blk32) 127) else some 0)

/-- Truncates `m * 2^e` toward zero to a multiple of `2^u`, as an integer of units `2^q` (q ≤ u). -/
def truncTo (s : Bool) (m : Nat) (e u q : Int) : Int :=
  if u ≤ e then intAt s m e q
  else
    let t := (m >>> (u - e).toNat)
    intAt s t u q

/-- The largest exponent of the nonzero finite terms of a list. -/
def maxExp : List Val → Option Int
  | [] => none
  | .fin _ m e :: vs =>
    if m = 0 then maxExp vs
    else match maxExp vs with
      | none => some (msbExp m e)
      | some x => some (max x (msbExp m e))
  | _ :: vs => maxExp vs

/-- The least exponent a list of finite terms is written at. -/
def minQ (vs : List Val) (u : Int) : Int :=
  vs.foldl (fun q v => match v with | .fin _ _ e => min q e | _ => q) u

/-- Sum of finite terms, each truncated toward zero to a multiple of 2^(emax - 48) (R63, R163). -/
def truncSum (vs : List Val) : Val :=
  match maxExp vs with
  | none => Val.zero
  | some emax =>
    let u := emax - 48
    let v := vs.foldl (fun acc w => match w with
      | .fin s m e => acc + truncTo s m e u u
      | _ => acc) (0 : Int)
    .fin (decide (v < 0)) v.natAbs u

/-- Exact sum of a list of values. -/
def exactSum (vs : List Val) : Val := vs.foldl Val.add Val.zero

/-- One accumulator cell: its bits, its peak exponent, the true running sum of the integer path, and
whether it has raised its one integer overflow. -/
structure Cell where
  acc : Nat := 0
  pk : Int := -100
  sum : Int := 0
  hit : Bool := false
deriving DecidableEq, Repr

/-- The peak exponent of R71, a signed 8-bit value with a floor of -100. DESIGN CHOICE (log 75): R71 states no ceiling; an
exponent beyond 127 leaves 127. -/
def peak (p : Int) (v : Val) : Int :=
  match v with
  | .fin _ m e => if m = 0 then p else min 127 (max p (msbExp m e))
  | _ => p

/-- One group of R63 on one cell: the new cell and the kind of the event it raises (0: 0 × ∞,
1: ∞ − ∞, 2: overflow). `fac` is the late-softmax factor of R169. -/
def cellGroup (ftz : Bool) (xs ys : List Val) (sx sy : Option Int) (fac : Option Val) (c : Cell) :
    Cell × Option Nat :=
  if isNaNF32 c.acc then (c, none)
  else
    match sx, sy with
    | some kx, some ky =>
      if xs.any Val.isNaN || ys.any Val.isNaN then ({ c with acc := nanF32 }, none)
      else
        let ps := List.zipWith Val.mul xs ys
        if ps.any Val.isNaN then ({ c with acc := nanF32 }, some 0)
        else if ps.any (· == .inf false) && ps.any (· == .inf true) then ({ c with acc := nanF32 }, some 1)
        else
          let v0 := if ps.any (· == .inf false) then Val.inf false
            else if ps.any (· == .inf true) then Val.inf true
            else (truncSum ps).scale (kx + ky)
          let v := match fac with | none => v0 | some f => v0.mul f
          if v.isNaN then
            ({ c with acc := nanF32 }, if (fac.getD Val.zero).isNaN then none else some 0)
          else
            let a := decodeF32 c.acc
            let t := a.add v
            if t.isNaN then ({ c with acc := nanF32 }, some 1)
            else
              let w := rneF32 t
              let ovf := !t.isInf && bitsOf w 0 31 == 0x7F800000
              let w := if ftz && subnormalF32 w then 0 else w
              ({ c with acc := w, pk := peak (peak c.pk v) (decodeF32 w) }, if ovf then some 2 else none)
    | _, _ => ({ c with acc := nanF32 }, none)

/-- One step of the integer path on one cell (R64). -/
def cellStep (x y : Int) (c : Cell) : Cell × Option Nat :=
  let s := c.sum + x * y
  let out := decide (s < -(2 ^ 31)) || decide (2 ^ 31 ≤ s)
  ({ c with sum := s, acc := wrapInt 32 s, hit := c.hit || out },
   if out && !c.hit then some 3 else none)

/-! ### The exception record -/

/-- The exception record of a pass (R66, R67; Table 3.16). `first` holds kind, row, column and k. -/
structure Exc where
  inv : Bool := false
  ovf : Bool := false
  first : Option (Nat × Nat × Nat × Nat) := none
  count : Nat := 0
deriving DecidableEq, Repr

/-- Adds an event that `mult` cells raise alike; `row` and `col` are the lowest of them. -/
def Exc.raise (x : Exc) (kind row col k mult : Nat) : Exc :=
  { inv := x.inv || decide (kind < 2), ovf := x.ovf || decide (2 ≤ kind),
    first := match x.first with | none => some (kind, row, col, k) | some f => some f,
    count := min 65535 (x.count + mult) }

/-- The record as MT_EXC_A and MT_EXC_B hold it. -/
def Exc.word (x : Exc) : Nat :=
  (x.count <<< 48) + (if x.inv then 1 else 0) + (if x.ovf then 2 else 0) +
    match x.first with
    | none => 0
    | some (kind, row, col, k) => 4 + (kind <<< 3) + (row <<< 8) + (col <<< 16) + ((k % 2 ^ 24) <<< 24)

/-! ### The grid -/

/-- The accumulators of a pass: the data cells of the fed lanes, each side with one more lane that
stands for all its unfed lanes where it has any; the checksum column beside the rows and the checksum
row beside the columns; and the exception record. -/
structure AccSt where
  cells : List (List Cell) := []
  ckCol : List Cell := []
  ckRow : List Cell := []
  exc : Exc := {}
deriving DecidableEq, Repr

/-- A lane of zero elements and scale 127, which an unfed lane receives (R130). -/
def zeroLane (k : Nat) : Lane := { codes := List.replicate k 0, scales := [] }

/-- The lanes that are computed: the fed ones and, where `full` lanes are not all fed, one unfed. -/
def withUnfed (k full : Nat) (ls : List Lane) : List Lane :=
  if ls.length < full then ls ++ [zeroLane k] else ls

/-- How many lanes the lane at index `i` stands for. -/
def laneMult (fed full i : Nat) : Nat := if i < fed then 1 else full - fed

def AccSt.init (nr nc : Nat) : AccSt :=
  { cells := List.replicate nr (List.replicate nc {}), ckCol := List.replicate nr {},
    ckRow := List.replicate nc {} }

/-- Runs one group over a row of cells, collecting events (column, kind). -/
def rowGroup (f : Nat → Cell → Cell × Option Nat) : Nat → List Cell → List Cell × List (Nat × Nat)
  | _, [] => ([], [])
  | j, c :: cs =>
    let r := f j c
    let rest := rowGroup f (j + 1) cs
    (r.1 :: rest.1, match r.2 with | none => rest.2 | some kd => (j, kd) :: rest.2)

/-- Runs one group over the whole grid, row by row, collecting events (row, column, kind). -/
def gridGroup (f : Nat → Nat → Cell → Cell × Option Nat) :
    Nat → List (List Cell) → List (List Cell) × List (Nat × Nat × Nat)
  | _, [] => ([], [])
  | i, row :: rows =>
    let r := rowGroup (f i) 0 row
    let rest := gridGroup f (i + 1) rows
    (r.1 :: rest.1, r.2.map (fun e => (i, e.1, e.2)) ++ rest.2)

/-- Reads one lane's group data out of a list made once per group. -/
def grpAt (gs : List (List Val × Option Int)) (i : Nat) : List Val × Option Int := gs.getD i ([], some 0)

/-- The factor of column `j` in the group that starts at step `a`, under a late softmax (R169). -/
def facAt (facs : List (List Nat)) (seglen a j : Nat) : Option Val :=
  match facs with
  | [] => none
  | _ => some (decodeF32 ((facs.getD j []).getD (a / seglen) 0))

/-- A lane sum of one step: the exact sum of the lanes' scaled elements, truncated toward zero below
2^48 of its largest term's weight, and that largest term (R70, R71). -/
def laneSum (terms : List Val) : Val × Val :=
  let s := exactSum terms
  match maxExp terms with
  | none => (s, Val.zero)
  | some emax =>
    let u := emax - 48
    let top := Val.fin false 1 emax
    match s with
    | .fin neg m e =>
      let v := truncTo neg m e u (min e u)
      (.fin (decide (v < 0)) v.natAbs (min e u), top)
    | w => (w, top)

/-- The largest magnitude among the terms of a step. -/
def topTerm (terms : List Val) : Val :=
  let m := amaxOf terms
  .fin false m.1 m.2

/-- The scaled elements of every lane at one step of a group (R70), with the late-softmax factors. -/
def stepTerms (gs : List (List Val × Option Int)) (facs : Nat → Option Val) (k : Nat) : List Val :=
  (gs.zipIdx).map (fun p =>
    let v := match p.1.2 with | none => Val.nan | some e => (p.1.1.getD k Val.zero).scale e
    match facs p.2 with | none => v | some f => v.mul f)

/-- The elements of a lane times its late-softmax factor, if it has one (R169). -/
def withFac (fac : Option Val) (xs : List Val) : List Val :=
  match fac with
  | none => xs
  | some f => xs.map (fun x => x.mul f)

/-- The peaks of a check cell in a group: the product of its operand with the largest term of each
step's lane sum (R71). -/
def ckPeak (own : List Val) (so : Option Int) (tops : List Val) (p : Int) : Int :=
  match so with
  | none => p
  | some e => (List.zipWith Val.mul own tops).foldl (fun q v => peak q (v.scale e)) p

/-- One group of the floating path on the whole grid (R63, R70, R71). `fr` and `fc` are the numbers of
fed lanes. -/
def floatGroup (ftz : Bool) (r c : Operand) (facs : List (List Nat)) (seglen k a n : Nat) (st : AccSt) :
    AccSt :=
  let fr := r.lanes.length
  let fc := c.lanes.length
  let rg := (withUnfed k 128 r.lanes).map (fun l => laneGroup ftz r l a n)
  let cg := (withUnfed k 64 c.lanes).map (fun l => laneGroup ftz c l a n)
  let fac := facAt facs seglen a
  let g := gridGroup (fun i j => cellGroup ftz (grpAt rg i).1 (grpAt cg j).1 (grpAt rg i).2
    (grpAt cg j).2 (fac j)) 0 st.cells
  let rt := (List.range n).map (fun s => stepTerms rg (fun _ => none) s)
  let ct := (List.range n).map (fun s => stepTerms cg fac s)
  let wr := rt.map (fun t => (laneSum t).1)
  let wc := ct.map (fun t => (laneSum t).1)
  let rtop := rt.map topTerm
  let ctop := ct.map topTerm
  let ckCol := (rowGroup (fun i cell =>
    let x := grpAt rg i
    cellGroup ftz x.1 wc x.2 (some 0) none { cell with pk := ckPeak x.1 x.2 ctop cell.pk }) 0 st.ckCol).1
  let ckRow := (rowGroup (fun j cell =>
    let y := grpAt cg j
    cellGroup ftz wr y.1 (some 0) y.2 (fac j) { cell with pk := ckPeak (withFac (fac j) y.1) y.2 rtop cell.pk }) 0 st.ckRow).1
  { cells := g.1, ckCol := ckCol, ckRow := ckRow,
    exc := g.2.foldl (fun x e => x.raise e.2.2 e.1 e.2.1 a
      (laneMult fr 128 e.1 * laneMult fc 64 e.2.1)) st.exc }

/-- One step of the integer path on the whole grid (R64). -/
def intStep (r c : Operand) (k s : Nat) (st : AccSt) : AccSt :=
  let at_ (l : Lane) : Int := sextNat 8 (l.codes.getD s 0)
  let rg := (withUnfed k 128 r.lanes).map at_
  let cg := (withUnfed k 64 c.lanes).map at_
  let g := gridGroup (fun i j => cellStep (rg.getD i 0) (cg.getD j 0)) 0 st.cells
  let ckCol := (rowGroup (fun i => cellStep (rg.getD i 0) cg.sum) 0 st.ckCol).1
  let ckRow := (rowGroup (fun j => cellStep rg.sum (cg.getD j 0)) 0 st.ckRow).1
  { cells := g.1, ckCol := ckCol, ckRow := ckRow,
    exc := g.2.foldl (fun x e => x.raise e.2.2 e.1 e.2.1 s 1) st.exc }

/-- Everything that fixes the bits of a pass: its operands, its K, its FTZ and, for FM23, the factors
of each C lane (R65, R169). -/
structure PassOp where
  r : Operand
  c : Operand
  k : Nat
  ftz : Bool
  facs : List (List Nat) := []
  seglen : Nat := 1
deriving DecidableEq, Repr

def PassOp.len (p : PassOp) : Nat := groupLen p.r.fmt p.r.blk32 p.c.fmt p.c.blk32

def PassOp.isInt (p : PassOp) : Bool := intPath p.r.fmt p.c.fmt

/-- How many groups the pass has. -/
def PassOp.groups (p : PassOp) : Nat := (p.k + p.len - 1) / p.len

def PassOp.start (p : PassOp) : AccSt :=
  AccSt.init (withUnfed p.k 128 p.r.lanes).length (withUnfed p.k 64 p.c.lanes).length

/-- Adds groups g to g + n - 1 to the accumulators (R63, R64). -/
def PassOp.runGroups (p : PassOp) : Nat → Nat → AccSt → AccSt
  | 0, _, st => st
  | n + 1, g, st =>
    let a := g * p.len
    let m := min p.len (p.k - a)
    let st' := if p.isInt then (List.range m).foldl (fun t s => intStep p.r p.c p.k (a + s) t) st
      else floatGroup p.ftz p.r p.c p.facs p.seglen p.k a m st
    p.runGroups n (g + 1) st'

/-! ### Drain and verdict -/

/-- A hardware fault seen at drain: the cell at a row (128: the checksum row) and a column (64: the
checksum column) holds `bits` instead. -/
structure Perturb where
  row : Nat
  col : Nat
  bits : Nat
deriving DecidableEq, Repr

/-- A cell of the drained grid: a perturbed one, a fed one, or an unfed one (+0). -/
def AccSt.cell (st : AccSt) (fr fc : Nat) (ps : List Perturb) (i j : Nat) : Cell :=
  let c : Cell :=
    if i = 128 then (if j < fc then st.ckRow.getD j {} else {})
    else if j = 64 then (if i < fr then st.ckCol.getD i {} else {})
    else if i < fr ∧ j < fc then (st.cells.getD i []).getD j {} else {}
  match ps.find? (fun p => p.row == i && p.col == j) with
  | some p => { c with acc := p.bits % 2 ^ 32 }
  | none => c

/-- How many rows can differ from an unfed one: the fed rows and the perturbed ones. -/
def liveRows (fr : Nat) (ps : List Perturb) : Nat :=
  ps.foldl (fun n p => if p.row < 128 then max n (p.row + 1) else n) fr

def liveCols (fc : Nat) (ps : List Perturb) : Nat :=
  ps.foldl (fun n p => if p.col < 64 then max n (p.col + 1) else n) fc

/-- Does one line pass its test (R72)? `line` holds its data cells, `q` its check cell, `len` its
length. -/
def lineOk (isInt : Bool) (groups len tolsh : Nat) (line : List Cell) (q : Cell) : Bool :=
  if isInt then
    wrapInt 32 ((line.map (fun c => (c.acc : Int))).sum - (q.acc : Int)) == 0
  else
    let s := exactSum (line.map (fun c => decodeF32 c.acc))
    let d := s.add (decodeF32 q.acc).neg
    let p := line.foldl (fun p c => max p c.pk) q.pk
    let bound := Val.fin false (groups * len) (p - (tolsh : Int))
    match d with
    | .fin _ m e => !(bound.lt (.fin false m e))
    | _ => true

/-- What the comparator finds: the failing data rows and columns, and whether any accumulator holds
NaN or an infinity (R69, R72). -/
structure Tests where
  rows : List Nat := []
  cols : List Nat := []
  nonfinite : Bool := false
deriving DecidableEq, Repr

def nonfiniteF32 (w : Nat) : Bool := bitsOf w 23 8 == 255

/-- The tolerance shift in use: values below 8 act as 8, above 40 as 40 (Table 3.10). -/
def tolshOf (t : Nat) : Nat := min 40 (max 8 t)

def PassOp.tests (p : PassOp) (st : AccSt) (ps : List Perturb) (tolsh : Nat) : Tests :=
  let fr := p.r.lanes.length
  let fc := p.c.lanes.length
  let nr := liveRows fr ps
  let nc := liveCols fc ps
  let at_ := st.cell fr fc ps
  let rows := List.range nr
  let cols := List.range nc
  let bad := !p.isInt && (rows.any (fun i => cols.any (fun j => nonfiniteF32 (at_ i j).acc) ||
      nonfiniteF32 (at_ i 64).acc) || cols.any (fun j => nonfiniteF32 (at_ 128 j).acc))
  if bad then { nonfinite := true }
  else
    let t := tolshOf tolsh
    { rows := rows.filter (fun i => !lineOk p.isInt p.groups 64 t (cols.map (at_ i)) (at_ i 64)),
      cols := cols.filter (fun j => !lineOk p.isInt p.groups 128 t (rows.map (fun i => at_ i j)) (at_ 128 j)) }

/-- The verdict of a run (R69, R72). -/
inductive Verdict where
  | pass | fail | ckne
deriving DecidableEq, Repr

def Tests.verdict (t : Tests) : Verdict :=
  if t.nonfinite then .ckne else if t.rows = [] ∧ t.cols = [] then .pass else .fail

/-- Where a FAIL lies (Table 3.3). -/
inductive Loc where
  | cell (i j : Nat)
  | row (i : Nat)
  | col (j : Nat)
  | ckCol
  | ckRow
  | unlocated
deriving DecidableEq, Repr

/-- Table 3.3: the location, with the cell a checksum-line failure names. -/
def Tests.loc (t : Tests) : Loc × Nat × Nat :=
  match t.rows, t.cols with
  | [i], [j] => (.cell i j, i, j)
  | [i], [] => (.ckCol, i, 64)
  | [], [j] => (.ckRow, 128, j)
  | [i], _ => (.row i, i, 0)
  | _, [j] => (.col j, 0, j)
  | _, _ => (.unlocated, 0, 0)

/-- The location's fields of MT_CKLOG (Table 3.12): ROW, COL, KIND and CKLINE. -/
def locBits (l : Loc × Nat × Nat) : Nat :=
  let kind := match l.1 with | .cell _ _ => 0 | .row _ => 1 | .ckRow => 1 | .col _ => 2 | .ckCol => 2 | .unlocated => 3
  let ck := match l.1 with | .ckRow => 1 | .ckCol => 1 | _ => 0
  (l.2.1 <<< 12) + (l.2.2 <<< 5) + (kind <<< 3) + (ck <<< 2)

/-- The data accumulators, as the partner's bits are compared (R77). -/
def PassOp.bits (p : PassOp) (st : AccSt) (ps : List Perturb) : List (List Nat) :=
  let fr := p.r.lanes.length
  let fc := p.c.lanes.length
  (List.range (liveRows fr ps)).map (fun i =>
    (List.range (liveCols fc ps)).map (fun j => (st.cell fr fc ps i j).acc))

/-- Are two drained grids equal in their data accumulators? -/
def sameBits (p : PassOp) (a b : AccSt) (pa pb : List Perturb) : Bool :=
  let both := pa ++ pb
  let fr := p.r.lanes.length
  let fc := p.c.lanes.length
  (List.range (liveRows fr both)).all (fun i => (List.range (liveCols fc both)).all (fun j =>
    (a.cell fr fc pa i j).acc == (b.cell fr fc pb i j).acc))

/-- The fed data accumulators after a drain, row by row. -/
def PassOp.grid (p : PassOp) (st : AccSt) (ps : List Perturb) : List (List Nat) :=
  let fr := p.r.lanes.length
  let fc := p.c.lanes.length
  (List.range fr).map (fun i => (List.range fc).map (fun j => (st.cell fr fc ps i j).acc))

end Sys2Proof.Machine
end

