-- ==== Sys2Proof/Machine/Epilogue.lean ====
section
/-! DEFINITION. Fused prologues and epilogues (chapter 06): the steps of Table 6.3, the menu of
Table 6.1 and the late softmax of R169. -/

namespace Sys2Proof.Machine

/-- The epilogue parameter block's plain fields (Table 6.2); the addresses of its descriptors are read
by the sequencer. -/
structure EpiBlk where
  ofmt : Nat := 0
  fax : Bool := false
  cvtc : Nat := 0
  kc : Nat := 0
  lrow : Nat := 0
  seg : Nat := 0
  eps : Nat := 0
  sc : Nat := 0
  bias : Nat := 0
  res : Nat := 0
  scout : Nat := 0
  side : Nat := 0
  tkout : Nat := 0
  lpin : Nat := 0
  segs : Nat := 0
  seglen : Nat := 0
  lpsegp : Nat := 0
  f0 : Nat := 0
deriving DecidableEq, Repr

/-! ### Which entry uses what -/

def fmSwiglu (fm : Nat) : Bool := fm == 7 || fm == 9 || fm == 14 || fm == 22
def fmFold (fm : Nat) : Bool := fm == 8 || fm == 9 || fm == 10 || fm == 21 || fm == 22
def fmInputRms (fm : Nat) : Bool := fm == 8 || fm == 9 || fm == 10
def fmLateRms (fm : Nat) : Bool := fm == 21 || fm == 22
def fmBias (fm : Nat) : Bool := fm == 1 || fm == 2 || fm == 3 || fm == 4 || fm == 6
def fmRes (fm : Nat) : Bool := fm == 5 || fm == 6
def fmQuant (fm : Nat) : Bool := fm == 11 || fm == 12 || fm == 14
def fmTopk (fm : Nat) : Bool := fm == 19 || fm == 20
def fmSide (fm : Nat) : Bool := fm == 15 || fm == 18 || fm == 20
def fmSeg (fm : Nat) : Bool := fm == 15 || fm == 18 || fm == 19 || fm == 20

/-! ### Orientation -/

/-- Column `j` of a grid. -/
def gridCol (g : List (List Nat)) (j : Nat) : List Nat := g.map (fun r => r.getD j 0)

/-- Turns rows into columns; `n` is the number of columns. -/
def transposeGrid (g : List (List Nat)) (n : Nat) : List (List Nat) := (List.range n).map (gridCol g)

/-! ### The steps -/

/-- Maps a step over every value of every row, gathering flags. -/
def mapRow (f : Nat → Nat → FRes) (xs : List Nat) : List Nat × Fl :=
  let rs := xs.zipIdx.map (fun p => f p.2 p.1)
  (rs.map FRes.code, Fl.union (rs.map FRes.fl))

def mapGrid (f : Nat → Nat → Nat → FRes) (g : List (List Nat)) : List (List Nat) × Fl :=
  let rs := g.zipIdx.map (fun p => mapRow (f p.2) p.1)
  (rs.map Prod.fst, Fl.union (rs.map Prod.snd))

/-- 1/√(ss/n + eps), each step rounded once (Table 6.3). -/
def rsqrtMean (ss : FRes) (n eps : Nat) : FRes :=
  let d := fDivNat ss.code n
  let a := fAdd d.code eps
  let r := fSpecial .rsqrt false a.code
  { code := r.code, fl := (ss.fl.or d.fl).or (a.fl.or r.fl) }

/-- Input RMS of one C lane: its row sum of squares over k, each element times its block scale
(R163, Table 6.3). -/
def inputRms (ftz : Bool) (o : Operand) (k eps : Nat) (l : Lane) : FRes :=
  let b := blockOf o.blk32
  let terms := (l.codes.take k).zipIdx.map (fun p =>
    let x := passElem ftz o.fmt.elem p.1
    let x := if o.fmt.isBlock then
        match scaleExp (l.scales.getD (p.2 / b) 127) with | none => Val.nan | some e => x.scale e
      else x
    x.mul x)
  rsqrtMean (rowSum terms) k eps

/-- Late RMS of one token lane from its SSQ entries, in segment order (Table 6.3). -/
def lateRms (lrow eps : Nat) (ssq : List Nat) : FRes :=
  let ss := ssq.foldl (fun (a : FRes) x => let r := fAdd a.code x; { code := r.code, fl := a.fl.or r.fl })
    { code := 0 }
  rsqrtMean ss lrow eps

/-- Late softmax of one C lane from its softmax entries (m, s): the factor of each segment (R169). -/
def lateSoftmax (es : List (Nat × Nat)) : List Nat × Fl :=
  let m := (searchPairs false false (es.zipIdx.map (fun p => (p.1.1, p.2)))).1.1
  let ws := es.map (fun e => let d := fSub e.1 m; let w := fSpecial .exp2 false d.code
    ({ code := w.code, fl := d.fl.or w.fl } : FRes))
  let s := (List.zipWith (fun (e : Nat × Nat) (w : FRes) => (e.2, w.code)) es ws).foldl
    (fun (a : FRes) p => let t := fMul p.1 p.2; let r := fAdd a.code t.code
      { code := r.code, fl := (a.fl.or t.fl).or r.fl }) { code := 0 }
  let q := fSpecial .rcp false s.code
  let fs := ws.map (fun w => fMul w.code q.code)
  (fs.map FRes.code, (Fl.union (ws.map FRes.fl)).or ((s.fl.or q.fl).or (Fl.union (fs.map FRes.fl))))

def relu (y : Nat) : FRes :=
  if isNaNF32 y then { code := nanF32 }
  else if Val.zero.lt (decodeF32 y) then { code := y } else { code := 0 }

/-- Paired SwiGLU of one token's features. -/
def swigluRow : List Nat → List Nat × Fl
  | g :: u :: rest =>
    let a := fSpecial .silu false g
    let b := fMul a.code u
    let r := swigluRow rest
    (b.code :: r.1, (a.fl.or b.fl).or r.2)
  | _ => ([], {})

/-- The softmax terms of one row: e, m and the row sum of e (Table 6.3). `scale` is none where the row
is already scaled (FM20). -/
def softmaxTerms (sc : Option Nat) (y : List Nat) : List Nat × Nat × FRes × Fl :=
  let z := match sc with | none => (y, ({} : Fl)) | some k => mapRow (fun _ v => fMul v k) y
  let m := (searchPairs false false z.1.zipIdx).1.1
  let e := mapRow (fun _ v => let d := fSub v m; let w := fSpecial .exp2 false d.code
    { code := w.code, fl := d.fl.or w.fl }) z.1
  let s := rowSum (e.1.map decodeF32)
  (e.1, m, s, (z.2.or e.2).or s.fl)

def softmaxRow (sc : Nat) (y : List Nat) : List Nat × Fl :=
  let t := softmaxTerms (some sc) y
  let q := fSpecial .rcp false t.2.2.1.code
  let r := mapRow (fun _ v => fMul v q.code) t.1
  (r.1, (t.2.2.2.or q.fl).or r.2)

/-- The row sum of squares of one row. -/
def ssqRow (y : List Nat) : FRes := rowSum (y.map (fun v => (decodeF32 v).mul (decodeF32 v)))

def rmsRow (lrow eps : Nat) (y : List Nat) : List Nat × Fl :=
  let r := rsqrtMean (ssqRow y) lrow eps
  let o := mapRow (fun _ v => fMul v r.code) y
  (o.1, r.fl.or o.2)

/-! ### The whole epilogue -/

/-- What an epilogue works on beside the accumulators: what it read from memory, and its draws. -/
structure EpiIn where
  /-- The bias of each feature lane. -/
  bias : List Nat := []
  /-- The residual as a grid of F32 codes, output row by output row. -/
  res : List (List Nat) := []
  /-- The fold factor of each token lane. -/
  fold : List Nat := []
  /-- One draw per result, in drain order. -/
  draws : List Nat := []
  /-- Whether the main output is written (OUT is not 0). -/
  hasOut : Bool := true
deriving DecidableEq, Repr

/-- What an epilogue makes: the main output's codes row by row, the scale bytes, side entries and
candidates token by token, and the flags. -/
structure EpiOut where
  main : List (List Nat) := []
  scales : List Nat := []
  side : List (Nat × Nat) := []
  cands : List (Nat × Nat) := []
  fl : Fl := {}
deriving DecidableEq, Repr

/-- The feature rows of each token, after the steps that come before the output (Table 6.1), with the
side entries and candidates. -/
def epiSteps (fm : Nat) (e : EpiBlk) (x : EpiIn) (t : Nat) (y0 : List Nat) : List Nat × EpiOut :=
  let f1 := if fmFold fm then mapRow (fun _ v => fMul v (x.fold.getD t 0)) y0 else (y0, {})
  let f2 := if fmBias fm then mapRow (fun f v => fAdd v (x.bias.getD f 0)) f1.1 else (f1.1, {})
  let f3 : List Nat × Fl :=
    if fm = 2 then mapRow (fun _ v => fSpecial .silu false v) f2.1
    else if fm = 3 then mapRow (fun _ v => fSpecial .gelu false v) f2.1
    else if fm = 4 then mapRow (fun _ v => relu v) f2.1
    else if fmSwiglu fm then swigluRow f2.1
    else (f2.1, {})
  let f4 := if fm = 10 ∨ fm = 13 ∨ fm = 20 then mapRow (fun _ v => fMul v e.sc) f3.1 else (f3.1, {})
  let fl := (f1.2.or f2.2).or (f3.2.or f4.2)
  let y := f4.1
  if fm = 15 then
    let s := ssqRow y
    (y, { side := [(s.code, 0)], fl := fl.or s.fl })
  else if fm = 16 then
    let r := rmsRow e.lrow e.eps y
    (r.1, { fl := fl.or r.2 })
  else if fm = 17 then
    let r := softmaxRow e.sc y
    (r.1, { fl := fl.or r.2 })
  else if fm = 18 then
    let r := softmaxTerms (some e.sc) y
    (r.1, { side := [(r.2.1, r.2.2.1.code)], fl := fl.or r.2.2.2 })
  else if fm = 19 then
    (y, { cands := topK false e.kc (y.zipIdx.map (fun p => (p.1, (e.f0 + p.2) % 2 ^ 32))), fl := fl })
  else if fm = 20 then
    let r := softmaxTerms none y
    (y, { cands := topK false e.kc (y.zipIdx.map (fun p => (p.1, (e.f0 + p.2) % 2 ^ 32))),
          side := [(r.2.1, r.2.2.1.code)], fl := fl.or r.2.2.2 })
  else (y, { fl := fl })

/-- Draw number of the result at row `i`, column `j` of an output with `nc` columns (R166). -/
def drainDraw (draws : List Nat) (nc i j : Nat) : Nat := draws.getD (i * nc + j) 0

/-- The epilogue of entry `fm` on the data accumulators, a grid of F32 codes row by row (R164). -/
def epilogue (fm : Nat) (e : EpiBlk) (x : EpiIn) (nc : Nat) (acc : List (List Nat)) : EpiOut :=
  let c := Cvtc.ofByte e.cvtc
  let toks := if e.fax then acc else transposeGrid acc nc
  let steps := toks.zipIdx.map (fun p => epiSteps fm e x p.2 p.1)
  let ys := steps.map Prod.fst
  let outs := steps.map Prod.snd
  let side := outs.flatMap EpiOut.side
  let cands := outs.flatMap EpiOut.cands
  let fl0 := Fl.union (outs.map EpiOut.fl)
  let nf := (ys.getD 0 []).length
  let grid := if e.fax then ys else transposeGrid ys nf
  let ncol := if e.fax then nf else ys.length
  match Fmt.ofCode e.ofmt with
  | none => { fl := fl0 }
  | some t =>
    if fmQuant fm then
      let blocks := ys.zipIdx.map (fun p =>
        let ds := (List.range nf).map (fun f =>
          if e.fax then drainDraw x.draws ncol p.2 f else drainDraw x.draws ncol f p.2)
        cvtBlocks (cvtBlock t c) c.block (nf + 1) ds (p.1.map decodeF32))
      let codes := blocks.map (fun bs => bs.flatMap CvtBlock.codes)
      { main := if e.fax then codes else transposeGrid codes nf,
        scales := blocks.flatMap (fun bs => bs.map CvtBlock.scale),
        fl := fl0.or { sat := blocks.any (fun bs => bs.any CvtBlock.sat) } }
    else
      let g1 := if fmRes fm then mapGrid (fun i j v => fAdd v ((x.res.getD i []).getD j 0)) grid
        else (grid, {})
      if x.hasOut then
        let o := mapGrid (fun i j v => fConvert t c (drainDraw x.draws ncol i j) v) g1.1
        { main := o.1, side := side, cands := cands, fl := (fl0.or g1.2).or o.2 }
      else { side := side, cands := cands, fl := fl0.or g1.2 }

/-- How many draws a pass's epilogue takes: one per result written under SR (R166). -/
def epiDraws (fm : Nat) (e : EpiBlk) (nr nc : Nat) (hasOut : Bool) : Nat :=
  if fm ≤ 23 ∧ (Cvtc.ofByte e.cvtc).round = 2 ∧ hasOut then
    (if fmSwiglu fm then nr * nc / 2 else nr * nc)
  else 0

/-- Packs codes of `w` bits into bytes, the earlier in the lower bits; an odd last 4-bit code leaves
the upper half 0 (R131). -/
def packCodes (w : Nat) : List Nat → List Byte
  | [] => []
  | [a] => if w = 4 then [BitVec.ofNat 8 (a % 16)] else leBytes (w / 8) a
  | a :: b :: rest =>
    if w = 4 then BitVec.ofNat 8 (a % 16 + 16 * (b % 16)) :: packCodes w rest
    else leBytes (w / 8) a ++ packCodes w (b :: rest)
where
  /-- The `n` bytes of a number, lowest first (R7). -/
  leBytes (n a : Nat) : List Byte := (List.range n).map (fun i => BitVec.ofNat 8 (a >>> (8 * i)))

end Sys2Proof.Machine
end

