-- ==== Sys2Proof/Machine/EngineState.lean ====
section
/-! DEFINITION. The state of one engine (R16): the sequencer's slots, the stream engines, the matrix
tile's passes and the vector tile's banks. Plain data. -/

namespace Sys2Proof.Machine

/-! ### Sequencer slots (R118, R123, Table 5.3) -/

/-- Slot states of Table 5.3. FROZEN is not stored here: a slot is FROZEN while its context or its
engine is frozen, and it keeps the state below for the unfreeze (R151, R258). -/
inductive SlotSt where
  | empty | ready | blocked | halted | placed
deriving DecidableEq, Repr

/-- What a BLOCKED slot waits for. -/
inductive Wait where
  | none
  | gwait (gate : Nat) (thr : Nat) (consume : Bool)
  | swait (se : Nat)
  | fence
  | vwait
  | retry
  | halt
  /-- A CHAIN, CONVERT or COPY holds the slot (R255, R256). -/
  | rom
deriving DecidableEq, Repr

/-- An LD or LDW whose data has not returned (R119). -/
structure Load where
  rd : Nat
  data : W64
  poison : Bool := false
deriving DecidableEq, Repr

/-- An entry of a thread's arming table, with its pending flag (R105). -/
structure Arm where
  gate : Nat
  pc : Nat
  pending : Bool := false
deriving DecidableEq, Repr

/-! ### Vector-tile banks (R88, R101, R103) -/

/-- Bank states of Table 4.5. -/
inductive BankSt where
  | free | run | parked | staged | draining | saving
deriving DecidableEq, Repr

/-- Where a vector-tile result lands. -/
inductive VTarget where
  | v (r : Nat) (x : BitVec 1024)
  | s (r : Nat) (x : W32)
  | mem (addr : Nat) (x : W32)
deriving DecidableEq, Repr

/-- A result in flight: the tc from which a bundle sees it, and its target (R90, R92, R102). -/
structure Pend where
  due : Nat
  tgt : VTarget
deriving DecidableEq, Repr

/-- A complete bank (R88). `br` and `ret` hold a branch or return that waits in its delay bundles. -/
structure Bank where
  st : BankSt := .free
  slot : Nat := 0
  v : Tab (BitVec 1024) := []
  s : Tab W32 := []
  a : Tab W32 := []
  ab : Tab W32 := []
  al : Tab W32 := []
  pc : Nat := 0
  br : Option (Nat × Nat) := none
  ret : Option Nat := none
  handler : Bool := false
  hcount : Nat := 0
  ended : Bool := false
  sync : Bool := false
  pend : List Pend := []
deriving DecidableEq, Repr

/-- The state of one context slot of an engine: the sequencer's copy (R118), its pass log (R140) and
its vector thread (R147, R148). -/
structure Slot where
  st : SlotSt := .empty
  ctx : Nat := 0
  gen : Nat := 0
  cls : Nat := 0
  cmd : Nat := 0
  pc : Nat := 0
  xs : Tab W64 := []
  wait : Wait := .none
  loads : List Load := []
  plhead : Nat := 0
  plog : Tab W64 := []
  live : Bool := false
  launch : Nat := 0
  image : Option Bank := none
  himage : Option Bank := none
  arms : List Arm := []
deriving DecidableEq, Repr

/-! ### Stream descriptors (R127) -/

/-- A stream descriptor as Table 5.5 lays it out; counts are the fields plus 1, and `w30`, `w38` are the
peer fields. -/
structure SDesc where
  base : Nat := 0
  n0 : Nat := 1
  n1 : Nat := 1
  n2 : Nat := 1
  n3 : Nat := 1
  s1 : Int := 0
  s2 : Int := 0
  s3 : Int := 0
  mode : Nat := 0
  loc : Bool := false
  trans : Bool := false
  sig : Bool := false
  sigEng : Nat := 0
  sigGate : Nat := 0
  addr2 : Nat := 0
  w30 : Nat := 0
  w38 : Nat := 0
deriving DecidableEq, Repr

/-- A STRM descriptor that has been submitted and has not completed (R129). `pos` counts the bytes that
are done; `op` is the transport operation of a PEER_WRITE. -/
structure Stream where
  seq : Nat := 0
  slot : Nat := 0
  ctx : Nat := 0
  gen : Nat := 0
  cls : Nat := 0
  cmd : Nat := 0
  se : Nat := 0
  d : SDesc := {}
  pos : Nat := 0
  started : Bool := false
  op : Option Nat := none
  poison : Bool := false
deriving DecidableEq, Repr

/-! ### Passes (R135, R137) -/

/-- An MPASS descriptor with the descriptors and the parameter block it names (R136). -/
structure MDesc where
  k : Nat := 1
  rfmt : Nat := 0
  rblk : Bool := false
  cfmt : Nat := 0
  cblk : Bool := false
  bank : Nat := 0
  fm : Nat := 63
  sig : Bool := false
  sigGate : Nat := 0
  tag : Nat := 0
  rElem : SDesc := {}
  rScale : Option SDesc := none
  cElem : SDesc := {}
  cScale : Option SDesc := none
  out : Option SDesc := none
  epi : EpiBlk := {}
  scout : Option SDesc := none
  side : Option SDesc := none
  tkout : Option SDesc := none
  stot : Option SDesc := none
deriving DecidableEq, Repr

/-- Where a pass stands. -/
inductive Phase where
  /-- In the slot's pass queue. -/
  | queued
  /-- Pre-empted: its image is in the save area (R81). -/
  | saved
  /-- Issuing k-steps. -/
  | issuing
  /-- Its issue has ended and its drain has not begun. -/
  | waiting
  /-- Drained; the verdict has not been given. -/
  | drained
  /-- FAIL: waits for its replay on the same tile (R77 step 1). -/
  | failed
  /-- FAIL again: waits for the partner engine (R77 step 3). -/
  | partner
  /-- Judged and deliverable; its outputs are held until its release (R74). -/
  | judged
  /-- Judged CHECK_UNRESOLVED: nothing of it is delivered (Table 3.4). -/
  | dead
deriving DecidableEq, Repr

/-- The outputs a pass holds until its release: bytes in pattern order. -/
structure Held where
  main : List Byte := []
  scales : List Byte := []
  side : List Byte := []
  cands : List Byte := []
deriving DecidableEq, Repr

/-- A matrix pass from its MPASS to its release. -/
structure Pass where
  seq : Nat := 0
  issueNo : Nat := 0
  runNo : Nat := 0
  tolsh : Nat := 0
  slot : Nat := 0
  ctx : Nat := 0
  gen : Nat := 0
  cls : Nat := 0
  cmd : Nat := 0
  stage : Nat := 0
  d : MDesc := {}
  phase : Phase := .queued
  bank : Nat := 0
  op : Option PassOp := none
  grp : Nat := 0
  acc : AccSt := {}
  faults : List Perturb := []
  foldr : List Nat := []
  proFl : Fl := {}
  runs : Nat := 0
  replayOf : Bool := false
  srm0 : Option Nat := none
  drained : Bool := false
  startDt : W64 := 0
  failDt : W64 := 0
  /-- How many issues the tile had made at the FAIL verdict (R84). -/
  failNo : Nat := 0
  verdictDt : W64 := 0
  verdict : Nat := 0
  byPartner : Bool := false
  partnerEng : Nat := 0
  loc : Loc × Nat × Nat := (.unlocated, 0, 0)
  acc1 : AccSt := {}
  faults1 : List Perturb := []
  held : Held := {}
  fl : Fl := {}
  ckne : Bool := false
  poison : Bool := false
  part : List (Nat × Nat) := []
deriving DecidableEq, Repr

/-! ### Gates and signals (R141 to R146) -/

/-- A gate signal on its way: the gate, its value, the context it travels for and its tag, and its
source (an engine's slot as 8 × engine + slot, or a source beyond the engines). -/
structure Sig where
  gate : Nat := 0
  value : Nat := 1
  ctx : Nat := 0
  gen : Nat := 0
  src : Nat := 0
deriving DecidableEq, Repr

/-- A repair of a line of the array that is under way (R78), and the locations whose repair is due after it. -/
structure Repair where
  loc : Loc
  more : List Loc := []
deriving DecidableEq, Repr

/-- One engine. -/
structure Engine where
  slots : Tab Slot := []
  /-- Per class (R124): the slot that issued last, its run while another waited, and whether issue is to pass on from it. -/
  last : Tab Nat := []
  runLen : Tab Nat := []
  yielded : Tab Bool := []
  esActive : Nat := 0
  imem : Tab W32 := []
  lmem : Tab Byte := []
  lpoison : Tab Bool := []
  tc : Nat := 0
  banks : Tab Bank := []
  active : Nat := 0
  streams : List Stream := []
  passes : List Pass := []
  seq : Nat := 1
  issued : Nat := 0
  sigs : List Sig := []
  repair : Option Repair := none
  frozen : Option Nat := none
  retired : Bool := false
  /-- The cause of a retirement that is due (R79, R449). -/
  retiring : Option Nat := none
  /-- Where each context of a retired engine has moved (R442). -/
  hosts : Tab Nat := []
  hung : Bool := false
deriving DecidableEq, Repr

end Sys2Proof.Machine
end

