-- ==== Sys2Proof/Machine/HostState.lean ====
section
/-! DEFINITION. The state of the command set (chapter 09): partitions, queues, commands, contexts and
events; and the operations that the transport carries for them. Plain data. -/

namespace Sys2Proof.Machine

/-! ### Contexts (R251, R257, R258) -/

/-- A context. `gen` is its generation tag, kept while the number has no context; `root` is none for a
context without a page-table root (R183); `frozen` holds the cause while the context is frozen. -/
structure Ctx where
  live : Bool := false
  gen : Nat := 0
  root : Option Nat := none
  seed : W64 := 0
  mtftz : Bool := false
  vtftz : Bool := false
  hcap : Nat := 256
  frozen : Option Nat := none
  engines : List Nat := []
  tearing : Bool := false
  tearDt : W64 := 0
  /-- What is still to be told or awaited before the quiesce fence (R431). -/
  notices : List Nat := []
deriving DecidableEq, Repr

/-! ### Partitions (R233, R452, R260) -/

/-- A grant: KIND of PART_GRANT, first device address or unit number, and bytes (KIND 0). -/
structure Grant where
  kind : Nat
  lo : Nat
  size : Nat := 0
deriving DecidableEq, Repr

/-- A revoke that has been accepted (R452): its command, what it revokes, and the commands of the partition
that it waits for. -/
structure Revoke where
  cmd : Nat
  grant : Grant
  waits : List Nat := []
deriving DecidableEq, Repr

/-- An event record that has occurred and is not yet written (Table 9.7). -/
structure Event where
  code : Nat
  ctx : Nat := 0
  gen : Nat := 0
  dt : W64 := 0
  arg0 : W64 := 0
  arg1 : W64 := 0
deriving DecidableEq, Repr

/-- A partition beside its registers: its grants and its event ring. `evIdx` counts the records
written, so that the index and the phase of the next one follow from it. -/
structure Part where
  grants : List Grant := []
  revoking : List Revoke := []
  evAddr : Nat := 0
  evDlog : Nat := 4
  evIdx : Nat := 0
  evHead : Nat := 0
  events : List Event := []
  lostPend : Bool := false
deriving DecidableEq, Repr

/-! ### Commands (R240 to R245) -/

/-- A fix-up pass of a split chain (R172): its stage, the engine, slot and descriptor of its producer, and
where the side entries of its row lie: base, pitch and number of segments, and its own segment. -/
structure Fix where
  stage : Nat
  eng : Nat
  slot : Nat
  d : MDesc
  base : Nat
  pitch : Nat
  segs : Nat
  seg : Nat
deriving DecidableEq, Repr

/-- Where a command stands. -/
inductive CmdSt where
  | held | running | done
deriving DecidableEq, Repr

/-- A command from its acceptance to its completion record. -/
structure Cmd where
  id : Nat := 0
  q : Nat := 0
  part : Nat := 0
  /-- The queue processor that accepted it. -/
  qp : Nat := 0
  words : List W64 := []
  st : CmdSt := .held
  accept : W64 := 0
  start : W64 := 0
  fin : W64 := 0
  started : Bool := false
  status : Nat := 0
  froze : Bool := false
  poison : Bool := false
  ckne : Bool := false
  sat : Bool := false
  ovf : Bool := false
  inv : Bool := false
  split : Bool := false
  extra : Nat := 0
  /-- Engines whose slot the command needs, or still runs on. -/
  engines : List Nat := []
  /-- Transport operations whose acknowledgement the command's record waits for (R239). -/
  ops : List Nat := []
  /-- Progress of a long command: what is still to do, and what has been set aside. -/
  todo : List (List Nat) := []
  aux : List Nat := []
  /-- CXL ports that its accesses have touched (Table 7.6). -/
  ports : List Nat := []
  /-- Fix-up passes that have not run. -/
  fixes : List Fix := []
  /-- SRM and SRV of its slots at its first start: engine, slot, SRM, SRV (R440). -/
  gens : List (Nat × Nat × W64 × W64) := []
deriving DecidableEq, Repr

/-- A queue beside its registers: its rings, how many records have been written, and the finished
commands whose records wait (R235, R239). -/
structure Queue where
  live : Bool := false
  /-- The last doorbell has put TAIL past the ring's depth, so that what its entries hold is undefined (R238, R1). -/
  wild : Bool := false
  ring : Nat := 0
  chost : Nat := 0
  cqIdx : Nat := 0
  cqHead : Nat := 0
  recs : List Cmd := []
  turns : Nat := 0
  /-- Acceptances allowed by RATE, in units of 1/4,000,000, and the DT they were counted at. -/
  tokens : Nat := 0
  tokDt : Nat := 0
deriving DecidableEq, Repr

/-! ### Pending reductions (R177) -/

/-- A contribution to a reduction (R177, R178): its rank, the entry it comes on, its element format, its data by address in
pattern order, whether its LAST packet has come, and whether it is poisoned. -/
structure Contrib where
  rank : Nat
  ent : Nat
  ofmt : Nat
  pieces : List (Nat × List Byte) := []
  whole : Bool := false
  poison : Bool := false
deriving DecidableEq, Repr

/-- A pending reduction (R177, R281): what names it, how many ranks contribute, and the contributions so far. -/
structure Reduction where
  ctx : Nat := 0
  gen : Nat := 0
  tag : Nat := 0
  addr2 : Nat := 0
  nr : Nat := 1
  parts : List Contrib := []
deriving DecidableEq, Repr

/-- A page that a PAGE_MOVE is moving: accesses to it wait (R200). `entry` is the device address of its leaf and `old` the
leaf's word when the page was marked. -/
structure MovePage where
  ctx : Nat
  va : Nat
  size : Nat
  src : Nat
  dst : Nat
  entry : Nat
  old : W64
deriving DecidableEq, Repr

/-- A re-key under way (R201): the region, its staging region, the new key index, the 64 KiB chunks copied,
and its command. -/
structure Rekey where
  r : Nat
  t : Nat
  key : Nat
  cursor : Nat := 0
  cmd : Nat := 0
deriving DecidableEq, Repr

end Sys2Proof.Machine
end

