-- ==== Sys2Proof/Machine/MemState.lean ====
section
/-! DEFINITION. The state of the memory tiers (chapters 07 and 08): migration works, retirements, the DDR5
channels; and the flash health record (R444). Plain data. -/

namespace Sys2Proof.Machine

/-! ### Migration (R195, R196, R200, R201, R229) -/

/-- A work of the migration engines. -/
inductive WorkKind where
  /-- The pages of a PAGE_MOVE command. -/
  | pages (cmd : Nat)
  /-- The re-key of a region. -/
  | rekey (r : Nat)
  /-- The retirement of a pseudo-channel. -/
  | pcRet (pc : Nat)
  /-- The retirement that a DDR5 channel has under way. -/
  | rankRet (ch : Nat)
deriving DecidableEq, Repr

/-- A work: its class, the engine that has it, and the chunks that engine has copied. -/
structure Work where
  kind : WorkKind
  cls : Nat := 0
  eng : Option Nat := none
  chunks : Nat := 0
deriving DecidableEq, Repr

/-- The retirement of an HBM pseudo-channel: chunks copied to the spare, whether the copy is complete, and the
RETIRE command that waits for it (0: none). -/
structure PcRet where
  pc : Nat
  cursor : Nat := 0
  finished : Bool := false
  cmd : Nat := 0
deriving DecidableEq, Repr

/-- Hot samples in a row: the DT of the first, and whether the event has been raised (R192, R222). -/
structure Hot where
  since : Nat
  raised : Bool := false
deriving DecidableEq, Repr

/-- An error that a read of HBM met, by pseudo-channel, bank and row: not correctable or corrected, and its DT (R194,
R195). -/
structure HbmErr where
  pc : Nat
  bank : Nat
  row : Nat
  ue : Bool
  dt : Nat
deriving DecidableEq, Repr

/-! ### DDR5 (R208 to R230) -/

/-- A line of the DDR5 tier: channel, rank, subchannel, bank (8 × bank-group bits in [4:2], bank in [1:0]),
row and line of the row. -/
structure DdrLine where
  ch : Nat
  rank : Nat
  sub : Nat
  bank : Nat
  row : Nat
  col : Nat
deriving DecidableEq, Repr

/-- The retirement of a DDR5 rank: its channel, logical and physical rank, destination as DDR_RRET codes it
(0 spare, 1 reserve), the spare's physical rank, chunks copied, whether the copy is complete, and the RETIRE
command that waits for it (0: none), whether its commands fail parity, and the class of its copy. -/
structure RankRet where
  ch : Nat
  q : Nat
  phys : Nat
  dest : Nat
  spare : Nat := 0
  cursor : Nat := 0
  finished : Bool := false
  cmd : Nat := 0
  parity : Bool := false
  cls : Nat := 0
deriving DecidableEq, Repr

/-- A rank that failed while its channel retires another (R230): its channel and physical rank, whether its
commands fail parity, its RETIRE command, and the class of its copy. -/
structure RankWait where
  ch : Nat
  phys : Nat
  parity : Bool := false
  cmd : Nat := 0
  cls : Nat := 0
deriving DecidableEq, Repr

/-- The DDR5 commands that a controller issues (Table 8.3). -/
inductive DdrCmd where
  | act (row : Nat)
  | prePb
  | preAb
  | rd
  | rda
  | wr
  | wra
  | wrp
  | refSb
  | refAb
  | drfmSb (row : Nat)
  | rfmSb
  | sre
  | srx
  | mrr
  | mrw
  | mpc
deriving DecidableEq, Repr

/-- One bank of a rank's subchannel: its open row and the DT of its last access (R216), its row-disturbance
table of rows and counts, its evictions and the ACTs of each NoC source in the window, whether it raised
ACT_STORM in it (R220, R221), the DT of its last refresh (R217), its hot samples and the DT of the last sample (R222). -/
structure DdrBank where
  openRow : Option Nat := none
  last : Nat := 0
  rows : List (Nat × Nat) := []
  evict : Nat := 0
  acts : Tab Nat := []
  stormed : Bool := false
  refreshed : Nat := 0
  hot : Option Hot := none
  sampled : Nat := 0
deriving DecidableEq, Repr

/-- A source that ACT_STORM throttles on a channel, and whether it stays so through the next window. -/
structure Throttle where
  ch : Nat
  src : Nat
  stays : Bool := true
deriving DecidableEq, Repr

/-- The DDR5 tier beside its registers. Banks are numbered ((channel × 4 + rank) × 2 + subchannel) × 32 + bank.
`failed` and `offline` hold physical ranks as (channel, rank); `fast` those whose MR4 asks for the faster
refresh; `untrained` the channels whose training failed at the last initialisation, with the serials of their
DIMMs (R443); `dqs` the DT of each channel's last DQS tracking. -/
structure Ddr where
  dimms : Tab (List Spd) := []
  rets : List RankRet := []
  waiting : List RankWait := []
  offline : List (Nat × Nat) := []
  failed : List (Nat × Nat) := []
  rsvFailed : Bool := false
  banks : Tab DdrBank := []
  throttles : List Throttle := []
  fast : List (Nat × Nat) := []
  dqs : Tab Nat := []
  /-- Channels for which DDR_TSEL has asked for the other set; those in the low timing set; those that R416 holds
  in TSET1; and those that initialise after a channel reset (R410). -/
  change : List Nat := []
  low : List Nat := []
  heat : List Nat := []
  /-- The timing set that each channel in a frequency change moves to (R224). -/
  moving : Tab Nat := []
  /-- Ranks that have returned a line that cannot be corrected, with whether a copy's destination did: (channel, retiring
  or failing physical rank, destination) (R226, Table 8.5). -/
  due : List (Nat × Nat × Bool) := []
  /-- The commands that each channel's last event issued (R219). -/
  issued : Tab (List DdrCmd) := []
  /-- DT of each rank's last MR4 read, by 4 × channel + rank (R217). -/
  mr4 : Tab Nat := []
  /-- Training results in the PHY, and the DRAM's frequency set points in MT/s, by 2 × (4 × channel + rank) + set; and the
  drift last tracked, by 4 × channel + rank (R223). -/
  phy : Tab Nat := []
  fsp : Tab Nat := []
  drift : Tab Nat := []
  initing : List Nat := []
  untrained : List (Nat × List Nat) := []
deriving DecidableEq, Repr

/-! ### The health record (R444, Table 17.8) -/

/-- A record of the health record. -/
inductive HRec where
  /-- MT_REMAP of an engine. -/
  | remap (e : Nat) (w : W64)
  /-- A retired engine: cause, DT. -/
  | engine (e cause : Nat) (dt : W64)
  /-- A soft repair: pseudo-channel (0 to 511), bank, row. -/
  | repair (pc bank row : Nat)
  /-- A retired pseudo-channel. -/
  | pc (pc : Nat) (dt : W64)
  /-- A retired rank: channel, physical rank, destination, spare, DIMM serials. -/
  | rank (ch phys dest spare : Nat) (serials : List Nat)
  /-- A retired channel. -/
  | channel (ch : Nat) (serials : List Nat) (dt : W64)
deriving DecidableEq, Repr

/-- The health record: what the hardware applies now, the changes that wait to be written, and the two copies
in flash with their SEQ; none where a copy is not valid. -/
structure Health where
  now : List HRec := []
  queue : List (List HRec) := []
  copyA : Option (Nat × List HRec) := none
  copyB : Option (Nat × List HRec) := none
deriving DecidableEq, Repr

end Sys2Proof.Machine
end

