-- ==== Sys2Proof/Machine/NetState.lean ====
section
/-! DEFINITION. The state of the Coroc transport (chapter 10): entries, packets, operations and
endpoints. Plain data. Entry numbers: peer entry i is i, the host entry of partition p is 16384 + p. -/

namespace Sys2Proof.Machine

/-- A path of a connection (R278): a UDP source port and a sub-port 0 to 7, its smoothed RTT in DT units
(0: no sample yet) and how many samples in a row it has been slow. -/
structure Path where
  port : Nat
  sub : Nat
  srtt : Nat := 0
  slow : Nat := 0
deriving DecidableEq, Repr

/-- A packet as its header and body say it (Tables 10.1 and 10.2). -/
structure Pkt where
  kind : Nat := 0
  first : Bool := false
  last : Bool := false
  poison : Bool := false
  devaddr : Bool := false
  seq : Nat := 0
  sgen : Nat := 0
  sctx : Nat := 0
  tgen : Nat := 0
  tctx : Nat := 0
  arg : Nat := 0
  body : List Byte := []
  epoch : Nat := 0
  path : Nat := 0
  txn : Nat := 0
  txdt : Nat := 0
  /-- Where it came from: remote IP address and UDP port. -/
  src : Nat × Nat := (0, 0)
  /-- DT at the MAC at which its frame arrived, corrected for ingress (R284, Table 1.6). -/
  rxdt : Nat := 0
deriving DecidableEq, Repr

/-- A packet that has not been acknowledged (R275): its operation, whether it has its SEQ (given at its
first transmission), whether it is in flight, the DT at which its timer expires, how often it was
retransmitted, whether the receiver holds it, and how many packets sent later have arrived. -/
structure TxPkt where
  p : Pkt
  op : Nat := 0
  num : Bool := false
  sent : Bool := false
  due : Nat := 0
  tries : Nat := 0
  held : Bool := false
  after : Nat := 0
deriving DecidableEq, Repr

/-- A notice: context, stale tag and last SEQ (R282); and for one to be sent, whether it is in flight,
its TXDT, TXN and path, its timer, its retransmissions, and how many packets sent later have arrived. -/
structure Note where
  ctx : Nat
  gen : Nat
  last : Nat
  sent : Bool := false
  txn : Nat := 0
  path : Nat := 0
  after : Nat := 0
  txdt : Nat := 0
  due : Nat := 0
  tries : Nat := 0
deriving DecidableEq, Repr

/-- The receiving side of the EPOCH before the one in force, whose packets are still delivered (R396): its EPOCH and key,
the next SEQ, the packets held, and the drop list. -/
structure Prior where
  epoch : Nat
  key : Nat
  next : Nat
  rx : List Pkt
  drops : List Note
deriving DecidableEq, Repr

/-- An entry beside its register (Table 10.5, R272 to R279). -/
structure Entry where
  udp : Nat := 0
  rindex : Nat := 0
  tctx : Nat := 0
  tgen : Nat := 0
  epoch : Nat := 0
  dscp : Nat := 0
  ip : Nat := 0
  txKey : Nat := 0
  rxKey : Nat := 0
  seq : Nat := 0
  txn : Nat := 1
  tx : List TxPkt := []
  cum : Nat := 0
  rwnd : Nat := 16384
  rxNext : Nat := 0
  rx : List Pkt := []
  prior : Option Prior := none
  inbox : List Pkt := []
  lastBy : Tab Nat := []
  drops : List Note := []
  notes : List Note := []
  paths : List Path := []
  nextPath : Nat := 0
  srtt : Nat := 0
  rttvar : Nat := 0
  samples : List (Nat × Nat) := []
  /-- SEQ of the round's first packet (R279). -/
  roundSeq : Option Nat := none
  roundRtt : Nat := 0
  roundCe : Nat := 0
  roundAcked : Nat := 0
  roundLost : Bool := false
  ce : Nat := 0
  unacked : Nat := 0
  ackDue : Nat := 0
  echoDt : Nat := 0
  echoPath : Nat := 0
  /-- Refused packets that no ACK has reported: SEQ and status (R277). -/
  refused : List (Nat × Nat) := []
  /-- STATE that a frozen entry keeps: 1 up, 3 down, 4 clearing (R258). -/
  kept : Nat := 1
  clearDt : Nat := 0
  clearCmds : List Nat := []
  dropped : Nat := 0
  /-- Incoming operations addressed to contexts that have begun and not ended (R431): context, tag, and the device
  addresses of the 4 KiB pages written so far. -/
  begun : List (Nat × Nat × List Nat) := []
deriving DecidableEq, Repr

/-- An operation that has not completed (R276): its entry, the command it counts for (0: none) and the
context it serves. It completes when no packet of it is left unacknowledged. -/
structure NetOp where
  id : Nat
  ent : Nat
  cmd : Nat := 0
  ctx : Nat := 0
deriving DecidableEq, Repr

/-- A partition's endpoint (R266). -/
structure Endpoint where
  v4 : Nat := 0
  v6 : Nat := 0
deriving DecidableEq, Repr

/-- The headers around a Coroc packet (R265, R266, R299): the sub-port's MAC address, the VLAN tag as VID and priority,
IPv6 or IPv4 with its addresses, DSCP and ECN (2 is ECT(0)), DF, the UDP ports and the UDP checksum. -/
structure FrameHdr where
  mac : Nat
  tag : Option (Nat × Nat)
  v6 : Bool
  src : Nat
  dst : Nat
  dscp : Nat
  ecn : Nat
  df : Bool
  sport : Nat
  dport : Nat
  sum : Nat
deriving DecidableEq, Repr

/-- What leaves the device: a model's record, in order. -/
inductive Out where
  /-- A Coroc packet on a sub-port for an entry: its headers and the UDP payload. -/
  | coroc (sub ent : Nat) (hdr : FrameHdr) (bytes : List Byte)
  /-- An answer to ARP, neighbour discovery or echo, or a PTP Delay_Req (R265, R285), under the sub-port's MAC address and
  the port's tag. -/
  | reply (sub kind : Nat) (arg : Nat) (mac : Nat) (tag : Option (Nat × Nat))
  /-- A PFC frame that a sub-port sends: a priority and its quanta, XOFF 0xFFFF or XON 0 (R300). -/
  | pfc (sub prio quanta : Nat)
  /-- A management message in the bootstrap state's clear keys, to an address and port (R390, R391). -/
  | mgmt (part ip port : Nat) (bytes : List Byte)
deriving DecidableEq, Repr

/-- The PTP clock (R285, R286): the chosen master with its rank, its port and the transport sub-port it is heard on;
the origin time of the last Sync, if known, with the DT of its arrival; the DT at which a Delay_Req left; the DT of
the last Sync; whether the clock has ever locked; the DT of the chosen master's last Announce; and the rate at which DT
is steered, in ppm of the nominal one, which holdover keeps. -/
structure Ptp where
  master : Option (Nat × Nat) := none
  sub : Nat := 0
  t1 : Option Nat := none
  t2 : Option Nat := none
  t3 : Option Nat := none
  lastSync : Nat := 0
  locked : Bool := false
  announced : Nat := 0
  rate : Int := 0
deriving DecidableEq, Repr

/-- The transport. -/
structure Net where
  ents : Tab Entry := []
  ops : List NetOp := []
  nextOp : Nat := 1
  endpoints : Tab Endpoint := []
  turn : Nat := 0
  rbuf : Nat := 0
  ptp : Ptp := {}
  out : List Out := []
deriving DecidableEq, Repr

end Sys2Proof.Machine
end

