-- ==== Sys2Proof/Machine/DevState.lean ====
section
/-! DEFINITION. The state of the on-chip network (chapter 12), the fabric and its configuration (13, 14), the serial
links (11), security (15), power and start-up (16) and recovery (17), beside their registers. Plain data. -/

namespace Sys2Proof.Machine

/-! ### The on-chip network (R313, R316, R319, R320, R325) -/

/-- A packet (Table 12.3): TYPE and CLS, its header fields, its injection DT, the point where it entered, the
data of a fabric port's packet, the bucket that it draws from, whether it is a partner run's (R321), and whether the probes at
its first port saw it when it was injected. `dst` and `org` are points in the layout of DST [34:24]. -/
structure NocPkt where
  ty : Nat := 0
  cls : Nat := 0
  poison : Bool := false
  src : Nat := 0
  dst : Nat := 0
  org : Nat := 0
  dgen : Nat := 0
  stamp : Nat := 0
  addr : Nat := 0
  ctx : Nat := 0
  cgen : Nat := 0
  len : Nat := 0
  tid : Nat := 0
  status : Nat := 0
  data : Option (List Byte) := none
  kind : Nat := 0
  partner : Bool := false
  seen : Bool := false
deriving DecidableEq, Repr

/-- A token bucket: its level in 32nds of a byte and the DT of that level. -/
structure Bucket where
  lvl : Int := 0
  dt : Nat := 0
deriving DecidableEq, Repr

/-- An entry of a DDR5 channel's write queue (R215): the device address of its line, the bytes it covers, its source, and
the DT at which it entered. -/
structure WEntry where
  addr : Nat
  mask : Nat
  src : Nat
  stamp : Nat := 0
deriving DecidableEq, Repr

/-- The network: packets in flight, requests at targets, asks for credits, unused credits as (target, source), how
many entries each target lends, the buckets of regulators (8 × source + kind) and of partitions (4 × partition +
kind), the grants taken by regulators (4 × (8 × source + partition) + kind), trace records (16,384 × buffer + index), the generation
tags of domains, the DDR5 write queues with the channels that drain, the requests that wait at injection ports, and the
responses kept with frozen masters. -/
structure Noc where
  net : List NocPkt := []
  queue : List NocPkt := []
  asks : List NocPkt := []
  creds : List (Nat × Nat) := []
  lent : Tab Nat := []
  buckets : Tab Bucket := []
  parts : Tab Bucket := []
  shares : Tab Bucket := []
  trace : Tab (List W64) := []
  dgenE : Tab Nat := []
  dgenF : Tab Nat := []
  dgenD : Nat := 0
  wq : List WEntry := []
  draining : List Nat := []
  held : List NocPkt := []
  kept : List NocPkt := []
deriving DecidableEq, Repr

/-! ### Fabric and configuration (R347 to R378) -/

/-- Where a load or blank stands. -/
inductive LoadSt where
  /-- Waits for the write ports. -/
  | ports
  /-- Regions are being blanked, before the header is read or to end a blank. -/
  | blanking
  /-- Segments are being read. -/
  | segs
  /-- The regions are being released. -/
  | releasing
  /-- The load failed and its regions are being blanked. -/
  | failing
deriving DecidableEq, Repr

/-- A load or blank under way: its command (0: the boot load, a revoke or a reset), context and partition; whether
it only blanks, is full, reads flash; where its container lies; its mask; the regions still to blank; what has been
read of its container, captured key, the segments read; the status it ends with. -/
structure FLoad where
  cmd : Nat := 0
  ctx : Nat := 0
  gen : Nat := 0
  part : Nat := 0
  blank : Bool := false
  boot : Bool := false
  full : Bool := false
  flash : Bool := false
  base : Nat := 0
  bytes : Nat := 0
  mask : List Nat := []
  st : LoadSt := .ports
  todo : List Nat := []
  seen : List Byte := []
  key : Nat := 0
  seg : Nat := 0
  status : Nat := 0
deriving DecidableEq, Repr

/-- A browse unit beside its registers: the correction in progress (frame, flipped bit, tries), the frames already
reported in this sweep, and the DT from which its watchdog counts. -/
structure Browse where
  fix : Option (Nat × Nat × Nat) := none
  told : List Nat := []
  since : Nat := 0
deriving DecidableEq, Repr

/-- The access of a block-RAM port in the cycle that it is in (R337): the lowest of its bits, its width, whether it writes,
and what these bits held before it and hold after it. -/
structure RamCycle where
  lo : Nat
  width : Nat
  wr : Bool := false
  old : Nat := 0
  new : Nat := 0
deriving DecidableEq, Repr

/-- What a block-RAM port shows: the data read, and the flags of a corrected and of an uncorrectable word. -/
structure RamOut where
  data : Nat := 0
  fixed : Bool := false
  bad : Bool := false
deriving DecidableEq, Repr

/-- A block-RAM port (R336, R338): what it read, its output register, its access in the cycle that it is in, and a partial
write under ECC that waits for its merge: word, byte enables and data. -/
structure RamPort where
  read : RamOut := {}
  reg : RamOut := {}
  cyc : Option RamCycle := none
  merge : Option (Nat × Nat × Nat) := none
deriving DecidableEq, Repr

/-- A block RAM (R336, R338): its 32 Kib as one number, the bits of each word's 72 in which it differs from what its check
bits encode, and its two ports. -/
structure Ram where
  bits : Nat := 0
  skew : Tab Nat := []
  a : RamPort := {}
  b : RamPort := {}
deriving DecidableEq, Repr

/-- The logic of a region, or of a half of FS (R330 to R346): the phase of its clock synthesiser and the count of its rising
edges, how many edges each clock has had since the global reset was released (up to 2), the flip-flops (8 × cluster +
cell) that do not hold their INIT, the block RAMs, the DT bus, and in FS the last samples of the other half's signals
with what has crossed. -/
structure Logic where
  phase : Nat := 0
  count : Nat := 0
  left : Tab Nat := []
  ffs : Tab Bool := []
  rams : Tab Ram := []
  dtBus : W64 := 0
  samples : List Nat := []
  crossed : Nat := 0
deriving DecidableEq, Repr

/-- The fabric: frames by FADDR, the bits of a frame that have flipped since it was written, loads, the groups of
regions that release together, the container DIGEST of each region's last load (48: of the last full load), requests
that a region's logic has not answered, requests of each port outstanding, the flash device, the BBRAM, and the logic of regions 0 to 47 and of the halves of
FS, 48 and 49, as far as it is configured. -/
structure Fab where
  frames : Tab Nat := []
  upsets : Tab (List Nat) := []
  loads : List FLoad := []
  groups : List (List Nat) := []
  digests : Tab (List Byte) := []
  asked : List NocPkt := []
  flash : Tab Byte := []
  bbKey : Nat := 0
  bbCrc : Nat := 0
  bbIn : Tab W64 := []
  browse : Tab Browse := []
  logic : Tab Logic := []
deriving DecidableEq, Repr

/-! ### Links (R297, R300, R302) -/

/-- Links beside their registers: when each sub-port went down, the DT at which each pause of a priority ends by 8 times
the sub-port plus the priority, when each CXL port began to detect, which CXL ports found no device in time, which CXL
ports are disabled (the EN in force, R305), the DT at which each lane with FREEZE holds its equaliser, the transmitter
taps of each lane as the number of the training that set them, how full each priority's share of a receive buffer was at
its last frame, which have been sent XOFF, and the answers that paused priorities hold back (R300). -/
structure Links where
  downAt : Tab Nat := []
  pauses : Tab Nat := []
  detectAt : Tab Nat := []
  noDev : List Nat := []
  cxlDis : List Nat := []
  eqHold : Tab Nat := []
  ffe : Tab Nat := []
  rxFill : Tab Nat := []
  xoff : List Nat := []
  held : List (Nat × Out) := []
deriving DecidableEq, Repr

/-! ### Security (R379 to R394) -/

/-- The fuses (Table 15.1). -/
structure Fuses where
  uds : Nat := 0
  efKey : Nat := 0
  efValid : Bool := false
  baseMac : Nat := 0
  rootHash : List (List Byte) := []
  rootRev : Nat := 0
  fwSvn : Nat := 0
  prSvn : Nat := 0
  fabKey : Nat := 0
  bbLock : Bool := false
  jtagPol : Nat := 0
deriving DecidableEq, Repr

/-- A management message that arrives: its partition, whether it came in the bootstrap state's clear keys, its
source, its bytes so far, and whether its LAST packet has come. -/
structure Mgmt where
  part : Nat
  boot : Bool
  ip : Nat := 0
  port : Nat := 0
  bytes : List Byte := []
  whole : Bool := false
deriving DecidableEq, Repr

/-- A handshake that waits for FINISH: TH, Nh and Nd, the shared secrets, KEYIDX, whether its HELLO came in the
bootstrap state's clear keys, and the source of its HELLO. -/
structure Handshake where
  th : List Byte
  nonces : List Byte
  ikm : List Byte
  keyIdx : Nat
  ip : Nat := 0
  port : Nat := 0
deriving DecidableEq, Repr

/-- A patch under way (Table 15.6): its command (0: none), its bundle, whether it persists, the queue processor
it has come to, and its step. -/
structure Patch where
  cmd : Nat := 0
  bundle : List Byte := []
  persist : Bool := false
  qp : Nat := 0
  step : Nat := 1
deriving DecidableEq, Repr

/-- The security block beside its registers: fuses, the verified record and image as objects, the patch chain, the
secret of the Alias keys, messages, a handshake, boundary scan, whether the Alias keys are erased, and a patch. -/
structure Sec where
  fuses : Fuses := {}
  record : Option (List Byte) := none
  image : Option (List Byte) := none
  chain : List Byte := List.replicate 48 0
  cdi : List Byte := []
  inbox : List Mgmt := []
  hand : Option Handshake := none
  aliasGone : Bool := false
  scanning : Bool := false
  patch : Option Patch := none
deriving DecidableEq, Repr

/-! ### Power and start-up (R398 to R421) -/

/-- Factors of the governor's stages (R414), in 1/256 of nominal: the fabric in stage 1, the four classes, the fabric
in stage 3, the routers and gateways. -/
structure Gov where
  fab1 : Nat := 256
  cls : List Nat := [256, 256, 256, 256]
  fab3 : Nat := 256
  rtr : Nat := 256
deriving DecidableEq, Repr

/-- Start-up and power: whether the device has left power-on reset, the steps of start-up that have completed (A to M
as 0 to 12), fawn mode; the latched thermal trip; the islands that stretch by droop, each with the factor that it
returns to (engines 0 to 63, regions 64 to 111, halves of FS 112 and 113, routers 114 to 123); the DT from which the cap has been missed; the
estimate's correction in W; the governor's factors for the power limit and for each die's temperature;
and the periods of the two halves of FS in 1/256 of nominal (R19). -/
structure Pwr where
  up : Bool := true
  steps : List Nat := [0]
  fawn : Bool := false
  tripped : Bool := false
  droops : Tab Nat := []
  missFrom : Option Nat := none
  corr : Int := 0
  gov : Gov := {}
  heat0 : Gov := {}
  heat1 : Gov := {}
  fs0 : Nat := 256
  fs1 : Nat := 256
deriving DecidableEq, Repr

/-! ### Recovery (R433 to R441) -/

/-- Where the hang procedure on an engine stands. -/
inductive HangSt where
  /-- Waits for its dump. -/
  | dump
  /-- The engine has been reset; a suspect may be replayed. -/
  | ready
  /-- The command of this context is being replayed. -/
  | replay (ctx cmd : Nat)
deriving DecidableEq, Repr

/-- A hang procedure (R440): its engine, the suspects with their commands, in order of START, where it stands, how
many have been replayed, the guilty context and tag, and the DT of the expiry. -/
structure Hang where
  eng : Nat
  suspects : List (Nat × Nat) := []
  st : HangSt := .dump
  done : Nat := 0
  guilty : Option (Nat × Nat) := none
  dt : W64 := 0
deriving DecidableEq, Repr

/-- A unit that a dump reads: CLASS, INDEX, the address of its first byte, and how many bytes. -/
structure DumpUnit where
  cls : Nat
  idx : Nat
  addr : Nat
  len : Nat
deriving DecidableEq, Repr

/-- A dump that is due or under way: its kind, command (0: none), engine, the DT of its trigger, the units still to
read, the entries collected, how many entries and how many UNREADABLE ones, whether it was truncated, and whether it
is only to be sent again. -/
structure Dump where
  kind : Nat
  cmd : Nat := 0
  eng : Nat := 0
  dt : W64 := 0
  units : List DumpUnit := []
  bytes : List Byte := []
  entries : Nat := 0
  bad : Nat := 0
  trunc : Bool := false
  resend : Bool := false
deriving DecidableEq, Repr

/-- Recovery: hang procedures, dumps in trigger order, dumps since power-on reset, resets under way as (kind, unit,
command), and the bytes of an unsent dump that a device warm reset keeps, by offset. -/
structure Rst where
  hangs : List Hang := []
  dumps : List Dump := []
  dumpSeq : Nat := 0
  resets : List (Nat × Nat × Nat) := []
  kept : List (Nat × Byte) := []
deriving DecidableEq, Repr

end Sys2Proof.Machine
end

