-- ==== Sys2Proof/Machine/RegMap.lean ====
section
/-! DEFINITION. The register map (R8, R9, R10, R182): for every register of every block its offset from
0xFF00_0000_0000, its value after power-on reset, and which of its bits are RW, W1C and WO. Bits in none
of the three are RO or RSV. The tables follow Tables 3.8 to 3.17, 4.10 to 4.18, 5.12 to 5.23, 7.8 to
7.16, 8.6 to 8.9, 9.10 to 9.15, 10.8 to 10.10, 11.8 to 11.14, 12.7 to 12.9, 13.6 to 13.9, 14.11 to
14.14, 15.10 to 15.13, 16.9 to 16.11 and 17.11 to 17.13. -/

namespace Sys2Proof.Machine

/-- A field of `n` bits from bit `lo` holding `v`. -/
def fv (lo n v : Nat) : Nat := (v % 2 ^ n) <<< lo

/-- The mask of `n` bits from bit `lo`. -/
def fm (lo n : Nat) : Nat := (2 ^ n - 1) <<< lo

/-- One register, or an array of `count` registers `stride` bytes apart. -/
structure RegDef where
  base : Nat
  stride : Nat := 8
  count : Nat := 1
  reset : Nat := 0
  rw : Nat := 0
  w1c : Nat := 0
  wo : Nat := 0
deriving DecidableEq, Repr

/-- Does the register lie at offset `off` of its window? -/
def RegDef.at (d : RegDef) (off : Nat) : Bool :=
  decide (d.base ≤ off) && decide ((off - d.base) % d.stride = 0) && decide ((off - d.base) / d.stride < d.count)

/-! ### Engine blocks, offsets within the 0x1000 bytes of one engine -/

def mtDefs : List RegDef := [
  { base := 0x000, reset := fv 24 8 1 + fv 16 8 64 + fv 8 8 128 },
  { base := 0x008 },
  { base := 0x010, reset := 23, rw := fm 0 6 },
  { base := 0x018, wo := fm 63 1 },
  { base := 0x020, w1c := fm 0 2 },
  { base := 0x028 },
  { base := 0x030 },
  { base := 0x040, count := 8, rw := fm 0 1 },
  { base := 0x080, count := 2 },
  { base := 0x090 }]

def vtDefs : List RegDef := [
  { base := 0x000, reset := fv 24 8 1 + fv 16 8 32 + fv 8 8 128 },
  { base := 0x008 },
  { base := 0x010, w1c := fm 0 2 },
  { base := 0x018 },
  { base := 0x020 },
  { base := 0x040, count := 8, reset := fv 4 12 256, rw := fm 0 1 + fm 4 12 },
  { base := 0x080, count := 8, w1c := fm 0 4 },
  { base := 0x0C0, count := 8, rw := fm 8 8 + fm 0 7 },
  { base := 0x100, count := 8, reset := 1, rw := fm 0 64 },
  { base := 0x140, count := 8, reset := 1, rw := fm 0 64 }]

def esDefs : List RegDef := [
  { base := 0x000, reset := fv 24 8 1 + fv 16 8 8 + fv 8 8 64 },
  { base := 0x008 },
  { base := 0x010, w1c := fm 0 2 },
  { base := 0x018 },
  { base := 0x020, w1c := fm 0 2 },
  { base := 0x028 },
  { base := 0x030 },
  { base := 0x038 },
  { base := 0x040, count := 8 },
  { base := 0x080, count := 8, rw := fm 16 9 + fm 0 8 },
  { base := 0x800, count := 256 }]

/-! ### The 1 MiB blocks -/

def hbmDefs : List RegDef := [
  { base := 0x000, reset := fv 24 8 1 + fv 16 8 8 + fv 0 16 378 },
  { base := 0x008 },
  { base := 0x010, reset := fv 16 1 1 + fv 8 8 1 + fv 0 7 48, rw := fm 16 1 + fm 8 8 + fm 0 7 },
  { base := 0x018, w1c := fm 0 2 },
  { base := 0x020 },
  { base := 0x028, wo := fm 63 1 },
  { base := 0x030 },
  { base := 0x038, reset := 4, rw := fm 0 8 },
  { base := 0x1000, count := 378, reset := fv 14 1 1, rw := fm 14 1 + fm 4 9 + fm 2 2 + fm 0 2 }]

/-- The block of DDR5 channel `c`. -/
def ddrChan (c : Nat) : List RegDef :=
  let b := 0x1000 + 0x100 * c
  [ { base := b + 0x00 },
    { base := b + 0x08, rw := fm 0 1 },
    { base := b + 0x10, count := 2 },
    { base := b + 0x20, reset := 48, rw := fm 0 10 },
    { base := b + 0x28, reset := fv 48 5 12 + fv 40 6 16 + fv 32 6 48 + fv 0 11 1024,
      rw := fm 48 5 + fm 40 6 + fm 32 6 + fm 0 11 },
    { base := b + 0x30, reset := 1024, rw := fm 0 16 },
    { base := b + 0x38, reset := 4096, rw := fm 0 16 },
    { base := b + 0x40, wo := fm 63 1 },
    { base := b + 0x48, reset := 0xE4 },
    { base := b + 0x50 },
    { base := b + 0x58, w1c := fm 0 2 },
    { base := b + 0x60 }]

def ddrDefs : List RegDef :=
  [ { base := 0x000, reset := fv 8 8 1 + 8 },
    { base := 0x008, reset := 1, rw := fm 0 2 },
    { base := 0x010 },
    { base := 0x018 } ] ++ (List.range 8).flatMap ddrChan

/-- The lane block of lane `i` of the port block at `b` (Tables 11.13 and 11.14). -/
def laneDefs (b i : Nat) : List RegDef :=
  let l := b + 0x800 + 0x40 * i
  [ { base := l + 0x00, rw := fm 6 2 + fm 4 1 + fm 1 1 + fm 0 1, wo := fm 5 1 },
    { base := l + 0x08 },
    { base := l + 0x10 },
    { base := l + 0x18 }]

def cxlPort (p : Nat) : List RegDef :=
  let b := 0x1000 * (p + 1)
  [ { base := b + 0x00, reset := fv 4 4 7 + 1, rw := fm 4 4 + fm 0 1 },
    { base := b + 0x08 },
    { base := b + 0x10 },
    { base := b + 0x18 },
    { base := b + 0x20 },
    { base := b + 0x28, wo := fm 63 1 },
    { base := b + 0x30 }] ++ (List.range 16).flatMap (laneDefs b)

def cxlDefs : List RegDef :=
  [ { base := 0x000, reset := fv 8 8 1 + 2 } ] ++ (List.range 2).flatMap cxlPort

def ethPort (p : Nat) : List RegDef :=
  let b := 0x1000 * (p + 1)
  [ { base := b + 0x00, reset := fv 16 4 0xF + fv 4 4 0xF, rw := fm 20 8 + fm 16 4 + fm 4 4 + fm 0 2 },
    { base := b + 0x08 },
    { base := b + 0x10, reset := 8, rw := fm 0 16 },
    { base := b + 0x18, rw := fm 28 1 + fm 20 8 + fm 19 1 + fm 0 12 },
    { base := b + 0x20, count := 4, wo := fm 63 1 },
    { base := b + 0x40, count := 4 },
    { base := b + 0x60, count := 8, rw := fm 0 24 },
    { base := b + 0xA0 }] ++ (List.range 8).flatMap (laneDefs b)

def ethDefs : List RegDef :=
  [ { base := 0x000, reset := fv 8 8 1 + 2 } ] ++ (List.range 2).flatMap ethPort

def ctDefs : List RegDef := [
  { base := 0x000, reset := fv 24 8 1 + fv 0 16 16384 },
  { base := 0x008, reset := fv 16 1 1 + 47301, rw := fm 0 17 },
  { base := 0x010, reset := fv 32 16 64 + fv 16 16 8192 + 5000, rw := fm 0 48 },
  { base := 0x018, reset := fv 16 4 8 + fv 8 8 16 + 50, rw := fm 0 20 },
  { base := 0x020 },
  { base := 0x028 },
  { base := 0x030 },
  { base := 0x040, reset := fv 1 7 100 + 1, rw := fm 0 20 },
  { base := 0x048 },
  { base := 0x050 },
  { base := 0x058 },
  { base := 0x060, count := 2, rw := fm 0 32 },
  { base := 0x10000, count := 16384 },
  { base := 0x30000, count := 8 }]

/-- The block of NoC probe `p` (Table 12.8). -/
def prbDefs : List RegDef := [
  { base := 0x200, stride := 0x40, count := 40, rw := fm 18 1 + fm 17 1 + fm 15 2 + fm 0 15, wo := fm 19 1 },
  { base := 0x208, stride := 0x40, count := 40, rw := fm 0 43 },
  { base := 0x210, stride := 0x40, count := 40, rw := fm 0 43 },
  { base := 0x218, stride := 0x40, count := 40 },
  { base := 0x220, stride := 0x40, count := 40 }]

/-- The source numbers of Table 12.5, as first number and count. -/
def nocSources : List (Nat × Nat) := [(0x00, 0xA4), (0xA8, 10), (0xB8, 2)]

/-- Register `k` of every source's regulator (Table 12.9). -/
def rgDefs (k : Nat) : List RegDef :=
  nocSources.map (fun g =>
    let b := 0x1000 + 0x40 * g.1 + 8 * k
    if k = 5 then { base := b, stride := 0x40, count := g.2 }
    else { base := b, stride := 0x40, count := g.2, reset := fv 16 24 65536, rw := fm 0 40 })

def nocDefs : List RegDef :=
  [ { base := 0x000, reset := fv 8 8 1 + 40 },
    { base := 0x008 },
    { base := 0x100, count := 3, reset := fv 16 1 1, rw := fm 16 1, wo := fm 17 1 } ] ++ prbDefs ++
  (List.range 6).flatMap rgDefs

def fabDefs : List RegDef := [
  { base := 0x000, reset := fv 24 8 1 + fv 16 8 96 + 48 },
  { base := 0x100, count := 49, reset := fv 12 12 256 },
  { base := 0x300, count := 49 },
  { base := 0x500, count := 49 },
  { base := 0x700, count := 96 }]

def cfgDefs : List RegDef := [
  { base := 0x000, reset := fv 24 8 1 + fv 8 16 2400 + 64 },
  { base := 0x008 },
  { base := 0x010 },
  { base := 0x018, count := 4, wo := fm 0 64 },
  { base := 0x038, wo := fm 0 2 },
  { base := 0x040, w1c := fm 0 2 },
  { base := 0x048 },
  { base := 0x050 },
  { base := 0x058, rw := fm 0 32, wo := fm 33 1 },
  { base := 0x060 },
  { base := 0x100, count := 64 }]

def brwUnit (u : Nat) : List RegDef :=
  let b := 0x100 + 0x40 * u
  [ { base := b + 0x00, reset := 1, rw := fm 0 2 },
    { base := b + 0x08 },
    { base := b + 0x10, wo := fm 63 1 },
    { base := b + 0x18, w1c := fm 0 2 },
    { base := b + 0x20 },
    { base := b + 0x28 }]

def brwDefs : List RegDef := [ { base := 0x000, reset := fv 8 8 1 + 2 } ] ++ brwUnit 0 ++ brwUnit 1

def secDefs : List RegDef := [
  { base := 0x000, reset := fv 32 32 0x1A512E3B + 1 },
  { base := 0x008 },
  { base := 0x010 },
  { base := 0x018, count := 6 },
  { base := 0x048 },
  { base := 0x050 },
  { base := 0x058 },
  { base := 0x060, w1c := fm 0 2 }]

def qpDefs : List RegDef := [
  { base := 0x000, reset := fv 24 8 1 + fv 8 8 8 + 4 },
  { base := 0x008 },
  { base := 0x100, count := 8 },
  { base := 0x140, count := 8 },
  { base := 0x180, count := 8 },
  { base := 0x10000, count := 16384 },
  { base := 0x30000, count := 16384 }]

def pwrDefs : List RegDef := [
  { base := 0x000, reset := fv 8 8 1 + 9 },
  { base := 0x008 },
  { base := 0x010, reset := fv 24 8 85 + fv 16 8 100 + 1000, rw := fm 16 16 + fm 0 10 },
  { base := 0x018 },
  { base := 0x020, reset := fv 32 16 1000 + fv 28 1 1 + fv 16 12 100 + 256, rw := fm 48 1 + fm 32 16 + fm 0 29 },
  { base := 0x028, w1c := fm 0 5 },
  { base := 0x030 },
  { base := 0x038 },
  { base := 0x100, count := 64, reset := 256 },
  { base := 0x300, count := 9 },
  { base := 0x400, count := 10, reset := 256 }]

def rstDefs : List RegDef := [
  { base := 0x000, reset := fv 8 8 1 + 9 },
  { base := 0x008 },
  { base := 0x010 },
  { base := 0x018, reset := fv 32 16 50 + fv 16 16 5 + 10, rw := fm 0 48 },
  { base := 0x020, w1c := fm 0 2 },
  { base := 0x028 },
  { base := 0x030 }]

def dmpDefs : List RegDef := [
  { base := 0x000, reset := 1 },
  { base := 0x008, reset := 0x005E3C000000, rw := fm 0 48 },
  { base := 0x010, rw := fm 0 48 },
  { base := 0x018 },
  { base := 0x020 },
  { base := 0x028 }]

def migDefs : List RegDef := [
  { base := 0x000, reset := 1024, rw := fm 0 16 },
  { base := 0x100, count := 8 }]

/-- The definitions and inner offset that a register-region offset falls to (Table 7.2). -/
def regWindow (off : Nat) : List RegDef × Nat :=
  if off < 0x40000 then (mtDefs, off % 0x1000)
  else if off < 0x80000 then (vtDefs, off % 0x1000)
  else if off < 0xC0000 then (esDefs, off % 0x1000)
  else if off < 0x100000 then ([], off)
  else
    let o := off % 0x100000
    match off / 0x100000 with
    | 1 => (hbmDefs, o) | 2 => (ddrDefs, o) | 3 => (cxlDefs, o) | 4 => (ethDefs, o)
    | 5 => (ctDefs, o) | 6 => (nocDefs, o) | 7 => (fabDefs, o) | 8 => (cfgDefs, o)
    | 9 => (brwDefs, o) | 10 => (secDefs, o) | 11 => (qpDefs, o) | 12 => (pwrDefs, o)
    | 13 => (rstDefs, o) | 14 => (dmpDefs, o) | 15 => (migDefs, o) | _ => ([], o)

/-- The register at an offset of the register region; none at a reserved offset. -/
def regDef (off : Nat) : Option RegDef :=
  let w := regWindow off
  w.1.find? (fun d => d.at w.2)

/-! ### Offsets by name -/

def rMtStatus (n : Nat) : Nat := n * 0x1000 + 0x008
def rMtCktol (n : Nat) : Nat := n * 0x1000 + 0x010
def rMtCkstat (n : Nat) : Nat := n * 0x1000 + 0x018
def rMtCklog (n : Nat) : Nat := n * 0x1000 + 0x020
def rMtCkdt (n : Nat) : Nat := n * 0x1000 + 0x028
def rMtRemap (n : Nat) : Nat := n * 0x1000 + 0x030
def rMtCtl (n s : Nat) : Nat := n * 0x1000 + 0x040 + 8 * s
def rMtExc (n b : Nat) : Nat := n * 0x1000 + 0x080 + 8 * b
def rMtPasscnt (n : Nat) : Nat := n * 0x1000 + 0x090

def rVtStatus (n : Nat) : Nat := 0x40000 + n * 0x1000 + 0x008
def rVtFault (n : Nat) : Nat := 0x40000 + n * 0x1000 + 0x010
def rVtFaultdt (n : Nat) : Nat := 0x40000 + n * 0x1000 + 0x018
def rVtBundles (n : Nat) : Nat := 0x40000 + n * 0x1000 + 0x020
def rVtCtl (n s : Nat) : Nat := 0x40000 + n * 0x1000 + 0x040 + 8 * s
def rVtFlags (n s : Nat) : Nat := 0x40000 + n * 0x1000 + 0x080 + 8 * s
def rVtLmwin (n s : Nat) : Nat := 0x40000 + n * 0x1000 + 0x0C0 + 8 * s
def rVtSrm (n s : Nat) : Nat := 0x40000 + n * 0x1000 + 0x100 + 8 * s
def rVtSrv (n s : Nat) : Nat := 0x40000 + n * 0x1000 + 0x140 + 8 * s

def rEsStatus (n : Nat) : Nat := 0x80000 + n * 0x1000 + 0x008
def rEsFault (n : Nat) : Nat := 0x80000 + n * 0x1000 + 0x010
def rEsFaultdt (n : Nat) : Nat := 0x80000 + n * 0x1000 + 0x018
def rEsSfault (n : Nat) : Nat := 0x80000 + n * 0x1000 + 0x020
def rEsSfaultva (n : Nat) : Nat := 0x80000 + n * 0x1000 + 0x028
def rEsSfaultdt (n : Nat) : Nat := 0x80000 + n * 0x1000 + 0x030
def rEsInsns (n : Nat) : Nat := 0x80000 + n * 0x1000 + 0x038
def rEsSlot (n s : Nat) : Nat := 0x80000 + n * 0x1000 + 0x040 + 8 * s
def rEsImwin (n s : Nat) : Nat := 0x80000 + n * 0x1000 + 0x080 + 8 * s
def rEsGate (n g : Nat) : Nat := 0x80000 + n * 0x1000 + 0x800 + 8 * g

def rHbmStatus : Nat := 0x100008
def rHbmSkctl : Nat := 0x100010
def rHbmSklog : Nat := 0x100018
def rHbmSkdt : Nat := 0x100020
def rHbmEcc : Nat := 0x100028
def rHbmPcret : Nat := 0x100030
def rHbmPprth : Nat := 0x100038
def rHbmRgn (r : Nat) : Nat := 0x101000 + 8 * r

def rDdrCfg : Nat := 0x200008
def rDdrGeom : Nat := 0x200010
def rDdrStatus : Nat := 0x200018
def rDdrChstat (c : Nat) : Nat := 0x201000 + 0x100 * c
def rDdrTsel (c : Nat) : Nat := 0x201008 + 0x100 * c
def rDdrTset (c n : Nat) : Nat := 0x201010 + 0x100 * c + 8 * n
def rDdrIdle (c : Nat) : Nat := 0x201020 + 0x100 * c
def rDdrSched (c : Nat) : Nat := 0x201028 + 0x100 * c
def rDdrActth (c : Nat) : Nat := 0x201030 + 0x100 * c
def rDdrEvth (c : Nat) : Nat := 0x201038 + 0x100 * c
def rDdrEcc (c : Nat) : Nat := 0x201040 + 0x100 * c
def rDdrRankmap (c : Nat) : Nat := 0x201048 + 0x100 * c
def rDdrRret (c : Nat) : Nat := 0x201050 + 0x100 * c
def rDdrEvlog (c : Nat) : Nat := 0x201058 + 0x100 * c
def rDdrEvdt (c : Nat) : Nat := 0x201060 + 0x100 * c

def rCxl (p o : Nat) : Nat := 0x300000 + 0x1000 * (p + 1) + o
def rCxlPctl (p : Nat) : Nat := rCxl p 0x00
def rCxlPstat (p : Nat) : Nat := rCxl p 0x08
def rCxlLink (p : Nat) : Nat := rCxl p 0x10
def rCxlDevid (p : Nat) : Nat := rCxl p 0x18
def rCxlCap (p : Nat) : Nat := rCxl p 0x20
def rCxlErr (p : Nat) : Nat := rCxl p 0x28
def rCxlEvdt (p : Nat) : Nat := rCxl p 0x30

def rEth (p o : Nat) : Nat := 0x400000 + 0x1000 * (p + 1) + o
def rEthPcfg (p : Nat) : Nat := rEth p 0x00
def rEthPstat (p : Nat) : Nat := rEth p 0x08
def rEthFecth (p : Nat) : Nat := rEth p 0x10
def rEthMac (p : Nat) : Nat := rEth p 0x18
def rEthFec (p s : Nat) : Nat := rEth p (0x20 + 8 * s)
def rEthSpdt (p s : Nat) : Nat := rEth p (0x40 + 8 * s)
def rEthDscpmap (p m : Nat) : Nat := rEth p (0x60 + 8 * m)
def rEthRxdrop (p : Nat) : Nat := rEth p 0xA0

/-- A register of the lane block of lane `l` (L00 to L47): ETH0, ETH1, CXL0, CXL1. -/
def rLane (l o : Nat) : Nat :=
  if l < 16 then rEth (l / 8) (0x800 + 0x40 * (l % 8) + o)
  else rCxl ((l - 16) / 16) (0x800 + 0x40 * ((l - 16) % 16) + o)
def rLctl (l : Nat) : Nat := rLane l 0x00
def rLstat (l : Nat) : Nat := rLane l 0x08
def rLeye (l : Nat) : Nat := rLane l 0x10
def rLeyedt (l : Nat) : Nat := rLane l 0x18

def rCtCtl : Nat := 0x500008
def rCtCc : Nat := 0x500010
def rCtPath : Nat := 0x500018
def rCtPorts : Nat := 0x500020
def rCtRxerr : Nat := 0x500028
def rCtTxcnt : Nat := 0x500030
def rCtPtpctl : Nat := 0x500040
def rCtPtpstat : Nat := 0x500048
def rCtDtoff : Nat := 0x500050
def rCtDtoffdt : Nat := 0x500058
def rCtPtplat (p : Nat) : Nat := 0x500060 + 8 * p
def rCtPeer (i : Nat) : Nat := 0x510000 + 8 * i
def rCtHost (p : Nat) : Nat := 0x530000 + 8 * p

def rNocStat : Nat := 0x600008
def rNocTrctl (b : Nat) : Nat := 0x600100 + 8 * b
def rNocPrb (p o : Nat) : Nat := 0x600200 + 0x40 * p + o
def rNocPrbctl (p : Nat) : Nat := rNocPrb p 0x00
def rNocPrbmatch (p : Nat) : Nat := rNocPrb p 0x08
def rNocPrbmask (p : Nat) : Nat := rNocPrb p 0x10
def rNocPrbpkt (p : Nat) : Nat := rNocPrb p 0x18
def rNocPrbbyte (p : Nat) : Nat := rNocPrb p 0x20
/-- Regulator `k` of source `s`: 0 on-chip, 1 HBM, 2 DDR5, 3 CXL, 4 Ethernet; 5 is NOC_RGSTAT. -/
def rNocRg (s k : Nat) : Nat := 0x601000 + 0x40 * s + 8 * k

def rFabRstat (f : Nat) : Nat := 0x700100 + 8 * f
def rFabRdt (f : Nat) : Nat := 0x700300 + 8 * f
def rFabClk (f : Nat) : Nat := 0x700500 + 8 * f
def rFabPort (p : Nat) : Nat := 0x700700 + 8 * p

def rCfgStat : Nat := 0x800008
def rCfgKeystat : Nat := 0x800010
def rCfgBbkey (w : Nat) : Nat := 0x800018 + 8 * w
def rCfgBbctl : Nat := 0x800038
def rCfgLdlog : Nat := 0x800040
def rCfgLddt : Nat := 0x800048
def rCfgFlash : Nat := 0x800050
def rCfgRbctl : Nat := 0x800058
def rCfgRbdt : Nat := 0x800060
def rCfgRbdata (w : Nat) : Nat := 0x800100 + 8 * w

def rBrw (u o : Nat) : Nat := 0x900100 + 0x40 * u + o
def rBrwCtl (u : Nat) : Nat := rBrw u 0x00
def rBrwStat (u : Nat) : Nat := rBrw u 0x08
def rBrwCnt (u : Nat) : Nat := rBrw u 0x10
def rBrwLog (u : Nat) : Nat := rBrw u 0x18
def rBrwLogdt (u : Nat) : Nat := rBrw u 0x20
def rBrwSweepdt (u : Nat) : Nat := rBrw u 0x28

def rSecStat : Nat := 0xA00008
def rSecPolicy : Nat := 0xA00010
def rSecMeas (w : Nat) : Nat := 0xA00018 + 8 * w
def rSecBootdt : Nat := 0xA00048
def rSecDbgnonce : Nat := 0xA00050
def rSecDcstat : Nat := 0xA00058
def rSecPlog : Nat := 0xA00060

def rQpId : Nat := 0xB00000
def rQpStatus : Nat := 0xB00008
def rQpPart (p : Nat) : Nat := 0xB00100 + 8 * p
def rQpPevt (p : Nat) : Nat := 0xB00140 + 8 * p
def rQpPreg (p : Nat) : Nat := 0xB00180 + 8 * p
def rQpQ (q : Nat) : Nat := 0xB10000 + 8 * q
def rQpQreg (q : Nat) : Nat := 0xB30000 + 8 * q

def rPwrReady : Nat := 0xC00008
def rPwrGov : Nat := 0xC00010
def rPwrStat : Nat := 0xC00018
def rPwrLpctl : Nat := 0xC00020
def rPwrAlert : Nat := 0xC00028
def rPwrAlertdt : Nat := 0xC00030
def rPwrZero : Nat := 0xC00038
def rPwrEng (n : Nat) : Nat := 0xC00100 + 8 * n
def rPwrRail (k : Nat) : Nat := 0xC00300 + 8 * k
def rPwrRtr (i : Nat) : Nat := 0xC00400 + 8 * i

def rRstCause : Nat := 0xD00008
def rRstCausedt : Nat := 0xD00010
def rRstWd : Nat := 0xD00018
def rRstHlog : Nat := 0xD00020
def rRstHlogdt : Nat := 0xD00028
def rRstHrec : Nat := 0xD00030

def rDmpBase : Nat := 0xE00008
def rDmpHost : Nat := 0xE00010
def rDmpStat : Nat := 0xE00018
def rDmpLen : Nat := 0xE00020
def rDmpDt : Nat := 0xE00028

def rMigRate : Nat := 0xF00000
def rMigStat (e : Nat) : Nat := 0xF00100 + 8 * e

/-- The value of a register after power-on reset (R10), from the Reset columns; the values that depend
on the register's own number are those of MT_ID, VT_ID, ES_ID, HBM_RGN, QP_PART and QP_PEVT. -/
def regReset (off : Nat) : W64 :=
  let d := match regDef off with | none => 0 | some d => d.reset
  let extra :=
    if off < 0xC0000 ∧ off % 0x1000 = 0 then (off / 0x1000) % 64
    else if 0x101000 ≤ off ∧ off < 0x101000 + 8 * 378 then
      let r := (off - 0x101000) / 8
      fv 4 9 r + fv 2 2 (r % 4)
    else if off = 0xB00100 then fv 63 1 1 + fv 52 11 1 + fv 14 15 16
    else if off = 0xB00140 then fv 32 15 16
    else 0
  BitVec.ofNat 64 (d + extra)

end Sys2Proof.Machine
end

