-- ==== Sys2Proof/Machine/Status.lean ====
section
/-! DEFINITION. The status codes of Table 9.8 (R12, R262). -/

namespace Sys2Proof.Machine

/-- SUCCESS (kind C): Completed. -/
def stSuccess : Nat := 0x0000
/-- CHECK_TOLERANCE_MISS (kind C): A pass was delivered after a tolerance miss (R77). -/
def stCheckToleranceMiss : Nat := 0x0001
/-- TEARDOWN_SCRUBBED (kind C): Pages scrubbed after the 2 ms bound. -/
def stTeardownScrubbed : Nat := 0x0002
/-- EVENT_LOST (kind E): Events dropped (R260). -/
def stEventLost : Nat := 0x0003
/-- OPCODE_INVALID (kind C): Undefined opcode. -/
def stOpcodeInvalid : Nat := 0x0100
/-- CMD_FIELD_INVALID (kind C): Reserved field or operand value out of range. -/
def stCmdFieldInvalid : Nat := 0x0101
/-- DESC_INVALID (kind C, F): Descriptor fault (R136, R167, R174). -/
def stDescInvalid : Nat := 0x0102
/-- MPASS_SHAPE (kind C, F): Shape fault (R130, R131, R167). -/
def stMpassShape : Nat := 0x0103
/-- CHAIN_ROW_SPAN (kind C, F): Row statistic over a spanning row (R171, R172). -/
def stChainRowSpan : Nat := 0x0104
/-- BLOCK_MISALIGNED (kind C): R36. -/
def stBlockMisaligned : Nat := 0x0105
/-- CVT_CONTROL_INVALID (kind C, F): R44. -/
def stCvtControlInvalid : Nat := 0x0106
/-- FORMAT_UNSUPPORTED (kind C): R50. -/
def stFormatUnsupported : Nat := 0x0107
/-- ES_ILLEGAL_INSN (kind F): R122. -/
def stEsIllegalInsn : Nat := 0x0108
/-- ES_IMEM_RANGE (kind C, F): R122, R254. -/
def stEsImemRange : Nat := 0x0109
/-- ES_MISALIGNED (kind F): R122. -/
def stEsMisaligned : Nat := 0x010A
/-- VT_ILLEGAL_BUNDLE (kind F): Table 4.9. -/
def stVtIllegalBundle : Nat := 0x010B
/-- VT_MISALIGNED (kind F): Table 4.9. -/
def stVtMisaligned : Nat := 0x010C
/-- VT_MEM_RANGE (kind F): Table 4.9, Table 5.8, R147. -/
def stVtMemRange : Nat := 0x010D
/-- MIG_PAGE_SIZE (kind C): R200. -/
def stMigPageSize : Nat := 0x010E
/-- NO_SLOT (kind C): R253. -/
def stNoSlot : Nat := 0x0200
/-- NO_SPACE (kind C): R253, R255. -/
def stNoSpace : Nat := 0x0201
/-- GATE_IN_USE (kind C): R253. -/
def stGateInUse : Nat := 0x0202
/-- QUOTA_EXCEEDED (kind C): R234, R236, R248. -/
def stQuotaExceeded : Nat := 0x0203
/-- IN_USE (kind C): Resource in use (R234, R236, R252, R254). -/
def stInUse : Nat := 0x0204
/-- CTX_EXISTS (kind C): Table 9.4. -/
def stCtxExists : Nat := 0x0205
/-- NOT_PLACED (kind C): R254, R256. -/
def stNotPlaced : Nat := 0x0206
/-- VT_ARM_LIMIT (kind F): Table 4.9. -/
def stVtArmLimit : Nat := 0x0207
/-- VT_HANDLER_OVERRUN (kind F): Table 4.9. -/
def stVtHandlerOverrun : Nat := 0x0208
/-- GATE_OVERFLOW (kind F): R142. -/
def stGateOverflow : Nat := 0x0209
/-- HBM_SLICE_CONFLICT (kind C): R189, R201. -/
def stHbmSliceConflict : Nat := 0x020A
/-- MIG_NO_STAGING (kind C): R201. -/
def stMigNoStaging : Nat := 0x020B
/-- MIG_ABORTED (kind C): Table 7.7. -/
def stMigAborted : Nat := 0x020C
/-- TIER_NOT_READY (kind C): Table 9.4. -/
def stTierNotReady : Nat := 0x020D
/-- ENGINE_RETIRED (kind C): R253. -/
def stEngineRetired : Nat := 0x020E
/-- DIMM_REFUSED (kind E): R208, R209. -/
def stDimmRefused : Nat := 0x020F
/-- NOT_OWNER (kind C, E): Resource of another partition (R238, R242, R259). -/
def stNotOwner : Nat := 0x0300
/-- NOT_MANAGEMENT (kind C): R241. -/
def stNotManagement : Nat := 0x0301
/-- GATE_NOT_OWNED (kind F): R141. -/
def stGateNotOwned : Nat := 0x0302
/-- PERM_FAULT (kind C, F): Table 5.8, Table 7.4, R236, R251. -/
def stPermFault : Nat := 0x0303
/-- CONTEXT_STALE (kind C): Generation tag does not match. -/
def stContextStale : Nat := 0x0304
/-- MASTER_FROZEN (kind C): Table 9.4. -/
def stMasterFrozen : Nat := 0x0305
/-- CONTEXT_TORN_DOWN (kind C): R257. -/
def stContextTornDown : Nat := 0x0306
/-- IMAGE_SIGNATURE (kind C): A signature failed (Boot, identity and isolation). -/
def stImageSignature : Nat := 0x0307
/-- IMAGE_ROLLBACK (kind C): Anti-rollback counter not met (Boot, identity and isolation). -/
def stImageRollback : Nat := 0x0308
/-- FROZEN (kind E): A master was frozen (R258). -/
def stFrozen : Nat := 0x0309
/-- XLATE_FAULT (kind C, F): Table 5.8, Table 7.4, R270. -/
def stXlateFault : Nat := 0x0400
/-- MEM_HOLE (kind C, F): Table 7.4, Table 7.14, R270. -/
def stMemHole : Nat := 0x0401
/-- POISON (kind C, F): LD of poisoned data, or a descriptor, parameter block or table entry read from a poisoned line (R134, Table 7.4); a command's operand block or list read from a poisoned line (R134, R270); elsewhere the POISON flag. -/
def stPoison : Nat := 0x0402
/-- REG_MISALIGNED (kind C): R8. -/
def stRegMisaligned : Nat := 0x0403
/-- CXL_LINK_DOWN (kind C, E): Table 7.6. -/
def stCxlLinkDown : Nat := 0x0404
/-- SKEW (kind E): R192. -/
def stSkew : Nat := 0x0405
/-- ACT_STORM (kind E): R221. -/
def stActStorm : Nat := 0x0406
/-- DDR_SKEW (kind E): R222. -/
def stDdrSkew : Nat := 0x0407
/-- RANK_RETIRE (kind E): R229. -/
def stRankRetire : Nat := 0x0408
/-- DDR_EXHAUSTED (kind E): R227. -/
def stDdrExhausted : Nat := 0x0409
/-- HBM_PC_RETIRE (kind E): R196. -/
def stHbmPcRetire : Nat := 0x040A
/-- HBM_EXHAUSTED (kind E): R197. -/
def stHbmExhausted : Nat := 0x040B
/-- CXL_MEDIA (kind E): Table 7.6. -/
def stCxlMedia : Nat := 0x040C
/-- CHECK_UNRESOLVED (kind C): R77. -/
def stCheckUnresolved : Nat := 0x0500
/-- LINE_REMAP (kind E): R78. -/
def stLineRemap : Nat := 0x0501
/-- ENGINE_RETIRE (kind E): R79. -/
def stEngineRetire : Nat := 0x0502
/-- FRAME_OUT_OF_REGION (kind C): Partial load refused (Configuration loading, partial reconfiguration and browse). -/
def stFrameOutOfRegion : Nat := 0x0600
/-- FRAME_CRC (kind C): Frame check failed (same chapter). -/
def stFrameCrc : Nat := 0x0601
/-- REGION_FENCED (kind C): Region fenced or EMPTY (same chapter). -/
def stRegionFenced : Nat := 0x0602
/-- BRW_UNCORRECTABLE (kind E): Multi-bit upset found by browse. -/
def stBrwUncorrectable : Nat := 0x0603
/-- STOT_RANK_DUP (kind E): R178. -/
def stStotRankDup : Nat := 0x0700
/-- PEER_UNKNOWN (kind C): Peer-table entry not set. -/
def stPeerUnknown : Nat := 0x0701
/-- PEER_FROZEN (kind C, E): Table 9.6. -/
def stPeerFrozen : Nat := 0x0702
/-- PEER_UNREACHABLE (kind C): Peer lost (Coroc transport, peers and device time). -/
def stPeerUnreachable : Nat := 0x0703
/-- PORT_DOWN (kind E): An Ethernet port failed. -/
def stPortDown : Nat := 0x0704
/-- DEVICE_FAULT (kind C): Internal fault of the queue processor or firmware. -/
def stDeviceFault : Nat := 0x0F00
/-- ENGINE_HANG (kind C, E): Guilty context of a hang (Reset domains, hangs and recovery). -/
def stEngineHang : Nat := 0x0F01
/-- DUMP_READY (kind E): A dump has been sent to HP0. -/
def stDumpReady : Nat := 0x0F02

/-- An error is any status outside class 0x00xx (R245). -/
def isError (st : Nat) : Bool := decide (0x100 ≤ st)

end Sys2Proof.Machine
end

