-- ==== Sys2Proof/Machine/State.lean ====
section
/-! DEFINITION. The state of the P1, whole: registers, memory, engines, contexts, partitions, queues,
commands, the transport, the links, the network, the fabric, the memory controllers, security, power and
recovery; and the reasons a step can stop. -/

namespace Sys2Proof.Machine

/-- The reasons the machine stops with a fault. No meaning raises one: the P1 reports every fault in
its own state. Safe: a stop allows nothing that the hardware forbids. -/
inductive Fault where
  /-- Raised by no meaning. Safe. -/
  | halted
deriving DecidableEq, Repr

/-- The reasons a command has no meaning. -/
inductive Refusal where
  /-- Raised by the dispatcher for a command that is not modelled yet. Safe: nothing is claimed of it. -/
  | notModelled (mnemonic : String)
  /-- Raised by JTAG_INSTRUCTION for an instruction other than BYPASS and IDCODE on a part that is open
  or unlocked: the spec names none of them and gives none an effect (R394). Safe. -/
  | jtagPrivate
deriving DecidableEq, Repr

/-- The state of the P1. -/
structure State where
  /-- The commands and events that are waiting, first in, first out. -/
  pending : List Instr
  /-- The model's own counter of free values taken. -/
  free : Nat
  /-- Device time (R11). -/
  dt : W64
  /-- The registers, by offset from 0xFF00_0000_0000; an unlisted one holds its reset value (R10). -/
  regs : Tab W64
  /-- Device memory: HBM by pseudo-channel and offset, every other region by device address. -/
  mem : List Host.Cell
  /-- The 64-byte lines that are poisoned, by memory key divided by 64 (R134). -/
  poison : Tab Bool
  /-- The four HBM hash keys K[0] to K[3] (R191). -/
  hbmKeys : Tab W64
  engs : Tab Engine
  ctxs : Tab Ctx
  parts : Tab Part
  queues : Tab Queue
  cmds : List Cmd
  nextCmd : Nat
  reds : List Reduction
  moves : List MovePage
  rekeys : List Rekey
  works : List Work
  pcRets : List PcRet
  hbmHot : Tab Hot
  /-- Errors that reads of HBM have met (R194, R195). -/
  hbmErrs : List HbmErr
  ddr : Ddr
  health : Health
  net : Net
  noc : Noc
  fab : Fab
  links : Links
  sec : Sec
  pwr : Pwr
  rst : Rst
deriving DecidableEq, Repr

/-- The state after power-on reset. -/
def State.reset : State :=
  { pending := [], free := 0, dt := 0, regs := [], mem := [], poison := [], hbmKeys := [], engs := [],
    ctxs := [], parts := [], queues := [], cmds := [], nextCmd := 1, reds := [], moves := [], rekeys := [],
    works := [], pcRets := [], hbmHot := [], hbmErrs := [], ddr := {}, health := { copyA := some (0, []) }, net := {}, noc := {},
    fab := {}, links := {}, sec := {}, pwr := {}, rst := {} }

end Sys2Proof.Machine
end

