-- ==== Sys2Proof/Machine/Ops.lean ====
section
/-! DEFINITION. The named operations over registers, memory, engines, contexts, commands and events that
the meanings share. -/

namespace Sys2Proof.Machine

/-! ### Fields of words -/

/-- Field [lo + n - 1 : lo] of a word. -/
def bf (w : W64) (lo n : Nat) : Nat := bitsOf w.toNat lo n

/-- The word with field [lo + n - 1 : lo] set to `v`. -/
def bset (w : W64) (lo n v : Nat) : W64 :=
  (w &&& ~~~(BitVec.ofNat 64 (fm lo n))) ||| BitVec.ofNat 64 (fv lo n v)

/-- Adds to a saturating count field. -/
def bsat (w : W64) (lo n k : Nat) : W64 := bset w lo n (min (2 ^ n - 1) (bf w lo n + k))

/-- A log register's word when a new entry is written over it: VALID in bit 0 is set, and OVERRUN in bit
1 is set where VALID already was (Tables 3.12, 4.12, 5.14, 5.16, 7.11, 8.9, 14.12, 14.14, 15.13, 17.12). -/
def logWord (old : W64) (new : Nat) : W64 :=
  BitVec.ofNat 64 (new + 1 + 2 * (if bf old 0 1 = 1 then 1 else bf old 1 1))

/-! ### Registers -/

/-- A register as it is stored; an unlisted one holds its reset value. -/
def State.reg (s : State) (off : Nat) : W64 := tget (regReset off) s.regs off

def State.setReg (s : State) (off : Nat) (v : W64) : State :=
  { s with regs := tset (regReset off) s.regs off v }

def State.updReg (s : State) (off : Nat) (f : W64 → W64) : State := s.setReg off (f (s.reg off))

/-- A field of a register. -/
def State.fld (s : State) (off lo n : Nat) : Nat := bf (s.reg off) lo n

def State.setFld (s : State) (off lo n v : Nat) : State := s.updReg off (fun w => bset w lo n v)

/-! ### Free values -/

/-- The next free value, taken. -/
def State.takeFree (s : State) : Nat × State := (Config.freeNat s.free, { s with free := s.free + 1 })

/-- A free value below 2^n. -/
def State.takeBits (s : State) (n : Nat) : Nat × State :=
  (Config.freeNat s.free % 2 ^ n, { s with free := s.free + 1 })

/-! ### Is the device running? -/

/-- The device runs: it is not held in power-on reset, has not tripped, and its pins are not in boundary scan
(R400, R417, R394). -/
def State.runs (s : State) : Bool := s.pwr.up && !s.pwr.tripped && !s.sec.scanning

/-! ### Engines, slots, contexts -/

def State.eng (s : State) (n : Nat) : Engine := tget {} s.engs n
def State.setEng (s : State) (n : Nat) (e : Engine) : State := { s with engs := tset {} s.engs n e }
def State.updEng (s : State) (n : Nat) (f : Engine → Engine) : State := s.setEng n (f (s.eng n))

def Engine.slot (e : Engine) (k : Nat) : Slot := tget {} e.slots k
def Engine.setSlot (e : Engine) (k : Nat) (x : Slot) : Engine := { e with slots := tset {} e.slots k x }

def State.slot (s : State) (n k : Nat) : Slot := (s.eng n).slot k
def State.setSlot (s : State) (n k : Nat) (x : Slot) : State := s.setEng n ((s.eng n).setSlot k x)
def State.updSlot (s : State) (n k : Nat) (f : Slot → Slot) : State := s.setSlot n k (f (s.slot n k))

def State.ctx (s : State) (c : Nat) : Ctx := tget {} s.ctxs c
def State.setCtx (s : State) (c : Nat) (x : Ctx) : State := { s with ctxs := tset {} s.ctxs c x }
def State.updCtx (s : State) (c : Nat) (f : Ctx → Ctx) : State := s.setCtx c (f (s.ctx c))

def State.part (s : State) (p : Nat) : Part := tget {} s.parts p
def State.setPart (s : State) (p : Nat) (x : Part) : State := { s with parts := tset {} s.parts p x }
def State.updPart (s : State) (p : Nat) (f : Part → Part) : State := s.setPart p (f (s.part p))

def State.queue (s : State) (q : Nat) : Queue := tget {} s.queues q
def State.setQueue (s : State) (q : Nat) (x : Queue) : State := { s with queues := tset {} s.queues q x }
def State.updQueue (s : State) (q : Nat) (f : Queue → Queue) : State := s.setQueue q (f (s.queue q))

/-- Is `x` inside the range of `n` from `lo`? -/
def inRange (lo n x : Nat) : Bool := decide (lo ≤ x) && decide (x < lo + n)

/-- The partition whose context range holds `c` (QP_PART, Table 9.12), enabled or not. -/
def State.partOfCtx (s : State) (c : Nat) : Option Nat :=
  (List.range 8).find? (fun p => inRange (s.fld (rQpPart p) 42 10) (s.fld (rQpPart p) 52 11) c)

/-- The partition whose queue range holds `q`. -/
def State.partOfQueue (s : State) (q : Nat) : Option Nat :=
  (List.range 8).find? (fun p => inRange (s.fld (rQpPart p) 0 14) (s.fld (rQpPart p) 14 15) q)

def State.partEnabled (s : State) (p : Nat) : Bool := s.fld (rQpPart p) 63 1 == 1

/-- Does a hang procedure replay the command of context c? -/
def Hang.replays (h : Hang) (c : Nat) : Bool := match h.st with | .replay x _ => x == c | _ => false

/-- Does a hang procedure stop the work of context c on engine n (R440): it is the hung engine's and not the one being
replayed, or c is a suspect whose turn has not come? Before the engine reset the engine itself is frozen, until it is
unfrozen. -/
def State.hangStops (s : State) (n c : Nat) : Bool :=
  s.rst.hangs.any (fun h => h.eng == n && !h.replays c && (h.st != .dump || (s.eng n).hung)) ||
    (s.rst.hangs.any (fun h => h.suspects.any (fun x => x.1 == c)) && !s.rst.hangs.any (fun h => h.replays c))

/-- Is the work of context `c` on engine `n` frozen (R151, R258, R440)? -/
def State.frozenOn (s : State) (n c : Nat) : Bool :=
  (s.ctx c).frozen.isSome || (s.eng n).frozen.isSome || s.hangStops n c

/-- Is a slot's context frozen here? -/
def State.slotFrozen (s : State) (n k : Nat) : Bool := s.frozenOn n (s.slot n k).ctx

/-- The slot that context `c` holds on engine `n`, if any. -/
def State.slotOf (s : State) (n c : Nat) : Option Nat :=
  (List.range 8).find? (fun k => let x := s.slot n k; x.st != .empty && x.ctx == c)

/-! ### Events (R258, R260, R261) -/

/-- An event occurs for partition `p`; it waits until EVENT_RECORD writes or drops it. -/
def State.event (s : State) (p code : Nat) (c : Option Nat) (arg0 arg1 : Nat) : State :=
  let g := match c with | none => 0 | some x => (s.ctx x).gen
  let ev : Event :=
    { code := code, ctx := c.getD 0, gen := g, dt := s.dt,
      arg0 := BitVec.ofNat 64 arg0, arg1 := BitVec.ofNat 64 arg1 }
  s.updPart p (fun x => { x with events := x.events ++ [ev] })

/-- The FROZEN event of a master: its kind as FREEZE codes it, its number and the cause (Table 9.7). -/
def State.frozenEvent (s : State) (p kind num cause : Nat) (c : Option Nat) : State :=
  s.event p stFrozen c (fv 0 3 kind + fv 16 14 num + fv 32 16 cause) 0

/-! ### Commands -/

def State.cmd (s : State) (id : Nat) : Option Cmd := s.cmds.find? (fun c => c.id == id)

def State.updCmd (s : State) (id : Nat) (f : Cmd → Cmd) : State :=
  { s with cmds := s.cmds.map (fun c => if c.id = id then f c else c) }

/-- A command meets a status: the first error sets STATUS; otherwise the highest informational code
(R245). -/
def Cmd.meet (c : Cmd) (st : Nat) : Cmd :=
  if isError c.status then c
  else if isError st then { c with status := st }
  else { c with status := max c.status st }

def Cmd.addFlags (c : Cmd) (f : Fl) : Cmd :=
  { c with inv := c.inv || f.inv, ovf := c.ovf || f.ovf, sat := c.sat || f.sat }

/-- The first slot, stream, thread or engine of a command begins (Table 9.5, START). -/
def State.beginCmd (s : State) (id : Nat) : State :=
  s.updCmd id (fun c => if c.started then c else { c with started := true, start := s.dt })

/-- Takes a finished command off the held and running ones and puts it among the records its queue has
still to write (R239, R244). -/
def State.finishCmd (s : State) (id : Nat) : State :=
  match s.cmd id with
  | none => s
  | some c =>
    let c := { c with st := .done, fin := s.dt, start := if c.started then c.start else s.dt }
    ({ s with cmds := s.cmds.filter (fun d => d.id != id) }).updQueue c.q (fun x => { x with recs := x.recs ++ [c] })

/-- How many commands of queue q are accepted and not completed: a command completes once its remote writes
are acknowledged too (R239, R249). -/
def State.inflight (s : State) (q : Nat) : Nat :=
  (s.cmds.filter (fun d => d.q == q)).length + ((s.queue q).recs.filter (fun d => !d.ops.isEmpty)).length

/-- Finishes a command with a status. -/
def State.endCmd (s : State) (id st : Nat) : State := (s.updCmd id (fun c => c.meet st)).finishCmd id

/-! ### Regions and loads (R347, R366) -/

/-- STATE of region f in FAB_RSTAT: 0 EMPTY, 1 LOADING, 2 HOLD, 3 RELEASING, 4 ACTIVE, 5 BLANKING. -/
def State.regSt (s : State) (f : Nat) : Nat := s.fld (rFabRstat f) 0 3

/-- The parts of a region that run by clocks of their own: a reconfigurable region is one, FS (48) has a half on each die. -/
def halvesOf (f : Nat) : List Nat := if f < 48 then [f] else [48, 49]

/-- Changes the logic of region f where it is configured. -/
def State.updLogic (s : State) (f : Nat) (g : Logic → Logic) : State :=
  { s with fab := { s.fab with logic := s.fab.logic.map (fun x => if (halvesOf f).contains x.1 then (x.1, g x.2) else x) } }

/-- The global reset is asserted: every flip-flop holds INIT, and no clock domain has left reset (R330, R348, R350). -/
def Logic.hold (x : Logic) : Logic := { x with ffs := [], left := [] }

/-- Region f enters a state, with the stage it has taken. The global reset is asserted but from stage 3 on. -/
def State.setRegSt (s : State) (f st stage : Nat) : State :=
  let t := (s.setFld (rFabRstat f) 0 3 st).setFld (rFabRstat f) 4 2 stage
  let t := if stage = 3 then t else t.updLogic f Logic.hold
  if s.regSt f = st then t else t.setReg (rFabRdt f) s.dt

/-- The regions that a load fills or clears: a full load clears all. -/
def FLoad.regions (l : FLoad) : List Nat := if l.full then List.range 49 else l.mask

/-- The dies that a list of regions lies on. -/
def regionDies (fs : List Nat) : List Nat :=
  (if fs.any (fun f => decide (f < 24) || f == 48) then [0] else []) ++ (if fs.any (fun f => decide (24 ≤ f)) then [1] else [])

def FLoad.dies (l : FLoad) : List Nat := regionDies l.regions

/-- Regions of a list that are not EMPTY become BLANKING. -/
def State.toBlank (s : State) (fs : List Nat) : State :=
  fs.foldl (fun s f => if s.regSt f = 0 then s else s.setRegSt f 5 0) s

/-- A load stops, and what it holds is blanked. -/
def State.stopLoad (s : State) (l : FLoad) : State :=
  let todo := if l.st = .ports then [] else l.regions.filter (fun f => s.regSt f != 0)
  let l' : FLoad := { l with st := .failing, todo := todo, cmd := 0 }
  let ls := s.fab.loads.flatMap (fun x => if x = l then (if todo.isEmpty then [] else [l']) else [x])
  let gs := s.fab.groups.filter (fun g => !g.any todo.contains)
  { s.toBlank todo with fab := { s.fab with loads := ls, groups := gs } }

/-- The loads of a frozen context stop, and their commands complete at once (R245, Table 14.10). -/
def State.stopLoads (s : State) (c : Nat) : State :=
  (s.fab.loads.filter (fun l => l.ctx == c && !l.blank && l.cmd != 0)).foldl
    (fun s l => (s.stopLoad l).finishCmd l.cmd) s

/-! ### Freezing a context (R151, R245, R258) -/

/-- A fault or violation freezes context `c` with a cause; its partition is told, with the event's ARG1. -/
def State.freezeArg (s : State) (c cause arg1 : Nat) : State :=
  if (s.ctx c).frozen.isSome then s
  else
    let s := (s.updCtx c (fun x => { x with frozen := some cause })).stopLoads c
    match s.partOfCtx c with
    | none => s
    | some p => s.event p stFrozen (some c) (fv 0 3 1 + fv 16 14 c + fv 32 16 cause) arg1

/-- The same where no rule gives ARG1 a content. -/
def State.freezeCtx (s : State) (c cause : Nat) : State := s.freezeArg c cause 0

/-- The same, by a command's own work: the fault is an error of that command (R245). -/
def State.faultCtx (s : State) (c cmd cause : Nat) : State :=
  let was := (s.ctx c).frozen.isSome
  let s := s.freezeCtx c cause
  if was then s else s.updCmd cmd (fun x => { x.meet cause with froze := true })

/-! ### The device map (R180, R181) -/

/-- Regions of the device map. -/
inductive Region where
  | hbm (r : Nat)
  | ddr
  | cxl (p : Nat)
  | store (e : Nat)
  | pool (h : Nat)
  | fabric (f : Nat)
  | regs
  | hole
deriving DecidableEq, Repr

def ddrBase : Nat := 0x100000000000
def cxlBase (p : Nat) : Nat := 0x200000000000 + p * 0x10000000000
def storeBase (e : Nat) : Nat := 0xF00000000000 + e * 0x2000000
def poolBase (h : Nat) : Nat := 0xF00080000000 + h * 0x4000000
def fabBase (f : Nat) : Nat := 0xF40000000000 + f * 0x100000000
def regBase : Nat := 0xFF0000000000

/-- Bytes of an engine store, and of the part that contexts can address. -/
def storeBytes : Nat := 0x1800000
def storeOpen : Nat := 0x177E000

/-- Rows per bank: 2^16, 2^17 or 2^18 (R209), by DDR_GEOM.DENS. -/
def State.ddrRows (s : State) : Nat :=
  match s.fld rDdrGeom 18 2 with | 0 => 0 | d => 2 ^ (15 + d)
/-- Reserve rows per bank, mapped ranks per channel, physical ranks per channel (R211). -/
def State.ddrRsvr (s : State) : Nat := s.fld rDdrGeom 44 18
def State.ddrNr (s : State) : Nat := s.fld rDdrGeom 15 3
def State.ddrPr (s : State) : Nat := s.fld rDdrGeom 12 3
/-- CHLIST: the channels of the tier, rising (R209). -/
def State.chList (s : State) : List Nat := (List.range 8).filter (fun c => s.fld rDdrGeom c 1 == 1)

/-- Capacity of the DDR5 tier in bytes (R211). -/
def State.ddrCap (s : State) : Nat :=
  s.chList.length * s.ddrNr * 64 * (s.ddrRows - s.ddrRsvr) * 8192

/-- Mapped capacity of an expander in bytes (CXL_CAP.CAP, in units of 256 MiB). -/
def State.cxlCap (s : State) (p : Nat) : Nat := s.fld (rCxlCap p) 0 13 * 2 ^ 28

/-- The region of a device address. A disabled HBM region and unfitted capacity are holes (Tables 7.1
and 7.14). -/
def State.region (s : State) (a : Nat) : Region :=
  if a < 378 * 2 ^ 30 then
    let r := a / 2 ^ 30
    if s.fld (rHbmRgn r) 14 1 = 1 then .hbm r else .hole
  else if ddrBase ≤ a ∧ a < ddrBase + s.ddrCap then .ddr
  else if cxlBase 0 ≤ a ∧ a < cxlBase 0 + s.cxlCap 0 then .cxl 0
  else if cxlBase 1 ≤ a ∧ a < cxlBase 1 + s.cxlCap 1 then .cxl 1
  else if storeBase 0 ≤ a ∧ a < storeBase 64 then
    if (a - storeBase 0) % 0x2000000 < storeBytes then .store ((a - storeBase 0) / 0x2000000) else .hole
  else if poolBase 0 ≤ a ∧ a < poolBase 8 then .pool ((a - poolBase 0) / 0x4000000)
  else if fabBase 0 ≤ a ∧ a < fabBase 49 then .fabric ((a - fabBase 0) / 0x100000000)
  else if regBase ≤ a ∧ a < regBase + 2 ^ 24 then .regs
  else .hole

/-- Does a grant cover one device address (R185, R452)? A store's grant leaves out its save areas. -/
def Grant.covers (g : Grant) (a : Nat) : Bool :=
  match g.kind with
  | 0 => decide (g.lo ≤ a) && decide (a < g.lo + g.size)
  | 1 => decide (storeBase g.lo ≤ a) && decide (a < storeBase g.lo + storeOpen)
  | 2 => decide (poolBase g.lo ≤ a) && decide (a < poolBase (g.lo + 1))
  | 3 => decide (fabBase g.lo ≤ a) && decide (a < fabBase (g.lo + 1))
  | _ => false

/-- Has a revoke taken effect: every command it waits for has completed (R452)? -/
def State.revoked (s : State) (r : Revoke) : Bool := s.cmds.all (fun c => !r.waits.contains c.id)

/-- Is a device address granted to partition p, with no revoke of it in effect? -/
def State.granted (s : State) (p a : Nat) : Bool :=
  (s.part p).grants.any (fun g => g.covers a) && !(s.part p).revoking.any (fun r => r.grant.covers a && s.revoked r)

/-! ### HBM placement (R189, R190, R201) -/

/-- The hash of R190: the xor of the eight `w`-bit pieces of z. -/
def hashFold (w z : Nat) : Nat :=
  (List.range 8).foldl (fun h c => h ^^^ ((z >>> (w * c)) % 2 ^ w)) 0

/-- Where an address of region `r` lies: pseudo-channel and byte offset, for a mode, a slice and a key
word (R190). -/
def hbmPlace (r mode slice key a : Nat) : Nat × Nat :=
  let g := (a >>> 8) % 2 ^ 22
  let w := if mode = 0 then 9 else 8
  let first := if mode = 2 then 256 else 0
  let lo := g % 2 ^ w
  let hi := g >>> w
  let z := (key ^^^ hi ^^^ (hi <<< 11) ^^^ (hi <<< 23) ^^^ (r <<< 50)) % 2 ^ 64
  (first + (lo ^^^ hashFold w z), slice * 0x200000 + hi * 256 + a % 256)

def State.hbmKey (s : State) (k : Nat) : Nat := (tget (0 : W64) s.hbmKeys k).toNat

/-- A place in HBM as a memory key. -/
def hbmCell (pl : Nat × Nat) : Nat := pl.1 * 2 ^ 30 + pl.2

/-- Where slice s of a retired pseudo-channel p goes (R195): a pseudo-channel of the same stack, and the
byte offset there. -/
def spareCell (p off : Nat) : Nat × Nat :=
  let sl := off / 0x200000
  let i := sl / 6
  (p / 64 * 64 + (if i < p % 64 then i else i + 1), (378 + sl % 6) * 0x200000 + off % 0x200000)

/-- A place in HBM behind the retirements: what a retirement has copied lies in the spare (R196). -/
def State.hbmReloc (s : State) (pl : Nat × Nat) : Nat × Nat :=
  if s.pcRets.any (fun r => r.pc == pl.1 && (r.finished || decide (pl.2 / 65536 < r.cursor))) then
    spareCell pl.1 pl.2
  else pl

/-- The old and the new placement of an address of a region that is being re-keyed (R201). -/
def State.oldPlace (s : State) (r a : Nat) : Nat × Nat :=
  let w := s.reg (rHbmRgn r)
  hbmPlace r (bf w 0 2) (bf w 4 9) (s.hbmKey (bf w 2 2)) a
def State.newPlace (s : State) (k : Rekey) (a : Nat) : Nat × Nat :=
  hbmPlace k.r (s.fld (rHbmRgn k.r) 0 2) (s.fld (rHbmRgn k.t) 4 9) (s.hbmKey k.key) a

/-! ### DDR5 mapping (R212, R228) -/

/-- The procedure of R212, with the logical rank. -/
def State.ddrDecode (s : State) (a : Nat) : DdrLine :=
  let t := a - ddrBase
  let l := s.chList
  let nch := max 1 l.length
  let nr := max 1 s.ddrNr
  let u := t / 128
  let c0 := u % 2
  let u := u / 2
  let ch := l.getD (u % nch) 0
  let u := u / nch
  let bg := u % 8
  let u := u / 8
  let cl := c0 + 2 * (u % 64)
  let u := u / 64
  let ba := u % 4
  let u := u / 4
  let row := u / nr
  { ch := ch, rank := u % nr, sub := (t / 64) % 2, bank := 4 * (bg ^^^ (row % 8)) + (ba ^^^ (row / 8 % 4)),
    row := row, col := cl }

/-- The mapped ranks of the tier other than (ch, q), in the order of R228: channel, then logical rank. -/
def State.otherRanks (s : State) (ch q : Nat) : List (Nat × Nat) :=
  (s.chList.flatMap (fun c => (List.range s.ddrNr).map (fun r => (c, r)))).filter (fun x => x != (ch, q))

/-- The 64 KiB chunk of a rank that a line lies in: ascending row, bank, subchannel, column (R229). -/
def DdrLine.chunk (l : DdrLine) : Nat := ((l.row * 32 + l.bank) * 2 + l.sub) / 8

/-- The reserve's line for a line of a rank retired into it, with its logical rank (R228). -/
def State.reserveLine (s : State) (l : DdrLine) : DdrLine :=
  let o := s.otherRanks l.ch l.rank
  let n := max 1 o.length
  let d := o.getD (l.row % n) (0, 0)
  { l with ch := d.1, rank := d.2, row := s.ddrRows - s.ddrRsvr + l.row / n }

/-- Physical rank of logical rank q of channel ch (DDR_RANKMAP). -/
def State.physRank (s : State) (ch q : Nat) : Nat := s.fld (rDdrRankmap ch) (2 * q) 2

/-- Has a retirement moved a line: its copy is complete, or has passed the line's chunk? -/
def RankRet.moved (r : RankRet) (l : DdrLine) : Bool := r.finished || decide (l.chunk < r.cursor)

/-- A line with its logical rank replaced by the physical one, behind a retirement into the spare. -/
def State.spareLine (s : State) (l : DdrLine) : DdrLine :=
  match s.ddr.rets.find? (fun r => r.ch == l.ch && r.q == l.rank && r.dest == 0) with
  | some r => if r.moved l then { l with rank := r.spare } else { l with rank := s.physRank l.ch l.rank }
  | none => { l with rank := s.physRank l.ch l.rank }

/-- The physical line of a line with its logical rank, behind every retirement. -/
def State.physLine (s : State) (l : DdrLine) : DdrLine :=
  match s.ddr.rets.find? (fun r => r.ch == l.ch && r.q == l.rank && r.dest == 1) with
  | some r => if r.moved l then s.spareLine (s.reserveLine l) else s.spareLine l
  | none => s.spareLine l

/-- A physical line as a memory key. -/
def DdrLine.key (l : DdrLine) : Nat :=
  ddrBase + (((((l.ch * 4 + l.rank) * 2 + l.sub) * 32 + l.bank) * 2 ^ 18 + l.row) * 128 + l.col) * 64

def isDdr (a : Nat) : Bool := decide (ddrBase ≤ a) && decide (a < cxlBase 0)

/-- The physical line of a DDR5 address. -/
def State.ddrLine (s : State) (a : Nat) : DdrLine := s.physLine (s.ddrDecode a)

/-- The memory key of a device address: HBM by where its line lies, which under a re-key is the new place below
the cursor (R201) and behind a retirement the spare (R196); DDR5 by its physical line; everything else by its
address. -/
def State.memKey (s : State) (a : Nat) : Nat :=
  if a < 378 * 2 ^ 30 then
    let r := a / 2 ^ 30
    let pl :=
      match s.rekeys.find? (fun k => k.r == r && decide (a % 2 ^ 30 / 65536 < k.cursor)) with
      | some k => s.newPlace k a
      | none => s.oldPlace r a
    hbmCell (s.hbmReloc pl)
  else if isDdr a then (s.ddrLine a).key + a % 64
  else a

/-! ### Memory that has gone (R199, R227) -/

/-- The CXL port of a device address, if any. -/
def cxlPortOf (a : Nat) : Option Nat :=
  if cxlBase 0 ≤ a ∧ a < cxlBase 1 then some 0
  else if cxlBase 1 ≤ a ∧ a < cxlBase 2 then some 1 else none

/-- Is a CXL port up with its expander mapped? (CXL_PSTAT.STATE 4, Table 11.11.) -/
def State.cxlUp (s : State) (p : Nat) : Bool := s.fld (rCxlPstat p) 0 3 == 4

/-- Is an address on a lost CXL link, an offline DDR5 rank or a channel that initialises (R410): a read of it gives
poisoned data and a write is dropped? -/
def State.lost (s : State) (a : Nat) : Bool :=
  match cxlPortOf a with
  | some p => !s.cxlUp p
  | none =>
    isDdr a && (let l := s.ddrLine a; s.ddr.offline.contains (l.ch, l.rank) || s.ddr.initing.contains l.ch)

/-! ### Bytes of memory -/

/-- What a byte of memory that nothing has written reads as: 0, as zeroing leaves it (R409). -/
def emptyByte : Byte := 0

/-- The canonical form of memory: addresses strictly rising, no entry equal to what an unlisted address
reads as. -/
abbrev Memory.wf (m : List Host.Cell) : Bool := twf emptyByte m

/-- The byte at a device address, whatever its region (no check). -/
def State.byte (s : State) (a : Nat) : Byte := tget emptyByte s.mem (s.memKey a)

def State.setByte (s : State) (a : Nat) (b : Byte) : State :=
  { s with mem := tset emptyByte s.mem (s.memKey a) b }

/-- Is the 64-byte line of a device address poisoned? -/
def State.poisoned (s : State) (a : Nat) : Bool := tget false s.poison (s.memKey a / 64)

def State.setPoison (s : State) (a : Nat) (v : Bool) : State :=
  { s with poison := tset false s.poison (s.memKey a / 64) v }

/-- `n` bytes from a device address. -/
def State.bytes (s : State) (a : Nat) : Nat → List Byte
  | 0 => []
  | n + 1 => s.byte a :: s.bytes (a + 1) n

def State.setBytes (s : State) (a : Nat) : List Byte → State
  | [] => s
  | b :: bs => (s.setByte a b).setBytes (a + 1) bs

/-- The number that bytes spell, lowest first (R7). -/
def leNat : List Byte → Nat
  | [] => 0
  | b :: bs => b.toNat + 256 * leNat bs

/-- The `n` bytes of a number, lowest first (R7). -/
def leBytes (n v : Nat) : List Byte := (List.range n).map (fun i => BitVec.ofNat 8 (v >>> (8 * i)))

/-- A 64-bit word at a device address. -/
def State.word (s : State) (a : Nat) : W64 := BitVec.ofNat 64 (leNat (s.bytes a 8))

/-- A write of bytes clears the poison of the lines it covers whole (R187), and keeps the marks of the
others. -/
def State.clearWhole (s : State) (a n : Nat) : State :=
  let first := (a + 63) / 64
  let last := (a + n) / 64
  (List.range (last - first)).foldl (fun s i => s.setPoison ((first + i) * 64) false) s

/-- Marks every line that a range of bytes touches. -/
def State.markLines (s : State) (a n : Nat) : State :=
  if n = 0 then s
  else (List.range ((a + n - 1) / 64 - a / 64 + 1)).foldl (fun s i => s.setPoison ((a / 64 + i) * 64) true) s

/-- Is any line that a range touches poisoned? -/
def State.anyPoison (s : State) (a n : Nat) : Bool :=
  if n = 0 then false
  else (List.range ((a + n - 1) / 64 - a / 64 + 1)).any (fun i => s.poisoned ((a / 64 + i) * 64))

/-- Writes bytes at a device address, with or without the poison mark (R134, R187). -/
def State.putBytes (s : State) (a : Nat) (bs : List Byte) (poison : Bool) : State :=
  let s := s.setBytes a bs
  if poison then s.markLines a bs.length else s.clearWhole a bs.length

/-! ### Translation (R183 to R185) -/

/-- What a translation gives: a device address, or the status it faults with. -/
inductive Xl where
  | ok (a : Nat)
  | bad (st : Nat)
deriving DecidableEq, Repr

/-- The rows of Table 7.4 that test where a leaf leads, for context `c` of partition `p`. -/
def State.leafCheck (s : State) (c p a : Nat) (allowed : Bool) : Xl :=
  match s.region a with
  | .hole => .bad stMemHole
  | .regs => if c = 0 then (if allowed then .ok a else .bad stPermFault) else .bad stPermFault
  | _ => if !s.granted p a then .bad stPermFault else if allowed then .ok a else .bad stPermFault

/-- Is an entry at a level a leaf (Table 7.3)? -/
def isLeaf (lv : Nat) (w : W64) : Bool := lv == 0 || (decide (lv < 3) && bf w 3 1 == 1)

/-- The findings of Table 7.4's first row on an entry at a level: not valid, a reserved bit, LEAF at L3, a misaligned
page. -/
def entryBad (lv : Nat) (w : W64) : Bool :=
  bf w 0 1 == 0 || bf w 48 16 != 0 || bf w 4 8 != 0 || (lv == 3 && bf w 3 1 == 1) ||
    (isLeaf lv w && bf w 12 36 * 4096 % 2 ^ (12 + 9 * lv) != 0)

/-- One table of a walk at a level: the entry's word, or a fault; the findings in the order of Table 7.4. -/
def State.tableEntry (s : State) (lv table idx : Nat) : W64 ⊕ Nat :=
  let a := table + 8 * idx
  if 378 * 2 ^ 30 ≤ a then .inr stXlateFault
  else if s.region a = .hole then .inr stMemHole
  else
    let w := s.word a
    if entryBad lv w then .inr stXlateFault
    else if s.poisoned a then .inr stPoison
    else .inl w

/-- A leaf at page size 2^`sh`. -/
def State.leafAt (s : State) (c p va sh : Nat) (w : W64) (write : Bool) : Xl :=
  let base := bf w 12 36 * 4096
  s.leafCheck c p (base + va % 2 ^ sh) (if write then bf w 2 1 == 1 else bf w 1 1 == 1)

/-- The walk from level `lv` (3 is the root): tables of 512 entries, leaves at L2, L1 and L0. -/
def State.walk (s : State) (c p va : Nat) (write : Bool) : Nat → Nat → Xl
  | 0, table =>
    match s.tableEntry 0 table ((va >>> 12) % 512) with
    | .inr st => .bad st
    | .inl w => s.leafAt c p va 12 w write
  | lv + 1, table =>
    let sh := 12 + 9 * (lv + 1)
    match s.tableEntry (lv + 1) table ((va >>> sh) % 512) with
    | .inr st => .bad st
    | .inl w =>
      if isLeaf (lv + 1) w then s.leafAt c p va sh w write
      else s.walk c p va write lv (bf w 12 36 * 4096)

/-- Translates a virtual address of context `c` (R183 to R185). An address beyond 2^48 - 1 has no
translation. C0 without a root reaches the device address equal to its address. -/
def State.translate (s : State) (c : Nat) (va : Int) (write : Bool) : Xl :=
  if va < 0 ∨ (2 ^ 48 : Int) ≤ va then .bad stXlateFault
  else
    let v := va.toNat
    match s.partOfCtx c with
    | none => .bad stPermFault
    | some p =>
      match (s.ctx c).root with
      | some r => s.walk c p v write 3 r
      | none => if c = 0 then s.leafCheck 0 p v true else .bad stXlateFault

/-- Is an address of context `c` on a page that a PAGE_MOVE is moving (R200 step 1)? -/
def State.moving (s : State) (c va : Nat) : Bool :=
  s.moves.any (fun m => m.ctx == c && decide (m.va ≤ va) && decide (va < m.va + m.size))

end Sys2Proof.Machine
end

