-- ==== Sys2Proof/Machine/Cells.lean ====
section
/-! DEFINITION. What the logic of the fabric computes: look-up tables, splices, carry chains, routing, flip-flops (R330 to R335,
R345, R346, R351). What each of them is set to is Config's, from the logic frames. -/

namespace Sys2Proof.Machine

/-! ### Where the parts lie -/

/-- The region of a part: both halves of FS are region 48. -/
def partRegion (h : Nat) : Nat := min h 48

/-- The part's clusters: 60 columns of 100 rows, cluster (column, row) as 100 × column + row, rows rising to the north. -/
def clusters : Nat := 6000

/-- The part's block RAMs (Table 13.1). -/
def ramsOf (h : Nat) : Nat := if h < 48 then 500 else 288

/-- The half of FS that a region exchanges boundary signals with: that of its die. -/
def fsHalf (f : Nat) : Nat := 48 + f / 24

/-- The logic frames of a part as they stand, by INDEX with the bits. -/
def State.logicFrames (s : State) (h : Nat) : List (Nat × Nat) :=
  (s.fab.frames.filter (fun e => e.1 % 64 == h && e.1 / 64 % 2 == 0)).map (fun e =>
    (e.1, e.2 ^^^ (((tget [] s.fab.upsets e.1).filter (· < 4096)).map (fun b => 2 ^ b)).sum))

/-- The last stage of the release that part h has taken: 3 where it is ACTIVE, none where it is neither that nor RELEASING. -/
def State.partStage (s : State) (h : Nat) : Nat :=
  let f := partRegion h
  if s.regSt f = 4 then 3 else if s.regSt f = 3 then s.fld (rFabRstat f) 4 2 else 0

/-! ### Combinational logic (R330, R331, R333, R334) -/

/-- What a part sees of a signal from the other half of FS. -/
def State.crossed (s : State) (h i : Nat) : Bool := (tget {} s.fab.logic h).crossed.testBit i

/-- The bit that an output of a block-RAM port shows: data, the flag of a corrected word (64), that of an uncorrectable
one (65). -/
def RamOut.bit (o : RamOut) (i : Nat) : Bool := if i = 64 then o.fixed else if i = 65 then o.bad else o.data.testBit i

/-- The two inputs of splice i (0 to 3: SPL1_k, 4 and 5: SPL2_m, 6: SPL3), at select 0 and at select 1 (Table 13.2). -/
def spliceIn (c i : Nat) : Wire × Wire :=
  if i < 4 then (.lut c (2 * i), .lut c (2 * i + 1))
  else if i < 6 then (.splice c (2 * (i - 4)), .splice c (2 * (i - 4) + 1))
  else (.splice c 4, .splice c 5)

/-- The splice output that is assigned to a cell as a D source (Table 13.2): C(2k) has SPL1_k, C(4m + 1) SPL2_m, C3 SPL3. C7
has none; a setting that names one there takes SPL3 (DESIGN CHOICE: log 101). -/
def spliceOf (k : Nat) : Nat := if k % 2 = 0 then k / 2 else if k % 4 = 1 then 4 + k / 4 else 6

/-- What is evaluated: a net; a cell's carry input or carry output; a pin's value, through its net. -/
inductive Node where
  | net (n : Wire)
  | cin (c k : Nat)
  | cout (c k : Nat)
  | pin (p : Pin)
deriving DecidableEq, Repr

/-- The value of a node of part h. A design without a loop through look-up tables, splices and carries has fewer than 2^26 of
them on any path; the value on a loop is a free value. Boundary outputs of a region that is not past stage 1 read 0
(R351), as do those of FS. -/
def State.eval (s : State) : Nat → Nat → Node → Bool
  | 0, h, _ => (Config.freeByte s.free h).getLsbD 1
  | n + 1, h, x =>
    let fr := s.logicFrames h
    let cell (c k : Nat) : CellCfg := Config.fabCell fr c k
    match x with
    | .pin p => s.eval n h (.net (Config.fabRoute fr p))
    | .cin c k =>
      match (cell c k).ci with
      | .zero => false
      | .one => true
      | .routed => s.eval n h (.pin (.ci c))
      | .chain =>
        if k ≠ 0 then s.eval n h (.cout c (k - 1)) else if c % 100 = 0 then false else s.eval n h (.cout (c - 1) 7)
    | .cout c k =>
      if (cell c k).carry then
        if s.eval n h (.net (.lut c k)) then s.eval n h (.cin c k) else s.eval n h (.pin (.cell c k 0))
      else false
    | .net (.const v) => v
    | .net (.lut c k) =>
      let i (j : Nat) : Nat := if s.eval n h (.pin (.cell c k j)) then 2 ^ j else 0
      (cell c k).lut.getLsbD (i 0 + i 1 + i 2 + i 3)
    | .net (.ff c k) =>
      let cfg := cell c k
      let cl := Config.fabCluster fr c
      if s.partStage h < 3 ∨ tget 0 (tget {} s.fab.logic h).left cl.clock < 2 then cfg.init
      else if cl.async && s.eval n h (.pin (.rst c)) then cfg.rval
      else xor cfg.init (tget false (tget {} s.fab.logic h).ffs (8 * c + k))
    | .net (.splice c i) =>
      if s.eval n h (.pin (.sel c i)) then s.eval n h (.net (spliceIn c i).2) else s.eval n h (.net (spliceIn c i).1)
    | .net (.inb i) =>
      if h < 48 then 1 ≤ s.partStage (fsHalf h) && s.eval n (fsHalf h) (.pin (.out (512 * h + i % 512)))
      else
        let f := i / 512
        decide (f < 48) && fsHalf f == h && decide (1 ≤ s.partStage f) && s.eval n f (.pin (.out (i % 512)))
    | .net (.cross i) => s.crossed h i
    | .net (.ram b p i) =>
      let r := tget {} (tget {} s.fab.logic h).rams b
      let q := if p = 0 then r.a else r.b
      (if (Config.fabRam fr b p).outReg then q.reg else q.read).bit i
    | .net (.dt i) => (tget {} s.fab.logic h).dtBus.getLsbD i
    | .net (.hard i) => (Config.freeByte s.free (h * 2 ^ 16 + i)).getLsbD 2

/-- Enough for every path that does not close on itself. -/
def depth : Nat := 2 ^ 26

def State.netOf (s : State) (h : Nat) (x : Wire) : Bool := s.eval depth h (.net x)
def State.pinOf (s : State) (h : Nat) (p : Pin) : Bool := s.eval depth h (.pin p)

/-- A number on pins, bit 0 first. -/
def State.pinsOf (s : State) (h n : Nat) (p : Nat → Pin) : Nat :=
  ((List.range n).map (fun i => if s.pinOf h (p i) then 2 ^ i else 0)).sum

/-! ### Flip-flops (R330, R331, R348) -/

/-- The D input of a cell. -/
def State.dOf (s : State) (h c k : Nat) : Bool :=
  match (Config.fabCell (s.logicFrames h) c k).d with
  | .lut => s.netOf h (.lut c k)
  | .splice => s.netOf h (.splice c (spliceOf k))
  | .carry => xor (s.netOf h (.lut c k)) (s.eval depth h (.cin c k))
  | .i3 => s.pinOf h (.cell c k 3)

/-- What a flip-flop holds next, where the clocks of a list rise: RVAL under its reset net, D under the clock enable, and else
what it held. A domain that has not left the global reset holds INIT. -/
def State.ffNext (s : State) (h : Nat) (rise : List Nat) (c k : Nat) : Bool :=
  let fr := s.logicFrames h
  let cfg := Config.fabCell fr c k
  let cl := Config.fabCluster fr c
  let now := s.netOf h (.ff c k)
  if s.partStage h < 3 ∨ tget 0 (tget {} s.fab.logic h).left cl.clock < 2 then cfg.init
  else if ¬ rise.contains cl.clock then now
  else if s.pinOf h (.rst c) then cfg.rval
  else if s.pinOf h (.ce c) then s.dOf h c k
  else now

/-- The flip-flops of part h that do not hold their INIT next. -/
def State.ffsNext (s : State) (h : Nat) (rise : List Nat) : Tab Bool :=
  ((List.range clusters).flatMap (fun c => (List.range 8).map (fun k => (c, k)))).filterMap (fun x =>
    if xor (s.ffNext h rise x.1 x.2) (Config.fabCell (s.logicFrames h) x.1 x.2).init then some (8 * x.1 + x.2, true)
    else none)

end Sys2Proof.Machine
end

