-- ==== Sys2Proof/Machine/Rams.lean ====
section
/-! DEFINITION. The block RAMs of the fabric: ports, widths, modes, collisions and ECC (R336 to R339). -/

namespace Sys2Proof.Machine

/-! ### Contents -/

/-- `w` bits of a block RAM from bit `lo` set to `v`. -/
def putBits (m lo w v : Nat) : Nat := m - (bitsOf m lo w <<< lo) + ((v % 2 ^ w) <<< lo)

/-- Each byte of `n` bits is that of `x` or that of `y`: which one is free (R337). -/
def mixBytes (pick : Nat → Bool) (n x y : Nat) : Nat :=
  ((List.range ((n + 7) / 8)).map (fun i => bitsOf (if pick i then y else x) (8 * i) 8 <<< (8 * i))).sum

/-- Do two accesses touch the same address: do their bits meet? -/
def RamCycle.meets (x y : RamCycle) : Bool := decide (x.lo < y.lo + y.width) && decide (y.lo < x.lo + x.width)

/-! ### ECC (R338) -/

/-- How many of a word's 72 bits differ from what its check bits encode. -/
def ones (n : Nat) : Nat := ((List.range 72).filter (fun i => n.testBit i)).length

/-- A word as a port with ECC gives it: a single flipped bit is corrected, two are found for certain, of three or more the
code may find none, or correct a wrong bit. -/
def eccRead (word skew : Nat) : RamOut :=
  if ones skew = 0 then { data := word }
  else if ones skew = 1 then { data := word ^^^ (skew % 2 ^ 64), fixed := true }
  else if ones skew = 2 then { data := word, bad := true }
  else
    match Config.ramJudge skew with
    | none => { data := word }
    | some none => { data := word, bad := true }
    | some (some x) => { data := (word ^^^ x) % 2 ^ 64, fixed := true }

/-! ### One clock edge of the ports -/

/-- What a port's inputs ask for at a rising edge of its clock: the address, data, write enable and byte enables. -/
structure RamAsk where
  addr : Nat
  din : Nat
  we : Bool
  be : Nat
deriving DecidableEq, Repr

/-- The data that a write leaves in its bits: by byte enables at a width of 64. -/
def RamAsk.merged (a : RamAsk) (w old : Nat) : Nat :=
  if w < 64 then a.din % 2 ^ w
  else ((List.range 8).map (fun i => bitsOf (if a.be.testBit i then a.din else old) (8 * i) 8 <<< (8 * i))).sum

/-- Is the ask a write of fewer than eight bytes under ECC: a read, merge and write, one cycle longer? -/
def RamAsk.partial' (a : RamAsk) (cfg : RamPortCfg) : Bool := cfg.ecc && cfg.wlog == 6 && a.we && a.be % 256 != 255

/-- The access that an ask is, of what the block RAM holds. -/
def Ram.cycle (r : Ram) (cfg : RamPortCfg) (a : RamAsk) : RamCycle :=
  let w := 2 ^ (cfg.wlog : Nat)
  let lo := a.addr % (32768 / w) * w
  let old := bitsOf r.bits lo w
  { lo := lo, width := w, wr := a.we && !a.partial' cfg, old := old, new := if a.we then a.merged w old else old }

/-- The contents after a write. Its check bits follow where the port has ECC; a write by another width leaves them. -/
def Ram.write (r : Ram) (cfg : RamPortCfg) (x : RamCycle) : Ram :=
  let word := x.lo / 64
  { r with bits := putBits r.bits x.lo x.width x.new,
           skew := if cfg.ecc && cfg.wlog == 6 then tset 0 r.skew word 0
                   else if x.width = 64 then tset 0 r.skew word (tget 0 r.skew word ^^^ (x.old ^^^ x.new))
                   else tset 0 r.skew word (tget 0 r.skew word ^^^ ((x.old ^^^ x.new) <<< (x.lo % 64))) }

/-- What a port reads at an access, of the bits as given. -/
def Ram.reads (r : Ram) (cfg : RamPortCfg) (x : RamCycle) (v : Nat) : RamOut :=
  if cfg.ecc && cfg.wlog == 6 then eccRead v (tget 0 r.skew (x.lo / 64)) else { data := v }

/-- What the port shows after an edge: the read data, or by its mode after a write (R336); where the other port writes the
same address in a cycle that overlaps, each byte read is the old or the new one (R337). -/
def portOut (r : Ram) (cfg : RamPortCfg) (pick : Nat → Bool) (was : RamOut) (a : RamAsk) (x : RamCycle)
    (other : Option RamCycle) (bits : Nat) : RamOut :=
  if a.we then
    match cfg.mode with
    | .writeFirst => { data := x.new }
    | .readFirst => r.reads cfg x x.old
    | .noChange => was
  else
    match other with
    | none => r.reads cfg x x.old
    | some y =>
      if y.wr && x.meets y then
        let before := putBits (putBits bits x.lo x.width x.old) y.lo y.width y.old
        let after := putBits (putBits bits x.lo x.width x.old) y.lo y.width y.new
        r.reads cfg x (mixBytes pick x.width (bitsOf before x.lo x.width) (bitsOf after x.lo x.width))
      else r.reads cfg x x.old

/-- The merge that a port has due is written (R338). -/
def Ram.settle (r : Ram) (p : Fin 2) : Ram :=
  let q := if p = 0 then r.a else r.b
  match q.merge with
  | none => r
  | some (word, be, din) =>
    let old := (eccRead (bitsOf r.bits (64 * word) 64) (tget 0 r.skew word)).data
    let a : RamAsk := { addr := word, din := din, we := true, be := be }
    let r := { r with bits := putBits r.bits (64 * word) 64 (a.merged 64 old), skew := tset 0 r.skew word 0 }
    if p = 0 then { r with a := { r.a with merge := none } } else { r with b := { r.b with merge := none } }

/-- Port p after an edge with an ask. -/
def RamPort.edge (q : RamPort) (out : RamOut) (a : RamAsk) (cfg : RamPortCfg) (x : RamCycle) : RamPort :=
  { read := out, reg := q.read, cyc := some x, merge := if a.partial' cfg then some (x.lo / 64, a.be, a.din) else none }

/-- A port whose clock does not rise: data that it is reading while the other port writes them is the old or the new one. -/
def RamPort.disturbed (q : RamPort) (pick : Nat → Bool) (r : Ram) (cfg : RamPortCfg) (y : Option RamCycle) : RamPort :=
  match q.cyc, y with
  | some x, some y =>
    if !x.wr && y.wr && x.meets y then
      let after := bitsOf (putBits (putBits r.bits x.lo x.width x.old) y.lo y.width y.new) x.lo x.width
      { q with read := r.reads cfg x (mixBytes pick x.width x.old after) }
    else q
  | _, _ => q

/-- One block RAM, where the clocks of port A, of port B, or of both rise with what they ask for. `pick` gives free bits by
port and byte. -/
def Ram.edge (r : Ram) (ca cb : RamPortCfg) (pick : Nat → Nat → Bool) (a b : Option RamAsk) : Ram :=
  let r := if a.isSome then r.settle 0 else r
  let r := if b.isSome then r.settle 1 else r
  let xa := a.map (r.cycle ca)
  let xb := b.map (r.cycle cb)
  -- The cycle that each port is in: the one that begins now, or the one that it is still in.
  let ya := match xa with | some x => some x | none => r.a.cyc
  let yb := match xb with | some x => some x | none => r.b.cyc
  let pa := match a, xa with
    | some k, some x => r.a.edge (portOut r ca (pick 0) r.a.read k x yb r.bits) k ca x
    | _, _ => r.a.disturbed (pick 0) r ca xb
  let pb := match b, xb with
    | some k, some x => r.b.edge (portOut r cb (pick 1) r.b.read k x ya r.bits) k cb x
    | _, _ => r.b.disturbed (pick 1) r cb xa
  let wrA (r : Ram) : Ram := match xa with | some x => if x.wr then r.write ca x else r | none => r
  let wrB (r : Ram) : Ram := match xb with | some x => if x.wr then r.write cb x else r | none => r
  -- Two writes of the same address in overlapping cycles: each byte is that of one of the two.
  let both : Bool := match ya, yb with | some x, some y => x.wr && y.wr && x.meets y | _, _ => false
  let done := wrB (wrA r)
  let done := if ¬ both then done
    else
      match ya, yb with
      | some x, some y =>
        let lo := min x.lo y.lo
        let n := max x.width y.width
        let ab := putBits (putBits done.bits x.lo x.width x.new) y.lo y.width y.new
        let ba := putBits (putBits done.bits y.lo y.width y.new) x.lo x.width x.new
        { done with bits := putBits done.bits lo n (mixBytes (pick 2) n (bitsOf ab lo n) (bitsOf ba lo n)) }
      | _, _ => done
  { done with a := pa, b := pb }

/-! ### The block RAMs of a part -/

/-- What port p of block RAM b asks for; before stage 2 its write enable is off (R348). -/
def State.ramAsk (s : State) (h b : Nat) (p : Fin 2) : RamAsk :=
  { addr := s.pinsOf h 15 (.addr b p), din := s.pinsOf h 64 (.din b p), be := s.pinsOf h 8 (.be b p),
    we := decide (2 ≤ s.partStage h) && s.pinOf h (.we b p) }

/-- Block RAM b of part h after the clocks of a list rise. -/
def State.ramNext (s : State) (h : Nat) (rise : List Nat) (b : Nat) : Ram :=
  let r := tget {} (tget {} s.fab.logic h).rams b
  let cfg (p : Fin 2) : RamPortCfg := Config.fabRam (s.logicFrames h) b p
  let ask (p : Fin 2) : Option RamAsk := if rise.contains (cfg p).clock then some (s.ramAsk h b p) else none
  r.edge (cfg 0) (cfg 1) (fun p i => (Config.freeByte s.free (((h * 512 + b) * 4 + p) * 16 + i)).getLsbD 0) (ask 0) (ask 1)

def State.ramsNext (s : State) (h : Nat) (rise : List Nat) : Tab Ram :=
  (List.range (ramsOf h)).filterMap (fun b =>
    let r := s.ramNext h rise b
    if r = {} then none else some (b, r))

/-- The initial contents of the block RAMs of part h: frame 8b + s holds bytes 512s to 512s + 511 (R354, R339). -/
def State.ramsInit (s : State) (h : Nat) : Tab Ram :=
  (List.range (ramsOf h)).filterMap (fun b =>
    let v := ((List.range 8).map (fun k => tget 0 s.fab.frames (h + 64 + 256 * (8 * b + k)) <<< (4096 * k))).sum
    if v = 0 then none else some (b, { bits := v }))

/-- A block-RAM frame of a configured part as it stands now (R371). -/
def State.ramFrame (s : State) (h i : Nat) : Option Nat :=
  (oget s.fab.logic h).map (fun x => bitsOf (tget {} x.rams (i / 8)).bits (4096 * (i % 8)) 4096)

end Sys2Proof.Machine
end

