-- ==== Sys2Proof/Machine/Clocks.lean ====
section
/-! DEFINITION. The clocks of the fabric, and what one unit of device time does to its logic (R335, R344 to R346, R348). -/

namespace Sys2Proof.Machine

/-- The logic frames that set the clocks of part h: the halves of FS have the same settings (R344). -/
def State.clockFrames (s : State) (h : Nat) : List (Nat × Nat) := s.logicFrames (min h 48)

/-- The synthesiser's frequency in steps of 1.6 MHz: 250 to 1,000. -/
def synthOf (fr : List (Nat × Nat)) : Nat := 250 + (Config.fabSynth fr).1

/-- The divider of clock c; 0 is off. No clock runs at more than 800 MHz, 500 steps. -/
def dividerOf (fr : List (Nat × Nat)) (c : Fin 4) : Nat :=
  let d : Nat := (Config.fabSynth fr).2 c
  if d = 0 then 0 else max d ((synthOf fr + 499) / 500)

/-- FAB_CLK: the nominal frequencies of the four clocks in units of 25 kHz, 64 to a step. -/
def fabClkWord (fr : List (Nat × Nat)) : W64 :=
  BitVec.ofNat 64 (((List.finRange 4).map (fun c =>
    let d := dividerOf fr c
    fv (16 * (c : Nat)) 16 (if d = 0 then 0 else 64 * synthOf fr / d))).sum)

/-- The slowest clock's divider: its edges are edges of every clock that runs (R344). -/
def slowest (fr : List (Nat × Nat)) : Nat := ((List.finRange 4).map (dividerOf fr)).foldl max 1

/-- The clocks that rise at the synthesiser's edge of a count. -/
def risingAt (fr : List (Nat × Nat)) (count : Nat) : List Nat :=
  ((List.finRange 4).filter (fun c => dividerOf fr c != 0 && count % dividerOf fr c == 0)).map Fin.val

/-- The period of part h as a multiple of nominal, in 1/256: the halves of FS have one each (R19, R345). -/
def State.partStretch (s : State) (h : Nat) : Nat :=
  if h < 48 then s.fld (rFabRstat h) 12 12 else if h = 48 then s.pwr.fs0 else s.pwr.fs1

/-- What crosses from the other half of FS: two or three cycles late, bit by bit (R335). -/
def crossing (pick : Nat → Bool) (samples : List Nat) : Nat :=
  ((List.range 256).map (fun i =>
    if ((samples.getD (if pick i then 1 else 2) 0)).testBit i then 2 ^ i else 0)).sum

/-- Part h after one unit of device time, of what the whole fabric is now. The synthesiser gains (its frequency) × 256 each
unit of 250 ps and rises at 2,500 × its stretch. -/
def State.partTick (s : State) (h : Nat) (x : Logic) : Logic :=
  let fr := s.clockFrames h
  let full := 2500 * s.partStretch h
  let ph := x.phase + 256 * synthOf fr
  if ph < full then { x with phase := ph }
  else
    let rise := risingAt fr x.count
    let x : Logic := { x with phase := ph - full, count := (x.count + 1) % slowest fr }
    let left := if s.partStage h = 3 then
        rise.foldl (fun t c => tset 0 t c (min 2 (tget 0 t c + 1))) x.left
      else x.left
    let samples := s.pinsOf (if h = 48 then 49 else 48) 256 .cross :: x.samples.take 2
    let zero := rise.contains 0
    { x with left := left, ffs := s.ffsNext h rise, rams := s.ramsNext h rise,
             dtBus := if zero then s.dt else x.dtBus,
             samples := if zero ∧ 48 ≤ h then samples else x.samples,
             crossed := if zero ∧ 48 ≤ h then crossing (fun i => (Config.freeByte s.free (h * 512 + i)).getLsbD 3) samples
                        else x.crossed }

/-- One unit of device time for the fabric: every configured part moves on from what the whole is before it. -/
def State.fabTick (s : State) : State :=
  if s.fab.logic = [] then s
  else { s with free := s.free + 1, fab := { s.fab with logic := s.fab.logic.map (fun x => (x.1, s.partTick x.1 x.2)) } }

end Sys2Proof.Machine
end

