-- ==== Sys2Proof/Machine/RegAcc.lean ====
section
/-! DEFINITION. Register accesses under the field types of Table 0.2 (R8, R9), and accesses by device
address. -/

namespace Sys2Proof.Machine

/-- A slot's code in ES_STATUS (Table 5.3). -/
def slotCode (frozen : Bool) (x : Slot) : Nat :=
  match x.st with
  | .empty => 0
  | st => if frozen then 4 else
    match st with
    | .empty => 0 | .ready => 1 | .blocked => 2 | .halted => 3 | .placed => 5

def bankCode : BankSt → Nat
  | .free => 0 | .run => 1 | .parked => 2 | .staged => 3 | .draining => 4 | .saving => 5

/-- ES_STATUS (Table 5.13). -/
def State.esStatus (s : State) (n : Nat) : W64 :=
  BitVec.ofNat 64 (fv 24 3 (s.eng n).esActive +
    ((List.range 8).map (fun k => fv (3 * k) 3 (slotCode (s.slotFrozen n k) (s.slot n k)))).sum)

/-- ES_SLOT (Table 5.20). -/
def State.esSlot (s : State) (n k : Nat) : W64 :=
  let x := s.slot n k
  BitVec.ofNat 64 (fv 44 12 x.gen + fv 42 2 x.cls + fv 32 10 x.ctx + fv 0 16 x.pc)

/-- MT_STATUS (Table 3.9). A bank is accumulating while a pass issues into it, waits for drain once its
issue has ended, and drains until its verdict. -/
def State.mtStatus (s : State) (n : Nat) : W64 :=
  let e := s.eng n
  let code (b : Nat) : Nat :=
    match e.passes.find? (fun p => p.bank == b && (p.phase == .issuing || p.phase == .waiting || p.phase == .drained)) with
    | none => 0
    | some p => match p.phase with | .issuing => 1 | .waiting => 2 | _ => 3
  let cur := e.passes.find? (fun p => p.phase == .issuing)
  let slot := match cur with | none => 0 | some p => p.slot
  let rep := match cur with | none => 0 | some p => if p.replayOf then 1 else 0
  BitVec.ofNat 64 (fv 10 1 rep + fv 9 1 (if e.repair.isSome then 1 else 0) +
    fv 8 1 (if e.retired then 1 else 0) + fv 4 3 slot + fv 2 2 (code 1) + fv 0 2 (code 0))

/-- VT_STATUS (Table 4.11). -/
def State.vtStatus (s : State) (n : Nat) : W64 :=
  let e := s.eng n
  let b0 := tget ({} : Bank) e.banks 0
  let b1 := tget ({} : Bank) e.banks 1
  let act := tget ({} : Bank) e.banks e.active
  BitVec.ofNat 64 (fv 15 1 (if act.handler && act.st == .run then 1 else 0) + fv 14 1 e.active +
    fv 11 3 b1.slot + fv 8 3 (bankCode b1.st) + fv 3 3 b0.slot + fv 0 3 (bankCode b0.st))

/-- MIG_STAT (Table 7.16). -/
def State.migStat (s : State) (e : Nat) : W64 :=
  match s.works.find? (fun w => w.eng == some e) with
  | none => 0
  | some w =>
    let x : Nat × Nat := match w.kind with
      | .pages id => (1, match s.cmd id with | none => 0 | some c => bf (c.words.getD 0 0) 32 10)
      | .rekey _ => (2, 0)
      | _ => (3, 0)
    BitVec.ofNat 64 (fv 32 32 w.chunks + fv 2 10 x.2 + fv 0 2 x.1)

/-- What a die's write port does (CFG_STAT): 0 idle, 1 loading, 2 blanking. -/
def State.portCode (s : State) (die : Nat) : Nat :=
  match s.fab.loads.find? (fun l => l.dies.contains die && l.st != .ports && l.st != .releasing) with
  | none => 0
  | some l => if l.st = .segs then 1 else 2

/-! ### The equaliser of a lane (R291, R292) -/

/-- The DT at which a lane's equaliser stands: now while it adapts, the DT of FREEZE while it is held. -/
def State.eqDt (s : State) (l : Nat) : Nat := (oget s.links.eqHold l).getD s.dt.toNat

/-- CTLE peaking in 0.5 dB steps, and a DFE tap 0 to 15 in mV. -/
def State.laneCtle (s : State) (l : Nat) : Nat := Config.laneCtle l (s.eqDt l)
def State.laneDfe (s : State) (l tap : Nat) : Int := Config.laneDfe l (s.eqDt l) tap

/-- xx_LSTAT (Table 11.13): CTLE and DFE1 of a lane that is in service. -/
def State.lstat (s : State) (l : Nat) : W64 :=
  let w := s.reg (rLstat l)
  if bf w 0 1 = 0 then w else bset (bset w 24 8 (s.laneCtle l)) 16 8 (min 255 (s.laneDfe l 0).natAbs)

/-- The lane whose xx_LSTAT lies at an offset. -/
def lstatLane (off : Nat) : Option Nat := (List.range 48).find? (fun l => rLstat l == off)

/-- The registers whose value is another piece of state. -/
def State.regView (s : State) (off : Nat) : Option W64 :=
  let n := (off / 0x1000) % 64
  let o := off % 0x1000
  if off < 0x40000 then (if o = 0x008 then some (s.mtStatus n) else none)
  else if off < 0x80000 then (if o = 0x008 then some (s.vtStatus n) else none)
  else if off < 0xC0000 then
    if o = 0x008 then some (s.esStatus n)
    else if 0x040 ≤ o ∧ o < 0x080 then some (s.esSlot n ((o - 0x040) / 8)) else none
  else if 0xB30000 ≤ off ∧ off < 0xB50000 then
    let q := (off - 0xB30000) / 8
    some (bset (s.reg off) 32 8 (min 255 (s.inflight q)))
  else if 0x300000 ≤ off ∧ off < 0x500000 then
    match lstatLane off with | some l => some (s.lstat l) | none => none
  else if off = rCfgStat then some (bset (bset (s.reg off) 0 2 (s.portCode 0)) 2 2 (s.portCode 1))
  else if 0xF00100 ≤ off ∧ off < 0xF00140 then some (s.migStat ((off - 0xF00100) / 8))
  else if 0x601000 ≤ off ∧ off < 0x601000 + 0x40 * 0xBA ∧ off % 0x40 = 0x28 then
    let src := (off - 0x601000) / 0x40
    some (bset (s.reg off) 1 1 (if s.ddr.throttles.any (fun t => t.src == src) then 1 else 0))
  else none

/-- What a read of a register gives: RSV and WO bits read zero, a reserved offset reads zero
(Table 0.2). -/
def State.regRead (s : State) (off : Nat) : W64 :=
  match regDef off with
  | none => 0
  | some d =>
    let w := match s.regView off with | some v => v | none => s.reg off
    w &&& ~~~(BitVec.ofNat 64 d.wo)

/-- The value a register holds after a write under its field types: RW bits take the value, W1C bits
that are written as 1 clear, every other bit stays. -/
def mergeWrite (d : RegDef) (old new : W64) : W64 :=
  let rw := BitVec.ofNat 64 d.rw
  let w1c := BitVec.ofNat 64 d.w1c
  (old &&& ~~~rw &&& ~~~(w1c &&& new)) ||| (new &&& rw)

/-- Is a register written only through other commands (R450)? -/
def regReserved (off : Nat) : Bool :=
  let o := off % 0x1000
  (decide (off < 0x40000) && decide (0x040 ≤ o) && decide (o < 0x080)) ||
  (decide (0x40000 ≤ off) && decide (off < 0x80000) && decide (0x040 ≤ o) && decide (o < 0x180)) ||
  (decide (0x80000 ≤ off) && decide (off < 0xC0000) && decide (0x080 ≤ o) && decide (o < 0x0C0)) ||
  (decide (0x101000 ≤ off) && decide (off < 0x101000 + 8 * 378))

/-- A plain write of a register, with none of the actions of its WO fields. -/
def State.regStore (s : State) (off : Nat) (v : W64) : State :=
  match regDef off with
  | none => s
  | some d => s.setReg off (mergeWrite d (s.reg off) v)

/-! ### Accesses by device address -/

/-- What a read by device address gives. -/
inductive Dev where
  | ok (bs : List Byte) (poison : Bool)
  | bad (st : Nat)

end Sys2Proof.Machine
end

