-- ==== Sys2Proof/Machine/Paths.lean ====
section
/-! DEFINITION. Entries of the transport and their paths (R269, R278). -/

namespace Sys2Proof.Machine

/-! ### Times -/

/-- Milliseconds, microseconds and nanoseconds in DT units of 250 ps. -/
def dtMs (n : Nat) : Nat := n * 4000000
def dtUs (n : Nat) : Nat := n * 4000
def dtNs (n : Nat) : Nat := n * 4

/-! ### Entries -/

/-- The register of an entry (Table 10.10). -/
def entReg (i : Nat) : Nat := if i < 16384 then rCtPeer i else rCtHost (i - 16384)

def hostEnt (p : Nat) : Nat := 16384 + p

/-- STATE of an entry: 0 unset, 1 up, 2 frozen, 3 down, 4 clearing. -/
def State.entState (s : State) (i : Nat) : Nat := s.fld (entReg i) 61 3
def State.entPart (s : State) (i : Nat) : Nat := if i < 16384 then s.fld (entReg i) 58 3 else i - 16384
def State.setEntState (s : State) (i v : Nat) : State := s.setFld (entReg i) 61 3 v

/-- An entry goes down, or begins to clear; a frozen one shows it once it is unfrozen (R258). -/
def State.fallEnt (s : State) (i v : Nat) : State :=
  if s.entState i = 2 then
    let e := tget ({} : Entry) s.net.ents i
    { s with net := { s.net with ents := tset {} s.net.ents i { e with kept := v } } }
  else s.setEntState i v

def State.ent (s : State) (i : Nat) : Entry := tget {} s.net.ents i
def State.setEnt (s : State) (i : Nat) (x : Entry) : State :=
  { s with net := { s.net with ents := tset {} s.net.ents i x } }
def State.updEnt (s : State) (i : Nat) (f : Entry → Entry) : State := s.setEnt i (f (s.ent i))

/-- STATE of an entry as if it were not frozen. -/
def State.entLife (s : State) (i : Nat) : Nat := if s.entState i = 2 then (s.ent i).kept else s.entState i

/-- The STATE that an entry has again once it is unfrozen: up, or DOWN or clearing where it had become that. -/
def Entry.thawState (e : Entry) : Nat := if e.kept = 3 ∨ e.kept = 4 then e.kept else 1

/-- An entry freezes, keeping its STATE (R258). -/
def State.iceEnt (s : State) (i : Nat) : State :=
  if s.entState i = 2 then s
  else (s.updEnt i (fun e => { e with kept := s.entState i })).setEntState i 2

def State.emit (s : State) (o : Out) : State := { s with net := { s.net with out := s.net.out ++ [o] } }

/-- MTU payload of an entry in bytes. -/
def State.mtu (s : State) (i : Nat) : Nat :=
  match s.fld (entReg i) 54 3 with | 0 => 1024 | 1 => 4096 | _ => 8192

def seqMod : Nat := 2 ^ 32

/-- How far `b` lies ahead of `a`, modulo 2^32. -/
def seqGap (a b : Nat) : Nat := (b + seqMod - a % seqMod) % seqMod

/-! ### Paths (R278) -/

def State.upSubs (s : State) : List Nat := (List.range 8).filter (fun k => s.fld rCtPorts k 1 == 1)

/-- A new path: a source port drawn at random, on the next of the up sub-ports in turn. -/
def State.newPath (s : State) : Path × State :=
  let r := s.takeBits 14
  let ups := r.2.upSubs
  let sub := ups.getD (s.net.turn % max 1 ups.length) 0
  ({ port := 49152 + r.1, sub := sub }, { r.2 with net := { r.2.net with turn := r.2.net.turn + 1 } })

def State.newPaths (s : State) : Nat → List Path × State
  | 0 => ([], s)
  | n + 1 =>
    let a := s.newPath
    let b := a.2.newPaths n
    (a.1 :: b.1, b.2)

/-- Re-rolls path k of entry i. -/
def State.reroll (s : State) (i k : Nat) : State :=
  let r := s.newPath
  (r.2.updEnt i (fun e => { e with paths := e.paths.set k r.1 })).updReg rCtTxcnt (fun w => bsat w 0 32 1)

end Sys2Proof.Machine
end

