-- ==== Sys2Proof/Machine/EthLink.lean ====
section
/-! DEFINITION. Lanes and Ethernet sub-ports (R289 to R300, R283): eye scans, bring-up, loss of link. -/

namespace Sys2Proof.Machine

/-! ### Lanes (R292, R294, R295) -/

/-- Is a lane in service: its CDR is locked? -/
def State.laneOn (s : State) (l : Nat) : Bool := s.fld (rLstat l) 0 1 == 1

/-- A scan of a lane starts; one of a lane that is not in service completes at once with VALID = 0, and one that is
asked for while BUSY is set is ignored. -/
def State.startScan (s : State) (l : Nat) : State :=
  if s.fld (rLeye l) 1 1 = 1 then s
  else if s.laneOn l then (s.setReg (rLeye l) (bset (bset (bset (s.reg (rLeye l)) 0 1 0) 1 1 1) 2 1 0))
  else ((s.setFld (rLeye l) 0 1 0).setFld (rLeye l) 2 1 0).setReg (rLeyedt l) s.dt

/-- A scan in progress stops (R295). -/
def State.abortScan (s : State) (l : Nat) : State :=
  if s.fld (rLeye l) 1 1 = 1 then
    (s.setReg (rLeye l) (bset (bset (bset (s.reg (rLeye l)) 0 1 0) 1 1 0) 2 1 1)).setReg (rLeyedt l) s.dt
  else s

/-- FREEZE holds a lane's equaliser where it is now, or lets it adapt (R292). -/
def State.holdEq (s : State) (l : Nat) (hold : Bool) : State :=
  { s with links := { s.links with eqHold := oset s.links.eqHold l (if hold then some s.dt.toNat else none) } }

/-- A lane in service at a rate: locked, and adapting unless FREEZE is set, which takes effect now (R292, R305). -/
def State.laneUp (s : State) (l rate : Nat) : State :=
  let hold := s.fld (rLctl l) 4 1
  (s.holdEq l (hold == 1)).setReg (rLstat l) (BitVec.ofNat 64 (fv 8 4 rate + fv 1 1 (1 - hold) + 1))

/-- The transmitter taps of a lane are set anew, by link training or the PCIe procedure (R291). -/
def State.setFfe (s : State) (l : Nat) : State :=
  let r := s.takeFree
  { r.2 with links := { r.2.links with ffe := oset r.2.links.ffe l (some r.1) } }

/-- The taps that a protocol names at a rate code, of three pre-cursor taps, the main tap and two post-cursor taps
(R291). -/
def namedTaps (rate : Nat) : List Nat :=
  if rate = 8 then [0, 1, 2, 3, 4] else if rate = 7 then [1, 2, 3, 4] else if 2 ≤ rate then [2, 3, 4] else []

/-- The six transmitter taps of a lane: the ones that its protocol does not name are held at zero (R291). -/
def State.ffeTaps (s : State) (l : Nat) : List Int :=
  let ts := namedTaps (s.fld (rLstat l) 8 4)
  (List.range 6).map (fun i =>
    match oget s.links.ffe l with
    | some n => if ts.contains i then Config.laneFfe n i else 0
    | none => 0)

/-- A lane that is negotiating or training at a rate; it is not in service. -/
def State.laneTrain (s : State) (l rate : Nat) : State := (s.abortScan l).setReg (rLstat l) (BitVec.ofNat 64 (fv 8 4 rate))

/-- A lane goes off (R293). -/
def State.laneOff (s : State) (l : Nat) : State := (s.abortScan l).setReg (rLstat l) 0

/-- The margins of an eye (R294): left and right in 1/64 UI, up and down in steps of 2 mV. -/
structure Eye where
  hl : Fin 33
  hr : Fin 33
  vu : Fin 64
  vd : Fin 64
deriving DecidableEq, Repr

/-- The eyes of a lane at a rate code: three of PAM4, one of NRZ (Table 11.2). -/
def eyesOf (rate : Nat) (hl hr : ByEye 33) (vu vd : ByEye 64) : List Eye :=
  let e : Eye := ⟨hl.lower, hr.lower, vu.lower, vd.lower⟩
  if 7 ≤ rate then [e, ⟨hl.middle, hr.middle, vu.middle, vd.middle⟩, ⟨hl.upper, hr.upper, vu.upper, vd.upper⟩] else [e]

/-- The horizontal opening HL + HR. -/
def eyeOpen (e : Eye) : Nat := (e.hl : Nat) + (e.hr : Nat)

/-- The eye with the smallest horizontal opening (R294): `pick` where that is one, else the lowest. -/
def worstEye (pick : Nat) (es : List Eye) : Nat :=
  let least (e : Eye) : Bool := eyeOpen e == (es.map eyeOpen).foldl min 64
  if (es[pick]?).any least then pick else es.findIdx least

/-- xx_LEYE after a scan: the smallest of each margin over the eyes, and the eye with the smallest opening (R294). -/
def eyeWord (pick : Nat) (es : List Eye) : Nat :=
  let least (f : Eye → Nat) : Nat := (es.map f).foldl min 64
  fv 40 8 (2 * least (fun e => e.vd)) + fv 32 8 (2 * least (fun e => e.vu)) + fv 24 8 (least (fun e => e.hr)) +
    fv 16 8 (least (fun e => e.hl)) + fv 8 2 (worstEye pick es) + 1

/-- EYE_SCAN_DONE: a scan in progress completes. The margins found at the lower or only eye, the middle and the upper one
are given; of an NRZ lane, the first counts alone. `eye` is the one that EYE names of several that are equally narrow. -/
def execEyeScanDone (l : Fin 48) (hl hr : ByEye 33) (vu vd : ByEye 64) (eye : Fin 3) (s : State) :
    Host.Outcome State Fault Refusal :=
  if s.fld (rLeye l) 1 1 = 0 then .next s
  else
    let w := eyeWord eye (eyesOf (s.fld (rLstat l) 8 4) hl hr vu vd)
    .next ((s.setReg (rLeye l) (BitVec.ofNat 64 w)).setReg (rLeyedt l) s.dt)

/-! ### Sub-ports (Table 11.3, R296) -/

/-- Sub-ports of port p in the mode in force. -/
def State.subCount (s : State) (p : Nat) : Nat :=
  match s.fld (rEthPstat p) 12 2 with | 1 => 2 | 2 => 4 | _ => 1

/-- Lanes of a sub-port. -/
def State.subLanes (s : State) (p k : Nat) : List Nat :=
  let n := 8 / s.subCount p
  if s.subCount p ≤ k then [] else (List.range n).map (fun i => 8 * p + n * k + i)

/-- A sub-port's rate in Gb/s. -/
def State.subRate (s : State) (p : Nat) : Nat := 800 / s.subCount p

/-- STATE of a sub-port: 0 disabled, 1 negotiating, 2 training, 3 aligning, 4 up, 5 hold-off. -/
def State.subSt (s : State) (p k : Nat) : Nat := s.fld (rEthPstat p) (3 * k) 3
def State.setSubSt (s : State) (p k v : Nat) : State := s.setFld (rEthPstat p) (3 * k) 3 v

/-- Is a sub-port enabled: SPEN set, in the mode, and in fawn mode ETH0's first (R385)? -/
def State.subEnabled (s : State) (p k : Nat) : Bool :=
  s.fld (rEthPcfg p) (4 + k) 1 == 1 && decide (k < s.subCount p) && (!s.pwr.fawn || (p == 0 && k == 0))

/-- LINKS is set while a sub-port is up (R411). -/
def State.syncLinks (s : State) : State := s.setFld rPwrReady 5 1 (if s.fld rCtPorts 0 8 = 0 then 0 else 1)

/-! ### Paths of a sub-port (R283) -/

/-- The packets in flight on a path of transport sub-port t are to be retransmitted at once, and the paths on it
are re-rolled. With no sub-port up they wait, and their timers run on (R283). -/
def State.leaveSub (s : State) (i t : Nat) : State :=
  let bad := (s.ent i).paths.zipIdx.filter (fun x => x.1.sub == t)
  let ks := bad.map Prod.snd
  let s := if s.upSubs = [] then s else s.updEnt i (fun e => { e with tx := e.tx.map (fun x =>
    if x.sent && ks.contains x.p.path then { x with sent := false, tries := x.tries + 1, after := 0 } else x) })
  ks.foldl (fun s k => s.reroll i k) s

/-- Every connection leaves transport sub-port t. -/
def State.leaveAll (s : State) (t : Nat) : State := (s.net.ents.map Prod.fst).foldl (fun s i => s.leaveSub i t) s

/-- Paths that lie on no sub-port that is up move to sub-port t, which has come up. -/
def State.joinAll (s : State) (t : Nat) : State :=
  let ups := s.upSubs
  (s.net.ents.map Prod.fst).foldl (fun s i => s.updEnt i (fun e =>
    { e with paths := e.paths.map (fun x => if ups.contains x.sub then x else { x with sub := t }) })) s

/-- A sub-port goes out of service into a state. -/
def State.subOut (s : State) (p k v : Nat) : State :=
  let up := s.subSt p k == 4
  let s := (s.subLanes p k).foldl (fun s l => s.laneOff l) (s.setSubSt p k v)
  let here (i : Nat) : Bool := i / 8 == 4 * p + k
  let s := { s with links := { s.links with
    pauses := s.links.pauses.filter (fun e => !here e.1), rxFill := s.links.rxFill.filter (fun e => !here e.1),
    xoff := s.links.xoff.filter (fun i => !here i), held := s.links.held.filter (fun e => !here e.1) } }
  if up then
    let s := (s.setReg (rEthSpdt p k) s.dt).setFld rCtPorts (4 * p + k) 1 0
    (s.leaveAll (4 * p + k)).syncLinks
  else s

/-! ### Bring-up (Table 11.4, R297) -/

/-- A sub-port begins its bring-up, once start-up has come to it. -/
def State.startSub (s : State) (p k : Nat) : State :=
  let s := s.subOut p k 0
  if ¬ s.pwr.steps.contains 8 ∨ ¬ s.subEnabled p k then s
  else
    let ls := s.subLanes p k
    if s.fld (rEthPcfg p) (16 + k) 1 = 1 then ls.foldl (fun s l => s.laneTrain l 1) (s.setSubSt p k 1)
    else
      let m := s.fld (rEthPcfg p) (20 + 2 * k) 2
      let m := if m = 3 then 0 else m
      let s := (s.setFld (rEthPstat p) (14 + 2 * k) 2 m).setSubSt p k (if m = 2 then 3 else 2)
      ls.foldl (fun s l => s.laneTrain l 8) s

/-- AUTO_NEGOTIATION: resolution picks the common ability, CR or KR; without one the sub-port goes on. -/
def execAutoNegotiation (port : Fin 2) (sub : Fin 4) (media : Option (Fin 2)) (s : State) :
    Host.Outcome State Fault Refusal :=
  if s.subSt port sub ≠ 1 then .next s
  else
    match media with
    | none => .next s
    | some m =>
      let s := (s.setFld (rEthPstat port) (14 + 2 * (sub : Nat)) 2 m).setSubSt port sub 2
      .next ((s.subLanes port sub).foldl (fun s l => s.laneTrain l 8) s)

/-- LINK_TRAINING: it completes on every lane of the sub-port. -/
def execLinkTraining (port : Fin 2) (sub : Fin 4) (s : State) : Host.Outcome State Fault Refusal :=
  if s.subSt port sub = 2 then
    .next ((s.subLanes port sub).foldl (fun s l => s.setFfe l) (s.setSubSt port sub 3))
  else .next s

/-- MAX_WAIT_TIMER: link training times out. -/
def execMaxWaitTimer (port : Fin 2) (sub : Fin 4) (s : State) : Host.Outcome State Fault Refusal :=
  if s.subSt port sub = 2 then .next (s.startSub port sub) else .next s

/-- PCS_ALIGNMENT: the sub-port is up, and is given to the transport. -/
def execPcsAlignment (port : Fin 2) (sub : Fin 4) (s : State) : Host.Outcome State Fault Refusal :=
  if s.subSt port sub ≠ 3 then .next s
  else
    let t := 4 * (port : Nat) + (sub : Nat)
    let s := (s.subLanes port sub).foldl (fun s l => s.laneUp l 8) (s.setSubSt port sub 4)
    let s := (s.setReg (rEthSpdt port sub) s.dt).setFld rCtPorts t 1 1
    .next (s.joinAll t).syncLinks

/-- ALIGNMENT_TIMEOUT: alignment is not reached within 10 ms. -/
def execAlignmentTimeout (port : Fin 2) (sub : Fin 4) (s : State) : Host.Outcome State Fault Refusal :=
  if s.subSt port sub = 3 then .next (s.startSub port sub) else .next s

/-! ### Going down (R283, R298) -/

/-- A sub-port that is up is taken down: it waits 10 ms, and HP0 is told. -/
def State.subDown (s : State) (p k : Nat) : State :=
  if s.subSt p k = 4 then
    let s := s.subOut p k 5
    let s := { s with links := { s.links with downAt := tset 0 s.links.downAt (4 * p + k) s.dt.toNat } }
    s.event 0 stPortDown none (4 * p + k) 0
  else s

/-- LOSS_OF_LINK, by the PCS or by what the partner's PCS reports. -/
def execLossOfLink (port : Fin 2) (sub : Fin 4) (s : State) : Host.Outcome State Fault Refusal :=
  .next (s.subDown port sub)

/-- FEC_WINDOW: the codewords corrected and not corrected in a window of 1 ms. -/
def execFecWindow (port : Fin 2) (sub : Fin 4) (corr uc : Nat) (s : State) : Host.Outcome State Fault Refusal :=
  if s.subSt port sub ≠ 4 then .next s
  else
    let s := s.updReg (rEthFec port sub) (fun w => bsat (bsat w 0 40 corr) 40 23 uc)
    if max 1 (s.fld (rEthFecth port) 0 16) ≤ uc then .next (s.subDown port sub) else .next s

/-- HOLD_OFF_EXPIRY: 10 ms after it went down, a sub-port restarts. -/
def execHoldOffExpiry (port : Fin 2) (sub : Fin 4) (s : State) : Host.Outcome State Fault Refusal :=
  if s.subSt port sub = 5 ∧ tget 0 s.links.downAt (4 * (port : Nat) + (sub : Nat)) + dtMs 10 ≤ s.dt.toNat then
    .next (s.startSub port sub)
  else .next s

/-- A port reset (Table 17.1): the mode written takes effect, counts and adaptation are cleared, and bring-up begins
again. -/
def State.resetPort (s : State) (p : Nat) : State :=
  let s := (List.range 4).foldl (fun s k => s.subOut p k 0) s
  let s := (List.range 8).foldl (fun s i => ((s.laneOff (8 * p + i)).setReg (rLeye (8 * p + i)) 0).setReg (rLeyedt (8 * p + i)) 0) s
  let s := (List.range 4).foldl (fun s k => (s.setReg (rEthFec p k) 0).setReg (rEthSpdt p k) 0) s
  let s := (s.setReg (rEthRxdrop p) 0).setReg (rEthPstat p) (BitVec.ofNat 64 (fv 12 2 (s.fld (rEthPcfg p) 0 2)))
  (List.range 4).foldl (fun s k => s.startSub p k) s

/-! ### Priority flow control (R300) -/

/-- The priority of frames of a DSCP on a port. -/
def State.prioOf (s : State) (p dscp : Nat) : Nat := s.fld (rEthDscpmap p (dscp / 8)) (3 * (dscp % 8)) 3

/-- Is a priority of a port under PFC (ETH_MAC.PFCEN)? -/
def State.pfcOn (s : State) (p prio : Nat) : Bool := s.fld (rEthMac p) (20 + prio) 1 == 1

/-- Is a priority of transport sub-port t stopped by received PFC? One that is not in PFCEN is never held back. -/
def State.prioHeld (s : State) (t prio : Nat) : Bool :=
  s.pfcOn (t / 4) prio &&
    (match oget s.links.pauses (8 * t + prio) with | none => false | some u => decide (s.dt.toNat < u))

/-- Does received PFC hold back frames of a DSCP on transport sub-port t? -/
def State.paused (s : State) (t dscp : Nat) : Bool := s.prioHeld t (s.prioOf (t / 4) dscp)

/-- The IEEE 802.1Q tag of frames that a port sends under a DSCP: VID and priority (R299). -/
def State.tagOf (s : State) (p dscp : Nat) : Option (Nat × Nat) :=
  if s.fld (rEthMac p) 19 1 = 1 then some (s.fld (rEthMac p) 0 12, s.prioOf p dscp) else none

/-- The MAC address of a transport sub-port (R266). -/
def State.macOf (s : State) (t : Nat) : Nat := s.sec.fuses.baseMac + t

/-- An answer leaves on transport sub-port t with DSCP 0, or waits while its priority is stopped (R300). -/
def State.answerOn (s : State) (t kind arg : Nat) : State :=
  let o : Out := .reply t kind arg (s.macOf t) (s.tagOf (t / 4) 0)
  if s.paused t 0 then { s with links := { s.links with held := s.links.held ++ [(8 * t + s.prioOf (t / 4) 0, o)] } }
  else s.emit o

/-- The answers of priorities that are not stopped any more leave. -/
def State.releaseHeld (s : State) : State :=
  let free (e : Nat × Out) : Bool := !s.prioHeld (e.1 / 8) (e.1 % 8)
  let go := s.links.held.filter free
  go.foldl (fun s e => s.emit e.2) { s with links := { s.links with held := s.links.held.filter (fun e => !free e) } }

/-- A received PFC frame: each named priority under PFC stops for its quanta of 512 bit times. -/
def State.takePfc (s : State) (p k : Nat) (qs : List (Nat × Nat)) : State :=
  (qs.foldl (fun s x =>
    if ¬ s.pfcOn p x.1 then s
    else
      let key := 8 * (4 * p + k) + x.1
      let until_ := s.dt.toNat + x.2 * 2048 / s.subRate p
      { s with links := { s.links with pauses := oset s.links.pauses key (if x.2 = 0 then none else some until_) } }) s
    ).releaseHeld

/-- PFC_QUANTA_EXPIRY: a pause whose quanta have passed ends. -/
def execPfcQuantaExpiry (port : Fin 2) (sub : Fin 4) (prio : Fin 8) (s : State) : Host.Outcome State Fault Refusal :=
  let key := 8 * (4 * (port : Nat) + (sub : Nat)) + (prio : Nat)
  match oget s.links.pauses key with
  | none => .next s
  | some u =>
    if u ≤ s.dt.toNat then
      .next { s with links := { s.links with pauses := oset s.links.pauses key none } }.releaseHeld
    else .next s

/-! ### The receive buffer (R300) -/

def rxBuffer : Nat := 2 * 2 ^ 20

/-- A frame of a priority has come in behind `wait` bytes of it that the buffer still holds: XOFF above 75 % of the
buffer, XON below 50 %. -/
def State.rxShare (s : State) (p k prio wait : Nat) : State :=
  let t := 4 * p + k
  let key := 8 * t + prio
  let s := { s with links := { s.links with rxFill := tset 0 s.links.rxFill key wait } }
  let off := s.links.xoff.contains key
  if s.fld (rEthMac p) 28 1 = 0 ∨ ¬ s.pfcOn p prio then s
  else if ¬ off ∧ rxBuffer * 3 < wait * 4 then
    { s with links := { s.links with xoff := s.links.xoff ++ [key] } }.emit (.pfc t prio 0xFFFF)
  else if off ∧ wait * 2 < rxBuffer then
    { s with links := { s.links with xoff := s.links.xoff.filter (· != key) } }.emit (.pfc t prio 0)
  else s

end Sys2Proof.Machine
end

