-- ==== Sys2Proof/Machine/DdrBank.lean ====
section
/-! DEFINITION. The banks and channels of the DDR5 controllers, the commands they issue, leaving self-refresh, and what
reads make of flawed lines (R187, R188, R210, R219, R220, R225). -/

namespace Sys2Proof.Machine

/-! ### Banks and channels -/

def State.updDdr (s : State) (f : Ddr → Ddr) : State := { s with ddr := f s.ddr }

/-- The number of a bank among all. -/
def bankNo (ch rank sub bank : Nat) : Nat := ((ch * 4 + rank) * 2 + sub) * 32 + bank

/-- The bank of a physical line. -/
def DdrLine.bankNo (l : DdrLine) : Nat := Machine.bankNo l.ch l.rank l.sub l.bank

def State.bank (s : State) (b : Nat) : DdrBank := tget {} s.ddr.banks b
def State.updBank (s : State) (b : Nat) (f : DdrBank → DdrBank) : State :=
  s.updDdr (fun d => { d with banks := tupd {} d.banks b f })

/-- Changes every bank of a channel. -/
def State.updChanBanks (s : State) (ch : Nat) (f : DdrBank → DdrBank) : State :=
  (List.range 256).foldl (fun s i => s.updBank (ch * 256 + i) f) s

/-- DDR_CHSTAT.STATE and SET. -/
def State.chState (s : State) (ch : Nat) : Nat := s.fld (rDdrChstat ch) 0 3
def State.chSet (s : State) (ch : Nat) : Nat := s.fld (rDdrChstat ch) 3 1

/-- Does a channel serve: in service, or retiring a rank? -/
def State.chServes (s : State) (ch : Nat) : Bool := s.chState ch == 2 || s.chState ch == 6

/-- Has the channel a retirement under way (R230)? -/
def State.rankBusy (s : State) (ch : Nat) : Bool := s.ddr.rets.any (fun r => r.ch == ch && !r.finished)

/-- A channel is in service again: STATE shows whether it retires a rank. -/
def State.chBack (s : State) (ch : Nat) : State := s.setFld (rDdrChstat ch) 0 3 (if s.rankBusy ch then 6 else 2)

/-- The DRAM clocks of a channel in a span of DT. -/
def State.dramClocks (s : State) (ch ticks : Nat) : Nat := ticks * s.fld (rDdrChstat ch) 8 8 / 80

/-! ### Commands (R219) -/

/-- An event of the controllers begins: they have issued nothing. -/
def State.quiet (s : State) : State := s.updDdr (fun d => { d with issued := [] })

/-- A channel issues commands. -/
def State.issue (s : State) (ch : Nat) (cs : List DdrCmd) : State :=
  s.updDdr (fun d => { d with issued := tupd [] d.issued ch (fun x => x ++ cs) })

/-- Closes the row of a bank, if one is open. -/
def State.preBank (s : State) (ch b : Nat) : State :=
  match (s.bank b).openRow with
  | none => s
  | some _ => (s.updBank b (fun x => { x with openRow := none })).issue ch [.prePb]

/-! ### Refresh (R217) -/

/-- tREFI of a rank in DT: 3.9 µs, or half under MR4. -/
def State.trefi (s : State) (ch rank : Nat) : Nat := if s.ddr.fast.contains (ch, rank) then 7800 else 15600

/-- Refreshes a bank: its row closes. -/
def State.refreshBank (s : State) (ch b : Nat) : State :=
  ((s.preBank ch b).updBank b (fun x => { x with refreshed := s.dt.toNat })).issue ch [.refSb]

/-- Has a bank's refresh been postponed by 4 × tREFI? -/
def State.refreshOverdue (s : State) (ch rank b : Nat) : Bool :=
  decide ((s.bank b).refreshed + 5 * s.trefi ch rank ≤ s.dt.toNat)

/-! ### Row disturbance (R220) -/

/-- The place of the lowest count, the lowest entry on a tie. -/
def lowestRow : List (Nat × Nat) → Nat
  | [] => 0
  | [_] => 0
  | x :: y :: t =>
    let j := lowestRow (y :: t)
    if x.2 ≤ ((y :: t).getD j (0, 0)).2 then 0 else j + 1

/-- An ACT of a row in a bank's table. -/
def DdrBank.act (b : DdrBank) (row : Nat) : DdrBank :=
  if b.rows.any (fun x => x.1 == row) then
    { b with rows := b.rows.map (fun x => if x.1 = row then (x.1, x.2 + 1) else x) }
  else if b.rows.length < 16 then { b with rows := b.rows ++ [(row, 1)] }
  else
    let i := lowestRow b.rows
    { b with rows := b.rows.set i (row, (b.rows.getD i (0, 0)).2 + 1), evict := b.evict + 1 }

/-- ACTTH and EVTH of a channel. -/
def State.actTh (s : State) (ch : Nat) : Nat := max 1 (s.fld (rDdrActth ch) 0 16)
def State.evTh (s : State) (ch : Nat) : Nat := s.fld (rDdrEvth ch) 0 16

/-- Do the DIMMs of a channel report DRFM? -/
def State.hasDrfm (s : State) (ch : Nat) : Bool := (tget [] s.ddr.dimms ch).all Spd.drfm

/-- Refreshes the neighbours of a row of a bank's table: one DRFMsb that names the row, or two RFMsb. -/
def State.targetRefresh (s : State) (ch b : Nat) (r : Nat × Nat) : State :=
  ((s.preBank ch b).updBank b (fun x => { x with rows := x.rows.map (fun y => if y = r then (y.1, 0) else y) })).issue ch
    (if s.hasDrfm ch then [.drfmSb r.1] else [.rfmSb, .rfmSb])

/-- The rows of a bank whose counts have reached ACTTH. -/
def State.hotRows (s : State) (ch b : Nat) : List (Nat × Nat) :=
  (s.bank b).rows.filter (fun x => decide (s.actTh ch ≤ x.2))

/-! ### Accesses (R213, R216, R219, R220) -/

/-- Is a row of a bank still open: it was left open, and the idle timer has not run out (R216)? -/
def State.rowOpen (s : State) (ch b row : Nat) : Bool :=
  let idle := s.fld (rDdrIdle ch) 0 10
  let x := s.bank b
  x.openRow == some row && idle != 0 && decide (s.dramClocks ch (s.dt.toNat - x.last) < idle)

/-- Opens a row for a source. A refresh that can be postponed no longer, and the refresh of the neighbours of a row whose
count has reached ACTTH, come before the ACT. -/
def State.openRow (s : State) (l : DdrLine) (src : Nat) : State :=
  let b := l.bankNo
  let s := s.preBank l.ch b
  let s := if s.refreshOverdue l.ch l.rank b then s.refreshBank l.ch b else s
  let s := (s.hotRows l.ch b).foldl (fun s r => s.targetRefresh l.ch b r) s
  (s.updBank b (fun x => { x.act l.row with openRow := some l.row, acts := tupd 0 x.acts src (· + 1) })).issue l.ch
    [.act l.row]

/-- An access of a source to a physical line: it opens the row where that is not open, and closes it again where DDR_IDLE
is 0. -/
def State.ddrAccess (s : State) (l : DdrLine) (src : Nat) (write : Bool) : State :=
  let b := l.bankNo
  let closes := s.fld (rDdrIdle l.ch) 0 10 == 0
  let s := if s.rowOpen l.ch b l.row && !s.refreshOverdue l.ch l.rank b then s else s.openRow l src
  (s.updBank b (fun x => { x with openRow := if closes then none else some l.row, last := s.dt.toNat })).issue l.ch
    [if write then (if closes then .wra else .wr) else (if closes then .rda else .rd)]

/-! ### Self-refresh (R220, R224, R225) -/

/-- PREab, REFab and SRE to every rank: every row is closed and every bank refreshed. -/
def State.sre (s : State) (ch : Nat) : State :=
  (s.updChanBanks ch (fun x => { x with openRow := none, refreshed := s.dt.toNat })).issue ch [.preAb, .refAb, .sre]

/-- Leaving self-refresh clears the row tables and eviction counts (R220). -/
def State.srx (s : State) (ch : Nat) : State :=
  (s.updChanBanks ch (fun x => { x with openRow := none, rows := [], evict := 0 })).issue ch [.srx, .mpc]

/-- A request wakes a channel in self-refresh (R225). -/
def State.wakeChannel (s : State) (ch : Nat) : State :=
  if s.chState ch = 4 then (s.chBack ch).srx ch else s

/-- A request for a device address wakes its channel. -/
def State.wakeAt (s : State) (a : Nat) : State :=
  match s.region a with | .ddr => s.wakeChannel (s.ddrDecode a).ch | _ => s

/-! ### Flawed lines (R187, R188, R210) -/

/-- What a read makes of a line of `n` symbols in error (of `n` bits, in the SRAM of the base dies). -/
inductive Judge where
  | good
  | fixed
  | lost
  /-- The code takes it for a line that it corrects, and delivers other data. -/
  | wrong
deriving DecidableEq, Repr

/-- One error is corrected and two are detected, but for what DDR5's code may miss (R210); what becomes of more no rule
states, so a free value decides. -/
def judgeLine (ddr : Bool) (n free : Nat) : Judge :=
  match n with
  | 0 => .good
  | 1 => .fixed
  | 2 => if ddr && Config.ddrMiss free then .wrong else .lost
  | _ => if Config.freeNat free % 2 = 0 then .lost else .wrong

/-- Marks or unmarks the line of a memory key. -/
def State.markKey (s : State) (key : Nat) (v : Bool) : State := { s with poison := tset false s.poison (key / 64) v }

/-- The bytes of memory from key `k` on whose places are listed take the values that `f` gives their keys. -/
def State.putKeys (s : State) (k : Nat) (js : List Nat) (f : Nat → Byte) : State :=
  { s with mem := js.foldl (fun m i => tset emptyByte m (k + i) (f i)) s.mem }

/-- The line of a memory key takes data that no rule states. -/
def State.scramble (s : State) (key : Nat) : State :=
  let k := key / 64 * 64
  { s with free := s.free + 1 }.putKeys k (List.range 64) (fun i => Config.freeByte s.free (k + i))

/-- A read meets a line, by memory key: a lost one is left poisoned, and a miscorrected one is written back as it was
delivered. -/
def State.meetLine (s : State) (ddr : Bool) (key n : Nat) : State × Judge :=
  let j := judgeLine ddr n s.free
  match j with
  | .good => (s, j)
  | .fixed => (s, j)
  | .lost => ({ s with free := s.free + 1 }.markKey key true, j)
  | .wrong => (s.scramble key, j)

/-- Error counts of a line's memory (R207, R232): corrected in [31:0], not correctable in [47:32]. -/
def State.eccCount (s : State) (reg : Nat) (j : Judge) : State :=
  match j with
  | .good => s
  | .fixed => s.updReg reg (fun w => bsat w 0 32 1)
  | .lost => s.updReg reg (fun w => bsat w 32 16 1)
  | .wrong => s.updReg reg (fun w => bsat w 0 32 1)

/-- The copy under way whose destination a physical line is (Table 8.5). -/
def State.copyOnto (s : State) (l : DdrLine) : Option RankRet :=
  s.ddr.rets.find? (fun r => !r.finished &&
    (if r.dest = 0 then r.ch == l.ch && r.spare == l.rank else decide (s.ddrRows - s.ddrRsvr ≤ l.row)))

/-- A line that cannot be corrected calls for the retirement of its rank, or for another destination (R226, Table 8.5). -/
def State.rankDue (s : State) (l : DdrLine) : State :=
  let x : Nat × Nat × Bool := match s.copyOnto l with
    | some r => (r.ch, r.phys, true)
    | none => (l.ch, l.rank, false)
  s.updDdr (fun d => { d with due := if d.due.contains x then d.due else d.due ++ [x] })

/-- A read of a physical DDR5 line with `n` devices in error; bytes of it that the write queue holds (`mask`) keep their
value (R215). -/
def State.ddrMeets (s : State) (l : DdrLine) (n mask : Nat) : State × Bool :=
  let r := s.meetLine true l.key n
  let keep := (List.range 64).filter (fun i => mask.testBit i)
  let s := (r.1.putKeys l.key keep (fun i => tget emptyByte s.mem (l.key + i))).eccCount (rDdrEcc l.ch) r.2
  if r.2 = .lost then (s.rankDue l, true) else (s, false)

/-- An HBM read meets an error: those older than 24 h are forgotten (R194). -/
def State.hbmErr (s : State) (key : Nat) (ue : Bool) : State :=
  let br := Config.hbmRow (key % 2 ^ 30)
  let x : HbmErr := { pc := key / 2 ^ 30, bank := br.1, row := br.2, ue := ue, dt := s.dt.toNat }
  { s with hbmErrs := s.hbmErrs.filter (fun y => decide (s.dt.toNat < y.dt + 86400 * 4000000000)) ++ [x] }

/-- A read of an HBM line, by memory key, with `n` bits in error. -/
def State.hbmMeets (s : State) (key n : Nat) : State × Bool :=
  let r := s.meetLine false key n
  let s := r.1.eccCount rHbmEcc r.2
  match r.2 with
  | .good => (s, false)
  | .lost => (s.hbmErr key true, true)
  | .fixed => (s.hbmErr key false, false)
  | .wrong => (s.hbmErr key false, false)

/-- A read of the line of a device address with `n` flaws, and whether it is lost. CXL reports its own errors (R199). -/
def State.lineMeets (s : State) (a n : Nat) : State × Bool :=
  match s.region a with
  | .hbm _ => s.hbmMeets (s.memKey a) n
  | .ddr => s.ddrMeets (s.ddrLine a) n 0
  | .store _ => let r := s.meetLine false a n; (r.1, r.2 == .lost)
  | .pool _ => let r := s.meetLine false a n; (r.1, r.2 == .lost)
  | _ => (s, false)

/-- Reads of the flawed lines of a span, each by its number from the span's first line. -/
def State.spanMeets (s : State) (a : Nat) (flaws : List (Nat × Nat)) : State :=
  flaws.foldl (fun s x => (s.lineMeets ((a / 64 + x.1) * 64) x.2).1) s

end Sys2Proof.Machine
end

