-- ==== Sys2Proof/Machine/Streams.lean ====
section
/-! DEFINITION. Patterns, and reads and writes by virtual and local address (R89, R127, R128, R132 to
R134). -/

namespace Sys2Proof.Machine

/-! ### Patterns -/

/-- The addresses of a pattern in the order of R128. -/
def SDesc.addrs (d : SDesc) : List Int :=
  (List.range d.n3).flatMap (fun i3 => (List.range d.n2).flatMap (fun i2 => (List.range d.n1).flatMap (fun i1 =>
    (List.range d.n0).map (fun i0 =>
      (d.base : Int) + (i1 : Int) * d.s1 + (i2 : Int) * d.s2 + (i3 : Int) * d.s3 + (i0 : Int)))))

/-- How many bytes a pattern emits. -/
def SDesc.size (d : SDesc) : Nat := d.n0 * d.n1 * d.n2 * d.n3

/-- The addresses of one lane of an operand pattern: its chunks in increasing k (R130). -/
def SDesc.laneAddrs (d : SDesc) (i1 : Nat) : List Int :=
  (List.range d.n3).flatMap (fun i3 => (List.range d.n2).flatMap (fun i2 =>
    (List.range d.n0).map (fun i0 =>
      (d.base : Int) + (i1 : Int) * d.s1 + (i2 : Int) * d.s2 + (i3 : Int) * d.s3 + (i0 : Int))))

/-- `n` addresses from a base. -/
def spanFrom (a n : Nat) : List Int := (List.range n).map (fun i => (a : Int) + (i : Int))

/-- The fields of a stream descriptor from its eight words (Table 5.5); none where a bit that the table
reserves is set (R127). -/
def SDesc.ofWords (ws : List W64) : Option SDesc :=
  let w (i : Nat) : W64 := ws.getD i 0
  let c := w 4
  let mode := bf c 0 3
  let plain := mode == 0 || mode == 4
  let d : SDesc :=
    { base := bf (w 0) 0 48, n0 := bf c 32 16 + 1,
      n1 := bf (w 1) 48 16 + 1, s1 := sextNat 48 (bf (w 1) 0 48),
      n2 := bf (w 2) 48 16 + 1, s2 := sextNat 48 (bf (w 2) 0 48),
      n3 := bf (w 3) 48 16 + 1, s3 := sextNat 48 (bf (w 3) 0 48),
      mode := mode, loc := bf c 3 1 == 1, trans := bf c 4 1 == 1, sig := bf c 5 1 == 1,
      sigEng := bf c 6 6, sigGate := bf c 12 8, addr2 := bf (w 5) 0 48,
      w30 := (w 6).toNat, w38 := (w 7).toNat }
  let bad := bf (w 0) 48 16 != 0 || bf c 20 12 != 0 || bf c 48 16 != 0 || bf (w 5) 48 16 != 0 || mode == 7 ||
    (d.loc && !plain) || (d.trans && mode != 4) ||
    (plain && (d.sig || d.sigEng != 0 || d.sigGate != 0 || d.addr2 != 0)) ||
    (mode < 5 && (d.w30 != 0 || d.w38 != 0)) ||
    -- the reserved peer fields of Table 6.8
    bf (w 6) 27 21 != 0 || bf (w 7) 44 20 != 0
  if bad then none else some d

/-! ### Places -/

/-- A place in memory: a device address, or a byte of an engine's local memory. -/
inductive Place where
  | dev (a : Nat)
  | loc (n a : Nat)
deriving DecidableEq, Repr

/-- A local address in slot k's window (R89), as a byte of engine n's local memory. -/
def State.localByte (s : State) (n k : Nat) (a : Int) : Option Nat :=
  let w := s.reg (rVtLmwin n k)
  if 0 ≤ a ∧ a < (bf w 8 8 * 4096 : Nat) then some (bf w 0 7 * 4096 + a.toNat) else none

/-- Where an address of context c, slot k of engine n, leads; or the status it faults with (Table 5.8).
Registers are no memory that a stream may touch byte by byte (R8). -/
def State.place (s : State) (n k c : Nat) (isLoc : Bool) (a : Int) (write : Bool) : Place ⊕ Nat :=
  if isLoc then
    match s.localByte n k a with
    | some b => .inl (.loc n b)
    | none => .inr stVtMemRange
  else
    match s.translate c a write with
    | .bad st => .inr st
    | .ok d => if s.region d = .regs then .inr stRegMisaligned else .inl (.dev d)

/-- Is a fabric window? Its content is the loaded bit-stream's (R180). -/
def isFabric (a : Nat) : Bool := decide (fabBase 0 ≤ a) && decide (a < fabBase 49)

/-- Is an address in the window of a region that is not ACTIVE (R323, R347)? -/
def State.fenced (s : State) (a : Nat) : Bool :=
  isFabric a && s.fld (rFabRstat ((a - fabBase 0) / 0x100000000)) 0 3 != 4

/-- Reads a place: a byte and its poison mark. A lost CXL link or an offline rank gives poisoned data (Table 7.6,
R227); the content of a fabric window is the design's, which no rule states, so a byte of it is a free value. -/
def State.rdPlace (s : State) : Place → Byte × Bool
  | .loc n a => (tget 0 (s.eng n).lmem a, tget false (s.eng n).lpoison (a / 64))
  | .dev a =>
    if isFabric a then (Config.freeByte s.free a, s.fenced a)
    else (s.byte a, s.poisoned a || s.lost a)

/-- Writes a place. A lost CXL link or an offline rank drops the write; a write to a fabric window goes to the
design. -/
def State.wrPlace (s : State) (p : Place) (b : Byte) : State :=
  match p with
  | .loc n a => s.updEng n (fun e => { e with lmem := tset 0 e.lmem a b })
  | .dev a =>
    if isFabric a ∨ s.lost a then s else s.setByte a b

/-- Marks or clears the line of a place. -/
def State.setMark (s : State) (p : Place) (v : Bool) : State :=
  match p with
  | .loc n a => s.updEng n (fun e => { e with lpoison := tset false e.lpoison (a / 64) v })
  | .dev a => if isFabric a ∨ s.lost a then s else s.setPoison a v

/-- The 64-byte line of a place. -/
def Place.line : Place → Nat × Nat
  | .loc n a => (n + 1, a / 64)
  | .dev a => (0, a / 64)

/-- How many distinct bytes of the line of `p` a list of places covers. -/
def coverCount (ps : List Place) (p : Place) : Nat :=
  ((ps.filter (fun q => q.line == p.line)).dedup).length

/-- Writes bytes at places in order, then marks the lines that took poisoned bytes and clears the marks
of the lines that were written whole with none (R134, R187). -/
def State.wrAll (s : State) (ws : List (Place × Byte × Bool)) : State :=
  let s := ws.foldl (fun s w => s.wrPlace w.1 w.2.1) s
  let ps := ws.map Prod.fst
  let bad := (ws.filter (fun w => w.2.2)).map (fun w => w.1.line)
  ps.foldl (fun s p =>
    if bad.contains p.line then s.setMark p true
    else if coverCount ps p = 64 then s.setMark p false else s) s

/-! ### Commands that touch a CXL port (Table 7.6) -/

/-- A command's access touches a device address: it wakes a DDR5 channel in self-refresh (R225); it remembers a CXL port, and completes with CXL_LINK_DOWN where
that port's link is lost, and with REGION_FENCED where the address is in the window of a fenced region (R323). -/
def State.touchDev (s : State) (cmd a : Nat) : State :=
  let s := s.wakeAt a
  match cxlPortOf a with
  | none => if s.fenced a then s.updCmd cmd (fun c => c.meet stRegionFenced) else s
  | some p =>
    let up := s.cxlUp p
    s.updCmd cmd (fun c =>
      let c := if c.ports.contains p then c else { c with ports := c.ports ++ [p] }
      if up then c else c.meet stCxlLinkDown)

/-- The same by virtual address. -/
def State.touchVa (s : State) (c cmd : Nat) (a : Int) : State :=
  match s.translate c a true with
  | .ok d => s.touchDev cmd d
  | .bad _ => match s.translate c a false with | .ok d => s.touchDev cmd d | .bad _ => s

def State.touchVas (s : State) (c cmd : Nat) (as : List Int) : State := as.foldl (fun s a => s.touchVa c cmd a) s

/-! ### Gathering and scattering -/

/-- What a gather gives: bytes and whether any was poisoned, or the first faulting address. -/
inductive Gath where
  | ok (bs : List Byte) (poison : Bool)
  | bad (a : Int) (st : Nat)

/-- Reads addresses in order, stopping at the first that faults. -/
def State.gather (s : State) (n k c : Nat) (isLoc : Bool) : List Int → Gath
  | [] => .ok [] false
  | a :: as =>
    match s.place n k c isLoc a false with
    | .inr st => .bad a st
    | .inl p =>
      let r := s.rdPlace p
      match s.gather n k c isLoc as with
      | .ok bs po => .ok (r.1 :: bs) (r.2 || po)
      | .bad a' st => .bad a' st

/-- The places of addresses in order up to the first that faults, with that fault. -/
def State.placesOf (s : State) (n k c : Nat) (isLoc : Bool) (write : Bool) :
    List Int → List Place × Option (Int × Nat)
  | [] => ([], none)
  | a :: as =>
    match s.place n k c isLoc a write with
    | .inr st => ([], some (a, st))
    | .inl p =>
      let r := s.placesOf n k c isLoc write as
      (p :: r.1, r.2)

/-- Writes bytes at addresses in order up to the first that faults (R133). -/
def State.scatter (s : State) (n k c : Nat) (isLoc : Bool) (as : List Int) (bs : List Byte) (poison : Bool) :
    State × Option (Int × Nat) :=
  let r := s.placesOf n k c isLoc true as
  (s.wrAll (List.zipWith (fun p b => (p, b, poison)) r.1 bs), r.2)

/-- Does any of the addresses lie on a page that is being moved, so that the access waits (R200)? -/
def State.anyMoving (s : State) (c : Nat) (as : List Int) : Bool :=
  !s.moves.isEmpty && as.any (fun a => decide (0 ≤ a) && s.moving c a.toNat)

/-- Records a stream fault (R133; Tables 5.16 to 5.18) and freezes the context. -/
def State.streamFault (s : State) (n k c cmd se : Nat) (pass : Bool) (a : Int) (st : Nat) : State :=
  let w := logWord (s.reg (rEsSfault n)) (fv 48 16 st + fv 7 1 (if pass then 1 else 0) + fv 4 3 k + fv 2 2 se)
  let s := ((s.setReg (rEsSfault n) w).setReg (rEsSfaultva n) (BitVec.ofNat 64 (wrapInt 48 a))).setReg
    (rEsSfaultdt n) s.dt
  s.faultCtx c cmd st

/-! ### Reads of descriptors and lists -/

/-- The status of a read of context c's memory that came back poisoned: a fenced region's (R323), a lost CXL port's (Table
7.6), or POISON. -/
def State.poisonStatus (s : State) (c : Nat) (as : List Int) : Nat :=
  let at_ (p : Nat → Bool) : Bool := as.any (fun a => match s.translate c a false with | .ok d => p d | .bad _ => false)
  if at_ s.fenced then stRegionFenced
  else if at_ (fun d => (cxlPortOf d).isSome && s.lost d) then stCxlLinkDown
  else stPoison

/-- Eight-byte words of context c from a virtual address: the words and the poison mark, or a fault. -/
def State.vwords (s : State) (n k c va cnt : Nat) : (List W64 × Bool) ⊕ Nat :=
  match s.gather n k c false (spanFrom va (8 * cnt)) with
  | .bad _ st => .inr st
  | .ok bs po => .inl ((List.range cnt).map (fun i => BitVec.ofNat 64 (leNat ((bs.drop (8 * i)).take 8))), po)

end Sys2Proof.Machine
end

