-- ==== Sys2Proof/Machine/Gates.lean ====
section
/-! DEFINITION. Gates and signals (R141 to R146). -/

namespace Sys2Proof.Machine

/-- Does context c, with its current tag, own gate g of engine n (Table 5.22)? -/
def State.ownsGate (s : State) (n g c : Nat) : Bool :=
  let w := s.reg (rEsGate n g)
  bf w 63 1 == 1 && bf w 40 10 == c && bf w 50 12 == (s.ctx c).gen

/-- A gate's count. -/
def State.gateCount (s : State) (n g : Nat) : Nat := s.fld (rEsGate n g) 0 32

def State.setGateCount (s : State) (n g v : Nat) : State := s.setFld (rEsGate n g) 0 32 v

/-- The engine that answers for engine n to context c: the host that c has moved to once n is retired
(R442). -/
def State.hostOf (s : State) (n c : Nat) : Nat := (oget (s.eng n).hosts c).getD n

/-- Sends a signal towards a gate of engine n (R142, R144). -/
def State.sendSig (s : State) (n : Nat) (g : Sig) : State :=
  s.updEng (s.hostOf n g.ctx) (fun e => { e with sigs := e.sigs ++ [g] })

/-- Raises the armed-gate event of a thread that armed the gate (R105, R142). Further signals of a
pending gate merge into it. -/
def State.raiseArmed (s : State) (n c g : Nat) : State :=
  match s.slotOf n c with
  | none => s
  | some k => s.updSlot n k (fun x =>
      if x.live then { x with arms := x.arms.map (fun a => if a.gate = g then { a with pending := true } else a) }
      else x)

/-- An engine island leaves a low-power state, unless it is power-gated; its herd leaves retention with it. -/
def State.wakeEngine (s : State) (n : Nat) : State :=
  let st := s.fld (rPwrEng n) 12 2
  if st = 1 then s.setFld (rPwrEng n) 12 2 0
  else if st = 2 then
    (List.range 8).foldl (fun s i =>
      if s.fld (rPwrEng (n / 8 * 8 + i)) 12 2 = 2 then s.setFld (rPwrEng (n / 8 * 8 + i)) 12 2 (if n % 8 = i then 0 else 1)
      else s) s
  else s

/-- Adds a signal's value to a gate that its context owns; a sum beyond the counter saturates it and
freezes the owner (R142). -/
def State.addGate (s : State) (n g c v : Nat) : State :=
  let sum := s.gateCount n g + v
  if 0xFFFFFFFF < sum then
    (((s.setGateCount n g 0xFFFFFFFF).setFld (rEsGate n g) 62 1 1).raiseArmed n c g).freezeCtx c stGateOverflow
  else ((s.setGateCount n g sum).raiseArmed n c g).wakeEngine n

/-- The signals that may arrive next: of one source to one gate, the oldest (R142). -/
def sigReady (sigs : List Sig) (i : Nat) : Bool :=
  match sigs[i]? with
  | none => false
  | some g => !(sigs.take i).any (fun h => h.src == g.src && h.gate == g.gate)

end Sys2Proof.Machine
end

