-- ==== Sys2Proof/Machine/Net.lean ====
section
/-! DEFINITION. The Coroc transport (chapter 10): operations and packets, transmission and loss,
acknowledgement, the checks and effects of delivery. -/

namespace Sys2Proof.Machine

/-! ### Operations (R272, R276) -/

/-- An operation that fails leaves the PEER_WRITE that it served without one. -/
def Engine.dropOp (e : Engine) (id : Nat) : Engine :=
  { e with streams := e.streams.map (fun t => if t.op = some id then { t with op := none } else t) }

/-- The end of an operation with a status (0: it completed): the command it counts for stops waiting
for it, and meets the status. -/
def State.opDone (s : State) (id st : Nat) : State :=
  let s := if st = 0 then s else { s with engs := s.engs.map (fun p => (p.1, p.2.dropOp id)) }
  let f (c : Cmd) : Cmd :=
    if c.ops.contains id then
      { (if st = 0 then c else c.meet st) with ops := c.ops.filter (· != id), fin := s.dt }
    else c
  { s with cmds := s.cmds.map f,
           queues := s.queues.map (fun p => (p.1, { p.2 with recs := p.2.recs.map f })),
           net := { s.net with ops := s.net.ops.filter (fun o => o.id != id) } }

/-- Ends every operation of an entry with a status. -/
def State.opsFail (s : State) (i st : Nat) : State :=
  (s.net.ops.filter (fun o => o.ent == i)).foldl (fun s o => s.opDone o.id st) s

/-- What posting an operation gives: its number, or the status it is refused with. -/
inductive Posted where
  | op (id : Nat)
  | bad (st : Nat)
deriving DecidableEq, Repr

/-- Why an entry takes no new operation (Tables 9.6 and 9.8, R271, R275); a host entry that is unset or
frozen lets them wait. -/
def State.entRefuses (s : State) (i : Nat) : Option Nat :=
  match s.entState i with
  | 0 => if i < 16384 then some stPeerUnknown else none
  | 1 => none
  | 2 => if i < 16384 then some stPeerFrozen else none
  | _ => some stPeerUnreachable

/-- Posts an operation of packets on entry i for a command and a context. -/
def State.post (s : State) (i cmd ctx : Nat) (ps : List Pkt) : State × Posted :=
  match s.entRefuses i with
  | some st => (s, .bad st)
  | none =>
    let id := s.net.nextOp
    let s := s.updEnt i (fun e => { e with tx := e.tx ++ ps.map (fun p => ({ p := p, op := id } : TxPkt)) })
    let s := { s with net := { s.net with nextOp := id + 1,
                                          ops := s.net.ops ++ [({ id := id, ent := i, cmd := cmd, ctx := ctx } : NetOp)] } }
    (s.updCmd cmd (fun c => { c with ops := c.ops ++ [id] }), .op id)

/-- Cuts bytes for consecutive addresses into packets of at most `mtu` bytes. -/
def cutBytes (mtu : Nat) : Nat → Nat → List Byte → List (Nat × List Byte)
  | 0, _, _ => []
  | n + 1, a, bs =>
    if bs.length ≤ mtu then [(a, bs)] else (a, bs.take mtu) :: cutBytes mtu n (a + mtu) (bs.drop mtu)

/-- Marks the first and the last packet of an operation. -/
def firstLast (ps : List Pkt) : List Pkt :=
  ps.zipIdx.map (fun p => { p.1 with first := p.2 == 0, last := p.2 + 1 == ps.length })

/-- The packets of a write or a read response from address `a`. -/
def State.dataPkts (s : State) (i kind : Nat) (base : Pkt) (a : Nat) (bs : List Byte) : List Pkt :=
  firstLast ((cutBytes (s.mtu i) (bs.length + 1) a bs).map (fun p =>
    { base with kind := kind, arg := p.1, body := p.2 }))

/-- A remote write to the host of partition p for a command (R239, R244, R260). -/
def State.postHost (s : State) (p cmd a : Nat) (bs : List Byte) : State × Posted :=
  s.post (hostEnt p) cmd 0 (s.dataPkts (hostEnt p) 1 {} a bs)

/-- The header fields of a packet that context c, under tag g, sends to the P1 behind entry i. -/
def State.pktFor (s : State) (i c g : Nat) (poison : Bool) : Pkt :=
  let e := s.ent i
  { sctx := c, sgen := g, tctx := e.tctx, tgen := e.tgen, poison := poison }

/-! ### Bytes on the wire (R267, R268) -/

/-- The `n` bytes of a number, highest first. -/
def beBytes (n v : Nat) : List Byte := (leBytes n v).reverse

def beNat (bs : List Byte) : Nat := leNat bs.reverse

/-- The 48-byte header (Table 10.1). -/
def hdrBytes (hoste : Bool) (index : Nat) (p : Pkt) : List Byte :=
  beBytes 1 (16 + p.kind) ++
  beBytes 1 ((if p.first then 128 else 0) + (if p.last then 64 else 0) + (if p.poison then 32 else 0) +
    (if p.devaddr then 16 else 0)) ++
  beBytes 2 ((if hoste then 32768 else 0) + index) ++ beBytes 1 p.epoch ++ beBytes 1 p.path ++ beBytes 2 0 ++
  beBytes 4 p.seq ++ beBytes 4 (fv 20 12 p.sgen + fv 10 10 p.sctx) ++ beBytes 8 p.txn ++ beBytes 8 p.txdt ++
  beBytes 4 (fv 20 12 p.tgen + fv 10 10 p.tctx) ++ beBytes 4 p.body.length ++ beBytes 8 p.arg

/-- A field of bytes at an offset, highest byte first. -/
def beAt (bs : List Byte) (o n : Nat) : Nat := beNat ((bs.drop o).take n)

/-- HOSTE and INDEX of a header. -/
def hdrEntry (h : List Byte) : Bool × Nat := (bitsOf (beAt h 2 2) 15 1 == 1, bitsOf (beAt h 2 2) 0 14)

/-- A packet as a header and a decrypted body say it; none for a header that Table 10.1 does not allow. -/
def hdrParse (h body : List Byte) : Option Pkt :=
  let f := beAt h 1 1
  let k := beAt h 0 1
  let sg := beAt h 0x0C 4
  let tg := beAt h 0x20 4
  let bad := k / 16 != 1 || f % 16 != 0 || bitsOf (beAt h 2 2) 14 1 != 0 || beAt h 6 2 != 0 ||
    beAt h 0x24 4 != body.length || !([1, 2, 3, 4, 5, 8, 9, 10].contains (k % 16))
  if bad then none
  else some
    { kind := k % 16, first := bitsOf f 7 1 == 1, last := bitsOf f 6 1 == 1, poison := bitsOf f 5 1 == 1,
      devaddr := bitsOf f 4 1 == 1, seq := beAt h 8 4, sgen := bitsOf sg 20 12, sctx := bitsOf sg 10 10,
      tgen := bitsOf tg 20 12, tctx := bitsOf tg 10 10, arg := beAt h 0x28 8, body := body,
      epoch := beAt h 4 1, path := beAt h 5 1, txn := beAt h 0x10 8, txdt := beAt h 0x18 8 }

/-- The GCM nonce (R268). -/
def nonce (epoch txn : Nat) : Nat := epoch % 256 * 2 ^ 88 + txn % 2 ^ 64

/-- DT at the MAC of a frame that arrives, or leaves, on a port (R284). -/
def State.ingress (s : State) (p : Nat) : Nat := s.dt.toNat - s.fld (rCtPtplat p) 0 16
def State.egress (s : State) (p : Nat) : Nat := s.dt.toNat + s.fld (rCtPtplat p) 16 16

/-- The sum of bytes as 16-bit words, highest byte first. -/
def sumWords : List Byte → Nat
  | [] => 0
  | [a] => a.toNat * 256
  | a :: b :: r => a.toNat * 256 + b.toNat + sumWords r

/-- The checksum that a ones' complement sum gives; 0xFFFF stands for zero (RFC 768). -/
def onesSum (n : Nat) : Nat :=
  let r := if n = 0 then 0 else (n - 1) % 65535 + 1
  if r = 65535 then 65535 else 65535 - r

/-- The UDP checksum of a payload on IPv6 (RFC 8200). -/
def udpSum (src dst sport dport : Nat) (bs : List Byte) : Nat :=
  onesSum (sumWords (beBytes 16 src) + sumWords (beBytes 16 dst) + 17 + sport + dport + 2 * (8 + bs.length) + sumWords bs)

/-- The headers of a packet of entry i on a path (R265, R266, R299): ECT(0) in data packets as CT_CTL.ECN asks, DF and no
UDP checksum on IPv4, a full one on IPv6. -/
def State.hdrFor (s : State) (i : Nat) (pa : Path) (data : Bool) (bs : List Byte) : FrameHdr :=
  let e := s.ent i
  let v6 := s.fld (entReg i) 57 1 == 1
  let ep := tget ({} : Endpoint) s.net.endpoints (s.entPart i)
  { mac := s.macOf pa.sub, tag := s.tagOf (pa.sub / 4) e.dscp, v6 := v6, src := if v6 then ep.v6 else ep.v4, dst := e.ip,
    dscp := e.dscp, ecn := if data && s.fld rCtCtl 16 1 == 1 then 2 else 0, df := !v6, sport := pa.port, dport := e.udp,
    sum := if v6 then udpSum ep.v6 e.ip pa.port e.udp bs else 0 }

/-- The path that packet k of an entry takes. -/
def Entry.path (e : Entry) (k : Nat) : Path := e.paths.getD k { port := 49152, sub := 0 }

/-- Sends a packet of entry i on path k: it gets its TXN, its path and its TXDT, and leaves. -/
def State.sendPkt (s : State) (i k : Nat) (p : Pkt) : State :=
  let e := s.ent i
  let pa := e.path k
  let p := { p with epoch := e.epoch, path := k, txn := e.txn, txdt := s.egress (pa.sub / 4) }
  let h := hdrBytes false e.rindex p
  let bytes := h ++ Config.gcmSeal e.txKey (nonce e.epoch e.txn) h p.body
  (s.setEnt i { e with txn := e.txn + 1 }).emit (.coroc pa.sub i (s.hdrFor i pa (decide (p.kind < 8)) bytes) bytes)

/-! ### Acknowledging (R273, R274) -/

/-- RWND: a share of the free bytes of the reorder buffer (R273). -/
def State.rwnd (s : State) : Nat := min 0x800000 (max 0x4000 ((0x4000000 - s.net.rbuf) / 64))

/-- CUMACK: where more than one refusal waits to be reported, it does not pass the second, so that the sender learns of
each before its operation is acknowledged. -/
def Entry.ackCum (e : Entry) : Nat :=
  match e.refused with
  | _ :: r :: _ => r.1
  | _ => e.rxNext

/-- The SACK bits of an entry. -/
def Entry.sack (e : Entry) : Nat :=
  ((List.range 64).map (fun b => if e.rx.any (fun p => seqGap e.ackCum p.seq == b + 1) then 2 ^ b else 0)).sum

/-- The ACK body (Table 10.4). -/
def State.ackBody (s : State) (e : Entry) : List Byte :=
  let r := e.refused.headD (0, 0)
  beBytes 4 e.ackCum ++ beBytes 4 s.rwnd ++ beBytes 8 e.sack ++ beBytes 8 e.echoDt ++ beBytes 4 e.ce ++
  beBytes 4 r.1 ++ beBytes 2 r.2 ++ beBytes 1 e.echoPath ++ beBytes 5 0

/-- Sends one ACK on entry i; while received PFC stops its priority, it stays owed (R300). -/
def State.sendAck1 (s : State) (i : Nat) : State :=
  let e := s.ent i
  let k := e.nextPath % max 1 e.paths.length
  if s.paused (e.path k).sub e.dscp then s.updEnt i (fun e => { e with unacked := max 1 e.unacked })
  else
    (s.sendPkt i k { kind := 8, body := s.ackBody e }).updEnt i (fun e =>
      { e with unacked := 0, ce := 0, refused := e.refused.drop 1 })

/-- Sends an ACK on entry i at once, and one more for each further refusal that waits (R277). -/
def State.sendAck (s : State) (i : Nat) : State :=
  (List.range (max 1 (s.ent i).refused.length)).foldl (fun s _ => s.sendAck1 i) s

/-! ### Arrival (R272 to R274) -/

/-- Puts a packet among the held ones, by SEQ. -/
def insertRx (next : Nat) (p : Pkt) : List Pkt → List Pkt
  | [] => [p]
  | q :: qs => if seqGap next p.seq < seqGap next q.seq then p :: q :: qs else q :: insertRx next p qs

/-- Was a packet sent under the EPOCH before the one in force? -/
def Entry.isEarly (e : Entry) (p : Pkt) : Bool :=
  match e.prior with
  | none => false
  | some x => p.epoch == x.epoch && p.epoch != e.epoch

/-- A packet of the EPOCH before arrives: it joins those of its EPOCH, unless it is there or has been delivered, and owes an
ACK (R396). -/
def State.arriveEarly (s : State) (i : Nat) (p : Pkt) : State :=
  match (s.ent i).prior with
  | none => s
  | some x =>
    if 2 ^ 30 < seqGap x.next p.seq ∨ x.rx.any (fun q => q.seq == p.seq) then
      s.updEnt i (fun e => { e with unacked := max 1 e.unacked })
    else if 0x4000000 < s.net.rbuf + p.body.length then s.updReg rCtRxerr (fun w => bsat w 0 32 1)
    else
      { s with net := { s.net with rbuf := s.net.rbuf + p.body.length } }.updEnt i (fun e =>
        { e with prior := some { x with rx := insertRx x.next p x.rx }, unacked := max 1 e.unacked })

/-- A packet that has passed the entry check arrives, with CE or not. -/
def State.arrive (s : State) (i : Nat) (ce : Bool) (p : Pkt) : State :=
  let note (s : State) : State := s.updEnt i (fun e =>
    { e with echoDt := p.txdt, echoPath := p.path, ce := e.ce + (if ce then p.body.length else 0) })
  if (s.ent i).isEarly p then (if 8 ≤ p.kind then s else s.arriveEarly i p)
  else if 8 ≤ p.kind then s.updEnt i (fun e => { e with inbox := e.inbox ++ [p] })
  else
    let e := s.ent i
    let ahead := seqGap e.rxNext p.seq
    let dup := decide (2 ^ 30 < ahead) || e.rx.any (fun q => q.seq == p.seq)
    if dup then (note s).sendAck i
    else if 0x4000000 < s.net.rbuf + p.body.length then s.updReg rCtRxerr (fun w => bsat w 0 32 1)
    else
      let s := note { s with net := { s.net with rbuf := s.net.rbuf + p.body.length } }
      let order := seqGap e.rxNext p.seq != e.rx.length || e.rx.any (fun q => decide (e.rx.length ≤ seqGap e.rxNext q.seq))
      let s := s.updEnt i (fun e =>
        { e with rx := insertRx e.rxNext p e.rx, unacked := e.unacked + 1,
                 ackDue := if e.unacked = 0 then s.dt.toNat + 8000 else e.ackDue })
      if order ∨ 2 ≤ (s.ent i).unacked then s.sendAck i else s

/-! ### An entry becomes unset (R271) -/

/-- The bytes that an entry holds in the reorder buffer. -/
def Entry.heldBytes (e : Entry) : Nat :=
  let sum (l : List Pkt) : Nat := (l.map (fun (p : Pkt) => p.body.length)).sum
  sum e.rx + (match e.prior with | none => 0 | some x => sum x.rx)

/-- Has everything of a partition that its reset ends, ended (R426)? -/
def State.partDone (s : State) (p : Nat) : Bool :=
  s.ctxs.all (fun x => s.partOfCtx x.1 != some p || !x.2.live) &&
    s.queues.all (fun x => s.partOfQueue x.1 != some p || s.fld (rQpQ x.1) 61 1 == 0) &&
    s.net.ents.all (fun x => !(decide (x.1 < 16384) && s.entPart x.1 == p && s.entState x.1 != 0)) &&
    (List.range 49).all (fun f =>
      !(s.fld (rFabRstat f) 30 1 == 1 && s.fld (rFabRstat f) 31 3 == p) || s.regSt f == 0)

/-- Is a reset of partition p under way? -/
def State.partResetting (s : State) (p : Nat) : Bool := s.rst.resets.any (fun r => r.1 == 2 && r.2.1 == p)

/-- The partition resets whose work has ended complete (R425). -/
def State.settleResets (s : State) : State :=
  let done := s.rst.resets.filter (fun r => r.1 == 2 && s.partDone r.2.1)
  let s := { s with rst := { s.rst with resets := s.rst.resets.filter (fun r => !done.contains r) } }
  done.foldl (fun s r => s.finishCmd r.2.2) s

/-- The entry becomes unset (R271): its buffers are released. -/
def State.unsetEnt (s : State) (i : Nat) : State :=
  let e := s.ent i
  let s := { s with net := { s.net with rbuf := s.net.rbuf - e.heldBytes } }
  let s := (s.setEnt i {}).setReg (entReg i) 0
  (e.clearCmds.foldl (fun s id => s.finishCmd id) s).settleResets

/-! ### Loss and DOWN (R275) -/

def State.retry (s : State) : Nat := max 1 (s.fld rCtPath 16 4)

/-- The base timer of a connection. -/
def State.rto (s : State) (e : Entry) : Nat :=
  max (dtUs (max 1 (s.fld rCtPath 0 8))) (e.srtt + 4 * e.rttvar)

/-- The entry goes DOWN: its outstanding operations complete with PEER_UNREACHABLE. One that is clearing becomes unset
(R271). -/
def State.entDown (s : State) (i : Nat) : State :=
  if s.entLife i = 4 then (s.opsFail i stPeerUnreachable).unsetEnt i
  else
  ((s.fallEnt i 3).updEnt i (fun e => { e with tx := [], notes := [] })).opsFail i stPeerUnreachable

/-- The packet at index n of entry i is lost: it waits for retransmission on another path, and its path
is re-rolled; after RETRY retransmissions the entry goes DOWN. -/
def State.losePkt (s : State) (i n : Nat) : State :=
  match (s.ent i).tx[n]? with
  | none => s
  | some t =>
    if s.retry ≤ t.tries then s.entDown i
    else
      let t' : TxPkt :=
        { t with sent := false, tries := t.tries + 1, after := 0,
                 due := s.dt.toNat + s.rto (s.ent i) * 2 ^ (t.tries + 1) }
      (s.updEnt i (fun e => { e with tx := e.tx.set n t', roundLost := true })).reroll i t.p.path

/-- Notice n of entry i is lost: it waits for retransmission like data, but outside SEQ (R282). -/
def State.loseNote (s : State) (i n : Nat) : State :=
  match (s.ent i).notes[n]? with
  | none => s
  | some x =>
    if s.retry ≤ x.tries then s.entDown i
    else
      let x' : Note := { x with sent := false, tries := x.tries + 1, after := 0,
                                due := s.dt.toNat + s.rto (s.ent i) * 2 ^ (x.tries + 1) }
      (s.updEnt i (fun e => { e with notes := e.notes.set n x' })).reroll i x.path

/-! ### Transmission (R273, R278, R279) -/

/-- Bytes in flight. -/
def Entry.flight (e : Entry) : Nat := ((e.tx.filter (fun t => t.sent)).map (fun t => t.p.body.length)).sum

/-- The first packet that waits to be sent, with its index. -/
def Entry.nextTx (e : Entry) : Option (Nat × TxPkt) :=
  (e.tx.zipIdx.find? (fun t => !t.1.sent && !t.1.held)).map (fun t => (t.2, t.1))

/-- Bytes from the last CUMACK to the end of packet n. -/
def Entry.reach (e : Entry) (n : Nat) : Nat := ((e.tx.take (n + 1)).map (fun t => t.p.body.length)).sum

/-- Counts a retransmission (CT_TXCNT.RETX). -/
def State.countRetx (s : State) (tries : Nat) : State :=
  if tries = 0 then s else s.updReg rCtTxcnt (fun w => bsat w 32 32 1)

/-- Notice n at index j of entry i leaves on path k. -/
def State.sendNote (s : State) (i k j : Nat) (n : Note) : State :=
  let e := s.ent i
  let dt := s.egress ((e.path k).sub / 4)
  let n' : Note := { n with sent := true, txdt := dt, txn := e.txn, path := k, after := 0,
                            due := s.dt.toNat + s.rto e * 2 ^ n.tries }
  let s := s.sendPkt i k { kind := 9, arg := fv 0 10 n.ctx + fv 10 12 n.gen, body := beBytes 4 n.last }
  (s.updEnt i (fun e => { e with nextPath := k + 1, notes := e.notes.set j n' })).countRetx n.tries

/-- The packet at index n of entry i leaves on path k; its first transmission gives it its SEQ. -/
def State.sendData (s : State) (i k n : Nat) (t : TxPkt) : State :=
  let e := s.ent i
  let p := if t.num then t.p else { t.p with seq := e.seq }
  let t' : TxPkt :=
    { t with p := { p with path := k, txn := e.txn, txdt := s.egress ((e.path k).sub / 4) }, num := true, sent := true,
             due := s.dt.toNat + s.rto e * 2 ^ t.tries }
  let s := (s.sendPkt i k p).updEnt i (fun e =>
    { e with nextPath := k + 1,
             seq := if t.num then e.seq else (e.seq + 1) % seqMod,
             lastBy := if t.num then e.lastBy else tset 0 e.lastBy t.p.sctx (p.seq + 1),
             roundSeq := if e.roundSeq.isNone then some p.seq else e.roundSeq,
             tx := e.tx.set n t' })
  s.countRetx t.tries

/-- PACKET_TRANSMIT (R278, R279, R282): the next packet of the entry leaves on its next path. A notice leaves first, exempt
from pacing, on any set entry that is not DOWN. A frame waits while received PFC stops its priority (R300). New packets
leave only from an entry that is up, retransmissions also from one that clears. -/
def execPacketTransmit (ent : Fin 16392) (s : State) : Host.Outcome State Fault Refusal :=
  let e := s.ent ent
  let st := s.entLife ent
  let k := e.nextPath % max 1 e.paths.length
  if ¬ s.runs ∨ e.paths = [] ∨ ¬ s.upSubs.contains (e.path k).sub ∨ s.paused (e.path k).sub e.dscp ∨
      ¬ (st = 1 ∨ st = 4) then .next s
  else
    match e.notes.findIdx? (fun n => !n.sent) with
    | some j =>
      match e.notes[j]? with
      | none => .next s
      | some n => .next (s.sendNote ent k j n)
    | none =>
      match e.nextTx with
      | none => .next s
      | some (n, t) =>
        let cwnd := s.fld (entReg ent) 0 32
        if cwnd < e.flight + t.p.body.length ∨ e.rwnd < e.reach n ∨ (st = 4 ∧ ¬ t.num) ∨ (s.entState ent = 2 ∧ st = 1) then
          .next s
        else .next (s.sendData ent k n t)

/-- Does the timer of a packet or notice run: it is in flight, or waits because no sub-port is up (R283)? -/
def State.timerRuns (s : State) (sent : Bool) (tries : Nat) : Bool := sent || (decide (s.upSubs = []) && decide (0 < tries))

/-- RETRANSMISSION_TIMER (R275): the timer of a packet expires; `seq` names it, or 2^32 + n the entry's
notice n. -/
def execRetransmissionTimer (ent : Fin 16392) (seq : Nat) (s : State) : Host.Outcome State Fault Refusal :=
  let e := s.ent ent
  if seqMod ≤ seq then
    match e.notes[seq - seqMod]? with
    | none => .next s
    | some n =>
      if s.timerRuns n.sent n.tries ∧ n.due ≤ s.dt.toNat then .next (s.loseNote ent (seq - seqMod)) else .next s
  else
    match e.tx.findIdx? (fun t => t.num && t.p.seq == seq) with
    | none => .next s
    | some n =>
      match e.tx[n]? with
      | none => .next s
      | some t => if s.timerRuns t.sent t.tries ∧ t.due ≤ s.dt.toNat then .next (s.losePkt ent n) else .next s

/-! ### An arriving ACK (R274 to R279) -/

/-- The smoothed values of RFC 6298, in DT units. -/
def Entry.sample (e : Entry) (r : Nat) : Entry :=
  if e.srtt = 0 then { e with srtt := r, rttvar := r / 2 }
  else { e with rttvar := (3 * e.rttvar + (max e.srtt r - min e.srtt r)) / 4, srtt := (7 * e.srtt + r) / 8 }

/-- Inserts into a rising list. -/
def insertNat (x : Nat) : List Nat → List Nat
  | [] => [x]
  | y :: ys => if x ≤ y then x :: y :: ys else y :: insertNat x ys

/-- The median of the smoothed RTTs of the paths that have samples. -/
def Entry.median (e : Entry) : Nat :=
  let l := ((e.paths.map Path.srtt).filter (· != 0)).foldl (fun l x => insertNat x l) []
  l.getD (l.length / 2) 0

/-- A sample of one path; the path is slow when it exceeds RRTH / 8 times the median. -/
def State.pathSample (s : State) (i k r : Nat) : State :=
  let th := max 9 (s.fld rCtPath 8 8)
  let s := s.updEnt i (fun e => { e with paths := e.paths.modify k (fun p =>
    { p with srtt := if p.srtt = 0 then r else (7 * p.srtt + r) / 8 }) })
  let e := s.ent i
  let m := e.median
  let s := s.updEnt i (fun e => { e with paths := e.paths.modify k (fun p =>
    { p with slow := if th * m < 8 * p.srtt then p.slow + 1 else 0 }) })
  match (s.ent i).paths[k]? with
  | some p => if 8 ≤ p.slow then s.reroll i k else s
  | none => s

/-- The window after a round (R279). -/
def State.newCwnd (s : State) (e : Entry) (mtu cwnd : Nat) : Nat :=
  let base := (e.samples.map Prod.snd).foldl min e.roundRtt
  let tdly := dtNs (s.fld rCtCc 0 16)
  let c :=
    if e.roundLost then cwnd / 2
    else if 0 < e.roundCe then cwnd * (2 * e.roundAcked - min (2 * e.roundAcked) e.roundCe) / max 1 (2 * e.roundAcked)
    else if base + tdly < e.roundRtt then cwnd * (2 * e.roundRtt - (e.roundRtt - base - tdly)) / max 1 (2 * e.roundRtt)
    else cwnd + s.fld rCtCc 16 16
  min (max c mtu) e.rwnd

/-- Writes the register fields of the connection: SRTT in 100 ns units and CWND. -/
def State.entStats (s : State) (i cwnd : Nat) : State :=
  (s.setFld (entReg i) 32 16 (min 65535 ((s.ent i).srtt / 400))).setFld (entReg i) 0 32 (min (2 ^ 32 - 1) cwnd)

/-- What an ACK says (Table 10.4). -/
structure AckInfo where
  cum : Nat
  rwnd : Nat
  sack : Nat
  echo : Nat
  ce : Nat
  fseq : Nat
  fstat : Nat
  path : Nat
deriving DecidableEq, Repr

def ackOf (b : List Byte) : AckInfo :=
  { cum := beAt b 0 4, rwnd := beAt b 4 4, sack := beAt b 8 8, echo := beAt b 0x10 8, ce := beAt b 0x18 4,
    fseq := beAt b 0x1C 4, fstat := beAt b 0x20 2, path := beAt b 0x22 1 }

/-- Does CUMACK pass a packet? -/
def AckInfo.covers (a : AckInfo) (t : TxPkt) : Bool :=
  t.num && decide (seqGap t.p.seq a.cum ≠ 0) && decide (seqGap t.p.seq a.cum ≤ 2 ^ 30)

/-- Does the SACK show a packet held for the first time? -/
def AckInfo.shows (a : AckInfo) (t : TxPkt) : Bool :=
  let g := seqGap a.cum t.p.seq
  t.num && !t.held && g != 0 && decide (g ≤ 64) && bitsOf a.sack (g - 1) 1 == 1

/-- The packets that stay unacknowledged, with how many sent later have arrived (R275). -/
def AckInfo.keep (a : AckInfo) (tx : List TxPkt) : List TxPkt :=
  let fresh := (tx.filter (fun t => (a.covers t && !t.held) || a.shows t)).map (fun t => t.p.txn)
  (tx.filter (fun t => !a.covers t)).map (fun t =>
    { t with held := t.held || a.shows t,
             after := t.after + (fresh.filter (fun x => decide (t.p.txn < x))).length })

/-- Does an ACK acknowledge a notice: it echoes the notice's stamp and path, and no data packet's? -/
def AckInfo.hasNote (a : AckInfo) (tx : List TxPkt) (n : Note) : Bool :=
  n.sent && n.txdt == a.echo && n.path == a.path &&
    !tx.any (fun t => t.sent && t.p.txdt == a.echo && t.p.path == a.path)

/-- The notices that stay unacknowledged, with how many packets sent later have arrived (R275, R282). -/
def AckInfo.keepNotes (a : AckInfo) (tx : List TxPkt) (ns : List Note) : List Note :=
  let fresh := (tx.filter (fun t => (a.covers t && !t.held) || a.shows t)).map (fun t => t.p.txn)
  (ns.filter (fun n => !a.hasNote tx n)).map (fun n =>
    if n.sent then { n with after := n.after + (fresh.filter (fun x => decide (n.txn < x))).length } else n)

/-- The round's counts and the samples of an ACK (R275, R279). -/
def Entry.acked (e : Entry) (a : AckInfo) (now : Nat) : Entry :=
  let rtt := now - a.echo
  let e1 := e.sample rtt
  let bytes := ((e.tx.filter a.covers).map (fun t => t.p.body.length)).sum
  { e1 with tx := a.keep e.tx, cum := a.cum, rwnd := a.rwnd,
            notes := a.keepNotes e.tx e.notes,
            samples := (e.samples.filter (fun x => decide (now ≤ x.1 + dtMs 10000))) ++ [(now, rtt)],
            roundRtt := if e.roundRtt = 0 then rtt else min e.roundRtt rtt,
            roundCe := e.roundCe + a.ce,
            roundAcked := e.roundAcked + bytes }

/-- The refused operation and the completed ones (R276, R277). -/
def State.ackOps (s : State) (i : Nat) (a : AckInfo) (old : List TxPkt) : State :=
  let s := match (old.find? (fun t => t.num && t.p.seq == a.fseq)).map TxPkt.op with
    | some id => if a.fstat = 0 then s else s.opDone id a.fstat
    | none => s
  (((old.filter a.covers).map TxPkt.op).dedup).foldl
    (fun s id => if (s.ent i).tx.any (fun t => t.op == id) then s else s.opDone id 0) s

/-- Packets and notices that later arrivals show lost (R275). -/
def State.ackLosses (s : State) (i : Nat) : State :=
  let lost := ((s.ent i).tx.zipIdx.filter (fun t => t.1.sent && !t.1.held && decide (3 ≤ t.1.after))).map Prod.snd
  let late := ((s.ent i).notes.zipIdx.filter (fun n => n.1.sent && decide (3 ≤ n.1.after))).map Prod.snd
  late.foldl (fun s n => s.loseNote i n) (lost.foldl (fun s n => s.losePkt i n) s)

/-- The end of a round, when its first packet is acknowledged (R279). -/
def State.ackRound (s : State) (i : Nat) : State :=
  let e := s.ent i
  let cw := s.fld (entReg i) 0 32
  if e.roundSeq.isSome ∧ ¬ e.tx.any (fun t => t.num && e.roundSeq == some t.p.seq) then
    (s.entStats i (s.newCwnd e (s.mtu i) cw)).updEnt i (fun e =>
      { e with roundSeq := none, roundRtt := 0, roundCe := 0, roundAcked := 0, roundLost := false })
  else s.entStats i cw

/-- A clear ends when every transmitted packet is acknowledged (R271). -/
def State.ackClear (s : State) (i : Nat) : State :=
  if s.entLife i = 4 ∧ (s.ent i).tx.all (fun t => !t.num) then
    (s.opsFail i stPeerUnreachable).unsetEnt i
  else s

/-- ACK (R274 to R279): the oldest ACK that has arrived on the entry is acted on. -/
def execAck (ent : Fin 16392) (s : State) : Host.Outcome State Fault Refusal :=
  match (s.ent ent).inbox.find? (fun p => p.kind == 8) with
  | none => .next s
  | some p =>
    let a := ackOf p.body
    let old := (s.ent ent).tx
    let s := s.updEnt ent (fun e => ({ e with inbox := e.inbox.erase p }).acked a p.rxdt)
    let s := s.pathSample ent a.path (p.rxdt - a.echo)
    .next (((((s.ackOps ent a old).ackLosses ent).ackRound ent)).ackClear ent)

/-- ACK_TIMER (R274): an ACK is sent for arrivals that none has acknowledged. -/
def execAckTimer (ent : Fin 16392) (s : State) : Host.Outcome State Fault Refusal :=
  if 0 < (s.ent ent).unacked then .next (s.sendAck ent) else .next s

/-- NOTICE (R282 step 3): recorded in the drop list and acknowledged, unless the list is full. -/
def execNotice (ent : Fin 16392) (s : State) : Host.Outcome State Fault Refusal :=
  match (s.ent ent).inbox.findIdx? (fun p => p.kind == 9) with
  | none => .next s
  | some j =>
    match (s.ent ent).inbox[j]? with
    | none => .next s
    | some a =>
      let s := s.updEnt ent (fun e => { e with inbox := e.inbox.eraseIdx j })
      let e := s.ent ent
      if 8 ≤ e.drops.length then .next s
      else
        let n : Note := { ctx := bitsOf a.arg 0 10, gen := bitsOf a.arg 10 12, last := beAt a.body 0 4 }
        let past := decide (seqGap n.last e.rxNext ≠ 0) && decide (seqGap n.last e.rxNext ≤ 2 ^ 30)
        let s := s.updEnt ent (fun e => { e with drops := if past then e.drops else e.drops ++ [n],
                                                 echoDt := a.txdt, echoPath := a.path })
        .next (s.sendAck ent)

/-- PROBE (R274): answered at once by an ACK. -/
def execProbe (ent : Fin 16392) (s : State) : Host.Outcome State Fault Refusal :=
  match (s.ent ent).inbox.findIdx? (fun p => p.kind == 10) with
  | none => .next s
  | some j =>
    match (s.ent ent).inbox[j]? with
    | none => .next s
    | some a =>
      .next ((s.updEnt ent (fun e => { e with inbox := e.inbox.eraseIdx j, echoDt := a.txdt,
                                              echoPath := a.path })).sendAck ent)

/-- PEER_CLEAR_TIMEOUT (R271): 2 ms after the clear began. -/
def execPeerClearTimeout (ent : Fin 16392) (s : State) : Host.Outcome State Fault Refusal :=
  if s.entLife ent = 4 ∧ (s.ent ent).clearDt + dtMs 2 ≤ s.dt.toNat then
    .next ((s.opsFail ent stPeerUnreachable).unsetEnt ent)
  else .next s

end Sys2Proof.Machine
end

