-- ==== Sys2Proof/Machine/Deliver.lean ====
section
/-! DEFINITION. Delivery of Coroc packets in SEQ order (R272, R277), and what each kind does: writes,
reads, doorbells, gate signals, stots and their reductions. -/

namespace Sys2Proof.Machine

/-! ### Where a packet leads -/

/-- Check 4 of Table 10.6 on `n` bytes: DEVADDR is allowed on a host entry, inside its grants. -/
def State.devCheck (s : State) (i a n : Nat) : Option Nat :=
  if i < 16384 then some stPermFault
  else
    match (List.range n).find? (fun k => !s.granted (i - 16384) (a + k) || s.region (a + k) == .hole) with
    | none => none
    | some k => some (if s.region (a + k) = .hole then stMemHole else stPermFault)

/-- The device addresses of `n` bytes from a packet's address, or the cause that refuses them (checks 4
and 5). Registers are no memory that a packet may touch. -/
def State.pktAddrs (s : State) (i : Nat) (p : Pkt) (a n : Nat) (write : Bool) : List Nat ⊕ Nat :=
  if p.devaddr then
    match s.devCheck i a n with
    | some st => .inr st
    | none => .inl ((List.range n).map (fun k => a + k))
  else
    (List.range n).foldr (fun k (r : List Nat ⊕ Nat) =>
      match s.translate p.tctx ((a + k : Nat) : Int) write with
      | .bad st => .inr st
      | .ok d => if s.region d = .regs then .inr stPermFault
        else match r with | .inl l => .inl (d :: l) | .inr st => .inr st) (.inl [])

/-- Writes a packet's data at device addresses. -/
def State.putAt (s : State) (ds : List Nat) (bs : List Byte) (poison : Bool) : State :=
  s.wrAll (List.zipWith (fun d b => (Place.dev d, b, poison)) ds bs)

/-! ### Refusals (R277) -/

/-- An ACK is to report a refused packet. -/
def State.refusePkt (s : State) (i : Nat) (p : Pkt) (st : Nat) : State :=
  s.updEnt i (fun e => { e with refused := e.refused ++ [(p.seq, st)], unacked := max 1 e.unacked })

/-- Freezes an entry: its partition is told, and operations on a peer entry complete with PEER_FROZEN
(Table 9.6). -/
def State.freezeEnt (s : State) (i cause : Nat) : State :=
  let s := (s.iceEnt i).frozenEvent (s.entPart i) (if i < 16384 then 4 else 5)
    (if i < 16384 then i else i - 16384) cause none
  if i < 16384 then s.opsFail i stPeerFrozen else s

/-- A failed check 4, 5 or 6: the entry freezes; HP0's host entry never does. -/
def State.violate (s : State) (i : Nat) (p : Pkt) (cause : Nat) : State :=
  if i = hostEnt 0 then s.refusePkt i p cause
  else (s.freezeEnt i cause).refusePkt i p stPeerFrozen

/-! ### Delivery in order (R272, R277, R282) -/

/-- Does a packet address a context (R277)? -/
def Pkt.toCtx (p : Pkt) : Bool :=
  ((p.kind == 1 || p.kind == 2) && !p.devaddr) || p.kind == 3 || p.kind == 5 || (p.kind == 4 && p.arg == 1)

/-- Has the SEQ of `a` been passed by `next`? -/
def passed (a next : Nat) : Bool := decide (seqGap a next ≠ 0) && decide (seqGap a next ≤ 2 ^ 30)

/-- The head of a list of held packets, where it has the next SEQ. -/
def headAt (next : Nat) (l : List Pkt) : Option Pkt :=
  match l with
  | [] => none
  | p :: _ => if p.seq = next then some p else none

/-- The packet of the EPOCH before that is next. -/
def Entry.early (e : Entry) : Option Pkt := match e.prior with | none => none | some x => headAt x.next x.rx

/-- The packet of an entry that is next: those of the EPOCH before come first. -/
def Entry.due (e : Entry) : Option Pkt := match e.early with | some p => some p | none => headAt e.rxNext e.rx

/-- The drop list that the next packet is held to. -/
def Entry.dueDrops (e : Entry) : List Note :=
  match e.early, e.prior with | some _, some x => x.drops | _, _ => e.drops

/-- Takes the next packet out of the reorder buffer; notices that delivery has passed leave the drop
list. -/
def Entry.taken (e : Entry) : Entry :=
  match e.early, e.prior with
  | some _, some x =>
    let next := (x.next + 1) % seqMod
    { e with prior := some { x with rx := x.rx.drop 1, next := next,
                                    drops := x.drops.filter (fun n => !passed n.last next) } }
  | _, _ =>
    let next := (e.rxNext + 1) % seqMod
    { e with rx := e.rx.drop 1, rxNext := next, drops := e.drops.filter (fun n => !passed n.last next) }

def State.takeRx (s : State) (i : Nat) (p : Pkt) : State :=
  { s with net := { s.net with rbuf := s.net.rbuf - p.body.length } }.updEnt i Entry.taken

/-- Is TCTX a context of the entry's partition, with its current tag (check 3)? -/
def State.ctxCurrent (s : State) (i : Nat) (p : Pkt) : Bool :=
  (s.ctx p.tctx).live && (s.ctx p.tctx).gen == p.tgen && s.partOfCtx p.tctx == some (s.entPart i)

/-- The device addresses of the 4 KiB pages that a data packet writes. -/
def State.opPages (s : State) (i : Nat) (p : Pkt) : List Nat :=
  match s.pktAddrs i p p.arg (if p.kind = 5 then p.body.length - 24 else p.body.length) true with
  | .inr _ => []
  | .inl ds => (ds.map (fun a => a / 4096 * 4096)).dedup

/-- Keeps the incoming operations of an entry up to date: the LAST packet of one, delivered or dropped, ends it (R431,
R432). -/
def State.noteOp (s : State) (i : Nat) (p : Pkt) (delivered : Bool) : State :=
  if ¬ p.toCtx ∨ p.kind = 2 ∨ p.kind = 4 ∨ (¬ delivered ∧ ¬ p.last) then s
  else
    let mine (x : Nat × Nat × List Nat) : Bool := x.1 == p.tctx && x.2.1 == p.tgen
    let pages := if p.last then [] else s.opPages i p
    s.updEnt i (fun e =>
      let old := (e.begun.filter mine).flatMap (fun x => x.2.2)
      let rest := e.begun.filter (fun x => !mine x)
      { e with begun := if p.last then rest else rest ++ [(p.tctx, p.tgen, (old ++ pages).dedup)] })

/-- Delivery of the next packet of entry i where it is of the row's kind: checks 1 to 3 of Table 10.6,
then the row's effect. -/
def State.deliverOne (s : State) (i : Nat) (want : Pkt → Bool) (eff : State → Pkt → State) : State :=
  match (s.ent i).due with
  | none => s
  | some p =>
    if ¬ s.runs ∨ ¬ want p ∨ s.entState i = 0 then s
    else if p.toCtx && s.anyMoving p.tctx (spanFrom p.arg (max 1 p.body.length)) then s
    else
      let stale := (s.ent i).dueDrops.any (fun n => n.ctx == p.sctx && n.gen == p.sgen && !passed n.last p.seq)
      let s := s.takeRx i p
      if s.entState i = 2 then
        ((s.noteOp i p false).updEnt i (fun e => { e with dropped := e.dropped + 1 })).refusePkt i p stPeerFrozen
      else if stale then (s.noteOp i p false).refusePkt i p stContextStale
      else if p.toCtx ∧ ¬ s.ctxCurrent i p then (s.noteOp i p false).refusePkt i p stContextStale
      else eff (s.noteOp i p true) p

/-- A row that delivers. -/
def deliver (i : Nat) (want : Pkt → Bool) (eff : State → Pkt → State) (s : State) :
    Host.Outcome State Fault Refusal :=
  .next (s.deliverOne i want eff)

/-! ### Writes and reads (R272, R281) -/

/-- The data of a WRITE or READ_RESP is written. -/
def State.dlvWrite (s : State) (i : Nat) (p : Pkt) : State :=
  match s.pktAddrs i p p.arg p.body.length true with
  | .inr st => s.violate i p st
  | .inl ds => s.putAt ds p.body p.poison

/-- WRITE. -/
def execWrite (ent : Fin 16392) (s : State) : Host.Outcome State Fault Refusal :=
  deliver ent (fun p => p.kind == 1) (fun s p => s.dlvWrite ent p) s

/-- READ_RESP. -/
def execReadResp (ent : Fin 16392) (s : State) : Host.Outcome State Fault Refusal :=
  deliver ent (fun p => p.kind == 3) (fun s p => s.dlvWrite ent p) s

/-- Reads device addresses: bytes and the poison mark. -/
def State.getAt (s : State) (ds : List Nat) : List Byte × Bool :=
  let rs := ds.map (fun d => s.rdPlace (.dev d))
  (rs.map Prod.fst, rs.any Prod.snd)

/-- Posts packets on an entry for no command. -/
def State.postFree (s : State) (i ctx : Nat) (ps : List Pkt) : State := (s.post i 0 ctx ps).1

/-- A READ queues its responses on the reverse direction. -/
def State.dlvRead (s : State) (i : Nat) (p : Pkt) : State :=
  let ret := leNat (p.body.take 8)
  let n := leNat ((p.body.drop 8).take 4)
  match s.pktAddrs i p p.arg n false with
  | .inr st => s.violate i p st
  | .inl ds =>
    let r := s.getAt ds
    let e := s.ent i
    let s := { s with free := s.free + 1 }
    let base : Pkt := { sctx := p.tctx, sgen := p.tgen, tctx := e.tctx, tgen := e.tgen, poison := r.2 }
    s.postFree i p.tctx (s.dataPkts i 3 base ret r.1)

/-- READ. -/
def execRead (ent : Fin 16392) (s : State) : Host.Outcome State Fault Refusal :=
  deliver ent (fun p => p.kind == 2) (fun s p => s.dlvRead ent p) s

/-! ### Doorbells (R237, R238, Table 9.1) -/

def State.qDepth (s : State) (q : Nat) : Nat := 2 ^ s.fld (rQpQ q) 48 5

/-- How many completion records are unread by the last CQHEAD. -/
def State.cqUnread (s : State) (q : Nat) : Nat :=
  let d := s.qDepth q
  ((s.queue q).cqIdx + d - (s.queue q).cqHead % d) % d

/-- Is there room for another record (R239)? -/
def State.cqRoom (s : State) (q : Nat) : Bool := decide (s.cqUnread q + 1 < s.qDepth q)

/-- Brings QP_Q.CQFULL up to date: records wait because the ring is full. -/
def State.cqSync (s : State) (q : Nat) : State :=
  s.setFld (rQpQ q) 59 1 (if !s.cqRoom q && !(s.queue q).recs.isEmpty then 1 else 0)

/-- The doorbell's effect for an entry of partition p. -/
def State.doorbell (s : State) (p w : Nat) : State :=
  let q := bitsOf w 0 14
  let cq := bitsOf w 32 16
  if bitsOf w 48 16 ≠ 0 then s.event p stNotOwner none w 0
  else if bitsOf w 14 1 = 1 then
    if q ≠ 0 then s.event p stNotOwner none w 0
    else s.updPart p (fun x => { x with evHead := cq })
  else if s.fld (rQpQ q) 61 1 = 1 ∧ s.partOfQueue q = some p then
    let s := if bitsOf w 15 1 = 1 then s.setFld (rQpQ q) 60 1 0 else s
    ((s.setFld (rQpQ q) 0 16 (bitsOf w 16 16)).updQueue q (fun x =>
      { x with cqHead := cq, wild := decide (s.qDepth q ≤ bitsOf w 16 16) })).cqSync q
  else s.event p stNotOwner none w 0

/-- Is a MESSAGE one that no other row delivers: of a reserved MKIND, or a management message on a peer entry? -/
def Pkt.strayMsg (p : Pkt) (i : Nat) : Bool := decide (3 ≤ p.arg) || (p.arg == 2 && decide (i < 16384))

/-- DOORBELL. A MESSAGE of a reserved MKIND, and a management message on a peer entry, are refused here. -/
def execDoorbell (ent : Fin 16392) (s : State) : Host.Outcome State Fault Refusal :=
  deliver ent (fun p => p.kind == 4 && (p.arg == 0 || p.strayMsg ent)) (fun s p =>
    if p.arg ≠ 0 then s.refusePkt ent p stNotOwner
    else if p.devaddr && decide ((ent : Nat) < 16384) then s.violate ent p stPermFault
    else s.doorbell (s.entPart ent) (leNat (p.body.take 8))) s

/-! ### Gate signals (R141, R142, R281) -/

/-- Signal source number of an entry. -/
def entSrc (i : Nat) : Nat := 2 ^ 16 + i

/-- A delivered gate signal sets out for the named gate of TCTX. -/
def State.dlvGate (s : State) (i : Nat) (p : Pkt) : State :=
  let w := leNat (p.body.take 8)
  let n := bitsOf w 0 6
  let g := bitsOf w 8 8
  if p.devaddr ∧ i < 16384 then s.violate i p stPermFault
  else if p.body = [] then s
  else if s.ownsGate (s.hostOf n p.tctx) g p.tctx then
    s.sendSig n { gate := g, value := bitsOf w 32 32, ctx := p.tctx, gen := p.tgen, src := entSrc i }
  else s.violate i p stGateNotOwned

/-- GATE_SIGNAL_MESSAGE. -/
def execGateSignalMessage (ent : Fin 16392) (s : State) : Host.Outcome State Fault Refusal :=
  deliver ent (fun p => p.kind == 4 && p.arg == 1) (fun s p => s.dlvGate ent p) s

/-! ### Stots (R174 to R178, R280, R281) -/

/-- A stot header (Table 10.3). -/
structure StotHdr where
  addr2 : Nat := 0
  tag : Nat := 0
  red : Bool := false
  nr : Nat := 1
  rank : Nat := 0
  rfmt : Nat := 0
  rcvtc : Nat := 0
  sig : Bool := false
  sigEng : Nat := 0
  sigGate : Nat := 0
deriving DecidableEq, Repr

def StotHdr.ofNat (w : Nat) : StotHdr :=
  { addr2 := bitsOf w 0 48, tag := bitsOf w 48 16, red := bitsOf w 64 1 == 1, nr := bitsOf w 65 6 + 1,
    rank := bitsOf w 71 6, rfmt := bitsOf w 77 4, rcvtc := bitsOf w 81 8, sig := bitsOf w 89 1 == 1,
    sigEng := bitsOf w 90 6, sigGate := bitsOf w 96 8 }

def StotHdr.toNat (h : StotHdr) : Nat :=
  fv 0 48 h.addr2 + fv 48 16 h.tag + fv 64 1 (if h.red then 1 else 0) + fv 65 6 (h.nr - 1) + fv 71 6 h.rank +
    fv 77 4 h.rfmt + fv 81 8 h.rcvtc + fv 89 1 (if h.sig then 1 else 0) + fv 90 6 h.sigEng + fv 96 8 h.sigGate

/-- Element codes out of bytes: `w` bits each, little-endian (R7). -/
def bytesToCodes (w : Nat) (bs : List Byte) : List Nat :=
  let v := leNat bs
  (List.range (8 * bs.length / w)).map (fun i => bitsOf v (w * i) w)

/-- One element of a reduced tile: the F32 sum over the ranks in rising order, each value as its format and code (R177). -/
def sumRanks (xs : List (Fmt × Nat)) : Nat :=
  xs.foldl (fun acc x =>
    let v := (decodeF32 acc).add (x.1.elem.decode x.2)
    if v.isNaN then nanF32 else rneF32 v) 0

/-- The element format of a contribution: F32, BF16 or F16 (R174). -/
def Contrib.fmt (c : Contrib) : Fmt := if c.ofmt = 0 then .f32 else if c.ofmt = 1 then .bf16 else .f16

/-- A contribution's values in pattern order, as format and code. -/
def Contrib.codes (c : Contrib) : List (Fmt × Nat) :=
  (bytesToCodes c.fmt.bits (c.pieces.flatMap Prod.snd)).map (fun x => (c.fmt, x))

/-- The offsets of a contribution's elements from its first byte, in pattern order. -/
def Contrib.offsets (c : Contrib) : List Int :=
  let a0 := (c.pieces.head?.map Prod.fst).getD 0
  let w := c.fmt.bits / 8
  let os := c.pieces.flatMap (fun p => (List.range p.2.length).map (fun k => ((p.1 + k : Nat) : Int) - (a0 : Int)))
  (List.range (os.length / w)).map (fun j => os.getD (w * j) 0)

/-- Has a rank contributed whole? -/
def Reduction.has (r : Reduction) (k : Nat) : Bool := r.parts.any (fun c => c.rank == k && c.whole)

/-- Have the contributions of every rank arrived? -/
def Reduction.complete (r : Reduction) : Bool := (List.range r.nr).all r.has

/-- The contribution of a rank. -/
def Reduction.part (r : Reduction) (k : Nat) : Contrib :=
  (r.parts.find? (fun c => c.rank == k)).getD { rank := k, ent := 0, ofmt := 0 }

/-- The bytes of the reduced tile with their offsets from ADDR2: the layout of rank 0's pattern at the width of the reduced
format. Conversions under SR draw the values given. -/
def Reduction.result (r : Reduction) (t : Fmt) (c : Cvtc) (draws : List Nat) : List (Int × Byte) :=
  let cols := (List.range r.nr).map (fun k => (r.part k).codes)
  let n := (cols.map List.length).foldl min 8192
  let w := t.bits / 8
  let w0 := (r.part 0).fmt.bits / 8
  (((r.part 0).offsets.take n).zipIdx).flatMap (fun x =>
    let v := (fConvert t c (draws.getD x.2 0) (sumRanks (cols.map (fun y => y.getD x.2 (.f32, 0))))).code
    ((leBytes w v).zipIdx).map (fun b => (x.1 * w / w0 + b.2, b.1)))

/-- Signals the gate a stot names (R176, R177). -/
def State.stotSig (s : State) (i : Nat) (h : StotHdr) (p : Pkt) : State :=
  if h.sig then s.sendSig h.sigEng { gate := h.sigGate, value := 1, ctx := p.tctx, gen := p.tgen, src := entSrc i }
  else s

/-- Where a reduced tile goes: the device address of each of its bytes, or the cause that refuses it (check 5 of Table
10.6). -/
def State.redAddrs (s : State) (h : StotHdr) (p : Pkt) (r : Reduction) : List Nat ⊕ Nat :=
  match Fmt.ofCode h.rfmt with
  | none => .inl []
  | some t =>
    (r.result t (Cvtc.ofByte h.rcvtc) []).foldr (fun x (acc : List Nat ⊕ Nat) =>
      match s.translate p.tctx ((h.addr2 : Int) + x.1) true with
      | .bad st => .inr st
      | .ok d => match acc with | .inl l => .inl (d :: l) | .inr st => .inr st) (.inl [])

/-- The reduced tile is written at ADDR2, marked poisoned where a contribution was, and the gate is
signalled (R177, R178). -/
def State.reduce (s : State) (i : Nat) (h : StotHdr) (p : Pkt) (r : Reduction) : State :=
  match Fmt.ofCode h.rfmt, s.redAddrs h p r with
  | some t, .inl ds =>
    let c := Cvtc.ofByte h.rcvtc
    let draws := (List.range 8192).map (fun k => Config.freeNat (s.free + k) % 2 ^ 24)
    let s := if c.round = 2 then { s with free := s.free + 8192 } else s
    let s := s.putAt ds ((r.result t c draws).map Prod.snd) (r.parts.any Contrib.poison)
    ({ s with reds := s.reds.filter (fun x => !(x.ctx == r.ctx && x.gen == r.gen && x.tag == r.tag && x.addr2 == r.addr2)) }
      ).stotSig i h p
  | _, _ => s

/-- Is this the reduction a contribution belongs to (R177)? -/
def Reduction.is (r : Reduction) (c g : Nat) (h : StotHdr) : Bool :=
  r.ctx == c && r.gen == g && r.tag == h.tag && r.addr2 == h.addr2

/-- Pending reductions of a partition (R281). -/
def State.redCount (s : State) (p : Nat) : Nat := (s.reds.filter (fun r => s.partOfCtx r.ctx == some p)).length

/-- What a packet of a contribution does to its reduction. -/
inductive RedStep where
  /-- It belongs to a contribution that was dropped, or whose beginning never came. -/
  | skip
  /-- It would open a reduction beyond its partition's share (R281). -/
  | noSpace
  /-- Its rank has contributed, or contributes by another stot (R178). -/
  | dup
  /-- The reduction with it. -/
  | into (r : Reduction)
deriving DecidableEq, Repr

/-- What a packet of data `bs`, in element format `of`, does to the reduction it names. -/
def State.redStep (s : State) (i : Nat) (h : StotHdr) (p : Pkt) (of : Nat) (bs : List Byte) : RedStep :=
  let c : Contrib := { rank := h.rank, ent := i, ofmt := of, pieces := [(p.arg, bs)], whole := p.last, poison := p.poison }
  match s.reds.find? (fun r => r.is p.tctx p.tgen h) with
  | none =>
    if ¬ p.first then .skip
    else if 512 ≤ s.redCount ((s.partOfCtx p.tctx).getD 0) then .noSpace
    else .into { ctx := p.tctx, gen := p.tgen, tag := h.tag, addr2 := h.addr2, nr := h.nr, parts := [c] }
  | some r =>
    match r.parts.find? (fun x => x.rank == h.rank) with
    | none => if p.first then .into { r with parts := r.parts ++ [c] } else .skip
    | some x =>
      if x.whole ∨ x.ent ≠ i ∨ p.first then .dup
      else
        .into { r with parts := r.parts.map (fun y =>
          if y.rank = h.rank then { y with pieces := y.pieces ++ [(p.arg, bs)], whole := p.last, poison := y.poison || p.poison }
          else y) }

/-- The check of the gate that a stot's LAST packet signals (check 6 of Table 10.6). -/
def State.sigFault (s : State) (h : StotHdr) (p : Pkt) : Option Nat :=
  if h.sig && !s.ownsGate (s.hostOf h.sigEng p.tctx) h.sigGate p.tctx then some stGateNotOwned else none

/-- Checks 5 and 6 of Table 10.6 on a stot packet, on its own data and on what its LAST packet brings about. -/
def State.stotFault (s : State) (i : Nat) (p : Pkt) (of : Nat) : Option Nat :=
  let h := StotHdr.ofNat (leNat (p.body.take 24))
  let bs := p.body.drop 24
  match s.pktAddrs i p p.arg bs.length true with
  | .inr st => some st
  | .inl _ =>
    if h.red then
      match s.redStep i h p of bs with
      | .into r =>
        if ¬ r.complete then none
        else match s.redAddrs h p r with | .inr st => some st | .inl _ => s.sigFault h p
      | _ => none
    else if p.last then s.sigFault h p else none

/-- A contribution's packet of data `bs` for device addresses `ds` in its rank's buffer. -/
def State.contribute (s : State) (i : Nat) (h : StotHdr) (p : Pkt) (of : Nat) (bs : List Byte) (ds : List Nat) : State :=
  match s.redStep i h p of bs with
  | .skip => s
  | .noSpace => s.freezeCtx p.tctx stNoSpace
  | .dup => if p.last then s.event ((s.partOfCtx p.tctx).getD 0) stStotRankDup (some p.tctx) 0 0 else s
  | .into r =>
    let s := s.putAt ds bs p.poison
    let s := { s with reds := s.reds.filter (fun x => !x.is p.tctx p.tgen h) ++ [r] }
    if r.complete then s.reduce i h p r else s

/-- One stot packet that passes the checks, in element format `of`: its data is written; the last one signals, or advances
the reduction. -/
def State.takeStot (s : State) (i : Nat) (p : Pkt) (of : Nat) : State :=
  let h := StotHdr.ofNat (leNat (p.body.take 24))
  let bs := p.body.drop 24
  match s.pktAddrs i p p.arg bs.length true with
  | .inr _ => s
  | .inl ds =>
    if h.red then s.contribute i h p of bs ds
    else
      let s := s.putAt ds bs p.poison
      if p.last then s.stotSig i h p else s

/-- The element format of a stot packet from outside: the header does not carry it. -/
def wireOfmt (p : Pkt) : Nat := Config.wireOfmt (leNat (p.body.take 24))

/-- Delivery of a stot packet. -/
def State.dlvStot (s : State) (i : Nat) (p : Pkt) : State :=
  if p.body = [] then s
  else
    match s.stotFault i p (wireOfmt p) with
    | some st => s.violate i p st
    | none => s.takeStot i p (wireOfmt p)

/-- Does the stot packet that is next on an entry complete a reduction whose tile lies on a page that is being moved
(R200)? -/
def State.stotWaits (s : State) (i : Nat) : Bool :=
  match (s.ent i).due with
  | none => false
  | some p =>
    let h := StotHdr.ofNat (leNat (p.body.take 24))
    p.kind == 5 && h.red && (match s.redStep i h p (wireOfmt p) (p.body.drop 24), Fmt.ofCode h.rfmt with
      | .into r, some t =>
        r.complete && s.anyMoving p.tctx ((r.result t (Cvtc.ofByte h.rcvtc) []).map (fun x => (h.addr2 : Int) + x.1))
      | _, _ => false)

/-- STOT. -/
def execStot (ent : Fin 16392) (s : State) : Host.Outcome State Fault Refusal :=
  if s.stotWaits ent then .next s else deliver ent (fun p => p.kind == 5) (fun s p => s.dlvStot ent p) s

/-! ### Sending stots and peer writes (R174, R175, R280) -/

/-- Runs of bytes for consecutive addresses, in pattern order. -/
def runsOf : List (Int × Byte) → List (Nat × List Byte)
  | [] => []
  | (a, b) :: rest =>
    match runsOf rest with
    | [] => [(a.toNat, [b])]
    | (a', bs) :: rs => if a + 1 = (a' : Int) then (a.toNat, b :: bs) :: rs else (a.toNat, [b]) :: (a', bs) :: rs

/-- The packets of a stot: each carries the header and a run of up to the MTU payload. -/
def State.stotPkts (s : State) (i c g : Nat) (poison : Bool) (h : StotHdr) (as : List Int) (bs : List Byte) : List Pkt :=
  let base := s.pktFor i c g poison
  let runs := (runsOf (as.zip bs)).flatMap (fun r => cutBytes (s.mtu i) (r.2.length + 1) r.1 r.2)
  firstLast (runs.map (fun r => { base with kind := 5, arg := r.1, body := leBytes 24 h.toNat ++ r.2 }))

/-- Does an entry lead back to this device? -/
def State.isSelf (s : State) (i : Nat) : Bool :=
  let e := s.ent i
  decide (e.ip ≠ 0) && (List.range 8).any (fun p =>
    let x := tget ({} : Endpoint) s.net.endpoints p; x.v4 == e.ip || x.v6 == e.ip)

/-- A stot to this device goes through the same unit without leaving it (R281): its packets in element format `of`, and the
status it completes with. A packet that fails a check of Table 10.6 freezes the entry, and the rest is dropped. -/
def State.selfStot (s : State) (i of : Nat) : List Pkt → State × Nat
  | [] => (s, 0)
  | p :: ps =>
    if ¬ s.ctxCurrent i p then (s, stContextStale)
    else
      match s.stotFault i p of with
      | some st => (s.freezeEnt i st, stPeerFrozen)
      | none => (s.takeStot i p of).selfStot i of ps

/-- Sends the stot of a pass for a command: a refusal is met at once. -/
def State.sendStot (s : State) (i cmd c g of : Nat) (poison : Bool) (h : StotHdr) (as : List Int) (bs : List Byte) :
    State :=
  match s.entRefuses i with
  | some st => s.updCmd cmd (fun x => x.meet st)
  | none =>
    let ps := s.stotPkts i c g poison h as bs
    if s.isSelf i then
      let r := s.selfStot i of ps
      if r.2 = 0 then r.1 else r.1.updCmd cmd (fun x => x.meet r.2)
    else (s.post i cmd c ps).1

/-! ### Teardown with traffic in flight (R282) -/

/-- What a tag increment does to one entry: packets not yet transmitted go, the others become no-ops, and
a notice is queued. -/
def Entry.teardown (e : Entry) (c g : Nat) : Entry :=
  let mine (t : TxPkt) : Bool := t.p.sctx == c && t.p.sgen == g && decide (t.p.sgen + t.p.sctx ≠ 0)
  let last := tget 0 e.lastBy c
  { e with
    tx := (e.tx.filter (fun t => t.num || !mine t)).map (fun t =>
      if mine t then { t with p := { t.p with body := [] } } else t),
    notes := e.notes ++ [({ ctx := c, gen := g, last := if last = 0 then (e.seq + seqMod - 1) % seqMod else last - 1 } : Note)] }

/-- Steps 1 and 2 of R282 for context c of partition p, whose tag was g. On an entry that is DOWN nothing is sent any
more. -/
def State.netTeardown (s : State) (p c g : Nat) : State :=
  let ids := (s.net.ents.map Prod.fst).filter (fun i => s.entPart i == p && (s.entLife i == 1 || s.entLife i == 4))
  ids.foldl (fun s i => s.updEnt i (fun e => e.teardown c g)) s

/-- Has every notice of a context been acknowledged (R282 step 5)? -/
def State.noticesDone (s : State) (c : Nat) : Bool :=
  s.net.ents.all (fun x => x.2.notes.all (fun n => n.ctx != c))

end Sys2Proof.Machine
end

