-- ==== Sys2Proof/Machine/EsDecode.lean ====
section
/-! DEFINITION. The sequencer's instruction words (R120 to R122): forms R, I and J, with every field that
Table 5.2 does not use zero. -/

namespace Sys2Proof.Machine

/-- The operations of opcode 0x01, in FN order. -/
inductive Alu where
  | add | sub | and | or | xor | shl | shr | sra | slt | sltu | mul
deriving DecidableEq, Repr

inductive ImmOp where
  | addi | andi | ori | xori
deriving DecidableEq, Repr

inductive MemOp where
  | ld | st | ldw | stw
deriving DecidableEq, Repr

inductive BrOp where
  | beq | bne | blt | bge | bltu
deriving DecidableEq, Repr

/-- A sequencer instruction (Table 5.2). -/
inductive EsInsn where
  | nop
  | alu (f : Alu) (d a b : BitVec 5)
  | imm (f : ImmOp) (d a : BitVec 5) (i : BitVec 16)
  | shi (right : Bool) (d a : BitVec 5) (n : BitVec 6)
  | movi (d : BitVec 5) (i : BitVec 21)
  | movk (d : BitVec 5) (h : BitVec 2) (i : BitVec 16)
  | mem (f : MemOp) (d a : BitVec 5) (i : BitVec 16)
  | br (f : BrOp) (d a : BitVec 5) (i : BitVec 16)
  | jmp (d : BitVec 5) (i : BitVec 21)
  | jr (d a : BitVec 5)
  | mpass (a : BitVec 5)
  | strm (a : BitVec 5) (se : BitVec 2)
  | swait (se : BitVec 2)
  | fence
  | vlaunch (d a b : BitVec 5)
  | vwait
  | gsig (a b : BitVec 5)
  | gwait (a : BitVec 5) (g : BitVec 8) (consume : Bool)
  | gset (a : BitVec 5) (g : BitVec 8)
  | grd (d : BitVec 5) (g : BitVec 8)
  | rddt (d : BitVec 5)
  | rdsr (d : BitVec 5) (r : BitVec 3)
  | plrd (d a : BitVec 5) (w : BitVec 2)
  | yield
  | halt
deriving DecidableEq, Repr

/-- Is the instruction one that a word can spell? Only RDSR's register number is bounded further
(Table 5.21). -/
def EsInsn.wf : EsInsn → Bool
  | .rdsr _ r => decide (r.toNat < 6)
  | _ => true

def Alu.fn : Alu → Nat
  | .add => 0 | .sub => 1 | .and => 2 | .or => 3 | .xor => 4 | .shl => 5 | .shr => 6 | .sra => 7
  | .slt => 8 | .sltu => 9 | .mul => 10

def Alu.ofFn : Nat → Option Alu
  | 0 => some .add | 1 => some .sub | 2 => some .and | 3 => some .or | 4 => some .xor | 5 => some .shl
  | 6 => some .shr | 7 => some .sra | 8 => some .slt | 9 => some .sltu | 10 => some .mul | _ => none

def ImmOp.op : ImmOp → Nat
  | .addi => 2 | .andi => 3 | .ori => 4 | .xori => 5

def MemOp.op : MemOp → Nat
  | .ld => 0x10 | .st => 0x11 | .ldw => 0x12 | .stw => 0x13

def BrOp.op : BrOp → Nat
  | .beq => 0x18 | .bne => 0x19 | .blt => 0x1A | .bge => 0x1B | .bltu => 0x1C

/-- Form R of Table 5.1. -/
def formR (op d a b fn : Nat) : W32 :=
  BitVec.ofNat 32 (op * 2 ^ 26 + d * 2 ^ 21 + a * 2 ^ 16 + b * 2 ^ 11 + fn)
/-- Form I of Table 5.1. -/
def formI (op d a imm : Nat) : W32 := BitVec.ofNat 32 (op * 2 ^ 26 + d * 2 ^ 21 + a * 2 ^ 16 + imm)
/-- Form J of Table 5.1. -/
def formJ (op d imm : Nat) : W32 := BitVec.ofNat 32 (op * 2 ^ 26 + d * 2 ^ 21 + imm)

/-- The word of an instruction. -/
def EsInsn.encode : EsInsn → W32
  | .nop => 0
  | .alu f d a b => formR 1 d.toNat a.toNat b.toNat f.fn
  | .imm f d a i => formI f.op d.toNat a.toNat i.toNat
  | .shi r d a n => formI (if r then 7 else 6) d.toNat a.toNat n.toNat
  | .movi d i => formJ 8 d.toNat i.toNat
  | .movk d h i => formI 9 d.toNat h.toNat i.toNat
  | .mem f d a i => formI f.op d.toNat a.toNat i.toNat
  | .br f d a i => formI f.op d.toNat a.toNat i.toNat
  | .jmp d i => formJ 0x1E d.toNat i.toNat
  | .jr d a => formR 0x1F d.toNat a.toNat 0 0
  | .mpass a => formR 0x20 0 a.toNat 0 0
  | .strm a se => formR 0x21 0 a.toNat 0 se.toNat
  | .swait se => formR 0x22 0 0 0 se.toNat
  | .fence => formR 0x23 0 0 0 0
  | .vlaunch d a b => formR 0x24 d.toNat a.toNat b.toNat 0
  | .vwait => formR 0x25 0 0 0 0
  | .gsig a b => formR 0x28 0 a.toNat b.toNat 0
  | .gwait a g c => formI 0x29 0 a.toNat (g.toNat + if c then 256 else 0)
  | .gset a g => formI 0x2A 0 a.toNat g.toNat
  | .grd d g => formI 0x2B d.toNat 0 g.toNat
  | .rddt d => formR 0x30 d.toNat 0 0 0
  | .rdsr d r => formI 0x31 d.toNat 0 r.toNat
  | .plrd d a w => formR 0x32 d.toNat a.toNat 0 w.toNat
  | .yield => formR 0x38 0 0 0 0
  | .halt => formR 0x3F 0 0 0 0

/-- Reads a word (R121); none is an illegal instruction (R122). -/
def EsInsn.decode (w : W32) : Option EsInsn :=
  let x := w.toNat
  let op := bitsOf x 26 6
  let d := bitsOf x 21 5
  let a := bitsOf x 16 5
  let b := bitsOf x 11 5
  let fn := bitsOf x 0 11
  let i := bitsOf x 0 16
  let j := bitsOf x 0 21
  let rd := BitVec.ofNat 5 d
  let ra := BitVec.ofNat 5 a
  let rb := BitVec.ofNat 5 b
  let i16 := BitVec.ofNat 16 i
  match op with
  | 0x00 => if x = 0 then some .nop else none
  | 0x01 => (Alu.ofFn fn).map (fun f => .alu f rd ra rb)
  | 0x02 => some (.imm .addi rd ra i16)
  | 0x03 => some (.imm .andi rd ra i16)
  | 0x04 => some (.imm .ori rd ra i16)
  | 0x05 => some (.imm .xori rd ra i16)
  | 0x06 => if i < 64 then some (.shi false rd ra (BitVec.ofNat 6 i)) else none
  | 0x07 => if i < 64 then some (.shi true rd ra (BitVec.ofNat 6 i)) else none
  | 0x08 => some (.movi rd (BitVec.ofNat 21 j))
  | 0x09 => if a < 4 then some (.movk rd (BitVec.ofNat 2 a) i16) else none
  | 0x10 => some (.mem .ld rd ra i16)
  | 0x11 => some (.mem .st rd ra i16)
  | 0x12 => some (.mem .ldw rd ra i16)
  | 0x13 => some (.mem .stw rd ra i16)
  | 0x18 => some (.br .beq rd ra i16)
  | 0x19 => some (.br .bne rd ra i16)
  | 0x1A => some (.br .blt rd ra i16)
  | 0x1B => some (.br .bge rd ra i16)
  | 0x1C => some (.br .bltu rd ra i16)
  | 0x1E => some (.jmp rd (BitVec.ofNat 21 j))
  | 0x1F => if b = 0 ∧ fn = 0 then some (.jr rd ra) else none
  | 0x20 => if d = 0 ∧ b = 0 ∧ fn = 0 then some (.mpass ra) else none
  | 0x21 => if d = 0 ∧ b = 0 ∧ fn < 4 then some (.strm ra (BitVec.ofNat 2 fn)) else none
  | 0x22 => if d = 0 ∧ a = 0 ∧ b = 0 ∧ fn < 4 then some (.swait (BitVec.ofNat 2 fn)) else none
  | 0x23 => if j = 0 ∧ d = 0 then some .fence else none
  | 0x24 => if fn = 0 then some (.vlaunch rd ra rb) else none
  | 0x25 => if j = 0 ∧ d = 0 then some .vwait else none
  | 0x28 => if d = 0 ∧ fn = 0 then some (.gsig ra rb) else none
  | 0x29 => if d = 0 ∧ i < 512 then some (.gwait ra (BitVec.ofNat 8 i) (decide (256 ≤ i))) else none
  | 0x2A => if d = 0 ∧ i < 256 then some (.gset ra (BitVec.ofNat 8 i)) else none
  | 0x2B => if a = 0 ∧ i < 256 then some (.grd rd (BitVec.ofNat 8 i)) else none
  | 0x30 => if j = 0 then some (.rddt rd) else none
  | 0x31 => if a = 0 ∧ i < 6 then some (.rdsr rd (BitVec.ofNat 3 i)) else none
  | 0x32 => if b = 0 ∧ fn < 4 then some (.plrd rd ra (BitVec.ofNat 2 fn)) else none
  | 0x38 => if j = 0 ∧ d = 0 then some .yield else none
  | 0x3F => if j = 0 ∧ d = 0 then some .halt else none
  | _ => none

/-- The registers an instruction reads. -/
def EsInsn.reads : EsInsn → List (BitVec 5)
  | .alu _ _ a b => [a, b]
  | .imm _ _ a _ => [a]
  | .shi _ _ a _ => [a]
  | .movk d _ _ => [d]
  | .mem .st d a _ => [d, a]
  | .mem .stw d a _ => [d, a]
  | .mem _ _ a _ => [a]
  | .br _ d a _ => [d, a]
  | .jr _ a => [a]
  | .mpass a => [a]
  | .strm a _ => [a]
  | .vlaunch d a b => [d, a, b]
  | .gsig a b => [a, b]
  | .gwait a _ _ => [a]
  | .gset a _ => [a]
  | .plrd _ a _ => [a]
  | _ => []

/-- The register an instruction writes. -/
def EsInsn.writes : EsInsn → List (BitVec 5)
  | .alu _ d _ _ => [d]
  | .imm _ d _ _ => [d]
  | .shi _ d _ _ => [d]
  | .movi d _ => [d]
  | .movk d _ _ => [d]
  | .mem .ld d _ _ => [d]
  | .mem .ldw d _ _ => [d]
  | .jmp d _ => [d]
  | .jr d _ => [d]
  | .grd d _ => [d]
  | .rddt d => [d]
  | .rdsr d _ => [d]
  | .plrd d _ _ => [d]
  | _ => []

end Sys2Proof.Machine
end

