-- ==== Sys2Proof/Machine/Operands.lean ====
section
/-! DEFINITION. Operand forms: the registers and immediates of sequencer instructions (R118, R120, R121), and the fields
of a submission entry (Table 9.2). -/

namespace Sys2Proof.Machine

/-! ### Registers of a slot -/

/-- Xr of a slot: X0 reads as zero (R118). -/
def Slot.x (x : Slot) (r : BitVec 5) : W64 := if r = 0 then 0 else tget 0 x.xs r.toNat

/-- Writes Xr: writes to X0 are discarded (R118). -/
def Slot.setX (x : Slot) (r : BitVec 5) (v : W64) : Slot :=
  if r = 0 then x else { x with xs := tset 0 x.xs r.toNat v }

/-! ### Results of integer instructions -/

/-- The eleven operations of opcode 0x01 (R121). -/
def aluOp (f : Alu) (a b : W64) : W64 :=
  match f with
  | .add => a + b
  | .sub => a - b
  | .and => a &&& b
  | .or => a ||| b
  | .xor => a ^^^ b
  | .shl => a <<< (b.toNat % 64)
  | .shr => a >>> (b.toNat % 64)
  | .sra => a.sshiftRight (b.toNat % 64)
  | .slt => if a.slt b then 1 else 0
  | .sltu => if a.ult b then 1 else 0
  | .mul => a * b

def immOp (f : ImmOp) (a : W64) (i : BitVec 16) : W64 :=
  match f with
  | .addi => a + i.signExtend 64
  | .andi => a &&& i.setWidth 64
  | .ori => a ||| i.setWidth 64
  | .xori => a ^^^ i.setWidth 64

/-- Bits [16h + 15 : 16h] of a word replaced (MOVK). -/
def movkWord (x : W64) (h : BitVec 2) (i : BitVec 16) : W64 := bset x (16 * h.toNat) 16 i.toNat

/-! ### Conditions and slot registers -/

def brTaken (f : BrOp) (d a : W64) : Bool :=
  match f with
  | .beq => d == a
  | .bne => d != a
  | .blt => d.slt a
  | .bge => !d.slt a
  | .bltu => d.ult a

/-- A slot register (Table 5.21). -/
def slotReg (n k : Nat) (x : Slot) (r : Nat) : Nat :=
  match r with
  | 0 => k | 1 => x.ctx | 2 => x.gen | 3 => x.cls | 4 => n | 5 => x.plhead % 2 ^ 32 | _ => 0

/-! ### Fields of an entry (Table 9.2) -/

/-- Operand word OPn. -/
def Cmd.op (c : Cmd) (n : Nat) : W64 := c.words.getD (n + 1) 0
/-- Field [lo + w - 1 : lo] of OPn. -/
def Cmd.opf (c : Cmd) (n lo w : Nat) : Nat := bf (c.op n) lo w
def Cmd.opcode (c : Cmd) : Nat := bf (c.words.getD 0 0) 0 8
def Cmd.ordered (c : Cmd) : Bool := bf (c.words.getD 0 0) 8 1 == 1
def Cmd.strict (c : Cmd) : Bool := bf (c.words.getD 0 0) 10 1 == 1
def Cmd.cid (c : Cmd) : Nat := bf (c.words.getD 0 0) 16 16
def Cmd.ctx (c : Cmd) : Nat := bf (c.words.getD 0 0) 32 10
def Cmd.gen (c : Cmd) : Nat := bf (c.words.getD 0 0) 42 12

/-- The 64 engines' numbers that a mask names, rising. -/
def maskEngines (w : W64) : List Nat := (List.range 64).filter (fun n => bf w n 1 == 1)

end Sys2Proof.Machine
end

