-- ==== Sys2Proof/Machine/CmdCore.lean ====
section
/-! DEFINITION. Acceptance of commands (R235 to R250): the choice of a queue, the checks of Table 9.4, the
start, and the records of completions and events. -/

namespace Sys2Proof.Machine

/-! ### A command's row of Table 9.3 -/

/-- What the queue processor does for an opcode: the operand bits it uses, whether it is marked M, whether
a frozen context may give it, its operand checks (the first failing status, or 0), the tiers it addresses
(bits of PWR_READY), the engines whose slot it needs, what else it waits for, and its work. -/
structure CmdRow where
  op : Nat
  fields : List Nat := []
  mgmt : Bool := false
  thaw : Bool := false
  check : State → Cmd → Nat := fun _ _ => 0
  tiers : State → Cmd → List Nat := fun _ _ => []
  seats : State → Cmd → List Nat := fun _ _ => []
  waits : State → Cmd → Bool := fun _ _ => false
  start : State → Cmd → State

/-- The opcodes of Table 9.3. -/
def definedOp (op : Nat) : Bool :=
  decide (op ≤ 0x0C) || (decide (0x20 ≤ op) && decide (op ≤ 0x31)) || (decide (0x38 ≤ op) && decide (op ≤ 0x3B))

/-- Check 2: reserved fields zero. STRICT_FUSE is CHAIN's alone, and CTX_CREATE carries GEN = 0. -/
def Cmd.fieldsOk (c : Cmd) (r : CmdRow) : Bool :=
  let w := c.words.getD 0 0
  bf w 54 10 == 0 && bf w 11 5 == 0 && bf w 9 1 == 0 && (!c.strict || r.op == 0x29) && (r.op != 0x22 || c.gen == 0) &&
    (List.range 7).all (fun n => (c.op n &&& ~~~(BitVec.ofNat 64 (r.fields.getD n 0))) == 0)

/-- The commands that fawn mode carries out (R385): NOP, RESET, FW_IMAGE, and REG_READ of the SEC_, CFG_, CT_ and QP_
blocks. -/
def Cmd.fawnOk (c : Cmd) : Bool :=
  let block := ((c.op 0).toNat - regBase) / 0x100000
  [0x00, 0x0A, 0x0C].contains c.opcode ||
    (c.opcode == 0x04 && decide (regBase ≤ (c.op 0).toNat) && [5, 8, 10, 11].contains block)

/-- The bits of PWR_READY (Table 16.6). -/
def readyHbm : Nat := 1
def readyFabric : Nat := 4

/-- Which bit of PWR_READY tells that a tier's address is ready; HBM where it lies in no other tier. -/
def tierBit (a : Nat) : Nat :=
  if ddrBase ≤ a ∧ a < cxlBase 0 then 2
  else if cxlBase 0 ≤ a ∧ a < cxlBase 1 then 7
  else if cxlBase 1 ≤ a ∧ a < cxlBase 2 then 8
  else 1

/-- The checks of Table 9.4 on an entry: the status (0: it passes), and whether its queue is frozen. -/
def State.entryStatus (s : State) (r : CmdRow) (c : Cmd) (poison : Bool) : Nat × Bool :=
  let x := s.ctx c.ctx
  if ¬ definedOp c.opcode ∨ (s.pwr.fawn ∧ ¬ c.fawnOk) then (stOpcodeInvalid, false)
  else if poison then (stPoison, false)
  else if ¬ c.fieldsOk r then (stCmdFieldInvalid, false)
  else if s.partOfCtx c.ctx ≠ some c.part then (stNotOwner, true)
  else if r.mgmt ∧ c.ctx ≠ 0 then (stNotManagement, false)
  else if r.op = 0x22 ∧ x.live then (stCtxExists, false)
  else if r.op ≠ 0x22 ∧ (¬ x.live ∨ x.tearing ∨ x.gen ≠ c.gen) then (stContextStale, false)
  else if x.frozen.isSome ∧ ¬ r.thaw then (stMasterFrozen, false)
  else
    match r.check s c with
    | 0 => (if (r.tiers s c).any (fun b => s.fld rPwrReady b 1 == 0) then stTierNotReady else 0, false)
    | st => (st, false)

/-! ### Which queue is served (R238, R239, R247, R249) -/

/-- Acceptances allowed by RATE now, in units of 1/4,000,000. -/
def State.tokensNow (s : State) (q : Nat) : Nat :=
  let x := s.queue q
  let r := s.fld (rQpQreg q) 0 16
  min (r * dtMs 1) (x.tokens + r * (s.dt.toNat - x.tokDt))

/-- Is a QUEUE_DELETE of queue q accepted? -/
def State.deleting (s : State) (q : Nat) : Bool :=
  let del (c : Cmd) : Bool := c.opcode == 0x21 && c.opf 0 0 14 == q && c.status == 0
  s.cmds.any del || (s.queue q).recs.any del

/-- Has queue q an unaccepted entry and room under its regulators? -/
def State.queueReady (s : State) (q : Nat) : Bool :=
  let w := s.reg (rQpQ q)
  let m := s.fld (rQpQreg q) 16 8
  bf w 61 1 == 1 && !s.partResetting (bf w 55 3) && bf w 60 1 == 0 && bf w 59 1 == 0 && bf w 0 16 != bf w 16 16 && !s.deleting q &&
    decide (s.inflight q < (if m = 0 then 256 else m)) &&
    (s.fld (rQpQreg q) 0 16 == 0 || decide (dtMs 1 ≤ s.tokensNow q))

def State.queueClass (s : State) (q : Nat) : Nat := s.fld (rQpQ q) 53 2
def State.queueWeight (s : State) (q : Nat) : Nat := max 1 (s.fld (rQpQreg q) 24 8)

/-- The queue processor that serves queue q: q mod 4, or while that one hands over, one of its siblings (R235, step 2
of Table 15.6). -/
def State.procOf (s : State) (q : Nat) : Nat :=
  match s.sec.patch with
  | some x =>
    if x.qp = q % 4 ∧ 2 ≤ x.step then ((List.range 4).filter (fun j => j != q % 4)).getD (q / 4 % 3) 0 else q % 4
  | none => q % 4

/-- The queues of q's queue processor that are ready. -/
def State.rivals (s : State) (q : Nat) : List Nat :=
  (s.queues.map Prod.fst).filter (fun j => s.procOf j == s.procOf q && s.queueReady j)

/-- Those of q's class. -/
def State.peersOf (s : State) (q : Nat) : List Nat := (s.rivals q).filter (fun j => s.queueClass j == s.queueClass q)

/-- The queues that share q's rounds: those of its class that its queue processor serves. -/
def State.classOf (s : State) (q : Nat) : List Nat :=
  (s.queues.map Prod.fst).filter (fun j => s.procOf j == s.procOf q && s.queueClass j == s.queueClass q)

/-- Has every ready queue of q's class used its turns of the round? -/
def State.roundOver (s : State) (q : Nat) : Bool :=
  (s.peersOf q).all (fun j => decide (s.queueWeight j ≤ (s.queue j).turns))

/-- May the queue processor take q's next entry: it is ready, of the highest class, with a turn left? -/
def State.mayServe (s : State) (q : Nat) : Bool :=
  s.runs && s.queueReady q && (s.rivals q).all (fun j => decide (s.queueClass q ≤ s.queueClass j)) &&
    (decide ((s.queue q).turns < s.queueWeight q) || s.roundOver q)

/-! ### Taking an entry -/

/-- A word of an entry; of a queue whose TAIL lies past its depth, a free value (R238, R1). -/
def State.entryWord (s : State) (q a : Nat) : W64 :=
  if (s.queue q).wild then BitVec.ofNat 64 (leNat ((List.range 8).map (fun i => Config.freeByte s.free (a + i)))) else s.word a

/-- The entry at HEAD of queue q, as a command. -/
def State.readEntry (s : State) (q : Nat) : Cmd :=
  let a := (s.queue q).ring + 64 * s.fld (rQpQ q) 16 16
  { id := s.nextCmd, q := q, part := s.fld (rQpQ q) 55 3, qp := s.procOf q,
    words := (List.range 8).map (fun i => s.entryWord q (a + 8 * i)), accept := s.dt }

def State.entryPoison (s : State) (q : Nat) : Bool := s.poisoned ((s.queue q).ring + 64 * s.fld (rQpQ q) 16 16)

/-- HEAD passes the entry; the turn and the token are used. A new round gives every queue of the class its turns again
(R247). -/
def State.passEntry (s : State) (q : Nat) : State :=
  let ended := s.roundOver q
  let t := s.tokensNow q - dtMs 1
  let s := if ended then (s.classOf q).foldl (fun s j => s.updQueue j (fun x => { x with turns := 0 })) s else s
  let s := s.setFld (rQpQ q) 16 16 ((s.fld (rQpQ q) 16 16 + 1) % s.qDepth q)
  { s with free := s.free + 1 }.updQueue q (fun x => { x with turns := x.turns + 1, tokens := t, tokDt := s.dt.toNat })

/-- A refused command's record: START and END equal ACCEPT. -/
def State.refuseCmd (s : State) (c : Cmd) (st : Nat) (froze : Bool) : State :=
  let c := { c with st := .done, status := st, froze := froze, start := c.accept, fin := c.accept }
  { s with nextCmd := s.nextCmd + 1 }.updQueue c.q (fun x => { x with recs := x.recs ++ [c] })

/-- Freezes queue q for a cause; its partition is told (R258). -/
def State.freezeQueue (s : State) (q cause : Nat) : State :=
  (s.setFld (rQpQ q) 60 1 1).frozenEvent (s.fld (rQpQ q) 55 3) 0 q cause none

/-! ### Starting (R243) -/

/-- Is every slot that a command needs PLACED, and does no earlier held command of its context need one? -/
def State.seatsFree (s : State) (c : Cmd) (seats : List Nat) : Bool :=
  seats.all (fun n => match s.slotOf n c.ctx with
    | none => true
    | some k => !s.rst.hangs.any (fun h => h.eng == n) && (s.slot n k).st == .placed || ((s.slot n k).cmd == c.id && (s.slot n k).st == .blocked)) &&
  s.cmds.all (fun d => !(decide (d.id < c.id) && d.st == .held && d.ctx == c.ctx && d.engines.any seats.contains))

/-- Is a command of queue q before c not complete? -/
def State.earlierOpen (s : State) (c : Cmd) : Bool :=
  s.cmds.any (fun d => d.q == c.q && decide (d.id < c.id)) ||
    (s.queue c.q).recs.any (fun d => decide (d.id < c.id) && !d.ops.isEmpty)

/-- Must a command be held? -/
def State.mustHold (s : State) (r : CmdRow) (c : Cmd) : Bool :=
  (c.ordered && s.earlierOpen c) || !s.seatsFree c (r.seats s c) || r.waits s c ||
    ((s.ctx c.ctx).frozen.isSome && !r.thaw)

/-- A command begins to run. -/
def State.startCmd (s : State) (r : CmdRow) (c : Cmd) : State :=
  let c' := { c with st := .running, started := true, start := if c.started then c.start else s.dt,
                     engines := r.seats s c }
  r.start (s.updCmd c.id (fun _ => c')) c'

/-- An accepted command is held, or starts at once. -/
def State.letIn (s : State) (r : CmdRow) (c : Cmd) : State :=
  let c := { c with engines := r.seats s c }
  let s := { s with cmds := s.cmds ++ [c], nextCmd := s.nextCmd + 1 }
  if s.mustHold r c then s else s.startCmd r c

/-- What becomes of the entry that queue q has given. -/
def State.acceptEntry (s : State) (r : CmdRow) (q : Nat) (c : Cmd) (poison : Bool) : State :=
  let s := s.passEntry q
  match s.entryStatus r c poison with
  | (0, _) => s.letIn r c
  | (st, false) => s.refuseCmd c st false
  | (st, true) => (s.freezeQueue q st).refuseCmd c st true

/-- The queue processor takes the next entry of queue q, where that is of the row's opcode. The row NOP also
takes every opcode that Table 9.3 does not define. -/
def acceptCmd (r : CmdRow) (q : Nat) (s : State) : Host.Outcome State Fault Refusal :=
  let c := s.readEntry q
  if s.mayServe q ∧ (c.opcode = r.op ∨ (r.op = 0 ∧ definedOp c.opcode = false)) then
    .next (s.acceptEntry r q c (s.entryPoison q))
  else .next s

/-- A held command's start: its operand checks are made again, since what they tested may have gone. -/
def State.lateStart (s : State) (r : CmdRow) (c : Cmd) : State :=
  if s.mustHold r c then s
  else
    match (if c.started then 0 else r.check s c) with
    | 0 => s.startCmd r c
    | st => s.endCmd c.id st

/-- A command's result of 8 bytes to its host (R241). -/
def State.hostResult (s : State) (c : Cmd) (a : Nat) (v : Nat) : State :=
  let r := s.postHost c.part c.id a (leBytes 8 v)
  match r.2 with
  | .op _ => r.1
  | .bad st => r.1.updCmd c.id (fun d => d.meet st)

/-! ### Completion records (R239, R244, Table 9.5) -/

/-- A completion record. -/
def Cmd.record (c : Cmd) (sqhead phase : Nat) : List Byte :=
  let b (x : Bool) : Nat := if x then 1 else 0
  leBytes 8 (fv 48 16 sqhead + fv 40 8 (min 255 c.extra) + fv 39 1 phase + fv 38 1 (b c.froze) + fv 37 1 (b c.split) +
    fv 36 1 (b c.poison) + fv 35 1 (b c.ckne) + fv 34 1 (b c.sat) + fv 33 1 (b c.ovf) + fv 32 1 (b c.inv) +
    fv 16 16 c.status + fv 0 16 c.cid) ++
  leBytes 8 c.accept.toNat ++ leBytes 8 c.start.toNat ++ leBytes 8 c.fin.toNat

/-- The phase of a ring's record of index `i` (R239). -/
def ringPhase (i depth : Nat) : Nat := 1 - (i / depth) % 2

/-- May a finished command's record be written: its remote writes are acknowledged (R239), and those of the commands that
its context's teardown ended, whose records go before the teardown's own? -/
def State.recReady (s : State) (c : Cmd) : Bool :=
  c.ops.isEmpty && (c.opcode != 0x24 || s.queues.all (fun q => q.2.recs.all (fun d =>
    d.ctx != c.ctx || decide (c.id ≤ d.id) || d.ops.isEmpty)))

/-- The finished command whose record is next: of those that are ready, the one that completed first. -/
def nextRec (ready : Cmd → Bool) : List Cmd → Option Cmd
  | [] => none
  | c :: cs =>
    match nextRec ready cs with
    | none => if ready c then some c else none
    | some d => if ready c && decide (c.fin.toNat ≤ d.fin.toNat) then some c else some d

/-- The end of a queue that has deleted itself: its last record is written (R236). -/
def State.closeQueue (s : State) (q : Nat) : State := (((s.setReg (rQpQ q) 0).setReg (rQpQreg q) 0)).setQueue q {}

/-- During a reset of its partition a queue is deleted after its last record; records that the host cannot be given are
discarded (step 3 of R426). -/
def State.settleQueue (s : State) (q : Nat) : State :=
  let p := s.fld (rQpQ q) 55 3
  if ¬ (s.fld (rQpQ q) 61 1 = 1 ∧ s.partResetting p) ∨ s.cmds.any (fun c => c.q == q) then s
  else if (s.queue q).recs.isEmpty ∨ s.entState (hostEnt p) ≠ 1 then (s.closeQueue q).settleResets
  else s

/-- COMPLETION_RECORD_WRITE. A record waits while the partition's host entry takes no write (R239: no record is lost). -/
def execCompletionRecordWrite (q : Fin 16384) (s : State) : Host.Outcome State Fault Refusal :=
  let s := s.settleQueue q
  match nextRec s.recReady (s.queue q).recs with
  | none => .next s
  | some c =>
    if ¬ s.cqRoom q then .next (s.cqSync q)
    else if (s.entRefuses (hostEnt (s.fld (rQpQ q) 55 3))).isSome then .next s
    else
      let x := s.queue q
      let d := s.qDepth q
      let bs := c.record (s.fld (rQpQ q) 16 16) (ringPhase x.cqIdx d)
      let s := (s.postHost (s.fld (rQpQ q) 55 3) 0 (x.chost + 32 * (x.cqIdx % d)) bs).1
      let s := (s.setQueue q { x with cqIdx := x.cqIdx + 1, recs := x.recs.filter (fun r => r.id != c.id) }).cqSync q
      if c.opcode = 0x21 ∧ c.opf 0 0 14 = q ∧ c.status = 0 then .next (s.closeQueue q) else .next (s.settleQueue q)

/-! ### Event records (R260, Table 9.7) -/

/-- An event record. -/
def Event.record (e : Event) (phase : Nat) : List Byte :=
  leBytes 8 (fv 63 1 phase + fv 26 12 e.gen + fv 16 10 e.ctx + fv 0 16 e.code) ++ leBytes 8 e.dt.toNat ++
  leBytes 8 e.arg0.toNat ++ leBytes 8 e.arg1.toNat

/-- Has partition p's event ring room for another record? -/
def State.evRoom (s : State) (p : Nat) : Bool :=
  let x := s.part p
  let d := 2 ^ x.evDlog
  decide ((x.evIdx + d - x.evHead % d) % d + 1 < d)

/-- Writes one event record. -/
def State.writeEvent (s : State) (p : Nat) (e : Event) : State :=
  let x := s.part p
  let d := 2 ^ x.evDlog
  let s := (s.postHost p 0 (x.evAddr + 32 * (x.evIdx % d)) (e.record (ringPhase x.evIdx d))).1
  s.updPart p (fun x => { x with evIdx := x.evIdx + 1 })

/-- EVENT_RECORD: the oldest event of partition p is written, or dropped and counted while the ring is full;
once space returns, EVENT_LOST is written first. Events wait while the partition's host entry takes no write. -/
def execEventRecord (p : Fin 8) (s : State) : Host.Outcome State Fault Refusal :=
  let lost := s.fld (rQpPevt p) 0 32
  if (s.entRefuses (hostEnt p)).isSome then .next s
  else if s.evRoom p ∧ lost ≠ 0 then
    let e : Event := { code := stEventLost, dt := s.dt, arg0 := BitVec.ofNat 64 lost }
    .next ((s.writeEvent p e).setFld (rQpPevt p) 0 32 0)
  else
    match (s.part p).events with
    | [] => .next s
    | e :: es =>
      let s := s.updPart p (fun x => { x with events := es })
      if s.evRoom p then .next (s.writeEvent p e) else .next (s.updReg (rQpPevt p) (fun w => bsat w 0 32 1))

end Sys2Proof.Machine
end

