-- ==== Sys2Proof/Machine/Health.lean ====
section
/-! DEFINITION. The health record's changes (R444). -/

namespace Sys2Proof.Machine

/-- A change of the health record: hardware applies it at once, and its write to flash is queued. -/
def State.healthChange (s : State) (f : List HRec → List HRec) : State :=
  let h := f s.health.now
  ({ s with health := { s.health with now := h, queue := s.health.queue ++ [h] } }).setFld rRstHrec 33 1 1

/-- The record of an engine's line remaps takes a new word. -/
def State.healthRemap (s : State) (n : Nat) (w : W64) : State :=
  let mine (r : HRec) : Bool := match r with | .remap e _ => e == n | _ => false
  s.healthChange (fun h => h.filter (fun r => !mine r) ++ [.remap n w])

/-- The SEQ of a copy in flash, one more than it is; 0 for a copy that is not valid. -/
def copySeq (c : Option (Nat × List HRec)) : Nat := match c with | none => 0 | some c => c.1 + 1

/-- HEALTH_RECORD_WRITE: the oldest queued change is written to the copy with the lower SEQ. -/
def execHealthRecordWrite (s : State) : Host.Outcome State Fault Refusal :=
  match s.health.queue with
  | [] => .next s
  | h :: rest =>
    let a := copySeq s.health.copyA
    let b := copySeq s.health.copyB
    let n := max a b
    let hl := if a ≤ b then { s.health with copyA := some (n, h), queue := rest }
      else { s.health with copyB := some (n, h), queue := rest }
    let w := fv 33 1 (if rest.isEmpty then 0 else 1) + fv 32 1 (if a ≤ b then 0 else 1) + fv 0 32 n
    .next ({ s with health := hl }.setReg rRstHrec (BitVec.ofNat 64 w))

end Sys2Proof.Machine
end

