-- ==== Sys2Proof/Machine/Buckets.lean ====
section
/-! DEFINITION. The levels of the token buckets of the NoC's regulators (R250, R319 to R321). -/

namespace Sys2Proof.Machine

/-- A bucket's level now, in 32nds of a byte: it fills at `rate` of them per unit of DT, up to `top`. -/
def Bucket.now (b : Bucket) (rate top now : Nat) : Int := min (top : Int) (b.lvl + ((rate * (now - b.dt) : Nat) : Int))

/-- RATE and BURST in force for a kind of destination of a source: 0 on-chip, 1 HBM, 2 DDR, 3 CXL, 4 Ethernet. -/
def State.rateOf (s : State) (src kind : Nat) : Nat × Nat :=
  let w := s.reg (rNocRg src kind)
  if kind = 2 ∧ s.ddr.throttles.any (fun t => t.src == src) then (1, 64)
  else (bf w 0 16, max 64 (bf w 16 24))

/-- A regulator's level; one that has not drawn is full. -/
def State.bucketOf (s : State) (src kind : Nat) : Int :=
  let r := s.rateOf src kind
  match oget s.noc.buckets (8 * src + kind) with
  | none => ((32 * r.2 : Nat) : Int)
  | some b => b.now (8 * r.1) (32 * r.2) s.dt.toNat

end Sys2Proof.Machine
end

