-- ==== Sys2Proof/Machine/Crc.lean ====
section
/-! DEFINITION. CRC-32C as R359 uses it: polynomial 0x1EDC_6F41, reflected, initial value and final XOR
0xFFFF_FFFF. -/

namespace Sys2Proof.Machine

/-- The polynomial 0x1EDC_6F41 with its bits reflected. -/
def crcPoly : Nat := 0x82F63B78

/-- Divides `n` bits. -/
def crcBits : Nat → Nat → Nat
  | 0, c => c
  | n + 1, c => crcBits n (if c % 2 = 1 then (c / 2) ^^^ crcPoly else c / 2)

/-- The CRC-32C of bytes. -/
def crc32c (bs : List Byte) : Nat :=
  (bs.foldl (fun c b => crcBits 8 (c ^^^ b.toNat)) 0xFFFFFFFF) ^^^ 0xFFFFFFFF

end Sys2Proof.Machine
end

