-- ==== Sys2Proof/Machine/RegWrite.lean ====
section
/-! DEFINITION. A write of a register with the actions of its fields (R8, R9): counts that clear, scans, the BBRAM
key, sub-ports, readback, browse, timing sets and the dump area. -/

namespace Sys2Proof.Machine

/-! ### Lanes and sub-ports (R292, R294, R306) -/

/-- A write of xx_LCTL: FREEZE holds adaptation, and SCAN starts a scan. -/
def State.writeLctl (s : State) (l : Nat) (v : W64) : State :=
  let s := s.regStore (rLctl l) v
  let was := (oget s.links.eqHold l).isSome
  let s := if s.laneOn l then s.setFld (rLstat l) 1 1 (1 - bf v 4 1) else s
  let s := if s.laneOn l ∧ was ≠ (bf v 4 1 == 1) then s.holdEq l (bf v 4 1 == 1) else s
  if bf v 5 1 = 1 then s.startScan l else s

/-- A write of ETH_PCFG: a sub-port that is disabled goes out of service, and one that is enabled begins its
bring-up. MODE waits for the next port reset. -/
def State.writePcfg (s : State) (p : Nat) (v : W64) : State :=
  let old := s.reg (rEthPcfg p)
  let s := s.regStore (rEthPcfg p) v
  (List.range 4).foldl (fun s k => if bf old (4 + k) 1 = bf v (4 + k) 1 then s else s.startSub p k) s

/-! ### BBRAM (R362) -/

/-- The 32 bytes of a key. -/
def keyBytes (k : Nat) : List Byte := leBytes 32 k

/-- The key that CFG_BBKEY0 to CFG_BBKEY3 hold. -/
def State.bbStaged (s : State) : Nat := ((List.range 4).map (fun w => (tget (0 : W64) s.fab.bbIn w).toNat * 2 ^ (64 * w))).sum

/-- A write of CFG_BBCTL; where both bits are set, the key is committed and then erased. -/
def State.writeBbctl (s : State) (v : W64) : State :=
  if s.sec.fuses.bbLock ∨ (bf v 0 2 = 0) then s
  else
    let k := s.bbStaged
    let s := { s with fab := { s.fab with bbIn := [] } }
    if bf v 1 1 = 1 then ({ s with fab := { s.fab with bbKey := 0, bbCrc := 0 } }).setFld rCfgKeystat 1 1 0
    else ({ s with fab := { s.fab with bbKey := k, bbCrc := crc32c (keyBytes k) } }).setFld rCfgKeystat 1 1 1

/-! ### NoC counters and trace (R325, R326) -/

/-- A write of NOC_PRBCTL. -/
def State.writePrbctl (s : State) (p : Nat) (v : W64) : State :=
  let s := s.regStore (rNocPrbctl p) v
  if bf v 19 1 = 1 then (s.setReg (rNocPrbpkt p) 0).setReg (rNocPrbbyte p) 0 else s

/-- A write of NOC_TRCTL: CLEAR empties the buffer and zeroes its index, WRAPPED and LOST. -/
def State.writeTrctl (s : State) (b : Nat) (v : W64) : State :=
  let s := s.regStore (rNocTrctl b) v
  if bf v 17 1 = 1 then
    let s := { s with noc := { s.noc with trace := s.noc.trace.filter (fun e => e.1 / 16384 != b) } }
    s.setReg (rNocTrctl b) (BitVec.ofNat 64 (fv 16 1 (bf v 16 1)))
  else s

/-- A write of a regulator settles its bucket at the old rate first. -/
def State.writeRg (s : State) (src kind : Nat) (v : W64) : State :=
  let b : Bucket := { lvl := s.bucketOf src kind, dt := s.dt.toNat }
  let t := { s with noc := { s.noc with buckets := oset s.noc.buckets (8 * src + kind) (some b) } }
  t.regStore (rNocRg src kind) v

/-! ### The rest -/

/-- Is a device address in HBM? -/
def State.inHbm (s : State) (a : Nat) : Bool :=
  match s.region a with | .hbm _ => true | _ => false

/-- Is any byte of a range granted by a range of memory? -/
def State.grantMeets (s : State) (a n : Nat) : Bool :=
  (List.range 8).any (fun p => (s.part p).grants.any (fun g =>
    g.kind == 0 && decide (a < g.lo + g.size) && decide (g.lo < a + n)))

/-- The dump area may lie only in HBM that no partition is granted (R435). -/
def State.writeDmpBase (s : State) (v : W64) : State :=
  let a := bf v 0 48
  if a % 0x4000000 = 0 ∧ s.inHbm a ∧ s.inHbm (a + 0x3FFFFFF) ∧ ¬ s.grantMeets a 0x4000000 then s.regStore rDmpBase v
  else s

/-- A write of DDR_TSEL asks for the other timing set (R224). -/
def State.writeTsel (s : State) (c : Nat) (v : W64) : State :=
  let s := s.regStore (rDdrTsel c) v
  let others := s.ddr.change.filter (fun x => x != c)
  let want := bf v 0 1 != s.fld (rDdrChstat c) 3 1
  { s with ddr := { s.ddr with change := if want then others ++ [c] else others } }

/-- A write of BRW_CTL; an enabled unit's watchdog counts anew. -/
def State.writeBrwctl (s : State) (u : Nat) (v : W64) : State :=
  let was := s.fld (rBrwCtl u) 0 1
  let s := s.regStore (rBrwCtl u) v
  if was = 0 ∧ bf v 0 1 = 1 then
    { s with fab := { s.fab with browse := tupd {} s.fab.browse u (fun b => { b with since := s.dt.toNat }) } }
  else s

/-- A register that a write acts on beside its value. -/
inductive RegAct where
  | lctl (l : Nat)
  | pcfg (p : Nat)
  | mac
  | bbkey (w : Nat)
  | bbctl
  | rbctl
  | prbctl (p : Nat)
  | trctl (b : Nat)
  | rg (src kind : Nat)
  | dmpBase
  | tsel (c : Nat)
  | brwctl (u : Nat)
  | counts
  | plain
deriving DecidableEq, Repr

/-- What a write at an offset does. -/
def regAct (off : Nat) : RegAct :=
  if off = rCfgBbctl then .bbctl
  else if off = rCfgRbctl then .rbctl
  else if off = rDmpBase then .dmpBase
  else if (regDef off).any (fun d => d.wo == 2 ^ 63) then .counts
  else if 0x300000 ≤ off ∧ off < 0x500000 then
    match (List.range 48).find? (fun l => rLctl l == off) with
    | some l => .lctl l
    | none =>
      if off = rEthMac 0 ∨ off = rEthMac 1 then .mac
      else match (List.range 2).find? (fun p => rEthPcfg p == off) with | some p => .pcfg p | none => .plain
  else if 0x200000 ≤ off ∧ off < 0x300000 then
    match (List.range 8).find? (fun c => rDdrTsel c == off) with | some c => .tsel c | none => .plain
  else if 0x601000 ≤ off ∧ off < 0x700000 then
    let src := (off - 0x601000) / 0x40
    let k := (off - 0x601000) % 0x40 / 8
    if off % 8 = 0 ∧ k < 5 ∧ (regDef off).isSome then .rg src k else .plain
  else if 0x600000 ≤ off ∧ off < 0x601000 then
    match (List.range 3).find? (fun b => rNocTrctl b == off) with
    | some b => .trctl b
    | none => match (List.range 40).find? (fun p => rNocPrbctl p == off) with | some p => .prbctl p | none => .plain
  else if 0x800000 ≤ off ∧ off < 0x900000 then
    match (List.range 4).find? (fun w => rCfgBbkey w == off) with | some w => .bbkey w | none => .plain
  else
    match (List.range 2).find? (fun u => rBrwCtl u == off) with | some u => .brwctl u | none => .plain

/-- A naturally aligned 64-bit write of a register by C0; one of a register that only other commands write is
ignored (R9). -/
def State.regWrite (s : State) (off : Nat) (v : W64) : State :=
  if regReserved off then s else
  match regAct off with
  | .lctl l => s.writeLctl l v
  | .pcfg p => s.writePcfg p v
  | .mac => (s.regStore off v).releaseHeld
  | .bbkey w => { s with fab := { s.fab with bbIn := tset 0 s.fab.bbIn w v } }
  | .bbctl => s.writeBbctl v
  | .rbctl => let t := s.regStore off v; if bf v 33 1 = 1 then t.setFld off 34 2 1 else t
  | .prbctl p => s.writePrbctl p v
  | .trctl b => s.writeTrctl b v
  | .rg src k => s.writeRg src k v
  | .dmpBase => s.writeDmpBase v
  | .tsel c => s.writeTsel c v
  | .brwctl u => s.writeBrwctl u v
  | .counts => if bf v 63 1 = 1 then s.setReg off 0 else s
  | .plain => s.regStore off v

/-- Does a register's chapter name REG_WRITE as the only path of its RW fields (R85, R154, R377, R422 and the paragraphs
above the register maps of chapters 11 and 17)? -/
def regWriteOnly (off : Nat) : Bool :=
  (decide (off < 0x40000) && off % 0x1000 == 0x010) || (decide (0x80000 ≤ off) && decide (off < 0x100000)) ||
    (decide (0x300000 ≤ off) && decide (off < 0x500000)) || (decide (0x800000 ≤ off) && decide (off < 0xA00000)) ||
    (decide (0xC00000 ≤ off) && decide (off < 0xF00000))

/-- The W1C fields of the PWR_, RST_ and DMP_ registers are C0's by any path. -/
def w1cOpen (off : Nat) : Bool := decide (0xC00000 ≤ off) && decide (off < 0xF00000)

/-- A sequencer's store to a register by C0 (R9). -/
def State.regPoke (s : State) (off : Nat) (v : W64) : State :=
  if regWriteOnly off then
    match regDef off with
    | some d => if w1cOpen off then s.setReg off (s.reg off &&& ~~~(BitVec.ofNat 64 d.w1c &&& v)) else s
    | none => s
  else s.regWrite off v

/-! ### The rows that write one register -/

/-- MT_CKSTAT_CLEAR. -/
def execMtCkstatClear (e : Fin 64) (s : State) : Host.Outcome State Fault Refusal :=
  .next (s.regWrite (rMtCkstat e) (BitVec.ofNat 64 (2 ^ 63)))

/-- HBM_ECC_CLEAR. -/
def execHbmEccClear (s : State) : Host.Outcome State Fault Refusal := .next (s.regWrite rHbmEcc (BitVec.ofNat 64 (2 ^ 63)))

/-- DDR_ECC_CLEAR. -/
def execDdrEccClear (ch : Fin 8) (s : State) : Host.Outcome State Fault Refusal :=
  .next (s.regWrite (rDdrEcc ch) (BitVec.ofNat 64 (2 ^ 63)))

/-- ETH_FEC_CLEAR. -/
def execEthFecClear (port : Fin 2) (sub : Fin 4) (s : State) : Host.Outcome State Fault Refusal :=
  .next (s.regWrite (rEthFec port sub) (BitVec.ofNat 64 (2 ^ 63)))

/-- CXL_ERR_CLEAR. -/
def execCxlErrClear (port : Fin 2) (s : State) : Host.Outcome State Fault Refusal :=
  .next (s.regWrite (rCxlErr port) (BitVec.ofNat 64 (2 ^ 63)))

/-- NOC_PRBCTL_CLEAR: CLEAR is written with the register's other fields as they are. -/
def execNocPrbctlClear (p : Fin 40) (s : State) : Host.Outcome State Fault Refusal :=
  .next (s.regWrite (rNocPrbctl p) (bset (s.reg (rNocPrbctl p)) 19 1 1))

/-- NOC_TRCTL_CLEAR: CLEAR is written with the register's other fields as they are. -/
def execNocTrctlClear (b : Fin 3) (s : State) : Host.Outcome State Fault Refusal :=
  .next (s.regWrite (rNocTrctl b) (bset (s.reg (rNocTrctl b)) 17 1 1))

/-- BRW_CNT_CLEAR. -/
def execBrwCntClear (u : Fin 2) (s : State) : Host.Outcome State Fault Refusal :=
  .next (s.regWrite (rBrwCnt u) (BitVec.ofNat 64 (2 ^ 63)))

/-- EYE_SCAN_START: SCAN is written with the register's other fields as they are. -/
def execEyeScanStart (l : Fin 48) (s : State) : Host.Outcome State Fault Refusal :=
  .next (s.regWrite (rLctl l) (bset (s.reg (rLctl l)) 5 1 1))

/-- REGISTER_WRITE: a naturally aligned 64-bit write at a register's offset; any other changes nothing. -/
def execRegisterWrite (off : Nat) (v : W64) (s : State) : Host.Outcome State Fault Refusal :=
  if off % 8 = 0 ∧ off < 2 ^ 24 then .next (s.regWrite off v) else .next s

end Sys2Proof.Machine
end

