-- ==== Sys2Proof/Machine/Seq.lean ====
section
/-! DEFINITION. The engine sequencer (chapter 05): fetch, slot choice, faults, and the instructions but
for MPASS and VLAUNCH. -/

namespace Sys2Proof.Machine

/-! ### Fetch and choice -/

/-- What a slot fetches (R122, Table 5.23). -/
inductive Fetch where
  | range
  | illegal
  | ok (i : EsInsn)
deriving DecidableEq, Repr

/-- The instruction at a slot's PC: outside the window, illegal, or an instruction. -/
def State.fetch (s : State) (n k : Nat) : Fetch :=
  let w := s.reg (rEsImwin n k)
  let pc := (s.slot n k).pc
  if bf w 16 9 * 256 ≤ pc then .range
  else
    match EsInsn.decode (tget 0 (s.eng n).imem (bf w 0 8 * 256 + pc)) with
    | none => .illegal
    | some i => .ok i

/-- Does the instruction wait for a load that has not returned (R119)? DESIGN CHOICE (log 79): Table 5.3 lists LD among the
reasons of BLOCKED and R124 keeps an interlocked slot READY; the slot is READY. -/
def Slot.interlocked (x : Slot) (i : EsInsn) : Bool :=
  (i.reads ++ i.writes).any (fun r => r != 0 && x.loads.any (fun l => l.rd == r.toNat))

/-- Can slot k's next instruction issue? A fetch that faults issues its fault. -/
def State.canIssue (s : State) (n k : Nat) : Bool :=
  match s.fetch n k with
  | .ok i => !(s.slot n k).interlocked i
  | _ => true

/-- Is slot k READY, its context and engine not frozen? -/
def State.isReady (s : State) (n k : Nat) : Bool :=
  s.runs && (s.slot n k).st == .ready && !s.slotFrozen n k && !(s.eng n).retired && !(s.eng n).hung

def State.readySlots (s : State) (n : Nat) : List Nat := (List.range 8).filter (fun k => s.isReady n k)

/-- The slots of the highest class (lowest number) among some. -/
def State.topClass (s : State) (n : Nat) (ks : List Nat) : List Nat :=
  let m := ks.foldl (fun m k => min m (s.slot n k).cls) 4
  ks.filter (fun k => (s.slot n k).cls == m)

/-- The next slot of a list after `k` in ascending cyclic order. -/
def nextCyclic (k : Nat) (ks : List Nat) : Option Nat :=
  match ks.find? (fun j => decide (k < j)) with
  | some j => some j
  | none => ks.head?

/-- The slot that holds issue (R124): in the highest class, the one that issued last while it may keep it, else the next. -/
def State.holder (s : State) (n : Nat) : Option Nat :=
  let e := s.eng n
  let ks := s.topClass n (s.readySlots n)
  let c := (s.slot n (ks.headD 0)).cls
  let k := tget 0 e.last c
  if ks.contains k && !tget false e.yielded c && !(decide (256 ≤ tget 0 e.runLen c) && decide (1 < ks.length)) then some k
  else nextCyclic k ks

/-- The slot that the sequencer issues from next (R124): the holder, or while its next instruction waits
on an interlock, the next slot of the highest class whose instruction can issue. -/
def State.chosen (s : State) (n : Nat) : Option Nat :=
  match s.holder n with
  | none => none
  | some h =>
    if s.canIssue n h then some h
    else nextCyclic h (s.topClass n ((s.readySlots n).filter (fun k => s.canIssue n k)))

/-! ### Faults and issue -/

/-- Records a sequencer fault in ES_FAULT and ES_FAULTDT and freezes the context (R153). -/
def State.esFault (s : State) (n k st : Nat) : State :=
  let x := s.slot n k
  let w := logWord (s.reg (rEsFault n)) (fv 48 16 st + fv 32 16 x.pc + fv 4 3 k)
  ((s.setReg (rEsFault n) w).setReg (rEsFaultdt n) s.dt).faultCtx x.ctx x.cmd st

/-- The sequencer's books when slot k issues an instruction (R124; ES_STATUS.ACTIVE, ES_INSNS). An issue
in place of an interlocked holder counts towards neither slot's run. -/
def State.issueBooks (s : State) (n k : Nat) : State :=
  let others := (s.topClass n (s.readySlots n)).any (fun j => j != k)
  let h := s.holder n
  let c := (s.slot n k).cls
  let s := s.updEng n (fun e =>
    if h = some k then
      { e with last := tset 0 e.last c k, yielded := tset false e.yielded c false, esActive := k,
               runLen := tset 0 e.runLen c
                 (if tget 0 e.last c = k ∧ others then tget 0 e.runLen c + 1 else if others then 1 else 0) }
    else { e with esActive := k })
  s.updReg (rEsInsns n) (· + 1)

/-- Slot k gives up its turn, if it holds its class's: issue passes to the next READY slot of the class (R124). -/
def State.passTurn (s : State) (n k : Nat) : State :=
  let c := (s.slot n k).cls
  s.updEng n (fun e => if tget 0 e.last c = k then { e with yielded := tset false e.yielded c true } else e)

/-- Runs the instruction at slot k's PC where the sequencer issues from that slot and the instruction is
of the row's kind; `body` gives its effect on the state whose books are kept. -/
def esRun (n k : Nat) (body : EsInsn → Option (State → State)) (s : State) :
    Host.Outcome State Fault Refusal :=
  if s.chosen n = some k then
    match s.fetch n k with
    | .range => .next (s.esFault n k stEsImemRange)
    | .illegal => .next (s.esFault n k stEsIllegalInsn)
    | .ok i =>
      match body i with
      | none => .next s
      | some f => .next (f s)
  else .next s

/-- The instruction issues and its slot goes on with the next one, changed by `f`. -/
def State.retire (s : State) (n k : Nat) (f : Slot → Slot) : State :=
  (s.issueBooks n k).updSlot n k (fun x => let y := f x; { y with pc := y.pc + 1 })

/-- Writes Xd and goes on. -/
def State.retireX (s : State) (n k : Nat) (d : BitVec 5) (v : W64) : State :=
  s.retire n k (fun x => x.setX d v)

/-- The slot is BLOCKED and waits: it leaves READY. -/
def State.block (s : State) (n k : Nat) (w : Wait) : State :=
  ((s.issueBooks n k).passTurn n k).updSlot n k (fun x => { x with st := .blocked, wait := w })

/-- The slot is BLOCKED until there is room, and tries the instruction again; it has not issued yet. -/
def State.blockRetry (s : State) (n k : Nat) : State :=
  (s.passTurn n k).updSlot n k (fun x => { x with st := .blocked, wait := .retry })

/-! ### Integer instructions -/

/-- An instruction of opcode 0x01. -/
def esAlu (n k : Nat) (f : Alu) (s : State) : Host.Outcome State Fault Refusal :=
  esRun n k (fun i => match i with
    | .alu g d a b => if g = f then some (fun s =>
        let x := s.slot n k; s.retireX n k d (aluOp f (x.x a) (x.x b))) else none
    | _ => none) s

def esImm (n k : Nat) (f : ImmOp) (s : State) : Host.Outcome State Fault Refusal :=
  esRun n k (fun i => match i with
    | .imm g d a v => if g = f then some (fun s => s.retireX n k d (immOp f ((s.slot n k).x a) v)) else none
    | _ => none) s

def esShi (n k : Nat) (right : Bool) (s : State) : Host.Outcome State Fault Refusal :=
  esRun n k (fun i => match i with
    | .shi r d a v => if r = right then some (fun s =>
        let x := (s.slot n k).x a
        s.retireX n k d (if right then x >>> v.toNat else x <<< v.toNat)) else none
    | _ => none) s

/-- ES_NOP. -/
def execEsNop (e : Fin 64) (sl : Fin 8) (s : State) : Host.Outcome State Fault Refusal :=
  esRun e sl (fun i => match i with | .nop => some (fun s => s.retire e sl id) | _ => none) s

def execAdd (e : Fin 64) (sl : Fin 8) (s : State) : Host.Outcome State Fault Refusal := esAlu e sl .add s
def execSub (e : Fin 64) (sl : Fin 8) (s : State) : Host.Outcome State Fault Refusal := esAlu e sl .sub s
def execAnd (e : Fin 64) (sl : Fin 8) (s : State) : Host.Outcome State Fault Refusal := esAlu e sl .and s
def execOr (e : Fin 64) (sl : Fin 8) (s : State) : Host.Outcome State Fault Refusal := esAlu e sl .or s
def execXor (e : Fin 64) (sl : Fin 8) (s : State) : Host.Outcome State Fault Refusal := esAlu e sl .xor s
def execShl (e : Fin 64) (sl : Fin 8) (s : State) : Host.Outcome State Fault Refusal := esAlu e sl .shl s
def execShr (e : Fin 64) (sl : Fin 8) (s : State) : Host.Outcome State Fault Refusal := esAlu e sl .shr s
def execSra (e : Fin 64) (sl : Fin 8) (s : State) : Host.Outcome State Fault Refusal := esAlu e sl .sra s
def execSlt (e : Fin 64) (sl : Fin 8) (s : State) : Host.Outcome State Fault Refusal := esAlu e sl .slt s
def execSltu (e : Fin 64) (sl : Fin 8) (s : State) : Host.Outcome State Fault Refusal := esAlu e sl .sltu s
def execMul (e : Fin 64) (sl : Fin 8) (s : State) : Host.Outcome State Fault Refusal := esAlu e sl .mul s
def execAddi (e : Fin 64) (sl : Fin 8) (s : State) : Host.Outcome State Fault Refusal := esImm e sl .addi s
def execAndi (e : Fin 64) (sl : Fin 8) (s : State) : Host.Outcome State Fault Refusal := esImm e sl .andi s
def execOri (e : Fin 64) (sl : Fin 8) (s : State) : Host.Outcome State Fault Refusal := esImm e sl .ori s
def execXori (e : Fin 64) (sl : Fin 8) (s : State) : Host.Outcome State Fault Refusal := esImm e sl .xori s
def execShli (e : Fin 64) (sl : Fin 8) (s : State) : Host.Outcome State Fault Refusal := esShi e sl false s
def execShri (e : Fin 64) (sl : Fin 8) (s : State) : Host.Outcome State Fault Refusal := esShi e sl true s

/-- MOVI. -/
def execMovi (e : Fin 64) (sl : Fin 8) (s : State) : Host.Outcome State Fault Refusal :=
  esRun e sl (fun i => match i with
    | .movi d v => some (fun s => s.retireX e sl d (v.signExtend 64))
    | _ => none) s

/-- MOVK. -/
def execMovk (e : Fin 64) (sl : Fin 8) (s : State) : Host.Outcome State Fault Refusal :=
  esRun e sl (fun i => match i with
    | .movk d h v => some (fun s => s.retireX e sl d (movkWord ((s.slot e sl).x d) h v))
    | _ => none) s

/-! ### Branches and jumps -/

/-- Is a target inside slot k's window (R122, Table 5.23)? -/
def State.inWindow (s : State) (n k : Nat) (t : Int) : Bool :=
  decide (0 ≤ t) && decide (t < ((s.fld (rEsImwin n k) 16 9 * 256 : Nat) : Int))

/-- Goes to a target, writing Xd first where a link is asked for; a target outside the window is not
taken and faults. -/
def State.goTo (s : State) (n k : Nat) (t : Int) (link : BitVec 5) : State :=
  if s.inWindow n k t then
    (s.issueBooks n k).updSlot n k (fun x =>
      { x.setX link (BitVec.ofNat 64 (x.pc + 1)) with pc := t.toNat })
  else s.esFault n k stEsImemRange

/-- A branch. One whose target lies outside the window faults, whether or not its condition holds (R122). -/
def esBranch (n k : Nat) (f : BrOp) (s : State) : Host.Outcome State Fault Refusal :=
  esRun n k (fun i => match i with
    | .br g d a v => if g = f then some (fun s =>
        let x := s.slot n k
        let t := (x.pc : Int) + v.toInt
        if brTaken f (x.x d) (x.x a) ∨ ¬ s.inWindow n k t then s.goTo n k t 0 else s.retire n k id) else none
    | _ => none) s

def execBeq (e : Fin 64) (sl : Fin 8) (s : State) : Host.Outcome State Fault Refusal := esBranch e sl .beq s
def execBne (e : Fin 64) (sl : Fin 8) (s : State) : Host.Outcome State Fault Refusal := esBranch e sl .bne s
def execBlt (e : Fin 64) (sl : Fin 8) (s : State) : Host.Outcome State Fault Refusal := esBranch e sl .blt s
def execBge (e : Fin 64) (sl : Fin 8) (s : State) : Host.Outcome State Fault Refusal := esBranch e sl .bge s
def execBltu (e : Fin 64) (sl : Fin 8) (s : State) : Host.Outcome State Fault Refusal := esBranch e sl .bltu s

/-- JMP. -/
def execJmp (e : Fin 64) (sl : Fin 8) (s : State) : Host.Outcome State Fault Refusal :=
  esRun e sl (fun i => match i with
    | .jmp d v => some (fun s => s.goTo e sl (((s.slot e sl).pc : Int) + v.toInt) d)
    | _ => none) s

/-- JR: the target is read before the link is written. -/
def execJr (e : Fin 64) (sl : Fin 8) (s : State) : Host.Outcome State Fault Refusal :=
  esRun e sl (fun i => match i with
    | .jr d a => some (fun s => s.goTo e sl (((s.slot e sl).x a).toNat : Int) d)
    | _ => none) s

/-! ### Loads and stores -/

/-- What an aligned access of `n` bytes by context c finds: its device address, or the status it faults
with. A register answers only an aligned 64-bit access (R8). -/
def State.dataAddr (s : State) (c : Nat) (va : W64) (n : Nat) (write : Bool) : Nat ⊕ Nat :=
  if va.toNat % n ≠ 0 then .inr stEsMisaligned
  else
    match s.translate c (va.toNat : Int) write with
    | .bad st => .inr st
    | .ok a => if s.region a = .regs ∧ n ≠ 8 then .inr stRegMisaligned else .inl a

/-- Reads `n` bytes at a device address for a sequencer: the value and the poison mark. -/
def State.dataRead (s : State) (a n : Nat) : Nat × Bool :=
  if s.region a = .regs then ((s.regRead (a - regBase)).toNat, false)
  else
    let rs := (List.range n).map (fun i => s.rdPlace (.dev (a + i)))
    (leNat (rs.map Prod.fst), rs.any Prod.snd)

/-- Writes `n` bytes at a device address for a sequencer. -/
def State.dataWrite (s : State) (a n v : Nat) : State :=
  if s.region a = .regs then s.regPoke (a - regBase) (BitVec.ofNat 64 v)
  else s.wrAll ((leBytes n v).zipIdx.map (fun p => (Place.dev (a + p.2), p.1, false)))

/-- LD and LDW: the access is made in program order when it issues; its data returns later. A free value
is taken so that the content of a fabric window is fresh at every access. -/
def esLoad (n k bytes : Nat) (want : MemOp) (s : State) : Host.Outcome State Fault Refusal :=
  esRun n k (fun i => match i with
    | .mem f d a v => if f = want then some (fun s =>
        let x := s.slot n k
        let va := x.x a + v.signExtend 64
        if s.anyMoving x.ctx [(va.toNat : Int)] then s
        else
          match s.dataAddr x.ctx va bytes false with
          | .inr st => s.esFault n k st
          | .inl dv =>
            let r := s.dataRead dv bytes
            let l : Load := { rd := d.toNat, data := BitVec.ofNat 64 r.1, poison := r.2 }
            let s := { s with free := s.free + 1 }.touchDev x.cmd dv
            s.retire n k (fun x => { x with loads := x.loads ++ [l] })) else none
    | _ => none) s

/-- ST and STW: visible at once. -/
def esStore (n k bytes : Nat) (want : MemOp) (s : State) : Host.Outcome State Fault Refusal :=
  esRun n k (fun i => match i with
    | .mem f d a v => if f = want then some (fun s =>
        let x := s.slot n k
        let va := x.x a + v.signExtend 64
        if s.anyMoving x.ctx [(va.toNat : Int)] then s
        else
          match s.dataAddr x.ctx va bytes true with
          | .inr st => s.esFault n k st
          | .inl dv => ((s.dataWrite dv bytes ((x.x d).toNat % 2 ^ (8 * bytes))).touchDev x.cmd dv).retire n k id) else none
    | _ => none) s

def execLd (e : Fin 64) (sl : Fin 8) (s : State) : Host.Outcome State Fault Refusal := esLoad e sl 8 .ld s
def execLdw (e : Fin 64) (sl : Fin 8) (s : State) : Host.Outcome State Fault Refusal := esLoad e sl 4 .ldw s
def execSt (e : Fin 64) (sl : Fin 8) (s : State) : Host.Outcome State Fault Refusal := esStore e sl 8 .st s
def execStw (e : Fin 64) (sl : Fin 8) (s : State) : Host.Outcome State Fault Refusal := esStore e sl 4 .stw s

/-- LOAD_DATA_RETURN (R119, R134): the data of outstanding load i of the slot returns; poisoned data
freezes the context, and the load stays outstanding. -/
def execLoadDataReturn (e : Fin 64) (sl : Fin 8) (i : Nat) (s : State) : Host.Outcome State Fault Refusal :=
  let x := s.slot e sl
  match x.loads[i]? with
  | none => .next s
  | some l =>
    if s.slotFrozen e sl then .next s
    else if l.poison then .next (s.faultCtx x.ctx x.cmd stPoison)
    else .next (s.setSlot e sl { x.setX (BitVec.ofNat 5 l.rd) l.data with loads := x.loads.eraseIdx i })

/-! ### Streams: queueing and waiting -/

/-- The slot's STRM descriptors on stream engine se that have not completed (R129). -/
def State.slotStreams (s : State) (n k se : Nat) : List Stream :=
  (s.eng n).streams.filter (fun t => t.slot == k && t.se == se)

/-- May a descriptor of this mode be submitted to this stream engine by STRM (Table 5.4)? -/
def strmMode (mode se : Nat) : Bool :=
  match se with
  | 0 => mode == 1 || mode == 3
  | 1 => mode == 1 || mode == 3
  | 2 => mode == 2
  | 3 => mode == 5
  | _ => false

/-- STRM (R126, R127, R129, R134). -/
def execStrm (e : Fin 64) (sl : Fin 8) (s : State) : Host.Outcome State Fault Refusal :=
  esRun e sl (fun i => match i with
    | .strm a se => some (fun s =>
        let x := s.slot e sl
        let va := (x.x a).toNat
        if 8 ≤ (s.slotStreams e sl se.toNat).length then s.blockRetry e sl
        else if s.anyMoving x.ctx (spanFrom va 64) then s
        else if va % 64 ≠ 0 then s.esFault e sl stDescInvalid
        else
          match s.vwords e sl x.ctx va 8 with
          | .inr st => s.esFault e sl st
          | .inl (ws, po) =>
            if po then s.faultCtx x.ctx x.cmd stPoison
            else
              match SDesc.ofWords ws with
              | none => s.esFault e sl stDescInvalid
              | some d =>
                if strmMode d.mode se.toNat then
                  let s := s.updEng e (fun en => { en with
                    seq := en.seq + 1,
                    streams := en.streams ++
                      [{ seq := en.seq, slot := sl, ctx := x.ctx, gen := x.gen, cls := x.cls, cmd := x.cmd,
                         se := se.toNat, d := d }] })
                  s.retire e sl id
                else s.esFault e sl stDescInvalid)
    | _ => none) s

/-- SWAIT. -/
def execSwait (e : Fin 64) (sl : Fin 8) (s : State) : Host.Outcome State Fault Refusal :=
  esRun e sl (fun i => match i with
    | .swait se => some (fun s =>
        if s.slotStreams e sl se.toNat = [] then s.retire e sl id else s.block e sl (.swait se.toNat))
    | _ => none) s

/-- FENCE: the slot's stores are visible when they issue, so it waits for its descriptors alone. -/
def execFence (e : Fin 64) (sl : Fin 8) (s : State) : Host.Outcome State Fault Refusal :=
  esRun e sl (fun i => match i with
    | .fence => some (fun s =>
        if (s.eng e).streams.all (fun t => t.slot != (sl : Nat)) then s.retire e sl id else s.block e sl .fence)
    | _ => none) s

/-- VWAIT. -/
def execVwait (e : Fin 64) (sl : Fin 8) (s : State) : Host.Outcome State Fault Refusal :=
  esRun e sl (fun i => match i with
    | .vwait => some (fun s =>
        if (s.slot e sl).live then s.block e sl .vwait else s.retire e sl id)
    | _ => none) s

/-- Does what a BLOCKED slot waits for hold now? GWAIT and HALT have their own events. -/
def State.waitOver (s : State) (n k : Nat) : Bool :=
  match (s.slot n k).wait with
  | .swait se => (s.slotStreams n k se).isEmpty
  | .fence => (s.eng n).streams.all (fun t => t.slot != k)
  | .vwait => !(s.slot n k).live
  | _ => false

/-- Wakes the slots of engine n whose wait is over: SWAIT, FENCE and VWAIT go on; an instruction that
waited for room is tried again. A frozen slot stays as it is (R151). -/
def State.wake (s : State) (n : Nat) : State :=
  (List.range 8).foldl (fun s k =>
    let x := s.slot n k
    if x.st = .blocked ∧ ¬ s.slotFrozen n k then
      if s.waitOver n k then s.setSlot n k { x with st := .ready, wait := .none, pc := x.pc + 1 }
      else if x.wait = .retry then s.setSlot n k { x with st := .ready, wait := .none }
      else s
    else s) s

/-! ### Gates -/

/-- GSIG (R143 to R145): a non-zero bit above the gate's name faults and sends nothing. -/
def execGsig (e : Fin 64) (sl : Fin 8) (s : State) : Host.Outcome State Fault Refusal :=
  esRun e sl (fun i => match i with
    | .gsig a b => some (fun s =>
        let x := s.slot e sl
        let t := (x.x a).toNat
        if 2 ^ 14 ≤ t then s.esFault e sl stEsIllegalInsn
        else
          let v := if b = 0 then 1 else (x.x b).toNat % 2 ^ 32
          (s.sendSig (bitsOf t 8 6)
            { gate := bitsOf t 0 8, value := v, ctx := x.ctx, gen := x.gen, src := 8 * e + sl }).retire e sl id)
    | _ => none) s

/-- GWAIT (R141, R142). -/
def execGwait (e : Fin 64) (sl : Fin 8) (s : State) : Host.Outcome State Fault Refusal :=
  esRun e sl (fun i => match i with
    | .gwait a g c => some (fun s =>
        let x := s.slot e sl
        let t := if a = 0 then 1 else (x.x a).toNat
        let n := s.gateCount e g.toNat
        if ¬ s.ownsGate e g.toNat x.ctx then s.faultCtx x.ctx x.cmd stGateNotOwned
        else if t ≤ n then
          (if c then s.setGateCount e g.toNat (n - t) else s).retire e sl id
        else s.block e sl (.gwait g.toNat t c))
    | _ => none) s

/-- GWAIT_RETURN (R142): a count that satisfies a waiting GWAIT makes its slot READY. -/
def execGwaitReturn (e : Fin 64) (sl : Fin 8) (s : State) : Host.Outcome State Fault Refusal :=
  let x := s.slot e sl
  match x.wait with
  | .gwait g t c =>
    let n := s.gateCount e g
    if x.st = .blocked ∧ ¬ s.slotFrozen e sl ∧ t ≤ n then
      .next ((if c then s.setGateCount e g (n - t) else s).setSlot e sl
        { x with st := .ready, wait := .none, pc := x.pc + 1 })
    else .next s
  | _ => .next s

/-- GSET. -/
def execGset (e : Fin 64) (sl : Fin 8) (s : State) : Host.Outcome State Fault Refusal :=
  esRun e sl (fun i => match i with
    | .gset a g => some (fun s =>
        let x := s.slot e sl
        if s.ownsGate e g.toNat x.ctx then
          (s.setGateCount e g.toNat (if a = 0 then 0 else (x.x a).toNat % 2 ^ 32)).retire e sl id
        else s.faultCtx x.ctx x.cmd stGateNotOwned)
    | _ => none) s

/-- GRD. -/
def execGrd (e : Fin 64) (sl : Fin 8) (s : State) : Host.Outcome State Fault Refusal :=
  esRun e sl (fun i => match i with
    | .grd d g => some (fun s =>
        let x := s.slot e sl
        if s.ownsGate e g.toNat x.ctx then s.retireX e sl d (BitVec.ofNat 64 (s.gateCount e g.toNat))
        else s.faultCtx x.ctx x.cmd stGateNotOwned)
    | _ => none) s

/-! ### The rest -/

/-- RDDT (R150). -/
def execRddt (e : Fin 64) (sl : Fin 8) (s : State) : Host.Outcome State Fault Refusal :=
  esRun e sl (fun i => match i with | .rddt d => some (fun s => s.retireX e sl d s.dt) | _ => none) s

/-- RDSR. -/
def execRdsr (e : Fin 64) (sl : Fin 8) (s : State) : Host.Outcome State Fault Refusal :=
  esRun e sl (fun i => match i with
    | .rdsr d r => some (fun s => s.retireX e sl d (BitVec.ofNat 64 (slotReg e sl (s.slot e sl) r.toNat)))
    | _ => none) s

/-- PLRD (R140). -/
def execPlrd (e : Fin 64) (sl : Fin 8) (s : State) : Host.Outcome State Fault Refusal :=
  esRun e sl (fun i => match i with
    | .plrd d a w => some (fun s =>
        let x := s.slot e sl
        s.retireX e sl d (tget 0 x.plog ((x.x a).toNat % 16 * 4 + w.toNat)))
    | _ => none) s

/-- YIELD: issue passes to another READY slot of the class, if there is one (R124); one that issued in place of an
interlocked holder has no turn to give. -/
def execYield (e : Fin 64) (sl : Fin 8) (s : State) : Host.Outcome State Fault Refusal :=
  esRun e sl (fun i => match i with
    | .yield => some (fun s => if s.holder e = some (sl : Nat) then (s.retire e sl id).passTurn e sl else s.retire e sl id)
    | _ => none) s

/-- HALT: the slot blocks until its passes, streams and thread are done (R125). -/
def execHalt (e : Fin 64) (sl : Fin 8) (s : State) : Host.Outcome State Fault Refusal :=
  esRun e sl (fun i => match i with | .halt => some (fun s => s.block e sl .halt) | _ => none) s

/-- Is all of a halting slot's work done (R125)? -/
def State.workDone (s : State) (n k : Nat) : Bool :=
  (s.eng n).passes.all (fun p => p.slot != k) && (s.eng n).streams.all (fun t => t.slot != k) &&
    !(s.slot n k).live

end Sys2Proof.Machine
end

