-- ==== Sys2Proof/Machine/PassDesc.lean ====
section
/-! DEFINITION. Reading and checking a pass descriptor and what it names (R127, R130, R131, R135, R136,
R161, R167, R174), and the instruction MPASS. -/

namespace Sys2Proof.Machine

/-- A check: its status where it fails. -/
def need (ok : Bool) (st : Nat) : Except Nat Unit := if ok then .ok () else .error st

/-- Words at a virtual address; a poisoned line gives POISON (R134). -/
def State.descWords (s : State) (n k c va cnt align : Nat) : Except Nat (List W64) :=
  if va % align ≠ 0 then .error stDescInvalid
  else
    match s.vwords n k c va cnt with
    | .inr st => .error st
    | .inl (ws, po) => if po then .error stPoison else .ok ws

/-- A stream descriptor of one mode (Tables 5.4 and 5.5). -/
def State.readDesc (s : State) (n k c va mode : Nat) : Except Nat SDesc := do
  let ws ← s.descWords n k c va 8 64
  match SDesc.ofWords ws with
  | none => .error stDescInvalid
  | some d => if d.mode = mode then .ok d else .error stDescInvalid

/-- A descriptor that an address of 0 leaves out. -/
def State.readDesc? (s : State) (n k c va mode : Nat) : Except Nat (Option SDesc) :=
  if va = 0 then .ok none else (s.readDesc n k c va mode).map some

/-! ### Operand shapes (R36, R130) -/

/-- Does an element stream of format f, with its scale stream, feed K steps of at most `lanes` lanes? -/
def operandShape (f : Fmt) (blk32 : Bool) (k lanes : Nat) (d : SDesc) (sc : Option SDesc) : Bool :=
  let ch := d.n0 * 8 / f.bits
  let b := blockOf blk32
  decide (d.n1 ≤ lanes) && d.n0 * 8 % f.bits == 0 && d.n2 * d.n3 * ch == k &&
    match sc with
    | none => true
    | some q => ch % b == 0 && q.n0 == ch / b && q.n1 == d.n1 && q.n2 == d.n2 && q.n3 == d.n3

/-! ### The fusion checks (R161, R167) -/

/-- The plain fields of an epilogue block (Table 6.2); none where a reserved bit is set. -/
def EpiBlk.ofWords (ws : List W64) : Option EpiBlk :=
  let w (i : Nat) : W64 := ws.getD i 0
  let hi (i : Nat) : Bool := bf (w i) 48 16 != 0
  let bad := bf (w 0) 5 3 != 0 || bf (w 0) 23 1 != 0 || hi 2 || hi 3 || hi 4 || hi 5 || hi 6 || hi 7 ||
    bf (w 8) 40 24 != 0 || bf (w 9) 32 32 != 0 || bf (w 10) 32 32 != 0 || (ws.drop 11).any (fun x => x != 0)
  if bad then none
  else some
    { ofmt := bf (w 0) 0 4, fax := bf (w 0) 4 1 == 1, cvtc := bf (w 0) 8 8, kc := bf (w 0) 16 7,
      lrow := bf (w 0) 24 24, seg := bf (w 0) 48 16, eps := bf (w 1) 0 32, sc := bf (w 1) 32 32,
      bias := bf (w 2) 0 48, res := bf (w 3) 0 48, scout := bf (w 4) 0 48, side := bf (w 5) 0 48,
      tkout := bf (w 6) 0 48, lpin := bf (w 7) 0 48, segs := bf (w 8) 0 16, seglen := bf (w 8) 16 24,
      lpsegp := bf (w 9) 0 32, f0 := bf (w 10) 0 32 }

def fmLate (fm : Nat) : Bool := fm == 21 || fm == 22 || fm == 23
def fmEps (fm : Nat) : Bool := fm == 8 || fm == 9 || fm == 10 || fm == 16 || fm == 21 || fm == 22
def fmSc (fm : Nat) : Bool := fm == 10 || fm == 13 || fm == 17 || fm == 18 || fm == 20
def fmLrow (fm : Nat) : Bool := decide (15 ≤ fm) && decide (fm ≤ 22)

/-- Are the fields that the entry does not use zero (Table 6.10)? -/
def EpiBlk.unusedZero (fm : Nat) (e : EpiBlk) : Bool :=
  (fmTopk fm || (e.kc == 0 && e.tkout == 0)) && (fmLrow fm || e.lrow == 0) && (fmSeg fm || e.seg == 0) &&
  (fmSeg fm || fmLate fm || e.segs == 0) && (fmBias fm || fmSeg fm || e.f0 == 0) &&
  (fmEps fm || e.eps == 0) && (fmSc fm || e.sc == 0) && (fmBias fm || e.bias == 0) && (fmRes fm || e.res == 0) &&
  (fmQuant fm || e.scout == 0) && (fmSide fm || e.side == 0) && (fmLate fm || (e.lpin == 0 && e.lpsegp == 0)) &&
  (fm == 23 || e.seglen == 0)

/-- Is the output format one that Table 6.2 and Table 6.4 allow for the entry? -/
def EpiBlk.ofmtOk (fm : Nat) (e : EpiBlk) : Bool :=
  if fm == 11 || fm == 14 then e.ofmt == 6
  else if fm == 12 then e.ofmt == 5
  else if fm == 10 || fm == 13 then e.ofmt == 3
  else if fmRes fm then decide (e.ofmt ≤ 2)
  else decide (e.ofmt ≤ 4)

/-- Feature lanes and token lanes of a pass (R159). -/
def EpiBlk.nf (e : EpiBlk) (nr nc : Nat) : Nat := if e.fax then nc else nr
def EpiBlk.nt (e : EpiBlk) (nr nc : Nat) : Nat := if e.fax then nr else nc

/-- Output features: half under paired SwiGLU. -/
def outFeats (fm nf : Nat) : Nat := if fmSwiglu fm then nf / 2 else nf

/-- The findings of Table 6.4 with status DESC_INVALID. -/
def EpiBlk.descOk (fm : Nat) (e : EpiBlk) (isInt hasOut : Bool) : Bool :=
  e.unusedZero fm && e.ofmtOk fm && (hasOut || fmTopk fm) &&
  (!fmQuant fm || e.scout != 0) && (!fmSide fm || e.side != 0) && (!fmTopk fm || e.tkout != 0) &&
  !(fmFold fm && e.fax) && !(fm == 23 && isInt) && (!fmTopk fm || (decide (1 ≤ e.kc) && decide (e.kc ≤ 64))) &&
  (!fmLate fm || (decide (1 ≤ e.segs) && decide (e.segs ≤ 4096)))

/-- The findings of Table 6.4 with status MPASS_SHAPE that need no descriptor. -/
def EpiBlk.shapeOk (fm : Nat) (e : EpiBlk) (nr nc k len : Nat) : Bool :=
  let nf := e.nf nr nc
  !(fmSwiglu fm && nf % 2 == 1) && !(fmQuant fm && outFeats fm nf % (Cvtc.ofByte e.cvtc).block != 0) &&
  !(fmSeg fm && (decide (e.segs ≤ e.seg) || decide (4096 < e.segs) || decide (e.lrow < e.f0 + nf))) &&
  !(fm == 23 && (e.seglen % len != 0 || k != e.segs * e.seglen))

/-! ### Result sizes (R131, Table 6.2) -/

def ceilDiv (a b : Nat) : Nat := (a + b - 1) / b

/-- Bits of one result of the main output. -/
def MDesc.obits (m : MDesc) : Nat :=
  if m.fm = 63 then 32 else match Fmt.ofCode m.epi.ofmt with | some t => t.bits | none => 32

/-- How many results the main output holds; none where the entry writes none. -/
def MDesc.results (m : MDesc) : Nat :=
  if m.fm ≠ 63 ∧ m.out = none then 0
  else
    let n := m.rElem.n1 * m.cElem.n1
    if fmSwiglu m.fm then n / 2 else n

def MDesc.mainBytes (m : MDesc) : Nat := ceilDiv (m.results * m.obits) 8

/-- Do the patterns cover exactly what the pass writes? -/
def MDesc.outShape (m : MDesc) (stot : Option SDesc) : Bool :=
  let nf := m.epi.nf m.rElem.n1 m.cElem.n1
  let nt := m.epi.nt m.rElem.n1 m.cElem.n1
  let size (d : Option SDesc) (b : Nat) : Bool := match d with | none => true | some d => d.size == b
  size m.out m.mainBytes && size stot m.mainBytes &&
  size m.scout (nt * (outFeats m.fm nf / (Cvtc.ofByte m.epi.cvtc).block)) &&
  size m.side (nt * 8) && size m.tkout (nt * 8 * m.epi.kc)

/-! ### Stot descriptors (R174) -/

/-- The stot header of a mode 6 descriptor (Tables 6.8 and 10.3). -/
def SDesc.stot (d : SDesc) : StotHdr :=
  { addr2 := d.addr2, tag := bitsOf d.w30 48 16, red := bitsOf d.w30 14 1 == 1, nr := bitsOf d.w30 15 6 + 1,
    rank := bitsOf d.w30 21 6, rfmt := bitsOf d.w38 32 4, rcvtc := bitsOf d.w38 36 8, sig := d.sig,
    sigEng := d.sigEng, sigGate := d.sigGate }

def SDesc.peer (d : SDesc) : Nat := bitsOf d.w30 0 14
def SDesc.rpitch (d : SDesc) : Nat := bitsOf d.w38 0 32

/-- The DESC_INVALID findings of a stot descriptor. -/
def SDesc.stotOk (d : SDesc) (ofmt : Option Nat) : Bool :=
  let h := d.stot
  bitsOf d.w30 27 21 == 0 && bitsOf d.w38 44 20 == 0 &&
  if h.red then
    decide (2 ≤ h.nr) && decide (h.rank < h.nr) && decide (h.rfmt ≤ 2) &&
      (match ofmt with | some f => decide (f ≤ 2) | none => false)
  else d.addr2 == 0

/-! ### The whole descriptor -/

/-- Reads and checks the descriptor at a virtual address for slot k of engine n and context c.
`span` allows FM16 and FM17 on a row that spans passes (R172). -/
def State.parsePass (s : State) (n k c va : Nat) (span : Bool) : Except Nat MDesc := do
  let ws ← s.descWords n k c va 16 128
  let w (i : Nat) : W64 := ws.getD i 0
  let c0 := w 0
  let adr (i : Nat) : Nat := bf (w i) 0 48
  let fm := bf c0 36 6
  let rblk := bf c0 28 1 == 1
  let cblk := bf c0 34 1 == 1
  need (bf c0 29 1 == 0 && bf c0 51 13 == 0 && bf (w 1) 32 32 == 0 &&
    ((ws.drop 2).take 7).all (fun x => bf x 48 16 == 0) && (ws.drop 9).all (fun x => x == 0)) stDescInvalid
  let (some rf, some cf) := (Fmt.ofCode (bf c0 24 4), Fmt.ofCode (bf c0 30 4)) | .error stDescInvalid
  need (!rf.isOcp && !cf.isOcp && (rf.isBlock || !rblk) && (cf.isBlock || !cblk) &&
    (rf.isBlock == (adr 3 != 0)) && (cf.isBlock == (adr 5 != 0)) && adr 2 != 0 && adr 4 != 0 &&
    !(decide (24 ≤ fm) && decide (fm ≤ 62)) && ((fm == 63) == (adr 7 == 0))) stDescInvalid
  let rElem ← s.readDesc n k c (adr 2) 0
  let rScale ← s.readDesc? n k c (adr 3) 0
  let cElem ← s.readDesc n k c (adr 4) 0
  let cScale ← s.readDesc? n k c (adr 5) 0
  let out ← s.readDesc? n k c (adr 6) 4
  let stot ← s.readDesc? n k c (adr 8) 6
  let kk := bf c0 0 24 + 1
  let m : MDesc :=
    { k := kk, rfmt := bf c0 24 4, rblk := rblk, cfmt := bf c0 30 4, cblk := cblk, bank := bf c0 35 1, fm := fm,
      sig := bf c0 42 1 == 1, sigGate := bf c0 43 8, tag := bf (w 1) 0 32, rElem := rElem, rScale := rScale,
      cElem := cElem, cScale := cScale, out := out, stot := stot }
  let m ← (if fm = 63 then (.ok m : Except Nat MDesc) else do
    let es ← s.descWords n k c (adr 7) 16 128
    let some e := EpiBlk.ofWords es | .error stDescInvalid
    need (e.descOk fm (intPath rf cf) out.isSome) stDescInvalid
    let scout ← s.readDesc? n k c e.scout 4
    let side ← s.readDesc? n k c e.side 4
    let tkout ← s.readDesc? n k c e.tkout 4
    need (match scout with | some d => !d.trans | none => true) stDescInvalid
    .ok { m with epi := e, scout := scout, side := side, tkout := tkout })
  let ofmt := if fm = 63 then (if intPath rf cf then none else some 0) else some m.epi.ofmt
  need (match stot with | some d => d.stotOk ofmt | none => true) stDescInvalid
  if fm ≠ 63 then
    let some t := Fmt.ofCode m.epi.ofmt | .error stDescInvalid
    need (!cvtcInvalid t m.epi.cvtc) stCvtControlInvalid
  match stot with
  | some d =>
    if d.stot.red then
      let some t := Fmt.ofCode d.stot.rfmt | .error stDescInvalid
      need (!cvtcInvalid t d.stot.rcvtc) stCvtControlInvalid
  | none => pure ()
  need (operandShape rf rblk kk 128 rElem rScale && operandShape cf cblk kk 64 cElem cScale) stMpassShape
  need (fm == 63 || m.epi.shapeOk fm rElem.n1 cElem.n1 kk (groupLen rf rblk cf cblk)) stMpassShape
  need (m.outShape stot) stMpassShape
  need (span || !((fm == 16 || fm == 17) && m.epi.lrow != m.epi.nf rElem.n1 cElem.n1)) stChainRowSpan
  .ok m

/-! ### MPASS -/

/-- How many passes of a slot wait in its queue (R137). -/
def State.queuedPasses (s : State) (n k : Nat) : Nat :=
  ((s.eng n).passes.filter (fun p => p.slot == k && (p.phase == .queued || p.phase == .saved))).length

/-- Puts a pass in the queue of a slot. -/
def State.enqueuePass (s : State) (n k : Nat) (m : MDesc) (cmd stage : Nat) : State :=
  let x := s.slot n k
  s.updEng n (fun e =>
    let p : Pass := { seq := e.seq, slot := k, ctx := x.ctx, gen := x.gen, cls := x.cls, cmd := cmd, stage := stage,
                      d := m, bank := m.bank }
    { e with seq := e.seq + 1, passes := e.passes ++ [p] })

/-- MPASS (R136, R137): blocks while the queue is full; a finding leaves nothing queued and freezes the
context. -/
def execMpass (e : Fin 64) (sl : Fin 8) (s : State) : Host.Outcome State Fault Refusal :=
  esRun e sl (fun i => match i with
    | .mpass a => some (fun s =>
        let x := s.slot e sl
        let va := (x.x a).toNat
        if 32 ≤ s.queuedPasses e sl then s.blockRetry e sl
        else if s.anyMoving x.ctx (spanFrom va 128) then s
        else
          match s.parsePass e sl x.ctx va false with
          | .error st => if st = stPoison then s.faultCtx x.ctx x.cmd st else s.esFault e sl st
          | .ok m => (s.enqueuePass e sl m x.cmd 0).retire e sl id)
    | _ => none) s

end Sys2Proof.Machine
end

