-- ==== Sys2Proof/Machine/Pass.lean ====
section
/-! DEFINITION. The life of a matrix pass (chapter 03; R137, R74 to R82): issue, pre-emption, drain,
verdict, replay, partner run and repair. -/

namespace Sys2Proof.Machine

/-! ### Finding and changing passes -/

def Engine.updPass (e : Engine) (seq : Nat) (f : Pass → Pass) : Engine :=
  { e with passes := e.passes.map (fun p => if p.seq = seq then f p else p) }

def State.updPass (s : State) (n seq : Nat) (f : Pass → Pass) : State := s.updEng n (fun e => e.updPass seq f)

/-- Takes a pass out: it is done with, or discarded. -/
def State.dropPass (s : State) (n seq : Nat) : State :=
  s.updEng n (fun e => { e with passes := e.passes.filter (fun p => p.seq != seq) })

/-- The least of a list by a measure, the first of equals. -/
def leastBy (f : Pass → Nat) : List Pass → Option Pass
  | [] => none
  | p :: ps => match leastBy f ps with
    | none => some p
    | some q => if f q < f p then some q else some p

/-- Does every earlier stage of a chain's pass have no pass left (R255)? -/
def State.stageReady (s : State) (p : Pass) : Bool :=
  s.engs.all (fun e => e.2.passes.all (fun q => !(q.cmd == p.cmd && decide (q.stage < p.stage))))

/-- The head of a slot's pass queue (R137): a pre-empted pass keeps its place at the head. -/
def State.headPass (s : State) (n k : Nat) : Option Pass :=
  leastBy Pass.seq ((s.eng n).passes.filter (fun p => p.slot == k && (p.phase == .queued || p.phase == .saved)))

/-- The pass that the issue port takes next (R137): of the heads of slots that are not frozen, the
highest class, then the one whose MPASS executed first. -/
def State.nextPass (s : State) (n : Nat) : Option Pass :=
  let hs := ((List.range 8).filterMap (fun k => s.headPass n k)).filter
    (fun p => !s.frozenOn n p.ctx && s.stageReady p)
  leastBy (fun p => p.cls * 2 ^ 64 + p.seq) hs

/-- Is a bank of engine n free for another pass (R62): no pass issues into it or waits there for its
drain? -/
def State.bankFree (s : State) (n b : Nat) : Bool :=
  (s.eng n).passes.all (fun p => !(p.bank == b && (p.phase == .issuing || p.phase == .waiting)))

/-- The issue of the pass that was issuing has ended (R61). -/
def State.endIssue (s : State) (n : Nat) : State :=
  s.updEng n (fun e => { e with passes := e.passes.map (fun p =>
    if p.phase = .issuing then { p with phase := .waiting } else p) })

/-- May the tile issue at all: in service, no repair and no hang under way (R78)? -/
def State.tileOpen (s : State) (n : Nat) : Bool :=
  let e := s.eng n
  s.runs && !e.retired && e.retiring.isNone && e.repair.isNone && !e.hung

/-! ### Operands (R130) -/

/-- The bytes of lane i1 of a pattern whose bytes come in R128 order. -/
def laneBytes (d : SDesc) (bs : List Byte) (i1 : Nat) : List Byte :=
  (List.range (d.n2 * d.n3)).flatMap (fun c => (bs.drop ((c * d.n1 + i1) * d.n0)).take d.n0)

/-- What a stream of a pass finds: bytes, or the fault with its address and stream engine. -/
def State.streamBytes (s : State) (n k c se : Nat) (d : SDesc) : Except (Nat × Int × Nat) (List Byte × Bool) :=
  match s.gather n k c d.loc d.addrs with
  | .bad a st => .error (se, a, st)
  | .ok bs po => .ok (bs, po)

/-- One operand of a pass. -/
def State.operand (s : State) (n k c se : Nat) (f : Fmt) (blk32 : Bool) (d : SDesc) (sc : Option SDesc) :
    Except (Nat × Int × Nat) (Operand × Bool) := do
  let el ← s.streamBytes n k c se d
  let q ← match sc with | none => .ok ([], false) | some q => s.streamBytes n k c se q
  let lanes := (List.range d.n1).map (fun i =>
    ({ codes := bytesToCodes f.bits (laneBytes d el.1 i),
       scales := match sc with | none => [] | some x => (laneBytes x q.1 i).map BitVec.toNat } : Lane))
  .ok ({ fmt := f, blk32 := blk32, lanes := lanes }, el.2 || q.2)

/-- The two words of the side entry of token t and segment g (R162). -/
def State.sideEntry (s : State) (n k c : Nat) (e : EpiBlk) (t g : Nat) :
    Except (Nat × Int × Nat) ((Nat × Nat) × Bool) :=
  match s.gather n k c false (spanFrom (e.lpin + g * e.lpsegp + 8 * t) 8) with
  | .bad a st => .error (1, a, st)
  | .ok bs po => .ok ((leNat (bs.take 4), leNat (bs.drop 4)), po)

/-- The side entries of token t, in segment order. -/
def State.sideEntries (s : State) (n k c : Nat) (e : EpiBlk) (t : Nat) :
    Except (Nat × Int × Nat) (List (Nat × Nat) × Bool) :=
  (List.range e.segs).foldlM (fun (acc : List (Nat × Nat) × Bool) g => do
    let r ← s.sideEntry n k c e t g
    .ok (acc.1 ++ [r.1], acc.2 || r.2)) ([], false)

/-- Everything a pass takes in at its first step. -/
structure PassIn where
  op : PassOp
  foldr : List Nat := []
  fl : Fl := {}
  poison : Bool := false
deriving DecidableEq, Repr

/-- Reads the operands and the prologue factors of a pass (R63, R164, R169). -/
def State.passIn (s : State) (n : Nat) (p : Pass) : Except (Nat × Int × Nat) PassIn := do
  let m := p.d
  let ftz := s.fld (rMtCtl n p.slot) 0 1 == 1
  let rf := (Fmt.ofCode m.rfmt).getD .f32
  let cf := (Fmt.ofCode m.cfmt).getD .f32
  let r ← s.operand n p.slot p.ctx 0 rf m.rblk m.rElem m.rScale
  let c ← s.operand n p.slot p.ctx 1 cf m.cblk m.cElem m.cScale
  let op : PassOp := { r := r.1, c := c.1, k := m.k, ftz := ftz }
  let base : PassIn := { op := op, poison := r.2 || c.2 }
  if fmInputRms m.fm then
    let fs := c.1.lanes.map (inputRms ftz c.1 m.k m.epi.eps)
    .ok { base with foldr := fs.map FRes.code, fl := Fl.union (fs.map FRes.fl) }
  else if fmLate m.fm then
    let es ← (List.range c.1.lanes.length).foldlM (fun (acc : List (List (Nat × Nat)) × Bool) t => do
      let x ← s.sideEntries n p.slot p.ctx m.epi t
      .ok (acc.1 ++ [x.1], acc.2 || x.2)) ([], false)
    if m.fm = 23 then
      let fs := es.1.map lateSoftmax
      .ok { op := { op with facs := fs.map Prod.fst, seglen := m.epi.seglen },
            fl := Fl.union (fs.map Prod.snd), poison := base.poison || es.2 }
    else
      let fs := es.1.map (fun x => lateRms m.epi.lrow m.epi.eps (x.map Prod.fst))
      .ok { base with foldr := fs.map FRes.code, fl := Fl.union (fs.map FRes.fl), poison := base.poison || es.2 }
  else .ok base

/-! ### Issue (R62, R137) -/

/-- The addresses of the side entries of a late prologue (R162). -/
def MDesc.lateAddrs (m : MDesc) : List Int :=
  if fmLate m.fm then
    (List.range m.cElem.n1).flatMap (fun t => (List.range m.epi.segs).flatMap (fun g =>
      spanFrom (m.epi.lpin + g * m.epi.lpsegp + 8 * t) 8))
  else []

/-- The addresses that a pass reads as its operands and side entries. -/
def MDesc.inAddrs (m : MDesc) : List Int :=
  ([some m.rElem, m.rScale, some m.cElem, m.cScale].filterMap id).flatMap (fun d => if d.loc then [] else d.addrs) ++
    m.lateAddrs

/-- The addresses that the epilogue reads: bias and residual. -/
def MDesc.epiAddrs (m : MDesc) : List Int :=
  let e := m.epi
  (if fmBias m.fm then spanFrom (e.bias + 4 * e.f0) (4 * e.nf m.rElem.n1 m.cElem.n1) else []) ++
    (match fmRes m.fm, m.out with | true, some d => if d.loc then [] else ({ d with base := e.res } : SDesc).addrs | _, _ => [])

/-- Does a failed pass wait for the issue port (R77 step 1)? -/
def State.replayWaits (s : State) (n : Nat) : Bool :=
  (s.eng n).passes.any (fun q => q.phase == .failed && !s.frozenOn n q.ctx)

/-- PASS_ISSUE: the next pass issues into its bank, once that is free and no replay waits for the port.
A stream that faults discards the pass and freezes the context (R133). -/
def execPassIssue (e : Fin 64) (s : State) : Host.Outcome State Fault Refusal :=
  let n : Nat := e
  match s.nextPass n with
  | none => .next s
  | some p =>
    if p.phase ≠ .queued ∨ ¬ s.tileOpen n ∨ ¬ (s.endIssue n).bankFree n p.bank ∨
        s.replayWaits n ∨ s.anyMoving p.ctx p.d.inAddrs then .next s
    else
      let s := s.endIssue n
      match s.passIn n p with
      | .error (se, a, st) => .next ((s.dropPass n p.seq).streamFault n p.slot p.ctx p.cmd se true a st)
      | .ok x =>
        let no := (s.eng n).issued + 1
        let s := s.updEng n (fun en => { en with issued := no })
        let s := s.updPass n p.seq (fun p =>
          { p with phase := .issuing, issueNo := no, runNo := no, op := some x.op, grp := 0, acc := x.op.start,
                   foldr := x.foldr, proFl := x.fl, poison := x.poison, runs := p.runs + 1, startDt := s.dt,
                   tolsh := s.fld (rMtCktol n) 0 6 })
        let s := (s.setReg (rMtExc n p.bank) 0).beginCmd p.cmd
        .next (({ s with free := s.free + 1 }.touchVas p.ctx p.cmd p.d.inAddrs).wake n)

/-! ### Pre-emption and resumption (R80 to R82) -/

/-- May the issuing pass be pre-empted: a strictly higher class waits, its context is frozen (R151), or
its engine retires (R79)? -/
def State.preemptDue (s : State) (n : Nat) (p : Pass) : Bool :=
  s.frozenOn n p.ctx || (s.eng n).retiring.isSome ||
    (match s.nextPass n with | some q => decide (q.cls < p.cls) | none => false)

/-- Runs `g` more groups of a pass. -/
def Pass.advance (p : Pass) (g : Nat) : Pass :=
  match p.op with
  | none => p
  | some o => { p with acc := o.runGroups g p.grp p.acc, grp := p.grp + g }

/-- PASS_PREEMPT: the issuing pass stops after `groups` more groups, before its last; its image holds
the accumulators, the record and the position, and its bank is free. -/
def execPassPreempt (e : Fin 64) (groups : Nat) (s : State) : Host.Outcome State Fault Refusal :=
  let n : Nat := e
  match (s.eng n).passes.find? (fun p => p.phase == .issuing) with
  | none => .next s
  | some p =>
    match p.op with
    | none => .next s
    | some o =>
      if s.preemptDue n p ∧ p.grp + groups < o.groups then
        let q := { p.advance groups with phase := .saved }
        .next ((s.updPass n p.seq (fun _ => q)).setReg (rMtExc n p.bank) (BitVec.ofNat 64 q.acc.exc.word))
      else .next s

/-- Does a replay keep its place in the release order while it is pre-empted and afterwards: a pass that had been issued after
it at its FAIL is not released yet and waits for its delivery (Table 3.7)? -/
def State.keepsPlace (s : State) (n : Nat) (p : Pass) : Bool :=
  p.replayOf && (s.eng n).passes.any (fun q =>
    q.phase != .queued && decide (p.issueNo < q.issueNo) && decide (q.issueNo ≤ p.failNo))

/-- PASS_RESUME: the pass whose turn it is has an image; it continues at its next group in a free
bank. -/
def execPassResume (e : Fin 64) (bank : Fin 2) (s : State) : Host.Outcome State Fault Refusal :=
  let n : Nat := e
  match s.nextPass n with
  | none => .next s
  | some p =>
    if p.phase ≠ .saved ∨ ¬ s.tileOpen n ∨ ¬ (s.endIssue n).bankFree n bank ∨ s.replayWaits n then .next s
    else
      let s := s.endIssue n
      let no := (s.eng n).issued + 1
      let s := s.updEng n (fun en => { en with issued := no })
      let s := s.updPass n p.seq (fun p =>
        { p with phase := .issuing, bank := bank, runNo := no, issueNo := if s.keepsPlace n p then p.issueNo else no })
      .next (s.setReg (rMtExc n bank) (BitVec.ofNat 64 p.acc.exc.word))

/-! ### Epilogue of a drained pass -/

/-- What the epilogue reads: the bias of each feature lane and the residual in pattern order. -/
def State.epiReads (s : State) (n : Nat) (p : Pass) : Except (Nat × Int × Nat) ((List Nat × List Nat) × Bool) := do
  let e := p.d.epi
  let nf := e.nf p.d.rElem.n1 p.d.cElem.n1
  let bias ← if fmBias p.d.fm then
      match s.gather n p.slot p.ctx false (spanFrom (e.bias + 4 * e.f0) (4 * nf)) with
      | .bad a st => .error (2, a, st)
      | .ok bs po => .ok (bytesToCodes 32 bs, po)
    else .ok ([], false)
  let res ← match fmRes p.d.fm, p.d.out, Fmt.ofCode e.ofmt with
    | true, some d, some t => do
      let r ← s.streamBytes n p.slot p.ctx 2 { d with base := e.res }
      .ok ((bytesToCodes t.bits r.1).map (fun c => rneF32 (t.elem.decode c)), r.2)
    | _, _, _ => .ok ([], false)
  .ok ((bias.1, res.1), bias.2 || res.2)

/-- A grid out of results in pattern order. -/
def gridOf (trans : Bool) (nr nc : Nat) (xs : List Nat) : List (List Nat) :=
  (List.range nr).map (fun i => (List.range nc).map (fun j => xs.getD (if trans then j * nr + i else i * nc + j) 0))

/-- Results in pattern order out of a grid (R131). -/
def gridOrder (trans : Bool) (g : List (List Nat)) : List Nat :=
  if trans then (transposeGrid g ((g.map List.length).getD 0 0)).flatten else g.flatten

/-- An INT32 accumulator rounded to F32 (R164). -/
def i32ToF32 (w : Nat) : Nat :=
  let v := sextNat 32 w
  rneF32 (.fin (decide (v < 0)) v.natAbs 0)

/-- The outputs of a drained run from its accumulators, its reads and its draws: what is held until the
verdict, with its flags (R74, R138, R164). -/
def Pass.outputs (p : Pass) (o : PassOp) (x : (List Nat × List Nat) × Bool) (draws : List Nat) : Held × Fl :=
  let g := o.grid p.acc p.faults
  let trans := match p.d.out with | some d => d.trans | none => false
  if p.d.fm = 63 then
    ({ main := if p.d.results = 0 ∧ p.d.stot = none then [] else packCodes 32 (gridOrder trans g) }, {})
  else
    let e := p.d.epi
    let nr := p.d.rElem.n1
    let nc := p.d.cElem.n1
    let onr := if fmSwiglu p.d.fm ∧ ¬ e.fax then nr / 2 else nr
    let onc := if fmSwiglu p.d.fm ∧ e.fax then nc / 2 else nc
    let inp : EpiIn := { bias := x.1.1, res := gridOf trans onr onc x.1.2, fold := p.foldr, draws := draws,
                         hasOut := p.d.out.isSome }
    let y := epilogue p.d.fm e inp nc (if o.isInt then g.map (fun r => r.map i32ToF32) else g)
    let words (l : List (Nat × Nat)) : List Byte := l.flatMap (fun c => leBytes 4 c.1 ++ leBytes 4 c.2)
    ({ main := packCodes p.d.obits (gridOrder trans y.main), scales := y.scales.map (BitVec.ofNat 8),
       side := words y.side, cands := words y.cands }, y.fl.or p.proFl)

/-- How many draws a run of the pass takes. -/
def Pass.draws (p : Pass) : Nat :=
  epiDraws p.d.fm p.d.epi p.d.rElem.n1 p.d.cElem.n1 p.d.out.isSome

/-- Drains a run whose groups are all added, drawing from an SRM state: the pass with its outputs, or
the fault of a read. -/
def State.drainRun (s : State) (n : Nat) (p : Pass) (faults : List Perturb) (srm : Nat) :
    Except (Nat × Int × Nat) Pass := do
  let some o := p.op | .ok p
  let q := { p.advance (o.groups - p.grp) with faults := faults }
  let x ← s.epiReads n p
  let r := q.outputs o x (drawsFrom q.draws srm).1
  .ok { q with held := r.1, fl := r.2, poison := q.poison || x.2, drained := true }

/-! ### DRAIN_START (R61, R75) -/

/-- Hardware faults as the operand of a drain names them: row, column and the bits seen. -/
def perturbs (fs : List (Fin 129 × Fin 65 × W32)) : List Perturb :=
  fs.map (fun f => { row := f.1, col := f.2.1, bits := f.2.2.toNat })

/-- The pass whose drain is next: the drains run in pass order. -/
def State.drainNext (s : State) (n : Nat) : Option Pass :=
  leastBy Pass.runNo ((s.eng n).passes.filter (fun p => p.phase == .waiting || p.phase == .issuing))

/-- How many passes hold results in the hold buffer, which has room for three (R168). -/
def State.heldCount (s : State) (n : Nat) : Nat :=
  ((s.eng n).passes.filter (fun p => p.phase == .drained || p.phase == .judged)).length

/-- DRAIN_START: the oldest pass past its issue drains; its epilogue draws from SRM, a replay from the
recorded state. `faults` are the hardware faults that the drained cells show. -/
def execDrainStart (e : Fin 64) (faults : List (Fin 129 × Fin 65 × W32)) (s : State) :
    Host.Outcome State Fault Refusal :=
  let n : Nat := e
  match s.drainNext n with
  | none => .next s
  | some p =>
    if 3 ≤ s.heldCount n ∨ (s.eng n).retired ∨ s.anyMoving p.ctx p.d.epiAddrs then .next s
    else
      let cur := (s.reg (rVtSrm n p.slot)).toNat
      let from_ := if p.replayOf then p.srm0.getD cur else cur
      match s.drainRun n p (perturbs faults) from_ with
      | .error (se, a, st) => .next ((s.dropPass n p.seq).streamFault n p.slot p.ctx p.cmd se true a st)
      | .ok q =>
        let s := s.updPass n p.seq (fun _ => { q with phase := .drained, srm0 := some from_ })
        let s := s.setReg (rMtExc n p.bank) (BitVec.ofNat 64 q.acc.exc.word)
        .next (if p.replayOf then s
          else s.setReg (rVtSrm n p.slot) (BitVec.ofNat 64 (drawsFrom q.draws cur).2))

/-! ### Verdicts (R69, R72, R74, R76, R77) -/

/-- Adds one to a count of MT_CKSTAT: 0 transient, 1 persistent, 2 tolerance miss, 3 unresolved. -/
def State.ckCount (s : State) (n outcome : Nat) : State :=
  s.updReg (rMtCkstat n) (fun w => if outcome = 3 then bsat w 48 8 1 else bsat w (16 * outcome) 16 1)

/-- Logs a failure in MT_CKLOG and MT_CKDT (Tables 3.12 and 3.13). -/
def State.ckLog (s : State) (n : Nat) (l : Loc × Nat × Nat) (outcome : Nat) (isInt : Bool) (dt : W64) : State :=
  (s.setReg (rMtCklog n) (logWord (s.reg (rMtCklog n))
    (fv 22 1 (if isInt then 1 else 0) + fv 20 2 outcome + locBits l))).setReg (rMtCkdt n) dt

/-- Writes the pass-log entry (R140, Table 5.10). -/
def State.passLog (s : State) (n : Nat) (p : Pass) (code : Nat) : State :=
  let w0 := fv 0 32 p.d.tag + fv 32 2 code + fv 34 1 (if p.byPartner then 1 else 0) +
    fv 35 1 (if p.poison then 1 else 0) + fv 36 4 (min 15 p.runs)
  let put (x : Slot) : Slot :=
    if x.ctx = p.ctx ∧ x.gen = p.gen ∧ x.st ≠ .empty then
      let b := x.plhead % 16 * 4
      { x with plhead := x.plhead + 1,
               plog := tset 0 (tset 0 (tset 0 (tset 0 x.plog b (BitVec.ofNat 64 w0)) (b + 1)
                 (BitVec.ofNat 64 p.acc.exc.word)) (b + 2) p.startDt) (b + 3) s.dt }
    else x
  s.updSlot n p.slot put

/-- The output patterns of a pass. -/
def MDesc.outs (m : MDesc) : List SDesc :=
  [m.out, m.scout, m.side, m.tkout].filterMap id

/-- The addresses that a pass writes. -/
def MDesc.outAddrs (m : MDesc) : List Int := (m.outs.filter (fun d => !d.loc)).flatMap SDesc.addrs

/-- The first fault that writing a pass's outputs meets, if any. -/
def State.outFault (s : State) (n : Nat) (p : Pass) : Option (Int × Nat) :=
  p.d.outs.findSome? (fun d => (s.placesOf n p.slot p.ctx d.loc true d.addrs).2)

/-- A run is to be delivered: its outputs are held until its release, and the log entry is written. An
output pattern that faults discards the pass, with no entry (Table 5.8). -/
def State.judge (s : State) (n : Nat) (p : Pass) (code : Nat) : State :=
  match s.outFault n p with
  | some (a, st) => (s.dropPass n p.seq).streamFault n p.slot p.ctx p.cmd 2 true a st
  | none => (s.updPass n p.seq (fun _ => { p with phase := .judged, verdict := code, verdictDt := s.dt })).passLog n p code

/-- Nothing of a pass is delivered: CHECK_UNRESOLVED (Table 3.4). -/
def State.unresolved (s : State) (n : Nat) (p : Pass) (l : Loc × Nat × Nat) (isInt : Bool) : State :=
  let s := (s.ckCount n 3).ckLog n l 3 isInt p.failDt
  let s := s.updCmd p.cmd (fun c => c.meet stCheckUnresolved)
  (s.updPass n p.seq (fun _ => { p with phase := .dead, held := {} })).passLog n p 3

/-- VERDICT: the comparator's tests on the oldest drained pass. -/
def execVerdict (e : Fin 64) (s : State) : Host.Outcome State Fault Refusal :=
  let n : Nat := e
  match leastBy Pass.runNo ((s.eng n).passes.filter (fun p => p.phase == .drained)) with
  | none => .next s
  | some p =>
    match p.op with
    | none => .next s
    | some o =>
      let t := o.tests p.acc p.faults p.tolsh
      match t.verdict, p.replayOf with
      | .ckne, false => .next (s.judge n { p with ckne := true } 1)
      | .pass, false => .next (s.judge n p 0)
      | .pass, true => .next (((s.ckCount n 0).ckLog n p.loc 0 o.isInt p.failDt).judge n p 0)
      | .fail, false =>
        .next (s.updPass n p.seq (fun _ =>
          { p with phase := .failed, loc := t.loc, failDt := s.dt, failNo := (s.eng n).issued, held := {}, fl := {}, acc := {}, faults := [] }))
      | _, true =>
        let l := if t.nonfinite then p.loc else t.loc
        .next (s.updPass n p.seq (fun _ =>
          { p with phase := .partner, loc := l, acc1 := p.acc, faults1 := p.faults, held := {}, fl := {} }))

/-- REPLAY (R77 step 1): the oldest failed pass issues again from step 0 into its bank. -/
def execReplay (e : Fin 64) (s : State) : Host.Outcome State Fault Refusal :=
  let n : Nat := e
  match leastBy Pass.issueNo ((s.eng n).passes.filter (fun p => p.phase == .failed && !s.frozenOn n p.ctx)) with
  | none => .next s
  | some p =>
    match p.op with
    | none => .next s
    | some o =>
      if ¬ s.tileOpen n ∨ ¬ (s.endIssue n).bankFree n p.bank then .next s
      else
        let s := s.endIssue n
        let no := (s.eng n).issued + 1
        let s := s.updEng n (fun en => { en with issued := no })
        let s := s.updPass n p.seq (fun p =>
          { p with phase := .issuing, runNo := no, replayOf := true, grp := 0, acc := o.start, drained := false,
                   runs := p.runs + 1, startDt := s.dt, tolsh := s.fld (rMtCktol n) 0 6 })
        .next (s.setReg (rMtExc n p.bank) 0)

/-! ### Partner run (R77 step 3, Table 3.4) -/

/-- Is an engine in service? -/
def State.inService (s : State) (n : Nat) : Bool := !(s.eng n).retired

/-- The partner of engine n: E(n XOR 1), else the next of its herd, else the lowest of its die, else the
lowest of the other. -/
def State.partnerOf (s : State) (n : Nat) : Option Nat :=
  let p := n ^^^ 1
  let herd := n - n % 8
  let die := n - n % 32
  let other := 32 - die
  let cyc := (List.range 7).map (fun d => herd + (p - herd + d + 1) % 8)
  let order := [p] ++ cyc ++ (List.range 32).map (fun d => die + d) ++ (List.range 32).map (fun d => other + d)
  order.find? (fun m => m != n && s.inService m)

/-- The partner's own issuing pass is pre-empted at its next group boundary (R77, R80). -/
def State.yieldTile (s : State) (m : Nat) : State :=
  s.updEng m (fun e => { e with passes := e.passes.map (fun p =>
    if p.phase = .issuing then { p with phase := .saved } else p) })

/-- A persistent fault of engine n at a location: its repair is due (R78), after the ones that are due already. -/
def State.startRepair (s : State) (n : Nat) (l : Loc) : State :=
  s.updEng n (fun e => { e with repair := match e.repair with
    | none => some { loc := l }
    | some r => some { r with more := r.more ++ [l] } })

/-- The bank of the partner that is free first (R62, R77): after its own pass has been pre-empted one is; bank A where
both are. -/
def State.partnerBank (s : State) (m : Nat) : Nat := if s.bankFree m 0 then 0 else 1

/-- The outcome of Table 3.4 for a pass whose partner run `q` was judged `v` with location `ql`. -/
def State.partnerOutcome (s : State) (n m : Nat) (o : PassOp) (p q : Pass) (v : Verdict) (ql : Loc × Nat × Nat) :
    State :=
  match v with
  | .pass =>
    (((s.ckCount n 1).ckLog n p.loc 1 o.isInt p.failDt).startRepair n p.loc.1).judge n q 0
  | .ckne =>
    ((s.ckCount n 0).ckLog n p.loc 0 o.isInt p.failDt).judge n { q with ckne := true } 1
  | .fail =>
    if sameBits o p.acc1 q.acc p.faults1 q.faults then
      if o.isInt then s.unresolved n { p with runs := q.runs } p.loc true
      else ((s.ckCount n 2).ckLog n p.loc 2 false p.failDt).judge n q 2
    else (s.unresolved n { p with runs := q.runs } p.loc o.isInt).ckLog m ql 3 o.isInt s.dt

/-- PARTNER_RUN: the oldest pass whose replay failed runs on the partner engine, whole. `faults` are the
hardware faults that the partner's cells show. -/
def execPartnerRun (e : Fin 64) (faults : List (Fin 129 × Fin 65 × W32)) (s : State) :
    Host.Outcome State Fault Refusal :=
  let n : Nat := e
  match leastBy Pass.issueNo ((s.eng n).passes.filter (fun p => p.phase == .partner)) with
  | none => .next s
  | some p =>
    match p.op, s.partnerOf n with
    | none, _ => .next s
    | some o, none => .next (s.unresolved n p p.loc o.isInt)
    | some o, some m =>
      if s.anyMoving p.ctx (p.d.epiAddrs ++ p.d.outAddrs) then .next s
      else
      let s := s.yieldTile m
      let b := s.partnerBank m
      let s := s.setReg (rMtExc m b) 0
      let run := { p with grp := 0, acc := o.start, runs := p.runs + 1, startDt := s.dt, byPartner := true,
                          partnerEng := m }
      match s.drainRun n run (perturbs faults) (p.srm0.getD 0) with
      | .error (se, a, st) => .next ((s.dropPass n p.seq).streamFault n p.slot p.ctx p.cmd se true a st)
      | .ok q =>
        let s := s.setReg (rMtExc m b) (BitVec.ofNat 64 q.acc.exc.word)
        let t := o.tests q.acc q.faults (s.fld (rMtCktol m) 0 6)
        .next (s.partnerOutcome n m o p q t.verdict t.loc)

/-! ### Repair (R78, R79, Tables 3.5 and 3.14) -/

/-- The spares: SR0, SR1 and SC, by their bits of MT_REMAP: USED, LINE, its width, FAILED. -/
def spareBits (sp : Nat) : Nat × Nat × Nat × Nat :=
  match sp with
  | 0 => (0, 1, 8, 28)
  | 1 => (11, 12, 8, 29)
  | _ => (20, 21, 7, 30)

def spareServes (w : W64) (sp line : Nat) : Bool :=
  let b := spareBits sp
  bf w b.1 1 == 1 && bf w b.2.1 b.2.2.1 == line

def spareFree (w : W64) (sp : Nat) : Bool :=
  let b := spareBits sp
  bf w b.1 1 == 0 && bf w b.2.2.2 1 == 0

def spareTake (w : W64) (sp line : Nat) : W64 :=
  let b := spareBits sp
  bset (bset w b.1 1 1) b.2.1 b.2.2.1 line

def spareFail (w : W64) (sp : Nat) : W64 :=
  let b := spareBits sp
  bset (bset (bset w b.1 1 0) b.2.1 b.2.2.1 0) b.2.2.2 1 1

/-- The spares that Table 3.5 allows for a location, each with the line it replaces. -/
def spareChoices (l : Loc) : List (Nat × Nat) :=
  match l with
  | .cell i j => [(0, i), (1, i), (2, j)]
  | .row i => [(0, i), (1, i)]
  | .ckRow => [(0, 128), (1, 128)]
  | .col j => [(2, j)]
  | .ckCol => [(2, 64)]
  | .unlocated => []

/-- The line to repair: a cell on a line that a spare serves lies in that spare, and that line takes the next spare
(R78 step 2). -/
def repairLine (w : W64) (l : Loc) : Loc :=
  match l with
  | .cell i j =>
    if spareServes w 0 i || spareServes w 1 i then .row i
    else if spareServes w 2 j then .col j
    else l
  | l => l

/-- Is a location on the line that a repair has just replaced? -/
def onLine (done l : Loc) (w : W64) : Bool :=
  l == done || (match l with
    | .cell i j => spareServes w 0 i || spareServes w 1 i || spareServes w 2 j
    | _ => false) && (match done, l with
    | .row a, .cell i _ => a == i
    | .col b, .cell _ j => b == j
    | .cell a b, .cell i j => ((spareServes w 0 i || spareServes w 1 i) && a == i) || (spareServes w 2 j && b == j)
    | _, _ => false)

/-- Step 2 of R78, first part: a spare that already serves the line is at fault, and marked failed. -/
def spareDoubt (w : W64) (l : Loc) : W64 :=
  (spareChoices l).foldl (fun w c => if spareServes w c.1 c.2 then spareFail w c.1 else w) w

/-- Steps 2 to 4 of R78: tries the spares left, each with its built-in test; answers MT_REMAP and whether
one passed. -/
def spareTry (l : Loc) : Nat → List Bool → W64 → W64 × Bool
  | 0, _, w => (w, false)
  | n + 1, ts, w =>
    match (spareChoices l).find? (fun c => spareFree w c.1) with
    | none => (w, false)
    | some c =>
      if ts.headD true then (spareTake w c.1 c.2, true)
      else spareTry l n ts.tail (spareFail w c.1)

/-- Step 1 of R78: nothing issues or drains, and every release that can be made has been made. -/
def State.tileQuiet (s : State) (n : Nat) : Bool :=
  (s.eng n).passes.all (fun p => p.phase == .queued || p.phase == .saved || p.phase == .failed || p.phase == .partner ||
    ((p.phase == .judged || p.phase == .dead) && (s.eng n).passes.any (fun q =>
      decide (q.issueNo < p.issueNo) && (q.phase == .failed || q.phase == .partner))))

/-- The repair that is due next: one on the line just replaced is not. -/
def Repair.next (r : Repair) (done : Loc) (w : W64) : Option Repair :=
  match r.more.filter (fun l => !onLine done l w) with
  | [] => none
  | l :: ls => some { loc := l, more := ls }

/-- LINE_REMAP (R78): the repair that is due is made; `tests` are the results of the built-in tests, in
order. Where no spare is left the engine's retirement is due (R79). -/
def execLineRemap (e : Fin 64) (tests : List Bool) (s : State) : Host.Outcome State Fault Refusal :=
  let n : Nat := e
  match (s.eng n).repair with
  | none => .next s
  | some r =>
    if ¬ s.tileQuiet n then .next s
    else
      let w := s.reg (rMtRemap n)
      let l := repairLine w r.loc
      let t := if l = .unlocated then (w, false) else spareTry l 3 tests (spareDoubt w l)
      let s := (s.setReg (rMtRemap n) t.1).updEng n (fun en =>
        { en with repair := if t.2 then r.next l t.1 else none, retiring := if t.2 then en.retiring else some 0 })
      .next (if t.2 then (s.healthRemap n t.1).event 0 stLineRemap none n t.1.toNat else s)

end Sys2Proof.Machine
end

