-- ==== Sys2Proof/Machine/StreamRun.lean ====
section
/-! DEFINITION. Running stream descriptors (R128, R129, R133, R134, R139, R276), and the end of a slot's
program and of the command it ran for (R125, R254 to R256). -/

namespace Sys2Proof.Machine

/-! ### Ending a command's work -/

/-- Gives every slot that ran for a command back as PLACED. -/
def State.placeSlots (s : State) (id : Nat) : State :=
  { s with engs := s.engs.map (fun p => (p.1, { p.2 with slots := p.2.slots.map (fun x =>
      (x.1, if x.2.cmd = id ∧ x.2.st ≠ .empty then { x.2 with st := .placed, wait := .none, cmd := 0 } else x.2)) })) }

/-- Has a command no pass and no stream left? -/
def State.noWork (s : State) (id : Nat) : Bool :=
  s.engs.all (fun e => e.2.passes.all (fun p => p.cmd != id) && e.2.streams.all (fun t => t.cmd != id))

/-- Is a command of the kind whose work is its passes and streams alone: CHAIN, CONVERT, COPY? -/
def Cmd.isRom (c : Cmd) : Bool := c.opcode == 0x29 || c.opcode == 0x2A || c.opcode == 0x2B

/-- Completes a CHAIN, CONVERT or COPY whose work has ended; its slots return to PLACED. -/
def State.finishRom (s : State) (id : Nat) : State :=
  match s.cmd id with
  | none => s
  | some c => if c.isRom ∧ s.noWork id then (s.placeSlots id).finishCmd id else s

/-- SLOT_HALTED (R125, R254): a halting slot's work has ended. When every slot of the RUN has halted and
its writes are visible, the RUN completes. -/
def execSlotHalted (e : Fin 64) (sl : Fin 8) (s : State) : Host.Outcome State Fault Refusal :=
  let x := s.slot e sl
  if x.st = .blocked ∧ x.wait = .halt ∧ ¬ s.slotFrozen e sl ∧ s.workDone e sl then
    match s.cmd x.cmd with
    | none => .next (s.setSlot e sl { x with st := .halted, wait := .none })
    | some c =>
      let left := c.engines.filter (fun m => m != (e : Nat))
      if left = [] ∧ c.ops ≠ [] then .next s
      else
        let s := (s.setSlot e sl { x with st := .halted, wait := .none }).updCmd c.id (fun c => { c with engines := left })
        .next (if left = [] then (s.placeSlots c.id).finishCmd c.id else s)
  else .next s

/-! ### The bytes of a descriptor -/

/-- Byte i of a descriptor comes from and goes to these addresses, each with its LOCAL flag. -/
def SDesc.ends (d : SDesc) : List ((Bool × Int) × (Bool × Int)) :=
  d.addrs.zipIdx.map (fun p =>
    let other : Int := ((d.addr2 + p.2 : Nat) : Int)
    match d.mode with
    | 1 => ((false, p.1), (true, other))
    | 2 => ((true, other), (false, p.1))
    | _ => ((false, p.1), (false, other)))

/-- What moving bytes finds: how many move before the first fault, with their places, and the fault. -/
def State.moveScan (s : State) (n k c : Nat) (peer : Bool) :
    List ((Bool × Int) × (Bool × Int)) → List (Place × Place) × Option (Int × Nat)
  | [] => ([], none)
  | b :: bs =>
    match s.place n k c b.1.1 b.1.2 false with
    | .inr st => ([], some (b.1.2, st))
    | .inl src =>
      match (if peer then .inl src else s.place n k c b.2.1 b.2.2 true) with
      | .inr st => ([], some (b.2.2, st))
      | .inl dst =>
        let r := s.moveScan n k c peer bs
        ((src, dst) :: r.1, r.2)

/-- Moves bytes between places: all are read, then written in order with their marks (R128, R134). -/
def State.moveBytes (s : State) (ps : List (Place × Place)) : State × Bool :=
  let ws := ps.map (fun p => let r := s.rdPlace p.1; (p.2, r.1, r.2))
  let s := s.wrAll ws
  ({ s with free := s.free + 1 }, ws.any (fun w => w.2.2))

/-- The stream source of a slot's descriptors on one stream engine, as a sender of signals. -/
def streamSrc (n k se : Nat) : Nat := 4096 + (8 * n + k) * 4 + se

/-- Changes a stream. -/
def State.updStream (s : State) (n seq : Nat) (f : Stream → Stream) : State :=
  s.updEng n (fun e => { e with streams := e.streams.map (fun t => if t.seq = seq then f t else t) })

/-- The descriptors of stream engine se whose turn may come, of frozen contexts or of others: the oldest of each slot. -/
def State.headsOf (s : State) (n se : Nat) (frozen : Bool) : List Stream :=
  (s.eng n).streams.filter (fun t => t.se == se && s.frozenOn n t.ctx == frozen &&
    (s.eng n).streams.all (fun u => !(u.se == se && u.slot == t.slot && decide (u.seq < t.seq))))

def State.streamHeads (s : State) (n se : Nat) : List Stream := s.headsOf n se false

/-- The one that a stream engine serves: the highest class, then submission order (R129). -/
def leastStream : List Stream → Option Stream
  | [] => none
  | t :: ts => match leastStream ts with
    | none => some t
    | some u => if u.cls < t.cls ∨ (u.cls = t.cls ∧ u.seq < t.seq) then some u else some t

/-- May context c use peer entry i (R269)? -/
def State.peerRefuses (s : State) (c i : Nat) : Option Nat :=
  match s.entRefuses i with
  | some st => some st
  | none => if s.partOfCtx c = some (s.entPart i) then none else some stPeerUnknown

/-- Posts the data of a PEER_WRITE from byte `t.pos` on. -/
def State.postPeer (s : State) (n : Nat) (t : Stream) (ps : List (Place × Place)) : State :=
  let i := bitsOf t.d.w30 0 14
  let rs := ps.map (fun p => s.rdPlace p.1)
  let po := rs.any Prod.snd
  let s := { s with free := s.free + 1 }
  match s.peerRefuses t.ctx i with
  | some st => s.updCmd t.cmd (fun c => c.meet st)
  | none =>
    let r := s.post i t.cmd t.ctx (s.dataPkts i 1 (s.pktFor i t.ctx t.gen po) (t.d.addr2 + t.pos) (rs.map Prod.fst))
    match r.2 with
    | .op id => r.1.updStream n t.seq (fun t => { t with op := some id, poison := t.poison || po })
    | .bad st => r.1.updCmd t.cmd (fun c => c.meet st)

/-- Moves up to `cnt` of a descriptor's bytes, as far as its first fault: the state and the fault. -/
def State.runStream (s : State) (n cnt : Nat) (t : Stream) : State × Option (Int × Nat) :=
  let scan := s.moveScan n t.slot t.ctx (t.d.mode == 5) ((t.d.ends.drop t.pos).take cnt)
  let s :=
    if t.d.mode = 5 then s.postPeer n t scan.1
    else
      let r := s.moveBytes scan.1
      r.1.updStream n t.seq (fun t => { t with poison := t.poison || r.2 })
  let touch (s : State) (p : Place) : State := match p with | .dev a => s.touchDev t.cmd a | .loc _ _ => s
  let s := scan.1.foldl (fun s p => touch (touch s p.1) p.2) s
  (s.updStream n t.seq (fun t => { t with pos := t.pos + scan.1.length }), scan.2)

/-- Does a descriptor touch a page that is moving (R200)? -/
def State.streamMoving (s : State) (t : Stream) : Bool :=
  s.anyMoving t.ctx (((t.d.ends.drop t.pos).filter (fun b => !b.1.1)).map (fun b => b.1.2)) ||
    s.anyMoving t.ctx (((t.d.ends.drop t.pos).filter (fun b => !b.2.1 && t.d.mode != 5)).map (fun b => b.2.2))

/-- A descriptor that faults stops at the first faulting byte and keeps its cursor (R133). -/
def State.stopStream (s : State) (n : Nat) (t : Stream) (f : Int × Nat) : State :=
  (s.updStream n t.seq (fun t => { t with started := false })).streamFault n t.slot t.ctx t.cmd t.se false f.1 f.2

/-- How many pieces of 4 KiB a descriptor has still to move. -/
def Stream.pieces (t : Stream) : Nat := (t.d.size - t.pos + 4095) / 4096

/-- A running descriptor moves j whole pieces and stands at the boundary after them; a fault stops it before that. `on`
says whether it keeps its stream engine. -/
def State.toBoundary (s : State) (n j : Nat) (on : Bool) (t : Stream) : State × Bool :=
  let r := s.runStream n (4096 * j) t
  match r.2 with
  | some f => (r.1.stopStream n t f, false)
  | none => (r.1.updStream n t.seq (fun t => { t with started := on }), true)

/-- The descriptor that runs on a stream engine yields to one of a higher class at a boundary (R129); how many of its
pieces it has moved by then no rule fixes. One on a page that is moving moves none, and the bytes of a PEER_WRITE, one
run of packets (R272), have all gone to the transport. None where it runs to its end first. -/
def State.yieldStream (s : State) (n : Nat) (u : Stream) : Option (State × Bool) :=
  if s.streamMoving u ∨ u.d.mode = 5 then some (s, true)
  else if u.pieces ≤ 1 then none
  else some ({ s with free := s.free + 1 }.toBoundary n (Config.freeNat s.free % (u.pieces - 1) + 1) true u)

/-- Starts a descriptor. One that will fault moves the bytes before the fault and stops there. -/
def State.startStream (s : State) (n : Nat) (t : Stream) : State :=
  let s := (s.updStream n t.seq (fun t => { t with started := true })).beginCmd t.cmd
  let scan := s.moveScan n t.slot t.ctx (t.d.mode == 5) (t.d.ends.drop t.pos)
  match scan.2 with
  | some _ =>
    let r := s.runStream n t.d.size t
    match r.2 with
    | some f => r.1.stopStream n t f
    | none => r.1
  | none => if t.d.mode = 5 then (s.runStream n t.d.size t).1 else s

/-- STREAM_DESCRIPTOR_START (R129): the next descriptor in turn starts, unless one of its class or higher
runs; one of a lower class yields to it at its next boundary. -/
def execStreamDescriptorStart (e : Fin 64) (se : Fin 4) (s : State) : Host.Outcome State Fault Refusal :=
  let n : Nat := e
  let heads := s.streamHeads n se
  match leastStream (heads.filter (fun t => !t.started)) with
  | none => .next s
  | some t =>
    if heads.any (fun u => u.started && decide (u.cls ≤ t.cls)) ∨ (s.eng n).retired ∨ (s.eng n).hung ∨ ¬ s.runs ∨
        s.streamMoving t then .next s
    else
      match leastStream (heads.filter Stream.started) with
      | none => .next (s.startStream n t)
      | some u =>
        match s.yieldStream n u with
        | none => .next s
        | some (s, ok) => .next (if ok then s.startStream n t else s)

/-- The end of a descriptor: its gate is signalled, its slot goes on, its command may complete. A PEER_WRITE that was
refused or failed made no write visible and signals nothing (R139, R276). -/
def State.endStream (s : State) (n : Nat) (t : Stream) : State :=
  let s := s.updEng n (fun e => { e with streams := e.streams.filter (fun u => u.seq != t.seq) })
  let s := if t.poison then s.updCmd t.cmd (fun c => { c with poison := true }) else s
  let s := if t.d.sig && (t.d.mode != 5 || t.op.isSome) then
      s.sendSig t.d.sigEng { gate := t.d.sigGate, ctx := t.ctx, gen := t.gen, src := streamSrc n t.slot t.se }
    else s
  (s.wake n).finishRom t.cmd

/-- A running descriptor moves the rest of its bytes and completes; a PEER_WRITE completes once its operation has. -/
def State.completeStream (s : State) (n : Nat) (t : Stream) : State :=
  if s.streamMoving t then s
  else if t.d.mode = 5 then
    match t.op with
    | some id => if s.net.ops.any (fun o => o.id == id) then s else s.endStream n t
    | none => s.endStream n t
  else
    let r := s.runStream n t.d.size t
    match r.2 with
    | some f => r.1.stopStream n t f
    | none =>
      match (r.1.eng n).streams.find? (fun u => u.seq == t.seq) with
      | none => r.1
      | some u => r.1.endStream n u

/-- A running descriptor of a frozen context stops at a 4 KiB boundary and keeps its cursor (R151); which one no rule
fixes. One that reaches its end before that completes; a PEER_WRITE is the transport's already. -/
def State.haltStream (s : State) (n : Nat) (t : Stream) : State :=
  let j := Config.freeNat s.free % t.pieces + 1
  if t.d.mode = 5 then s.completeStream n t
  else if s.streamMoving t then s.updStream n t.seq (fun t => { t with started := false })
  else if t.pieces ≤ j then ({ s with free := s.free + 1 }).completeStream n t
  else (({ s with free := s.free + 1 }).toBoundary n j false t).1

/-- STREAM_DESCRIPTOR_COMPLETE (R129, R139): the running descriptor of highest class moves the rest of
its bytes and completes. Where none may run, one of a frozen context that was running stops. -/
def execStreamDescriptorComplete (e : Fin 64) (se : Fin 4) (s : State) : Host.Outcome State Fault Refusal :=
  let n : Nat := e
  match leastStream ((s.streamHeads n se).filter Stream.started) with
  | some t => .next (s.completeStream n t)
  | none =>
    match leastStream ((s.headsOf n se true).filter Stream.started) with
    | none => .next s
    | some t => .next (s.haltStream n t)

end Sys2Proof.Machine
end

