-- ==== Sys2Proof/Machine/CmdAdmin.lean ====
section
/-! DEFINITION. Commands over partitions, registers, queues and contexts (R233 to R236, R241, R250 to R252,
R450 to R452). -/

namespace Sys2Proof.Machine

/-- Do two ranges of numbers, from a base and with a count, share a number? -/
def rangesMeet (a n b m : Nat) : Bool := decide (0 < n) && decide (0 < m) && decide (a < b + m) && decide (b < a + n)

/-! ### NOP (R243) -/

def nopRow : CmdRow := { op := 0x00, start := fun s c => s.finishCmd c.id }

/-- NOP, and every opcode that Table 9.3 does not define, which is refused. -/
def execNop (q : Fin 16384) (s : State) : Host.Outcome State Fault Refusal := acceptCmd nopRow q s

/-! ### PART_CONFIG (R233, R234) -/

/-- Would a configuration overlap another partition's ranges? -/
def State.partClash (s : State) (p qb qn cb cn : Nat) : Bool :=
  (List.range 8).any (fun j => j != p &&
    (rangesMeet qb qn (s.fld (rQpPart j) 0 14) (s.fld (rQpPart j) 14 15) ||
      rangesMeet cb cn (s.fld (rQpPart j) 42 10) (s.fld (rQpPart j) 52 11)))

/-- Does partition p hold an enabled queue or an existing context outside the new ranges? -/
def State.partTakes (s : State) (p qb qn cb cn : Nat) : Bool :=
  s.queues.any (fun x => s.fld (rQpQ x.1) 61 1 == 1 && s.partOfQueue x.1 == some p && !inRange qb qn x.1) ||
    s.ctxs.any (fun x => x.2.live && s.partOfCtx x.1 == some p && !inRange cb cn x.1)

def partConfigCheck (s : State) (c : Cmd) : Nat :=
  let p := c.opf 0 0 3
  let on := c.opf 0 3 1 == 1
  let qb := c.opf 0 16 14
  let qn := c.opf 0 32 15
  let cb := c.opf 1 0 10
  let cn := c.opf 1 16 11
  let dlog := c.opf 3 0 5
  if 16384 < qb + qn ∨ 1024 < cb + cn ∨ (p = 0 ∧ cb ≠ 0) ∨ (on ∧ (dlog < 4 ∨ 16 < dlog)) then stCmdFieldInvalid
  else if s.partClash p qb qn cb cn then stQuotaExceeded
  else if s.partTakes p qb qn cb cn ∨ (¬ on ∧ s.partTakes p 0 0 0 0) then stInUse
  else 0

def partConfigStart (s : State) (c : Cmd) : State :=
  let p := c.opf 0 0 3
  let w := fv 63 1 (c.opf 0 3 1) + fv 52 11 (c.opf 1 16 11) + fv 42 10 (c.opf 1 0 10) + fv 14 15 (c.opf 0 32 15) +
    fv 0 14 (c.opf 0 16 14)
  let s := (s.setReg (rQpPart p) (BitVec.ofNat 64 w)).setFld (rQpPevt p) 32 15 (c.opf 1 32 15)
  let s := s.updPart p (fun x =>
    if x.evAddr = (c.op 2).toNat ∧ x.evDlog = c.opf 3 0 5 then x
    else { x with evAddr := (c.op 2).toNat, evDlog := c.opf 3 0 5, evIdx := 0, evHead := 0 })
  s.finishCmd c.id

def partConfigRow : CmdRow :=
  { op := 0x01, mgmt := true, check := partConfigCheck, start := partConfigStart,
    fields := [fm 0 4 + fm 16 14 + fm 32 15, fm 0 10 + fm 16 11 + fm 32 15, fm 0 64, fm 0 5] }

/-- PART_CONFIG. -/
def execPartConfig (q : Fin 16384) (s : State) : Host.Outcome State Fault Refusal := acceptCmd partConfigRow q s

/-! ### PART_GRANT (R435, R452) -/

/-- The grant that a PART_GRANT names. -/
def Cmd.grant (c : Cmd) : Grant :=
  let k := c.opf 0 4 4
  { kind := k, lo := (c.op 1).toNat, size := if k = 0 then (c.op 2).toNat * 2 ^ 21 else 0 }

/-- Sample addresses of a KIND 0 range: the first byte of each 2 MiB and the last byte of the range. -/
def Grant.probes (g : Grant) : List Nat :=
  (List.range (g.size / 2 ^ 21)).map (fun i => g.lo + i * 2 ^ 21) ++ [g.lo + g.size - 1]

/-- Does an address lie in a tier? -/
def isTier (r : Region) : Bool :=
  match r with | .hbm _ => true | .ddr => true | .cxl _ => true | _ => false

/-- Do two grants share a byte or a unit? -/
def Grant.meets (a b : Grant) : Bool :=
  a.kind == b.kind && (if a.kind = 0 then rangesMeet a.lo a.size b.lo b.size else a.lo == b.lo)

/-- Is any of a grant held by a partition but p? -/
def State.grantTaken (s : State) (p : Nat) (g : Grant) : Bool :=
  (List.range 8).any (fun j => j != p && (s.part j).grants.any (fun h => h.meets g))

/-- Units of a kind. -/
def grantUnits (k : Nat) : Nat := match k with | 1 => 64 | 2 => 8 | 3 => 49 | _ => 0

def partGrantCheck (s : State) (c : Cmd) : Nat :=
  let g := c.grant
  let p := c.opf 0 0 3
  let bad :=
    if g.kind = 0 then g.size == 0 || g.lo % 2 ^ 21 != 0 || decide (2 ^ 48 < g.lo + g.size)
    else (c.op 2) != 0 || decide (grantUnits g.kind ≤ g.lo)
  if bad then stCmdFieldInvalid
  else if c.opf 0 3 1 = 1 then 0
  else if g.kind = 0 ∧ ¬ g.probes.all (fun a => isTier (s.region a)) then stCmdFieldInvalid
  else if g.kind = 0 ∧ rangesMeet g.lo g.size (s.reg rDmpBase).toNat 0x4000000 then stInUse
  else if g.kind = 1 ∧ (s.eng g.lo).retired then stEngineRetired
  else if s.grantTaken p g then stInUse
  else 0

/-- FAB_RSTAT of a region shows its grant (Table 13.7). -/
def State.showGrant (s : State) (g : Grant) (p : Nat) (on : Bool) : State :=
  if g.kind = 3 then
    (s.setFld (rFabRstat g.lo) 30 1 (if on then 1 else 0)).setFld (rFabRstat g.lo) 31 3 (if on then p else 0)
  else s

/-- A grant is applied; a revoke waits for the commands of the partition that were accepted before it and have not
completed (R452). -/
def partGrantStart (s : State) (c : Cmd) : State :=
  let g := c.grant
  let p := c.opf 0 0 3
  if c.opf 0 3 1 = 1 then
    let ids := (s.cmds.filter (fun d => d.part == p && decide (d.id < c.id))).map Cmd.id
    s.updPart p (fun x => { x with revoking := x.revoking ++ [{ cmd := c.id, grant := g, waits := ids }] })
  else
    let s := s.updPart p (fun x => if x.grants.contains g then x else { x with grants := x.grants ++ [g] })
    (s.showGrant g p true).finishCmd c.id

def partGrantRow : CmdRow :=
  { op := 0x02, mgmt := true, check := partGrantCheck, start := partGrantStart, fields := [fm 0 8, fm 0 48, fm 0 27],
    tiers := fun _ c => if c.opf 0 4 4 = 0 then [tierBit (c.op 1).toNat] else [] }

/-- PART_GRANT. -/
def execPartGrant (q : Fin 16384) (s : State) : Host.Outcome State Fault Refusal := acceptCmd partGrantRow q s

/-! ### PART_REGULATE (R250) -/

def partRegulateRow : CmdRow :=
  { op := 0x03, mgmt := true, fields := [fm 0 3, fm 0 64],
    start := fun s c => (s.setReg (rQpPreg (c.opf 0 0 3)) (c.op 1)).finishCmd c.id }

/-- PART_REGULATE. -/
def execPartRegulate (q : Fin 16384) (s : State) : Host.Outcome State Fault Refusal := acceptCmd partRegulateRow q s

/-! ### REG_READ and REG_WRITE (R8, R450) -/

/-- The address check of both: inside the register region, and aligned. -/
def regAddrCheck (c : Cmd) : Nat :=
  let a := (c.op 0).toNat
  if a < regBase ∨ regBase + 2 ^ 24 ≤ a then stCmdFieldInvalid
  else if a % 8 ≠ 0 then stRegMisaligned
  else 0

def regReadRow : CmdRow :=
  { op := 0x04, mgmt := true, fields := [fm 0 64, fm 0 64], check := fun _ c => regAddrCheck c,
    start := fun s c =>
      (s.hostResult c (c.op 1).toNat (s.regRead ((c.op 0).toNat - regBase)).toNat).finishCmd c.id }

/-- REG_READ. -/
def execRegRead (q : Fin 16384) (s : State) : Host.Outcome State Fault Refusal := acceptCmd regReadRow q s

def regWriteRow : CmdRow :=
  { op := 0x05, mgmt := true, fields := [fm 0 64, fm 0 64],
    check := fun _ c =>
      match regAddrCheck c with
      | 0 => if regReserved ((c.op 0).toNat - regBase) then stCmdFieldInvalid else 0
      | st => st,
    start := fun s c => (s.regWrite ((c.op 0).toNat - regBase) (c.op 1)).finishCmd c.id }

/-- REG_WRITE. -/
def execRegWrite (q : Fin 16384) (s : State) : Host.Outcome State Fault Refusal := acceptCmd regWriteRow q s

/-! ### QUEUE_CREATE and QUEUE_DELETE (R235, R236, R248, R249) -/

/-- Is an address in HBM that partition p is granted? -/
def State.ownHbm (s : State) (p a : Nat) : Bool :=
  (match s.region a with | .hbm _ => true | _ => false) && s.granted p a

/-- Does a range of whole 4 KiB pages, or part of one, lie in the partition's HBM grant? -/
def State.ringGranted (s : State) (p a n : Nat) : Bool :=
  (List.range ((n + 4095) / 4096)).all (fun i => s.ownHbm p (a + 4096 * i))

/-- Urgent queues of partition p. -/
def State.urgentCount (s : State) (p : Nat) : Nat :=
  (s.queues.filter (fun x => s.fld (rQpQ x.1) 61 1 == 1 && s.fld (rQpQ x.1) 55 3 == p && s.queueClass x.1 == 0)).length

def queueCreateCheck (s : State) (c : Cmd) : Nat :=
  let q := c.opf 0 0 14
  let dlog := c.opf 0 16 5
  let ring := (c.op 1).toNat
  if dlog < 4 ∨ 16 < dlog ∨ ring % 4096 ≠ 0 then stCmdFieldInvalid
  else if s.partOfQueue q ≠ some c.part then stQuotaExceeded
  else if s.fld (rQpQ q) 61 1 = 1 then stInUse
  else if ¬ s.ringGranted c.part ring (64 * 2 ^ dlog) then stPermFault
  else if c.opf 0 21 2 = 0 ∧ s.fld (rQpPevt c.part) 32 15 ≤ s.urgentCount c.part then stQuotaExceeded
  else 0

def queueCreateStart (s : State) (c : Cmd) : State :=
  let q := c.opf 0 0 14
  let w := fv 61 1 1 + fv 55 3 c.part + fv 53 2 (c.opf 0 21 2) + fv 48 5 (c.opf 0 16 5)
  let r := fv 24 8 (c.opf 0 24 8) + fv 16 8 (c.opf 0 32 8) + fv 0 16 (c.opf 0 40 16)
  let s := (s.setReg (rQpQ q) (BitVec.ofNat 64 w)).setReg (rQpQreg q) (BitVec.ofNat 64 r)
  (s.setQueue q { live := true, ring := (c.op 1).toNat, chost := (c.op 2).toNat, tokens := c.opf 0 40 16 * dtMs 1,
                  tokDt := s.dt.toNat }).finishCmd c.id

def queueCreateRow : CmdRow :=
  { op := 0x20, check := queueCreateCheck, start := queueCreateStart, tiers := fun _ _ => [readyHbm],
    fields := [fm 0 14 + fm 16 7 + fm 24 32, fm 0 64, fm 0 64] }

/-- QUEUE_CREATE. -/
def execQueueCreate (q : Fin 16384) (s : State) : Host.Outcome State Fault Refusal := acceptCmd queueCreateRow q s

/-- The queue must be enabled and the partition's, and no other command may delete it. -/
def queueDeleteCheck (s : State) (c : Cmd) : Nat :=
  let q := c.opf 0 0 14
  if s.partOfQueue q ≠ some c.part then stNotOwner
  else if s.fld (rQpQ q) 61 1 = 0 then stCmdFieldInvalid
  else if { s with cmds := s.cmds.filter (fun d => d.id != c.id) }.deleting q then stInUse
  else 0

/-- Has the queue a command that is not complete, or, where another queue deletes it, a record to write? -/
def queueDeleteWaits (s : State) (c : Cmd) : Bool :=
  let q := c.opf 0 0 14
  s.cmds.any (fun d => d.q == q && d.id != c.id) || (s.queue q).recs.any (fun d => !d.ops.isEmpty || q != c.q)

def queueDeleteStart (s : State) (c : Cmd) : State :=
  let q := c.opf 0 0 14
  let s := if q = c.q then s else s.closeQueue q
  s.finishCmd c.id

def queueDeleteRow : CmdRow :=
  { op := 0x21, check := queueDeleteCheck, waits := queueDeleteWaits, start := queueDeleteStart, fields := [fm 0 14] }

/-- QUEUE_DELETE. -/
def execQueueDelete (q : Fin 16384) (s : State) : Host.Outcome State Fault Refusal := acceptCmd queueDeleteRow q s

/-! ### CTX_CREATE and CTX_CONFIG (R251, R252) -/

/-- Is a page-table root allowed: 4 KiB-aligned in the partition's HBM? -/
def State.rootOk (s : State) (c : Cmd) : Bool := (c.op 1).toNat % 4096 == 0 && s.ownHbm c.part (c.op 1).toNat

def ctxCreateStart (s : State) (c : Cmd) : State :=
  let g := (s.ctx c.ctx).gen
  let s := s.setCtx c.ctx { live := true, gen := g, root := some (c.op 1).toNat, seed := c.op 2,
                            mtftz := c.opf 3 0 1 == 1, vtftz := c.opf 3 1 1 == 1, hcap := c.opf 3 16 12 }
  (s.hostResult c (c.op 4).toNat g).finishCmd c.id

def ctxCreateRow : CmdRow :=
  { op := 0x22, check := fun s c => if s.rootOk c then 0 else stPermFault, tiers := fun _ _ => [readyHbm],
    start := ctxCreateStart, fields := [0, fm 0 64, fm 0 64, fm 0 2 + fm 16 12, fm 0 64] }

/-- CTX_CREATE. -/
def execCtxCreate (q : Fin 16384) (s : State) : Host.Outcome State Fault Refusal := acceptCmd ctxCreateRow q s

/-- The slots that a context holds: engine and slot. -/
def State.seatsOf (s : State) (c : Nat) : List (Nat × Nat) :=
  (List.range 64).filterMap (fun n => (s.slotOf n c).map (fun k => (n, k)))

/-- The control settings of a context in one of its slots (R85, R115, R251). -/
def State.setControls (s : State) (c : Nat) (n k : Nat) : State :=
  let x := s.ctx c
  let b (v : Bool) : Nat := if v then 1 else 0
  (s.setReg (rMtCtl n k) (BitVec.ofNat 64 (b x.mtftz))).setReg (rVtCtl n k) (BitVec.ofNat 64 (fv 4 12 x.hcap + b x.vtftz))

/-- The generator states that a context's seed gives (R112). -/
def State.setSeeds (s : State) (c : Nat) (n k : Nat) : State :=
  let w := (s.ctx c).seed.toNat
  (s.setReg (rVtSrm n k) (BitVec.ofNat 64 (seedState w))).setReg (rVtSrv n k)
    (BitVec.ofNat 64 (seedState (w ^^^ srvXor)))

/-- Is a RUN, CHAIN, CONVERT, COPY or PAGE_MOVE of the context held or running? -/
def State.ctxBusy (s : State) (c : Cmd) : Bool :=
  s.cmds.any (fun d => d.id != c.id && d.ctx == c.ctx && decide (0x28 ≤ d.opcode) && decide (d.opcode ≤ 0x2C))

def ctxConfigCheck (s : State) (c : Cmd) : Nat :=
  if s.ctxBusy c then stInUse
  else if c.opf 0 0 1 = 1 ∧ ¬ s.rootOk c then stPermFault
  else 0

def ctxConfigStart (s : State) (c : Cmd) : State :=
  let x := c.ctx
  let s := if c.opf 0 0 1 = 1 then s.updCtx x (fun y => { y with root := some (c.op 1).toNat }) else s
  let s := if c.opf 0 1 1 = 1 then
      (s.seatsOf x).foldl (fun s p => s.setSeeds x p.1 p.2) (s.updCtx x (fun y => { y with seed := c.op 2 }))
    else s
  let s := if c.opf 0 2 1 = 1 then
      (s.seatsOf x).foldl (fun s p => s.setControls x p.1 p.2)
        (s.updCtx x (fun y => { y with mtftz := c.opf 3 0 1 == 1, vtftz := c.opf 3 1 1 == 1, hcap := c.opf 3 16 12 }))
    else s
  s.finishCmd c.id

def ctxConfigRow : CmdRow :=
  { op := 0x23, thaw := true, check := ctxConfigCheck, start := ctxConfigStart,
    fields := [fm 0 3, fm 0 64, fm 0 64, fm 0 2 + fm 16 12] }

/-- CTX_CONFIG. -/
def execCtxConfig (q : Fin 16384) (s : State) : Host.Outcome State Fault Refusal := acceptCmd ctxConfigRow q s

/-! ### XLATE_INVAL (R186) -/

def xlateInvalRow : CmdRow := { op := 0x2D, fields := [fm 0 64, fm 0 64], start := fun s c => s.finishCmd c.id }

/-- XLATE_INVAL: every access walks the tables, so nothing is left to invalidate. -/
def execXlateInval (q : Fin 16384) (s : State) : Host.Outcome State Fault Refusal := acceptCmd xlateInvalRow q s

end Sys2Proof.Machine
end

