-- ==== Sys2Proof/Machine/DdrRank.lean ====
section
/-! DEFINITION. The retirement of DDR5 ranks (R226 to R231). -/

namespace Sys2Proof.Machine

/-! ### Works of the migration engines -/

/-- Adds a work. -/
def State.addWork (s : State) (k : WorkKind) (cls : Nat) : State :=
  { s with works := s.works ++ [{ kind := k, cls := cls }] }

/-- Takes a work away. -/
def State.dropWork (s : State) (k : WorkKind) : State := { s with works := s.works.filter (fun w => w.kind != k) }

/-- Copies `n` bytes of memory and their poison marks, by memory key. -/
def State.copyCells (s : State) (src dst n : Nat) : State :=
  let m := (List.range n).foldl (fun m i => tset emptyByte m (dst + i) (tget emptyByte s.mem (src + i))) s.mem
  let p := (List.range (n / 64)).foldl
    (fun p i => tset false p (dst / 64 + i) (tget false s.poison (src / 64 + i))) s.poison
  { s with mem := m, poison := p }

/-! ### Ranks -/

/-- The serials of a channel's DIMMs. -/
def State.serials (s : State) (ch : Nat) : List Nat := (tget [] s.ddr.dimms ch).map Spd.serial

/-- The physical spare of a channel: its highest rank, where the geometry holds one back (R211). -/
def State.spareRank (s : State) : Option Nat := if s.ddrNr < s.ddrPr then some (s.ddrPr - 1) else none

/-- The logical rank that a physical rank holds, if it is mapped. -/
def State.logicalRank (s : State) (ch phys : Nat) : Option Nat :=
  (List.range s.ddrNr).find? (fun q => s.physRank ch q == phys)

/-- Does a physical rank hold reserve rows that are in use? It does where a retired rank lies in the reserve and
the rank is mapped and is not that rank itself. -/
def State.holdsReserve (s : State) (ch phys : Nat) : Bool :=
  s.ddr.rets.any (fun r => r.dest == 1 && !(r.ch == ch && r.phys == phys)) && (s.logicalRank ch phys).isSome

/-- The destination of a retired rank (R227, Table 8.5): 0 spare, 1 reserve, 2 none. -/
def State.rankDest (s : State) (ch phys : Nat) : Nat :=
  let spare := match s.spareRank with
    | none => false
    | some p => s.fld rDdrStatus ch 1 == 0 && p != phys && !s.ddr.failed.contains (ch, p)
  if spare then 0
  else if s.ddrRsvr ≠ 0 ∧ s.fld rDdrStatus 24 1 = 0 ∧ ¬ s.ddr.rsvFailed ∧ ¬ s.holdsReserve ch phys then 1
  else 2

/-- DDR_RRET. -/
def rretWord (cursor dest phys valid busy : Nat) : W64 :=
  BitVec.ofNat 64 (fv 32 32 cursor + fv 6 2 dest + fv 4 2 phys + fv 1 1 valid + fv 0 1 busy)

/-- Case 3 of R227: the rank stays in service, or is taken offline where its commands fail parity. -/
def State.rankExhausted (s : State) (w : RankWait) : State :=
  let s := s.setReg (rDdrRret w.ch) (rretWord 0 2 w.phys 1 0)
  let s := (s.setFld rDdrStatus (8 + w.ch) 1 1).event 0 stDdrExhausted none 0 0
  let s := if w.parity then
      (s.setFld rDdrStatus (16 + w.ch) 1 1).updDdr (fun d => { d with offline := d.offline ++ [(w.ch, w.phys)] })
    else s
  s.finishCmd w.cmd

/-- Starts the retirement of a mapped rank into a destination (R229 step 1). A channel in a frequency change shows that
first (R231); one in self-refresh wakes. -/
def State.rankCopy (s : State) (w : RankWait) (q dest : Nat) : State :=
  let r : RankRet := { ch := w.ch, q := q, phys := w.phys, dest := dest, spare := s.ddrPr - 1, cmd := w.cmd,
                       parity := w.parity, cls := w.cls }
  let s := (s.wakeChannel w.ch).setReg (rDdrRret w.ch) (rretWord 0 dest w.phys 1 1)
  let s := s.setFld rDdrStatus (if dest = 0 then w.ch else 24) 1 1
  let s := s.updDdr (fun d => { d with rets := d.rets ++ [r] })
  let s := if s.chServes w.ch then s.chBack w.ch else s
  (s.event 0 stRankRetire none 0 0).addWork (.rankRet w.ch) w.cls

/-- A rank is to be retired: it waits while its channel retires another (R230). A rank that is not mapped is
marked failed. -/
def State.retireRank (s : State) (w : RankWait) : State :=
  if s.rankBusy w.ch then s.updDdr (fun d => { d with waiting := d.waiting ++ [w] })
  else
    match s.logicalRank w.ch w.phys with
    | none => (s.updDdr (fun d => { d with failed := d.failed ++ [(w.ch, w.phys)] })).finishCmd w.cmd
    | some q =>
      if s.ddr.rets.any (fun r => r.ch == w.ch && r.phys == w.phys) then s.finishCmd w.cmd
      else
        match s.rankDest w.ch w.phys with
        | 2 => s.rankExhausted w
        | d => s.rankCopy w q d

/-- Takes up the retirements that wait for a channel, up to the first that copies. -/
def State.nextRank (s : State) (ch : Nat) : Nat → State
  | 0 => s
  | n + 1 =>
    match s.ddr.waiting.find? (fun w => w.ch == ch) with
    | none => s
    | some w =>
      if s.rankBusy ch then s
      else ((s.updDdr (fun d => { d with waiting := d.waiting.erase w })).retireRank w).nextRank ch n

/-- A retirement of a channel has ended: the channel is in service, and the next one that waits begins. -/
def State.rankNext (s : State) (ch : Nat) : State :=
  let s := if s.chServes ch then s.chBack ch else s
  s.nextRank ch s.ddr.waiting.length

/-- An error on the destination of a copy under way (Table 8.5): the destination is marked failed and is not in use, the
next one is chosen, and the copy restarts. -/
def State.rankRestart (s : State) (r : RankRet) : State :=
  let s := s.updDdr (fun d =>
    { d with rets := d.rets.filter (fun x => x != r),
             failed := if r.dest = 0 then d.failed ++ [(r.ch, r.spare)] else d.failed,
             rsvFailed := d.rsvFailed || r.dest == 1 })
  let s := s.setFld rDdrStatus (if r.dest = 0 then r.ch else 24) 1 0
  ((s.dropWork (.rankRet r.ch)).retireRank { ch := r.ch, phys := r.phys, cmd := r.cmd, parity := r.parity,
                                              cls := r.cls }).rankNext r.ch

/-- RANK_RETIRE (R226): a rank whose reads have returned a line that cannot be corrected, or whose commands fail parity
when retried, is retired; `copy` says that the error is on the destination of that rank's copy, which then restarts. -/
def execRankRetire (ch : Fin 8) (rank : Fin 4) (parity copy : Bool) (s : State) : Host.Outcome State Fault Refusal :=
  let x : Nat × Nat × Bool := (ch, rank, copy)
  if ¬ s.chList.contains (ch : Nat) ∨ s.ddrPr ≤ rank ∨ (¬ parity ∧ ¬ s.ddr.due.contains x) then .next s
  else
    let s := s.updDdr (fun d => { d with due := d.due.filter (fun y => y != x) })
    if copy then
      match s.ddr.rets.find? (fun r => r.ch == (ch : Nat) && r.phys == (rank : Nat) && !r.finished) with
      | none => .next s
      | some r => .next (s.rankRestart r)
    else .next (s.retireRank { ch := ch, phys := rank, parity := parity })

/-- Chunks of a retirement: every row into a spare, the data rows into the reserve (R228, R229). -/
def State.rankChunks (s : State) (r : RankRet) : Nat :=
  (if r.dest = 0 then s.ddrRows else s.ddrRows - s.ddrRsvr) * 8

/-- The end of a rank's copy (R229 step 4): the map is switched and the health record changes. -/
def State.rankDone (s : State) (r : RankRet) : State :=
  let s := s.updDdr (fun d =>
    { d with rets := if r.dest = 0 then d.rets.filter (fun x => x != r)
                     else d.rets.map (fun x => if x = r then { x with finished := true, cmd := 0 } else x) })
  let s := if r.dest = 0 then s.setFld (rDdrRankmap r.ch) (2 * r.q) 2 r.spare else s
  let s := s.healthChange (fun h => h ++ [.rank r.ch r.phys r.dest r.spare (s.serials r.ch)])
  let s := (s.setFld (rDdrRret r.ch) 0 1 0).dropWork (.rankRet r.ch)
  (s.finishCmd r.cmd).rankNext r.ch

/-- Part j of chunk `r.cursor` of a copy: 8 KiB of one row, at the source and at the destination. -/
def State.rankPart (s : State) (r : RankRet) (j : Nat) : DdrLine × DdrLine :=
  let i := r.cursor * 8 + j
  let l : DdrLine := { ch := r.ch, rank := r.q, sub := i % 2, bank := i / 2 % 32, row := i / 64, col := 0 }
  ({ l with rank := r.phys }, if r.dest = 0 then { l with rank := r.spare } else s.spareLine (s.reserveLine l))

/-- The channels that a chunk's copy uses. -/
def State.rankChans (s : State) (r : RankRet) : List Nat :=
  ((List.range 8).flatMap (fun j => [(s.rankPart r j).1.ch, (s.rankPart r j).2.ch])).dedup

/-- Copies the next chunk of a rank by migration engine e: eight rows of 8 KiB, in ascending row, bank and subchannel,
each line read with correction (R229 step 2). It stands still while a channel that it uses changes its timing set
(Table 8.5), and wakes one in self-refresh. `flaws` names lines of the chunk with the devices in error. -/
def State.rankChunk (s : State) (r : RankRet) (e : Nat) (flaws : List (Nat × Nat)) : State :=
  if (s.rankChans r).any (fun c => s.chState c == 3) then s
  else
    let s := (s.rankChans r).foldl (fun s c => s.wakeChannel c) s.quiet
    let s := (List.range 8).foldl (fun s j =>
      let p := s.rankPart r j
      let s := (flaws.filter (fun x => x.1 / 128 == j)).foldl (fun s x =>
        (s.ddrMeets { p.1 with col := x.1 % 128 } x.2 0).1) s
      (((s.ddrAccess p.1 (0xA8 + e) false).ddrAccess p.2 (0xA8 + e) true).copyCells p.1.key p.2.key 8192)) s
    let r' := { r with cursor := r.cursor + 1 }
    let s := (s.updDdr (fun d => { d with rets := d.rets.map (fun x => if x = r then r' else x) })).setFld
      (rDdrRret r.ch) 32 32 (r.cursor + 1)
    if s.rankChunks r ≤ r.cursor + 1 then s.rankDone r' else s

end Sys2Proof.Machine
end

