-- ==== Sys2Proof/Machine/Noc.lean ====
section
/-! DEFINITION. The on-chip network (chapter 12): where packets run, regulators, probes, and the tags of domains. -/

namespace Sys2Proof.Machine

/-! ### Points and routes (R307 to R311) -/

/-- A router port in the layout of DST [34:24]; an IOD unit. -/
def routerPoint (die x y port : Nat) : Nat := die * 512 + x * 64 + y * 16 + port
def iodPoint (unit : Nat) : Nat := 1024 + unit % 512
def pointDie (p : Nat) : Nat := p / 512
def pointX (p : Nat) : Nat := p / 64 % 8
def pointY (p : Nat) : Nat := p / 16 % 4
def pointPort (p : Nat) : Nat := p % 16

/-- The router of position w of herd h, both within a die, with a port (R307). -/
def herdPoint (herd w port : Nat) : Nat :=
  let h := herd % 4
  routerPoint (herd / 4) (4 * (h % 2) + w % 4) (2 * (h / 2) + w / 4) port

def enginePoint (n : Nat) : Nat := herdPoint (n / 8) (n % 8) 4

/-- A herd's pool, through its router of position w: the pool is reached through any of the eight. -/
def poolPoint (h w : Nat) : Nat := herdPoint h w 5

/-- Fabric NoC port p = 2f + j (R308). -/
def fabricPoint (p : Nat) : Nat := let j := p % 12; herdPoint (p / 12) (j % 8) (6 + j / 8)

/-- The column at which a die's side stacks stand, and the column of its die gateway (Table 12.2). -/
def sideX (die : Nat) : Nat := if die = 0 then 0 else 7
def gateX (die : Nat) : Nat := if die = 0 then 7 else 0

/-- Edge attachments of a router that come before its north stack, its die gateway and its IOD port, in slot order:
side stack, north stack, die gateway, IOD. -/
def northPort (die x : Nat) : Nat := 8 + (if x = sideX die then 2 else 0)
def gatePort (y slot : Nat) : Nat := 8 + (if y = 0 then 1 else 0) + slot
def iodPort (die x : Nat) : Nat := 8 + (if x = sideX die then 2 else 0) + (if x = gateX die then 4 else 0)

/-- Port q of stack k (Table 12.2). -/
def stackPoint (k q : Nat) : Nat :=
  let die := k / 4
  if k % 4 < 2 then let x := 4 * (k % 4) + q; routerPoint die x 0 (northPort die x)
  else routerPoint die (sideX die) (2 * (k % 4 - 2) + q / 2) (8 + q % 2)

/-- The steps of a packet within a die: out of one router and into the next, first along x, then along y. Each step
names a router port and a direction: 0 arriving, 1 leaving. -/
def meshSteps (die x y x' y' : Nat) : Nat → List (Nat × Nat)
  | 0 => []
  | n + 1 =>
    if x < x' then (routerPoint die x y 1, 1) :: (routerPoint die (x + 1) y 3, 0) :: meshSteps die (x + 1) y x' y' n
    else if x' < x then (routerPoint die x y 3, 1) :: (routerPoint die (x - 1) y 1, 0) :: meshSteps die (x - 1) y x' y' n
    else if y < y' then (routerPoint die x y 2, 1) :: (routerPoint die x (y + 1) 0, 0) :: meshSteps die x (y + 1) x' y' n
    else if y' < y then (routerPoint die x y 0, 1) :: (routerPoint die x (y - 1) 2, 0) :: meshSteps die x (y - 1) x' y' n
    else []

/-- The ports that a packet passes from one point to another (R311). -/
def route (org dst : Nat) : List (Nat × Nat) :=
  let d := pointDie org
  let e := pointDie dst
  let x := pointX org
  let y := pointY org
  let x' := pointX dst
  let y' := pointY dst
  if 2 ≤ d ∧ 2 ≤ e then [(org, 1), (dst, 0)]
  else if 2 ≤ d then
    let xi := x' ||| 1
    (org, 1) :: (routerPoint e xi 3 (iodPort e xi), 0) :: meshSteps e xi 3 x' y' 11 ++ [(dst, 1)]
  else if 2 ≤ e then
    let xo := x ||| 1
    (org, 0) :: meshSteps d x y xo 3 11 ++ [(routerPoint d xo 3 (iodPort d xo), 1), (dst, 0)]
  else if d = e then (org, 0) :: meshSteps d x y x' y' 11 ++ [(dst, 1)]
  else
    let g := gatePort y (y' % 4)
    (org, 0) :: meshSteps d x y (gateX d) y 11 ++
      (routerPoint d (gateX d) y g, 1) :: (routerPoint e (gateX e) y g, 0) :: meshSteps e (gateX e) y x' y' 11 ++ [(dst, 1)]

/-- The router and gateway islands on a route, as PWR_RTR numbers them. -/
def routeIslands (steps : List (Nat × Nat)) : List Nat :=
  steps.flatMap (fun t =>
    let p := t.1
    let die := pointDie p
    if 2 ≤ die then []
    else
      let h := 4 * die + 2 * (pointY p / 2) + pointX p / 4
      if pointX p = gateX die ∧ gatePort (pointY p) 0 ≤ pointPort p ∧ pointPort p < gatePort (pointY p) 4 then
        [h, 8 + die]
      else [h])

/-! ### Sources and targets (Table 12.5) -/

/-- Is a source number one of Table 12.5? -/
def isSource (n : Nat) : Bool := nocSources.any (fun g => inRange g.1 g.2 n)

/-- Where a source's packets enter. -/
def sourcePoint (n : Nat) : Nat :=
  if n < 0x40 then enginePoint n
  else if n < 0xA0 then fabricPoint (n - 0x40)
  else if n < 0xA4 then iodPoint (16 + (n - 0xA0))
  else if n < 0xB0 then iodPoint (Config.migUnit (n - 0xA8))
  else if n < 0xB2 then iodPoint (10 + (n - 0xB0))
  else iodPoint (32 + (n - 0xB8))

/-- The pseudo-channel in which a device address lies. -/
def State.pcOf (s : State) (a : Nat) : Nat := s.memKey a / 2 ^ 30

/-- The destination port of a device address; none for a hole. -/
def State.targetPoint (s : State) (a : Nat) : Option Nat :=
  match s.region a with
  | .hbm _ => let pc := s.pcOf a; some (stackPoint (pc / 64) (pc % 4))
  | .ddr => some (iodPoint (s.ddrDecode a).ch)
  | .cxl p => some (iodPoint (8 + p))
  | .store n => some (enginePoint n)
  | .pool h => some (poolPoint h (Config.poolRouter a % 8))
  | .fabric f => if f < 48 then some (fabricPoint (2 * f + a / 4096 % 2)) else some (iodPoint 12)
  | .regs => some (iodPoint 12)
  | .hole => none

/-! ### Tags (R427) -/

/-- DGEN of a source's reset domain. -/
def State.dgenOf (s : State) (src : Nat) : Nat :=
  if src < 0x40 then tget 0 s.noc.dgenE src
  else if src < 0xA0 then tget 0 s.noc.dgenF ((src - 0x40) / 2)
  else s.noc.dgenD

def State.updNoc (s : State) (f : Noc → Noc) : State := { s with noc := f s.noc }

/-! ### Packets -/

/-- Header words 0 to 2 (Table 12.3). -/
def NocPkt.word0 (p : NocPkt) : W64 :=
  BitVec.ofNat 64 (fv 48 16 p.stamp + fv 36 12 p.dgen + fv 24 11 p.dst + fv 8 16 p.src +
    fv 6 1 (if p.poison then 1 else 0) + fv 4 2 p.cls + fv 0 4 p.ty)
def NocPkt.word1 (p : NocPkt) : W64 := BitVec.ofNat 64 (fv 48 10 p.ctx + fv 0 48 p.addr)
def NocPkt.word2 (p : NocPkt) : W64 :=
  BitVec.ofNat 64 (fv 32 16 p.status + fv 22 8 p.tid + fv 12 10 (p.len - 1) + fv 0 12 p.cgen)

/-- Bytes of data that a packet carries: those of writes, read data, gate signals and register accesses. -/
def NocPkt.dataBytes (p : NocPkt) : Nat := if p.ty = 1 ∨ p.ty = 2 ∨ p.ty = 5 ∨ p.ty = 6 then p.len else 0

/-! ### Probes (R325, R326) -/

/-- A packet's fields in the layout of NOC_PRBMATCH. -/
def NocPkt.fields (p : NocPkt) : Nat := fv 33 10 p.ctx + fv 22 11 p.dst + fv 6 16 p.src + fv 4 2 p.cls + fv 0 4 p.ty

/-- The die of a probe, which is also its trace buffer. -/
def probeDie (p : Nat) : Nat := p / 16

/-- Does a probe's point lie on a step of a route, in its direction? -/
def State.probeAt (s : State) (p : Nat) (step : Nat × Nat) : Bool :=
  let w := s.fld (rNocPrbctl p) 0 15
  let dir := s.fld (rNocPrbctl p) 15 2
  let pt := w / 16
  pointDie pt == probeDie p && (decide (2 ≤ dir) || dir == step.2) &&
    (if 2 ≤ probeDie p then step.1 == pt else step.1 == pt / 16 * 16 + w % 16)

/-- The full DT of a stamp (R326). -/
def fullStamp (d stamp : Nat) : Nat := d - (d + 2 ^ 16 - stamp % 2 ^ 16) % 2 ^ 16

/-- Writes a trace record of a packet that a probe saw at DT `d` into buffer b, unless that is full and stops. -/
def State.traceRecord (s : State) (b d : Nat) (p : NocPkt) : State :=
  let r := rNocTrctl b
  let i := s.fld r 0 14
  let full := (oget s.noc.trace (b * 16384 + i)).isSome
  if full ∧ s.fld r 16 1 = 1 then s.updReg r (fun w => bsat w 48 16 1)
  else
    let rec_ : List W64 := [BitVec.ofNat 64 d, BitVec.ofNat 64 (fullStamp d p.stamp), p.word0, p.word1]
    let s := s.updNoc (fun n => { n with trace := tput (b * 16384 + i) rec_ n.trace })
    let s := if i = 16383 ∧ s.fld r 16 1 = 0 then s.setFld r 15 1 1 else s
    s.setFld r 0 14 ((i + 1) % 16384)

/-- One probe watches a packet pass a port at DT `d`. -/
def State.probeOne (s : State) (p : Nat) (k : NocPkt) (step : Nat × Nat) (d : Nat) : State :=
  let hit := (k.fields ^^^ (s.reg (rNocPrbmatch p)).toNat) &&& (s.reg (rNocPrbmask p)).toNat == 0
  if s.fld (rNocPrbctl p) 17 1 = 0 ∨ ¬ hit ∨ ¬ s.probeAt p step then s
  else
    let s := s.updReg (rNocPrbpkt p) (· + 1)
    let s := s.updReg (rNocPrbbyte p) (· + BitVec.ofNat 64 k.dataBytes)
    if s.fld (rNocPrbctl p) 18 1 = 1 then s.traceRecord (probeDie p) d k else s

/-- Is any probe enabled? -/
def State.probing (s : State) : Bool := (List.range 40).any (fun p => s.fld (rNocPrbctl p) 17 1 == 1)

/-- All probes watch a packet pass a port at DT `d`. -/
def State.probeStep (s : State) (k : NocPkt) (step : Nat × Nat) (d : Nat) : State :=
  (List.range 40).foldl (fun s p => s.probeOne p k step d) s

/-- Does a packet meet a router or gateway island of these steps that is clock-gated? -/
def State.stepsSleep (s : State) (steps : List (Nat × Nat)) : Bool :=
  (routeIslands steps).any (fun i => s.fld (rPwrRtr i) 12 2 == 1)

/-- A packet enters the network: the probes at its first port see it, unless it waits there for the router to wake. -/
def State.probeEntry (s : State) (k : NocPkt) : State :=
  if s.probing ∧ k.seen then ((route k.org k.dst).take 1).foldl (fun s x => s.probeStep k x s.dt.toNat) s else s

/-- A packet has passed the ports that had not seen it at its injection: the last one now, those between at times since
then that no rule states. -/
def State.probeRest (s : State) (k : NocPkt) : State :=
  if s.probing then
    let steps := (route k.org k.dst).drop (if k.seen then 1 else 0)
    let now := s.dt.toNat
    let t0 := fullStamp now k.stamp
    let n := s.free
    let s := steps.dropLast.zipIdx.foldl (fun s x =>
      s.probeStep k x.1 (t0 + Config.freeNat (n + x.2) % (now - t0 + 1))) s
    let s := { s with free := s.free + steps.length }
    steps.getLast?.toList.foldl (fun s x => s.probeStep k x now) s
  else s

/-! ### Injection of packets (R310, R316) -/

/-- Injects a packet: it takes its STAMP. -/
def State.inject (s : State) (p : NocPkt) : State :=
  let p : NocPkt := { p with stamp := s.dt.toNat, seen := !s.stepsSleep ((route p.org p.dst).take 1) }
  (s.updNoc (fun n => { n with net := n.net ++ [p] })).probeEntry p

/-- Injects the response to a request, from where that was served. -/
def State.respond (s : State) (p : NocPkt) (ty status : Nat) (poison : Bool) (data : Option (List Byte)) : State :=
  s.inject { p with ty := ty, cls := 1, org := p.dst, dst := sourcePoint p.src, status := status, poison := poison,
                    data := data }

/-! ### Sleeping islands (R318) -/

/-- The engine whose island a point's packets reach, if any. -/
def engineAt (p : Nat) : Option Nat := (List.range 64).find? (fun n => enginePoint n == p)

/-- Is a herd in retention: one of its engines shows it? -/
def State.herdAsleep (s : State) (h : Nat) : Bool := (List.range 8).any (fun i => s.fld (rPwrEng (8 * h + i)) 12 2 == 2)

/-- Does a packet meet a sleeping island? -/
def State.meetsSleep (s : State) (k : NocPkt) : Bool :=
  s.stepsSleep (route k.org k.dst) ||
    (match engineAt k.dst with
      | some n => let st := s.fld (rPwrEng n) 12 2; st == 1 || st == 2
      | none => (List.range 8).any (fun h => (List.range 8).any (fun w => poolPoint h w == k.dst) && s.herdAsleep h))

/-- ISLAND_WAKE: an island that a packet meets, or that something reaches, wakes. -/
def execIslandWake (i : Island) (s : State) : Host.Outcome State Fault Refusal :=
  match i with
  | .router r => .next (s.setFld (rPwrRtr r) 12 2 0)
  | .engine n => .next (s.wakeEngine n)
  | .herd h =>
    .next ((List.range 8).foldl (fun s j =>
      if s.fld (rPwrEng (8 * (h : Nat) + j)) 12 2 = 2 then s.setFld (rPwrEng (8 * (h : Nat) + j)) 12 2 1 else s) s)

/-! ### Credits (R313) -/

/-- Entries of a target's input queue. -/
def targetEntries : Nat := 64

/-- The ask of a source for a credit of a target: on behalf of the context whose request waits for it first. -/
def State.askPkt (s : State) (src dst : Nat) : NocPkt :=
  let p : NocPkt := { ty := 7, src := src, dst := dst, org := sourcePoint src, dgen := s.dgenOf src }
  match s.noc.held.find? (fun q => q.src == src && q.dst == dst) with
  | some q => { p with ctx := q.ctx, cgen := q.cgen }
  | none => { p with cgen := (s.ctx 0).gen }

/-- Has a source an ask or a credit for a target, or is either on its way? -/
def State.credited (s : State) (src dst : Nat) : Bool :=
  s.noc.asks.any (fun p => p.src == src && p.dst == dst) || s.noc.creds.contains (dst, src) ||
    s.noc.net.any (fun p => (p.ty == 7 && p.src == src && p.dst == dst) || (p.ty == 8 && p.src == src && p.org == dst))

/-- CREDIT_REQUEST: a source without a credit for a target asks it for one. -/
def execCreditRequest (src : Fin 186) (dst : Fin 2048) (s : State) : Host.Outcome State Fault Refusal :=
  if ¬ isSource src ∨ s.credited src dst then .next s else .next (s.inject (s.askPkt src dst))

/-- CREDIT_GRANT: a target lends an entry to the source whose ask arrived first; the grant copies the tags of the ask. -/
def execCreditGrant (dst : Fin 2048) (s : State) : Host.Outcome State Fault Refusal :=
  match s.noc.asks.find? (fun p => p.dst == (dst : Nat)) with
  | none => .next s
  | some p =>
    if targetEntries ≤ tget 0 s.noc.lent p.dst then .next s
    else
      .next ((s.updNoc (fun n =>
        { n with asks := n.asks.erase p, lent := tupd 0 n.lent p.dst (fun x => x + 1) })).respond p 8 0 false none)

/-- A credit comes back to its target. -/
def State.creditBack (s : State) (target : Nat) : State :=
  s.updNoc (fun n => { n with lent := tupd 0 n.lent target (fun x => x - 1) })

/-- What injection ports hold and what is kept for masters, of the packets `p`, is dropped. -/
def State.dropHeld (s : State) (p : NocPkt → Bool) : State :=
  s.updNoc (fun n => { n with held := n.held.filter (fun k => !p k), kept := n.kept.filter (fun k => !p k) })

/-- Unused credits of a source go back (Table 12.6). -/
def State.returnCredits (s : State) (src : Nat) : State :=
  let mine := s.noc.creds.filter (fun k => k.2 == src)
  let s := mine.foldl (fun s k => s.creditBack k.1) s
  s.updNoc (fun n => { n with creds := n.creds.filter (fun k => k.2 != src) })

/-! ### Buckets (R250, R319 to R321) -/

/-- The kind of destination of an address. -/
def State.destKind (s : State) (a : Nat) : Nat :=
  match s.region a with | .hbm _ => 1 | .ddr => 2 | .cxl _ => 3 | _ => 0

/-- The rate of a partition's bucket in 32nds of a byte per unit of DT: QP_PREG gives GB/s, and Gb/s for Ethernet. -/
def State.partRate (s : State) (p kind : Nat) : Nat :=
  let r := s.fld (rQpPreg p) (16 * (kind - 1)) 16
  if kind = 4 then r else 8 * r

/-- A partition's level; its burst is 1 µs of its rate (R250). -/
def State.partLevel (s : State) (p kind : Nat) : Int :=
  let r := s.partRate p kind
  match oget s.noc.parts (4 * p + (kind - 1)) with
  | none => ((4000 * r : Nat) : Int)
  | some b => b.now r (4000 * r) s.dt.toNat

/-- Is a source exempt from every bucket (R321)? -/
def exempt (src : Nat) : Bool := inRange 0xA8 8 src || src == 0xB8

/-- May a request draw from its source's bucket? -/
def State.bucketOpen (s : State) (src kind : Nat) : Bool :=
  exempt src || (s.rateOf src kind).1 == 0 || decide (0 < s.bucketOf src kind)

/-- Where the grant that a source has taken of a partition's bucket is kept. -/
def shareKey (src p kind : Nat) : Nat := (src * 8 + p) * 4 + (kind - 1)

/-- What is left of a regulator's partition grant. -/
def State.shareOf (s : State) (src p kind : Nat) : Int :=
  match oget s.noc.shares (shareKey src p kind) with | none => 0 | some b => b.lvl

/-- May a request draw from its partition grant, or take a new one? -/
def State.shareOpen (s : State) (src p kind : Nat) : Bool :=
  exempt src || kind == 0 || s.partRate p kind == 0 || decide (0 < s.shareOf src p kind) ||
    decide (0 < s.partLevel p kind)

/-- Draws `n` bytes from both; a grant keeps the DT at which it was taken. -/
def State.draw (s : State) (src p kind n : Nat) : State :=
  if exempt src then s
  else
    let q : Int := ((32 * max 64 n : Nat) : Int)
    let b : Bucket := { lvl := s.bucketOf src kind - q, dt := s.dt.toNat }
    let s1 := if (s.rateOf src kind).1 = 0 then s
      else s.updNoc (fun x => { x with buckets := oset x.buckets (8 * src + kind) (some b) })
    if kind = 0 ∨ s.partRate p kind = 0 then s1
    else
      let own := s.shareOf src p kind
      let grant : Int := if 0 < own then 0 else 32 * 4096
      let took := if 0 < own then ((oget s.noc.shares (shareKey src p kind)).map Bucket.dt).getD 0 else s.dt.toNat
      let pb : Bucket := { lvl := s.partLevel p kind - grant, dt := s.dt.toNat }
      let sb : Bucket := { lvl := own + grant - q, dt := took }
      s1.updNoc (fun x =>
        { x with parts := oset x.parts (4 * p + (kind - 1)) (some pb),
                 shares := oset x.shares (shareKey src p kind) (some sb) })

/-- PARTITION_GRANT_RETURN: a regulator returns what it has not used after 10 µs. -/
def execPartitionGrantReturn (src : Fin 186) (part : Fin 8) (kind : Fin 4) (s : State) :
    Host.Outcome State Fault Refusal :=
  let k := (kind : Nat) + 1
  let i := shareKey src part k
  match oget s.noc.shares i with
  | none => .next s
  | some b =>
    if s.dt.toNat < b.dt + dtUs 10 ∨ b.lvl ≤ 0 then .next s
    else
      let top : Int := ((4000 * s.partRate part k : Nat) : Int)
      let pb : Bucket := { lvl := min top (s.partLevel part k + b.lvl), dt := s.dt.toNat }
      .next (s.updNoc (fun x =>
        { x with parts := oset x.parts (4 * (part : Nat) + (kind : Nat)) (some pb), shares := oset x.shares i none }))

/-! ### Injection (R313, R319, R322) -/

/-- Is a source's master frozen, so that it injects nothing? -/
def State.sourceFrozen (s : State) (src ctx : Nat) : Bool :=
  (s.ctx ctx).frozen.isSome || (decide (src < 0x40) && ((s.eng src).frozen.isSome || (s.eng src).retired)) ||
    (decide (0x40 ≤ src) && decide (src < 0xA0) && s.fld (rFabPort (src - 0x40)) 32 1 == 1)

/-- Do the buckets allow a request? Those of a partner run draw from none (R321). -/
def State.allowed (s : State) (p : NocPkt) : Bool :=
  p.partner || (s.bucketOpen p.src p.kind && s.shareOpen p.src ((s.partOfCtx p.ctx).getD 0) p.kind)

/-- May a request be injected: its credit is held, its master is not frozen, and its buckets allow it? -/
def State.mayInject (s : State) (p : NocPkt) : Bool :=
  s.noc.creds.contains (p.dst, p.src) && !s.sourceFrozen p.src p.ctx && s.allowed p

/-- Does a request wait behind an earlier one of its port: one for the same target, or one that the same bucket holds
(Table 12.6)? -/
def State.behind (s : State) (p : NocPkt) : Bool :=
  (s.noc.held.takeWhile (fun q => q != p)).any (fun q =>
    q.src == p.src && (q.dst == p.dst || (q.kind == p.kind && s.noc.creds.contains (q.dst, q.src))))

/-- A request waits at its injection port. -/
def State.holdReq (s : State) (p : NocPkt) : State :=
  if s.noc.held.contains p then s else s.updNoc (fun n => { n with held := n.held ++ [p] })

/-- Injects a held request that may be; one that a bucket holds shows in HELD. A request of a fabric port counts there. -/
def State.tryInject (s : State) (p : NocPkt) : State :=
  if s.mayInject p ∧ ¬ s.behind p then
    let s := if p.partner then s else s.draw p.src ((s.partOfCtx p.ctx).getD 0) p.kind p.len
    let s := if 0x40 ≤ p.src ∧ p.src < 0xA0 then s.updReg (rFabPort (p.src - 0x40)) (fun w => bsat w 0 32 1) else s
    ((s.setFld (rNocRg p.src 5) 0 1 0).updNoc (fun n =>
      { n with creds := n.creds.erase (p.dst, p.src), held := n.held.erase p })).inject p
  else if s.noc.creds.contains (p.dst, p.src) ∧ ¬ s.sourceFrozen p.src p.ctx then s.setFld (rNocRg p.src 5) 0 1 1
  else s

/-- The injection ports try what they hold, and masters that are no longer frozen take the responses kept for them. -/
def State.portsTick (s : State) : State :=
  if s.noc.held = [] ∧ s.noc.kept = [] then s
  else
    let s := s.noc.held.foldl State.tryInject s
    s.updNoc (fun n => { n with kept := n.kept.filter (fun p => s.sourceFrozen p.src p.ctx) })

/-- The class of a request (R310): peer where it is bound for a transport packet processor, or is what one delivers into
memory or gates. -/
def nocCls (r : NocReq) : Nat := if r.peer.isSome || ((r.src == 0xB0 || r.src == 0xB1) && r.ty != 0) then 2 else 0

/-- PACKET_INJECT: a master's request comes to its injection port, and enters the network when that lets it; a request that
waits there already tries again. -/
def execPacketInject (r : NocReq) (s : State) : Host.Outcome State Fault Refusal :=
  let p : NocPkt :=
    { ty := r.ty, cls := nocCls r, src := r.src, org := sourcePoint r.src, dgen := s.dgenOf r.src, addr := r.addr,
      ctx := r.ctx, cgen := (s.ctx r.ctx).gen, len := r.len, tid := r.tid, poison := r.poison && r.ty == 1,
      partner := r.partner && decide ((r.src : Nat) < 0x40) }
  let request := (r.ty : Nat) = 0 ∨ (r.ty : Nat) = 1 ∨ (r.ty : Nat) = 5 ∨ (r.ty : Nat) = 6
  if ¬ isSource r.src ∨ ¬ request ∨ (0x40 ≤ (r.src : Nat) ∧ (r.src : Nat) < 0xA0) then .next s
  else
    let go (p : NocPkt) : Host.Outcome State Fault Refusal := .next ((s.holdReq p).tryInject p)
    match r.peer with
    | some e => go { p with dst := iodPoint (10 + (e : Nat)), kind := 4 }
    | none =>
      match s.targetPoint r.addr with
      | none => .next s
      | some d => go { p with dst := d, kind := s.destKind r.addr }

end Sys2Proof.Machine
end

