-- ==== Sys2Proof/Machine/Ddr.lean ====
section
/-! DEFINITION. The DDR5 controllers in service: refresh, row disturbance, hot banks, timing sets and self-refresh (R217,
R220 to R225, R419). -/

namespace Sys2Proof.Machine

/-! ### Row disturbance and hot banks (R220 to R222) -/

/-- TARGETED_REFRESH: the neighbours of the first row whose count has reached ACTTH are refreshed, and its count
is 0. -/
def execTargetedRefresh (ch : Fin 8) (rank : Fin 4) (sub : Fin 2) (bank : Fin 32) (s : State) :
    Host.Outcome State Fault Refusal :=
  let b := bankNo ch rank sub bank
  match (s.hotRows ch b).head? with
  | none => .next s
  | some r => .next (s.quiet.targetRefresh ch b r)

/-- ROW_DISTURBANCE_WINDOW (R220, R221): a channel's tables and counts are cleared, and throttles that the window
before set end. -/
def execRowDisturbanceWindow (ch : Fin 8) (s : State) : Host.Outcome State Fault Refusal :=
  let s := s.updChanBanks ch (fun x => { x with rows := [], evict := 0, acts := [], stormed := false })
  .next (s.updDdr (fun d =>
    let ts := d.throttles.filter (fun t => t.ch != (ch : Nat) || t.stays)
    { d with throttles := ts.map (fun t => if t.ch = (ch : Nat) then { t with stays := false } else t) }))

/-- The source with the most ACTs, the lowest number on a tie. -/
def topSource : List (Nat × Nat) → Option (Nat × Nat)
  | [] => none
  | x :: t => match topSource t with
    | none => some x
    | some y => if y.2 ≤ x.2 then some x else some y

/-- DDR_EVLOG and DDR_EVDT of a channel take a new event; its log word is the event's ARG0, the channel its ARG1. -/
def State.ddrLog (s : State) (ch w code : Nat) : State :=
  let s := (s.setReg (rDdrEvlog ch) (logWord (s.reg (rDdrEvlog ch)) w)).setReg (rDdrEvdt ch) s.dt
  s.event 0 code none w ch

/-- ACT_STORM (R221): a bank's evictions exceed EVTH in the window: the event, the log, and the throttle of the
source with the most ACTs unless it is a migration engine. -/
def execActStorm (ch : Fin 8) (rank : Fin 4) (sub : Fin 2) (bank : Fin 32) (s : State) :
    Host.Outcome State Fault Refusal :=
  let x := s.bank (bankNo ch rank sub bank)
  if x.evict ≤ s.evTh ch ∨ x.stormed then .next s
  else
    let src := match topSource x.acts with | none => 0 | some y => y.1
    let w := fv 48 16 src + fv 9 5 bank + fv 7 2 rank + fv 6 1 sub
    let s := (s.ddrLog ch w stActStorm).updBank (bankNo ch rank sub bank) (fun x => { x with stormed := true })
    if 0xA8 ≤ src ∧ src < 0xB0 then .next s
    else
      .next (s.updDdr (fun d =>
        let others := d.throttles.filter (fun t => !(t.ch == (ch : Nat) && t.src == src))
        let t : Throttle := { ch := ch, src := src }
        { d with throttles := others ++ [t] }))

/-- SKTH of a register field: other values act as the nearer limit. -/
def nearLimit (lo hi v : Nat) : Nat := max lo (min hi v)

/-- Hot samples in a row after one more (R192, R222). -/
def Hot.step (h : Option Hot) (hot : Bool) (now : Nat) : Option Hot :=
  if hot then some (h.getD { since := now }) else none

/-- Has a run of hot samples lasted, with no event yet? -/
def Hot.due (h : Option Hot) (now span : Nat) : Bool :=
  match h with | none => false | some x => !x.raised && decide (x.since + span ≤ now)

/-- The lines of 64 bytes that a request touches. -/
def linesOf (a n : Nat) : List Nat := (List.range ((a + max 1 n - 1) / 64 - a / 64 + 1)).map (fun i => (a / 64 + i) * 64)

/-- The physical lines of the reads that wait at a channel: what its read queues hold. -/
def State.readLines (s : State) (ch : Nat) : List DdrLine :=
  ((s.noc.queue.filter (fun p => p.dst == iodPoint ch)).flatMap (fun p => linesOf p.addr p.len)).map s.ddrLine

/-- The occupancy of a bank in its read queue. -/
def State.bankReads (s : State) (ch b : Nat) : Nat := ((s.readLines ch).filter (fun l => l.bankNo == b)).length

/-- Is a sample of a bank hot: at least SKTH reads, where the mean of the channel's banks is below SKTH / 4? -/
def State.hotSample (s : State) (ch b : Nat) : Bool :=
  let th := nearLimit 4 16 (s.fld (rDdrSched ch) 48 5)
  decide (th ≤ s.bankReads ch b) && decide (4 * (s.readLines ch).length < th * (s.ddrPr * 64))

/-- DDR_SKEW (R222): a bank's sample of its read-queue occupancy, `occ`, with the sum over its channel's banks, once per µs;
1 ms of hot samples raises the event once. A sample that is not what the read queues hold does not occur. -/
def execDdrSkew (ch : Fin 8) (rank : Fin 4) (sub : Fin 2) (bank : Fin 32) (occ sum : Nat) (s : State) :
    Host.Outcome State Fault Refusal :=
  let b := bankNo ch rank sub bank
  if s.dt.toNat < (s.bank b).sampled + dtUs 1 ∨ occ ≠ s.bankReads ch b ∨ sum ≠ (s.readLines ch).length then .next s
  else
    let h := Hot.step (s.bank b).hot (s.hotSample ch b) s.dt.toNat
    if Hot.due h s.dt.toNat (dtMs 1) then
      let s := s.ddrLog ch (fv 9 5 bank + fv 7 2 rank + fv 6 1 sub + fv 2 1 1) stDdrSkew
      .next (s.updBank b (fun x =>
        { x with sampled := s.dt.toNat, hot := h.map (fun y => { y with raised := true }) }))
    else .next (s.updBank b (fun x => { x with sampled := s.dt.toNat, hot := h }))

/-! ### Refresh and tracking (R217, R223) -/

/-- REFRESH: a bank whose tREFI has passed is refreshed; its row closes. -/
def execRefresh (ch : Fin 8) (rank : Fin 4) (sub : Fin 2) (bank : Fin 32) (s : State) :
    Host.Outcome State Fault Refusal :=
  let b := bankNo ch rank sub bank
  if ¬ s.chServes ch ∨ s.dt.toNat < (s.bank b).refreshed + s.trefi ch rank then .next s
  else .next (s.quiet.refreshBank ch b)

/-- MR4_POLL: every 16 ms a rank's MR4 is read; it may ask for the faster refresh. -/
def execMr4Poll (ch : Fin 8) (rank : Fin 4) (fast : Bool) (s : State) : Host.Outcome State Fault Refusal :=
  let r : Nat × Nat := (ch, rank)
  let i := 4 * (ch : Nat) + rank
  if ¬ s.chServes ch ∨ s.dt.toNat < tget 0 s.ddr.mr4 i + dtMs 16 then .next s
  else
    .next ((s.quiet.updDdr (fun d =>
      let others := d.fast.filter (fun x => x != r)
      { d with fast := if fast then others ++ [r] else others, mr4 := tset 0 d.mr4 i s.dt.toNat })).issue ch [.mrr])

/-- DQS_TRACKING: every 64 ms the drift of each rank is tracked with its DQS oscillator. -/
def execDqsTracking (ch : Fin 8) (s : State) : Host.Outcome State Fault Refusal :=
  if ¬ s.chServes ch ∨ s.dt.toNat < tget 0 s.ddr.dqs ch + dtMs 64 then .next s
  else
    let s := s.quiet.updDdr (fun d => { d with dqs := tset 0 d.dqs ch s.dt.toNat })
    .next ((List.range s.ddrPr).foldl (fun s r =>
      ({ s with free := s.free + 1 }.updDdr (fun d =>
        { d with drift := tset 0 d.drift (4 * (ch : Nat) + r) (Config.freeNat s.free) })).issue ch [.mpc, .mrr]) s)

/-! ### Timing sets and self-refresh (R224, R225, R419) -/

/-- Table 8.4, steps 1 and 2: a channel stops, and its ranks enter self-refresh on the way to a timing set. -/
def State.changeSet (s : State) (ch v : Nat) : State :=
  (((s.wakeChannel ch).sre ch).setFld (rDdrChstat ch) 0 3 3).updDdr (fun d => { d with moving := tset 0 d.moving ch v })

/-- Table 8.4, steps 3 to 5: the channel runs at the other set's rate, its ranks leave self-refresh with the matching set
point, and it serves again. -/
def State.endChange (s : State) (ch : Nat) : State :=
  let v := tget 0 s.ddr.moving ch
  let r := s.fld (rDdrTset ch v) 8 8
  (((((s.setFld (rDdrChstat ch) 3 1 v).setFld (rDdrChstat ch) 8 8 r).srx ch).issue ch [.mrw]).chBack ch).updDdr
    (fun d => { d with moving := tset 0 d.moving ch 0 })

/-- Can a change of timing set begin: the channel serves, or is in self-refresh? -/
def State.mayChange (s : State) (ch : Nat) : Bool := s.chServes ch || s.chState ch == 4

/-- FREQUENCY_CHANGE: the change that a write of DDR_TSEL asked for begins; a change under way ends. -/
def execFrequencyChange (ch : Fin 8) (s : State) : Host.Outcome State Fault Refusal :=
  if s.chState ch = 3 then .next (s.quiet.endChange ch)
  else if ¬ s.ddr.change.contains (ch : Nat) ∨ ¬ s.mayChange ch then .next s
  else
    let s := s.quiet.updDdr (fun d => { d with change := d.change.filter (fun c => c != (ch : Nat)) })
    .next (s.changeSet ch (s.fld (rDdrTsel ch) 0 1))

/-- Does a write wait in a channel's write queue? -/
def State.wqHolds (s : State) (ch : Nat) : Bool := s.noc.wq.any (fun e => (s.ddrDecode e.addr).ch == ch)

/-- Has a channel had no request for `idle` µs, with none waiting? -/
def State.chIdle (s : State) (ch idle : Nat) : Bool :=
  (List.range 256).all (fun i => decide ((s.bank (ch * 256 + i)).last + dtUs idle ≤ s.dt.toNat)) &&
    !s.noc.queue.any (fun p => p.dst == iodPoint ch) && !s.wqHolds ch

/-- SELF_REFRESH_ENTRY: a channel without a request for SRIDLE µs, with no copy and nothing to zero. -/
def execSelfRefreshEntry (ch : Fin 8) (s : State) : Host.Outcome State Fault Refusal :=
  let idle := s.fld rPwrLpctl 32 16
  if s.chState ch ≠ 2 ∨ idle = 0 ∨ s.rankBusy ch ∨ ¬ s.chIdle ch idle ∨ s.fld rPwrReady 2 1 = 0 then .next s
  else .next ((s.quiet.sre ch).setFld (rDdrChstat ch) 0 3 4)

/-- SELF_REFRESH_EXIT. -/
def execSelfRefreshExit (ch : Fin 8) (s : State) : Host.Outcome State Fault Refusal := .next (s.quiet.wakeChannel ch)

/-- LOW_TIMING_SET_ENTRY: with DDRLP set, a lightly used channel moves to TSET1. -/
def execLowTimingSetEntry (ch : Fin 8) (s : State) : Host.Outcome State Fault Refusal :=
  if s.fld rPwrLpctl 48 1 = 0 ∨ ¬ s.chServes ch ∨ s.chSet ch = 1 then .next s
  else .next ((s.quiet.updDdr (fun d => { d with low := d.low ++ [(ch : Nat)] })).changeSet ch 1)

/-- LOW_TIMING_SET_EXIT: the channel returns to TSET0, unless R416 holds it in TSET1. -/
def execLowTimingSetExit (ch : Fin 8) (s : State) : Host.Outcome State Fault Refusal :=
  if ¬ s.ddr.low.contains (ch : Nat) ∨ ¬ s.chServes ch then .next s
  else
    let s := s.quiet.updDdr (fun d => { d with low := d.low.filter (fun c => c != (ch : Nat)) })
    .next (if s.ddr.heat.contains (ch : Nat) then s else s.changeSet ch 0)

end Sys2Proof.Machine
end

