-- ==== Sys2Proof/Machine/NocServe.lean ====
section
/-! DEFINITION. Ejection of packets, the answers of targets, and the fabric's NoC ports (R213 to R216, R313, R314,
R323, R324, R340 to R343). -/

namespace Sys2Proof.Machine

/-! ### Responses -/

/-- A target answers a request: the response sets out and the entry's credit comes back with it (R313). -/
def State.answer (s : State) (p : NocPkt) (ty status : Nat) (poison : Bool) (data : Option (List Byte)) : State :=
  (s.respond p ty status poison data).creditBack p.dst

/-- The TYPE of the answer to a request: data for a read, an acknowledgement else. -/
def NocPkt.answerType (p : NocPkt) : Nat := if p.ty = 0 then 2 else 3

/-- The region whose window an address lies in. -/
def regionOf (a : Nat) : Nat := (a - fabBase 0) / 0x100000000

/-- The answer of a fenced region's port (R323). -/
def State.nack (s : State) (p : NocPkt) : State :=
  (s.answer p 4 stRegionFenced (p.ty == 0) none).updReg rNocStat (fun w => bsat w 32 32 1)

/-! ### The DDR5 write queue (R214, R215) -/

/-- The byte mask that a request covers of a line. -/
def maskOf (a n line : Nat) : Nat :=
  ((List.range 64).map (fun i => if a ≤ line + i ∧ line + i < a + n then 2 ^ i else 0)).sum

/-- One entry per line; a later write merges into it. -/
def mergeEntry (e : WEntry) : List WEntry → List WEntry
  | [] => [e]
  | x :: t => if x.addr = e.addr then { x with mask := x.mask ||| e.mask } :: t else x :: mergeEntry e t

/-- The channel and subchannel of a device address, by the tier's mapping. -/
def State.chanOf (s : State) (a : Nat) : Nat := (s.ddrDecode a).ch
def subOf (a : Nat) : Nat := a / 64 % 2

/-- WQLO and WQHI of a channel. -/
def State.wqLo (s : State) (ch : Nat) : Nat := s.fld (rDdrSched ch) 40 6
def State.wqHi (s : State) (ch : Nat) : Nat :=
  let h := s.fld (rDdrSched ch) 32 6
  if s.wqLo ch < h then h else s.wqLo ch + 1

def State.wqLen (s : State) (ch : Nat) : Nat := (s.noc.wq.filter (fun e => s.chanOf e.addr == ch)).length

/-- Notes whether the channel gives writes priority. -/
def State.wqMark (s : State) (ch : Nat) : State :=
  let others := s.noc.draining.filter (fun c => c != ch)
  if s.wqHi ch ≤ s.wqLen ch then s.updNoc (fun n => { n with draining := others ++ [ch] })
  else if s.wqLen ch ≤ s.wqLo ch then s.updNoc (fun n => { n with draining := others })
  else s

/-- The write queue of a channel takes a write. -/
def State.wqTake (s : State) (ch : Nat) (p : NocPkt) : State :=
  let add (q : List WEntry) (a : Nat) : List WEntry :=
    let e : WEntry := { addr := a, mask := maskOf p.addr p.len a, src := p.src, stamp := s.dt.toNat }
    mergeEntry e q
  (s.updNoc (fun n => { n with wq := (linesOf p.addr p.len).foldl add n.wq })).wqMark ch

/-- Has a channel no room for the lines of a write? A peer-class write waits for no request (R312). -/
def State.wqFull (s : State) (ch : Nat) (p : NocPkt) : Bool :=
  p.cls != 2 && decide (64 < s.wqLen ch + ((linesOf p.addr p.len).filter
    (fun a => !s.noc.wq.any (fun e => e.addr == a))).length)

/-- Would a read exceed the 64 entries of a subchannel's read queue, or the 16 that one bank may hold of it (R213)? -/
def State.readFull (s : State) (ch : Nat) (p : NocPkt) : Bool :=
  let add := (linesOf p.addr p.len).map s.ddrLine
  let all := s.readLines ch ++ add
  [0, 1].any (fun u => add.any (fun l => l.sub == u) && decide (64 < (all.filter (fun l => l.sub == u)).length)) ||
    add.any (fun l => decide (16 < (all.filter (fun m => m.bankNo == l.bankNo)).length))

/-! ### What a request does at its target -/

/-- Writes bytes at consecutive device addresses. -/
def State.putDev (s : State) (a : Nat) (bs : List Byte) (poison : Bool) : State :=
  s.wrAll (bs.zipIdx.map (fun x => (Place.dev (a + x.2), x.1, poison)))

/-- The memory effect of a write that carries its data. -/
def State.pktWrite (s : State) (p : NocPkt) : State :=
  match p.data with
  | none => s
  | some bs => s.putDev p.addr bs p.poison

/-- Signal source number of a fabric port. -/
def portSrc (p : Nat) : Nat := 2 ^ 17 + p

/-- A target serves a request: the data of a read, the write, or the gate signal of a fabric port, and the answer.
Requests of other masters carry no data here: their effect is that of the command they serve. -/
def State.serve (s : State) (p : NocPkt) (bad : Bool) : State :=
  match p.ty, p.data with
  | 0, some _ =>
    let rs := (List.range p.len).map (fun i => s.rdPlace (.dev (p.addr + i)))
    s.answer p 2 0 (bad || rs.any Prod.snd) (some (rs.map Prod.fst))
  | 1, some _ => (s.pktWrite p).answer p 3 0 false none
  | 5, some bs =>
    let g : Sig := { gate := p.addr % 256, value := leNat bs, ctx := p.ctx, gen := p.cgen, src := portSrc (p.src - 0x40) }
    (s.sendSig (p.addr / 256) g).answer p 3 0 false none
  | _, _ => s.answer p p.answerType 0 bad none

/-! ### GATE_SIGNAL_ARRIVAL (R141, R142, R146) -/

/-- A fabric port freezes under a status (R258, R342). -/
def State.freezePort (s : State) (p st : Nat) : State :=
  let w := s.reg (rFabRstat (p / 2))
  ((s.setFld (rFabPort p) 32 1 1).setFld (rFabPort p) 48 16 st).frozenEvent (bf w 31 3) 3 p st (some (bf w 34 10))

/-- The source of a signal that its context may not send freezes (R141, R146): the entry of a Coroc delivery, unless it is
HP0's host entry, the port of a fabric region, and else the context. -/
def State.freezeSource (s : State) (g : Sig) : State :=
  if 2 ^ 16 ≤ g.src ∧ g.src < 2 ^ 16 + 16392 then
    if g.src = entSrc (hostEnt 0) then s else s.freezeEnt (g.src - 2 ^ 16) stGateNotOwned
  else if portSrc 0 ≤ g.src ∧ g.src < portSrc 96 then s.freezePort (g.src - portSrc 0) stGateNotOwned
  else s.freezeCtx g.ctx stGateNotOwned

/-- GATE_SIGNAL_ARRIVAL: signal i of those on their way to engine e reaches its gate. A stale tag drops it; where its
context does not own the gate, its source is frozen. -/
def execGateSignalArrival (e : Fin 64) (i : Nat) (s : State) : Host.Outcome State Fault Refusal :=
  let sigs := (s.eng e).sigs
  if sigReady sigs i then
    match sigs[i]? with
    | none => .next s
    | some g =>
      let s := s.updEng e (fun x => { x with sigs := x.sigs.eraseIdx i })
      let cx := s.ctx g.ctx
      if cx.gen ≠ g.gen ∨ ¬ cx.live then .next s
      else if s.ownsGate e g.gate g.ctx then .next (s.addGate e g.gate g.ctx g.value)
      else .next (s.freezeSource g)
  else .next s

/-! ### PACKET_EJECT (R314, R322 to R324) -/

/-- May packet i leave the network: no packet of its class, source and destination was injected before it? -/
def ejectable (net : List NocPkt) (i : Nat) : Bool :=
  match net[i]? with
  | none => false
  | some p => !(net.take i).any (fun q => q.cls == p.cls && q.src == p.src && q.dst == p.dst && q.org == p.org)

/-- Takes packet i out of the network, where the probes on its way see it. -/
def State.takePkt (s : State) (i : Nat) (p : NocPkt) : State :=
  (s.updNoc (fun n => { n with net := n.net.eraseIdx i })).probeRest p

/-- The DDR5 channel of a point, if it is a controller's. -/
def channelAt (pt : Nat) : Option Nat := (List.range 8).find? (fun c => iodPoint c == pt)

/-- Does a packet have to wait in the network: at a sleeping island, or before a full queue? -/
def State.ejectWaits (s : State) (p : NocPkt) : Bool :=
  s.meetsSleep p ||
    (match channelAt p.dst with
      | none => false
      | some ch => if p.ty = 1 then s.wqFull ch p else p.ty == 0 && s.readFull ch p)

/-- A request reaches its target. -/
def State.ejectRequest (s : State) (p : NocPkt) : State :=
  if isFabric p.addr ∧ p.ty ≠ 5 then
    if s.fenced p.addr then s.nack p
    else
      let q : NocPkt := { p with stamp := s.dt.toNat }
      { s with fab := { s.fab with asked := s.fab.asked ++ [q] } }
  else
    match channelAt p.dst with
    | some ch =>
      if p.ty = 1 then (s.wqTake ch p).serve p false
      else s.updNoc (fun n => { n with queue := n.queue ++ [{ p with stamp := s.dt.toNat }] })
    | none => s.updNoc (fun n => { n with queue := n.queue ++ [{ p with stamp := s.dt.toNat }] })

/-- Is a response's tag stale (R324)? -/
def State.staleResp (s : State) (p : NocPkt) : Bool := p.dgen != s.dgenOf p.src || p.cgen != (s.ctx p.ctx).gen

/-- A response reaches its master; a frozen one's is kept. A credit whose source is stale goes back. -/
def State.ejectResponse (s : State) (p : NocPkt) : State :=
  if s.staleResp p then
    let s := s.updReg rNocStat (fun w => bsat w 0 32 1)
    if p.ty = 8 then s.creditBack p.org else s
  else if p.ty = 8 then s.updNoc (fun n => { n with creds := n.creds ++ [(p.org, p.src)] })
  else if s.sourceFrozen p.src p.ctx then s.updNoc (fun n => { n with kept := n.kept ++ [p] })
  else s

/-- PACKET_EJECT: packet i reaches its destination port. -/
def execPacketEject (i : Nat) (s : State) : Host.Outcome State Fault Refusal :=
  match s.noc.net[i]? with
  | none => .next s
  | some p =>
    if ¬ ejectable s.noc.net i ∨ s.ejectWaits p then .next s
    else
      let s := s.takePkt i p
      if p.cls = 1 then .next (s.ejectResponse p)
      else if p.ty = 7 then .next (s.updNoc (fun n => { n with asks := n.asks ++ [p] }))
      else .next (s.ejectRequest p)

/-! ### MEMORY_TARGET_RESPONSE -/

/-- Is a request of a stamp older than AGECAP DRAM clocks? -/
def State.aged (s : State) (ch stamp : Nat) : Bool :=
  decide (max 1 (s.fld (rDdrSched ch) 0 11) < s.dramClocks ch (s.dt.toNat - stamp))

/-- Does a device address hit its bank's open row? -/
def State.rowHit (s : State) (a : Nat) : Bool := let l := s.ddrLine a; s.rowOpen l.ch l.bankNo l.row

/-- The order of R213: an aged one, else a row hit, else any, each time the oldest. -/
def pickNext {α : Type} (aged hit : α → Bool) (xs : List α) : Option α :=
  match xs.find? aged with
  | some x => some x
  | none => match xs.find? hit with
    | some x => some x
    | none => xs.head?

/-- The read that a subchannel serves next, of those that wait at its channel. -/
def State.nextRead (s : State) (ch sub : Nat) (qs : List NocPkt) : Option NocPkt :=
  pickNext (fun p => s.aged ch p.stamp) (fun p => s.rowHit p.addr)
    (qs.filter (fun p => (linesOf p.addr p.len).any (fun a => subOf a == sub)))

/-- The write that a subchannel issues next. -/
def State.nextWrite (s : State) (ch sub : Nat) : Option WEntry :=
  pickNext (fun e => s.aged ch e.stamp) (fun e => s.rowHit e.addr)
    (s.noc.wq.filter (fun e => s.chanOf e.addr == ch && subOf e.addr == sub))

/-- The bytes of a line that the write queue holds; all of them where a read is answered from the queue (R215). -/
def State.wqMask (s : State) (a : Nat) : Nat :=
  match s.noc.wq.find? (fun e => e.addr == a) with | none => 0 | some e => e.mask
def State.fromQueue (s : State) (a : Nat) : Bool := s.wqMask a == 2 ^ 64 - 1

/-- A channel issues a write; of a partly covered line it reads and merges first, and a line that cannot be corrected is
written poisoned (R215). -/
def State.wqDrain (s : State) (ch : Nat) (e : WEntry) (n : Nat) : State :=
  let l := s.ddrLine e.addr
  let s := s.updNoc (fun x => { x with wq := x.wq.erase e })
  let s := if e.mask = 2 ^ 64 - 1 then s else ((s.ddrAccess l e.src false).ddrMeets l n e.mask).1
  (s.ddrAccess l e.src true).wqMark ch

/-- Error counts of a CXL port: errors that either end reports as corrected (1) or not corrected (R306). -/
def State.cxlCount (s : State) (k n : Nat) : State :=
  match n with
  | 0 => s
  | 1 => s.updReg (rCxlErr k) (fun w => bsat w 24 24 1)
  | _ => s.updReg (rCxlErr k) (fun w => bsat w 48 15 1)

/-- Takes a request out of its target's queue. -/
def State.dequeue (s : State) (p : NocPkt) : State := s.updNoc (fun n => { n with queue := n.queue.erase p })

/-- The flaws of line i of a read. -/
def flawsAt (flaws : List (Fin 9 × Fin 33)) (i : Nat) : Nat :=
  match flaws.find? (fun x => (x.1 : Nat) == i) with | none => 0 | some x => x.2

/-- A target reads the lines of a request one by one, with their flaws: is one lost? -/
def State.readLinesOf (s : State) (p : NocPkt) (flaws : List (Fin 9 × Fin 33)) (one : State → Nat → Nat → State × Bool) :
    State × Bool :=
  (linesOf p.addr p.len).zipIdx.foldl (fun x a =>
    let r := one x.1 a.1 (flawsAt flaws a.2)
    (r.1, x.2 || r.2)) (s, false)

/-- A line of a read at its channel: answered from the queue, or read from DRAM. -/
def State.ddrLineRead (s : State) (src a n : Nat) : State × Bool :=
  if s.fromQueue a then (s, false)
  else (s.ddrAccess (s.ddrLine a) src false).ddrMeets (s.ddrLine a) n (s.wqMask a)

/-- A channel serves a read. -/
def State.ddrRead (s : State) (p : NocPkt) (flaws : List (Fin 9 × Fin 33)) : State :=
  let r := (s.dequeue p).readLinesOf p flaws (fun s a n => s.ddrLineRead p.src a n)
  r.1.serve p r.2

/-- One event of a subchannel. While its channel changes its timing set, only reads that the write queue answers are
served (R224). -/
def State.ddrServe (s : State) (ch sub : Nat) (qs : List NocPkt) (flaws : List (Fin 9 × Fin 33)) : State :=
  if s.chState ch = 3 then
    match qs.find? (fun p => (linesOf p.addr p.len).all s.fromQueue) with
    | none => s
    | some p => s.ddrRead p flaws
  else if ¬ s.chServes ch then s
  else
    match s.nextWrite ch sub, s.nextRead ch sub qs with
    | some e, none => s.wqDrain ch e (flawsAt flaws 0)
    | some e, some p => if s.noc.draining.contains ch then s.wqDrain ch e (flawsAt flaws 0) else s.ddrRead p flaws
    | none, some p => s.ddrRead p flaws
    | none, none => s

/-- MEMORY_TARGET_RESPONSE: the target at a point serves its next request, a DDR5 channel by one subchannel. The errors
are of symbols in DDR5, of bits elsewhere, and 1 (corrected) or more where a CXL port reports them. A channel in self-refresh
wakes for it. -/
def execMemoryTargetResponse (dst : Fin 2048) (ecc : TargetTurn) (s : State) : Host.Outcome State Fault Refusal :=
  let qs := s.noc.queue.filter (fun p => p.dst == (dst : Nat))
  match channelAt dst with
  | some ch =>
    let s := if qs = [] ∧ s.wqLen ch = 0 then s else s.quiet.wakeChannel ch
    .next (s.ddrServe ch ecc.sub qs ecc.flaws)
  | none =>
    match qs.head? with
    | none => .next s
    | some p =>
      let s := s.dequeue p
      match cxlPortOf p.addr with
      | some k =>
        let n := ecc.flaws.foldl (fun m x => max m (x.2 : Nat)) 0
        let s := s.cxlCount k n
        let s := if 2 ≤ n then s.markLines p.addr 1 else s
        .next (s.serve p (decide (2 ≤ n)))
      | none =>
        if p.ty = 0 then
          let r := s.readLinesOf p ecc.flaws State.lineMeets
          .next (r.1.serve p r.2)
        else .next (s.serve p false)

/-! ### Fabric ports (R340 to R343) -/

/-- Requests of fabric port p that have no response yet; those from before a reset of its region count no more (Table
13.5). -/
def State.portOpen (s : State) (p : Nat) : Nat :=
  ((s.noc.held ++ s.noc.net ++ s.noc.queue ++ s.fab.asked).filter
    (fun k => k.src == 0x40 + p && k.ty != 7 && k.ty != 8 && k.dgen == s.dgenOf k.src)).length

/-- The first and last byte that a request touches; a gate signal touches none. -/
def reqSpan : FabReq → Option (Nat × Nat)
  | .read a n => some (a, n)
  | .write a d _ => some (a, d.length)
  | .gate _ _ _ => none

/-- What the port finds wrong with a request (R342). -/
def State.portCheck (s : State) (part ctx : Nat) (r : FabReq) : Option Nat :=
  match r with
  | .gate e g _ => if s.ownsGate (s.hostOf e ctx) g ctx then none else some stGateNotOwned
  | r =>
    match reqSpan r with
    | none => none
    | some (a, n) =>
      (List.range (max 1 n)).findSome? (fun i =>
        match s.region (a + i) with
        | .hole => some stMemHole
        | .regs => some stPermFault
        | _ => if s.granted part (a + i) then none else some stPermFault)

/-- A request as a packet of port p. -/
def State.portPkt (s : State) (p : Nat) (r : FabReq) (tid : Nat) : Option NocPkt :=
  let w := s.reg (rFabRstat (p / 2))
  let k : NocPkt :=
    { src := 0x40 + p, org := fabricPoint p, dgen := s.dgenOf (0x40 + p), ctx := bf w 34 10, cgen := bf w 44 12,
      tid := tid }
  match r with
  | .read a n => (s.targetPoint a).map (fun d =>
      { k with dst := d, addr := a, len := n, data := some [], kind := s.destKind a })
  | .write a bs po =>
    (s.targetPoint a).map (fun d =>
      { k with ty := 1, dst := d, addr := a, len := bs.length, poison := po, data := some bs, kind := s.destKind a })
  | .gate e g v =>
    let n := s.hostOf e (bf w 34 10)
    some { k with ty := 5, dst := enginePoint n, addr := n * 256 + g, len := 4, data := some (leBytes 4 v.toNat) }

/-- Is a request one that a packet can carry: 1 to 512 bytes within one 4 KiB page? -/
def reqFits (r : FabReq) : Bool :=
  match reqSpan r with
  | none => true
  | some (a, n) => decide (0 < n) && decide (n ≤ 512) && decide (a % 4096 + n ≤ 4096)

/-- FABRIC_PORT_REQUEST: the port checks a request of its logic; a failed check freezes it. -/
def execFabricPortRequest (p : Fin 96) (r : FabReq) (tid : Fin 256) (s : State) : Host.Outcome State Fault Refusal :=
  let f := (p : Nat) / 2
  let w := s.reg (rFabRstat f)
  if bf w 0 3 ≠ 4 ∨ s.fld (rFabPort p) 32 1 = 1 ∨ 64 ≤ s.portOpen p ∨ ¬ reqFits r then .next s
  else
    match s.portCheck (bf w 31 3) (bf w 34 10) r with
    | some st =>
      .next (s.freezePort p st)
    | none =>
      match s.portPkt p r tid with
      | none => .next s
      | some k => .next ((s.holdReq k).tryInject k)

/-- Takes request i from those that a region's logic has not answered. -/
def State.takeAsked (s : State) (i : Nat) : State := { s with fab := { s.fab with asked := s.fab.asked.eraseIdx i } }

/-- FABRIC_LOGIC_RESPONSE: a region's logic answers request i. -/
def execFabricLogicResponse (i : Nat) (data : List Byte) (poison : Bool) (s : State) : Host.Outcome State Fault Refusal :=
  match s.fab.asked[i]? with
  | none => .next s
  | some p =>
    let bs := if p.ty = 0 then some (data.take p.len) else none
    .next ((s.takeAsked i).answer p p.answerType 0 (poison && p.ty == 0) bs)

/-- 8,192 cycles of a region's clock 0 in DT units; none while the clock is off. -/
def State.portLimit (s : State) (f : Nat) : Option Nat :=
  let freq := s.fld (rFabClk f) 0 16
  if freq = 0 then none else some (8192 * 160000 * s.fld (rFabRstat f) 12 12 / (256 * freq))

/-- FABRIC_PORT_TIMEOUT: request i is not answered in time; the port answers and stays in service. -/
def execFabricPortTimeout (i : Nat) (s : State) : Host.Outcome State Fault Refusal :=
  match s.fab.asked[i]? with
  | none => .next s
  | some p =>
    match s.portLimit (regionOf p.addr) with
    | none => .next s
    | some n =>
      if s.dt.toNat < p.stamp + n ∨ 48 ≤ regionOf p.addr then .next s
      else .next ((s.takeAsked i).answer p 4 stRegionFenced (p.ty == 0) none)

end Sys2Proof.Machine
end

