-- ==== Sys2Proof/Machine/Fabric.lean ====
section
/-! DEFINITION. Release, loading and blanking of fabric regions (R347 to R370). -/

namespace Sys2Proof.Machine

def State.updFab (s : State) (f : Fab → Fab) : State := { s with fab := f s.fab }

/-! ### Frames (R354, R355) -/

/-- The region that a frame address names, with both halves of FS as 48; none where it names no frame. -/
def frameRegion (fa : Nat) : Option Nat :=
  let r := fa % 64
  let kind := fa / 64 % 2
  let idx := fa / 256 % 4096
  let top := if kind = 0 then 2400 else if r < 48 then 4000 else 2304
  if 2 ^ 20 ≤ fa ∨ fa / 128 % 2 = 1 ∨ 50 ≤ r ∨ top ≤ idx then none else some (min r 48)

/-- Does a frame address lie inside a mask of regions? -/
def frameIn (mask : List Nat) (fa : Nat) : Bool :=
  match frameRegion fa with | none => false | some r => mask.contains r

/-- A frame's bits. -/
def State.frame (s : State) (fa : Nat) : Nat := tget 0 s.fab.frames fa

/-- Writes a frame: its check bits are computed anew, so no upset is left. -/
def State.putFrame (s : State) (fa v : Nat) : State :=
  s.updFab (fun x => { x with frames := tset 0 x.frames fa v, upsets := tset [] x.upsets fa [] })

/-- Is a frame of region f? -/
def ofRegion (f fa : Nat) : Bool := min (fa % 64) 48 == f

/-- Every frame of a region is written to zero. -/
def State.zeroFrames (s : State) (f : Nat) : State :=
  s.updFab (fun x =>
    { x with frames := x.frames.filter (fun e => !ofRegion f e.1), upsets := x.upsets.filter (fun e => !ofRegion f e.1) })

/-! ### Release (R348, R349) -/

/-- The regions that loads fill: HOLD outside them is that of an uncorrectable frame (R373). -/
def State.inGroup (s : State) (f : Nat) : Option (List Nat) := s.fab.groups.find? (fun g => g.contains f)

/-- The end of a load or blank: its command completes; for the boot load, CFG_STAT.BOOT and the readiness bit
are set (R370). -/
def State.endLoad (s : State) (l : FLoad) : State :=
  let s := s.updFab (fun x => { x with loads := x.loads.erase l })
  let s := if l.boot then (s.setFld rCfgStat 10 2 (if l.status = 0 then 1 else 3)).setFld rPwrReady readyFabric 1 1 else s
  s.endCmd l.cmd l.status

/-! ### Ports of the dies (R365) -/

/-- Has a load the write ports of its dies: none before it needs one of them? -/
def State.hasPorts (s : State) (l : FLoad) : Bool :=
  (s.fab.loads.takeWhile (fun x => x != l)).all (fun x => !x.dies.any l.dies.contains)

def State.setLoad (s : State) (l l' : FLoad) : State :=
  s.updFab (fun x => { x with loads := x.loads.map (fun y => if y = l then l' else y) })

/-! ### Failures (R368) -/

/-- CFG_LDLOG and CFG_LDDT take a failure. -/
def State.loadLog (s : State) (l : FLoad) (st fa : Nat) : State :=
  (s.setReg rCfgLdlog (logWord (s.reg rCfgLdlog) (fv 48 16 st + fv 16 32 fa + fv 2 1 (if l.full then 1 else 0)))).setReg
    rCfgLddt s.dt

/-- A load fails with a status: what it holds is blanked, and then it ends. -/
def State.failLoad (s : State) (l : FLoad) (st : Nat) : State :=
  let todo := l.regions.filter (fun f => s.regSt f != 0)
  let l' : FLoad := { l with st := .failing, todo := todo, status := st }
  let s := (s.toBlank todo).setLoad l l'
  if todo.isEmpty then s.endLoad l' else s

/-- A load fails by a fault that freezes its context, and its command completes at once (R245). -/
def State.faultLoad (s : State) (l : FLoad) (st fa : Nat) : State :=
  let s := s.updCmd l.cmd (fun c => { c.meet st with froze := true })
  let s := s.freezeArg l.ctx st fa
  match s.fab.loads.find? (fun x => x == l) with
  | none => s
  | some _ => s.failLoad l st

/-! ### Reading a container (R357, R358, R365) -/

/-- Bytes of flash. -/
def State.flashBytes (s : State) (a n : Nat) : List Byte := (List.range n).map (fun i => tget 0 s.fab.flash (a + i))

/-- Bytes of a load's container: from flash, or from memory through the acting context; a read fault is its
status. -/
def State.loadBytes (s : State) (l : FLoad) (o n : Nat) : Except Nat (List Byte × Bool) :=
  if l.flash then .ok (s.flashBytes (l.base + o) n, false)
  else match s.gather 0 0 l.ctx false (spanFrom (l.base + o) n) with
    | .bad _ st => .error st
    | .ok bs po => .ok (bs, po)

/-- Poisoned data in a container marks its command (R134). -/
def State.loadPoison (s : State) (l : FLoad) (po : Bool) : State :=
  if po then s.updCmd l.cmd (fun c => { c with poison := true }) else s

/-- A little-endian field of bytes. -/
def leAt (bs : List Byte) (o n : Nat) : Nat := leNat ((bs.drop o).take n)

def zeroAt (bs : List Byte) (o n : Nat) : Bool := ((bs.drop o).take n).all (fun b => b == 0)

/-- The fabric area's offset in flash. -/
def State.fabArea (s : State) : Nat := s.fld rCfgFlash 0 16 * 0x10000

/-- Directory entry d: offset, length, VALID and BOOT. -/
def State.dirEntry (s : State) (d : Nat) : Nat × Nat × Bool × Bool :=
  let bs := s.flashBytes (s.fabArea + 16 * d) 16
  (leAt bs 0 8, leAt bs 8 4, bitsOf (leAt bs 12 1) 0 1 == 1, bitsOf (leAt bs 12 1) 1 1 == 1)

/-! ### The header (R359 to R361) -/

def hdrFrames (h : List Byte) : Nat := leAt h 0x0C 4
def hdrMask (h : List Byte) : List Nat := (List.range 64).filter (fun f => bitsOf (leAt h 0x10 8) f 1 == 1)
def hdrPayload (h : List Byte) : Nat := leAt h 0x28 8

/-- Segments, and the bytes of segment n with its tag. -/
def segments (frames : Nat) : Nat := (frames + 63) / 64
def segBytes (frames n : Nat) : Nat := min 64 (frames - 64 * n) * 528 + 16

/-- The form that Table 14.9 asks of a header and its signature block. -/
def hdrOk (l : FLoad) (h : List Byte) : Bool :=
  let n := hdrFrames h
  leAt h 0 7 == 0x424146_31505253 && leAt h 7 1 == 1 && leAt h 8 4 == (if l.full then 0 else 1) &&
    hdrMask h == l.mask && hdrPayload h == segments n * 16 + n * 528 && l.bytes == 0x1000 + hdrPayload h + 16 &&
    zeroAt h 0x1A 6 && zeroAt h 0x80 384 && zeroAt h (0x200 + 3373) (3584 - 3373)

/-- The key that the fuses' policy allows a header to use (R361, R394). -/
def State.fabKey (s : State) (h : List Byte) : Option Nat :=
  let src := leAt h 0x18 1
  let f := s.sec.fuses
  let ef := if f.efValid then some f.efKey else none
  let bb := if s.fld rCfgKeystat 1 1 = 1 then some s.fab.bbKey else none
  if s.fld rSecStat 5 1 = 1 then none
  else
    match f.fabKey, src with
    | 0, 0 => ef
    | 1, 1 => bb
    | 2, 0 => ef
    | 2, 1 => bb
    | _, _ => none

/-- Fabric signer pair k of the provisioning record; none where it is unset. -/
def State.signer (s : State) (k : Nat) : Option (List Byte) :=
  match s.sec.record with
  | none => none
  | some r =>
    let p := (r.drop (0x2000 + 0x2000 + 1984 * k)).take 1984
    if 8 ≤ k ∨ p.all (fun b => b == 0) then none else some p

/-- Do both signatures of a header verify? -/
def State.hdrSigned (s : State) (h : List Byte) : Bool :=
  match s.signer (leAt h 0x19 1) with
  | none => false
  | some p => Config.sigOk p (h.take 512) ((h.drop 512).take 3373)

/-- Steps 2 and 3 of R367: header and signatures are checked, and the regions become LOADING. -/
def State.loadHeader (s : State) (l : FLoad) : State :=
  match s.loadBytes l 0 0x1000 with
  | .error st => s.faultLoad l st 0
  | .ok (h, po) =>
    let s := s.loadPoison l po
    let l' : FLoad := if l.boot then { l with mask := hdrMask h } else l
    let s := s.setLoad l l'
    if ¬ hdrOk l' h ∨ (l'.full ∧ ¬ l'.mask.contains 48) then (s.loadLog l' stCmdFieldInvalid 0).failLoad l' stCmdFieldInvalid
    else
      match s.fabKey h with
      | none => (s.loadLog l' stImageSignature 0).failLoad l' stImageSignature
      | some k =>
        if ¬ s.hdrSigned h then (s.loadLog l' stImageSignature 0).failLoad l' stImageSignature
        else
          let s := l'.mask.foldl (fun s f =>
            ((s.setRegSt f 1 0).setFld (rFabRstat f) 34 10 l'.ctx).setFld (rFabRstat f) 44 12 l'.gen) s
          s.setLoad l' { l' with st := .segs, seen := h, key := k }

/-! ### Starting (R365 to R367, R369) -/

/-- A load or blank that has its ports begins: what it finds in its regions is blanked. -/
def State.beginLoad (s : State) (l : FLoad) : State :=
  let todo := if l.blank ∨ l.full then l.regions else l.mask.filter (fun f => s.regSt f != 0)
  let s := todo.foldl (fun s f => s.setRegSt f 5 0) s
  let s := s.updFab (fun x => { x with groups := x.groups.filter (fun g => !g.any todo.contains) })
  let l' : FLoad := { l with st := .blanking, todo := todo }
  let s := s.setLoad l l'
  if todo.isEmpty then s.loadHeader l' else s

/-- Every load that waits and has its ports begins. -/
def State.beginLoads (s : State) : State :=
  (s.fab.loads.filter (fun l => l.st == .ports)).foldl (fun s l => if s.hasPorts l then s.beginLoad l else s) s

/-- Adds a load or blank. -/
def State.addLoad (s : State) (l : FLoad) : State :=
  (s.updFab (fun x => { x with loads := x.loads ++ [l] })).beginLoads

/-- A group that has become ACTIVE ends its load, or the reset of its region (R425). -/
def State.groupDone (s : State) (g : List Nat) : State :=
  let s := s.updFab (fun x => { x with groups := x.groups.erase g })
  let done := s.rst.resets.filter (fun r => r.1 == 4 && g.contains r.2.1)
  let s := { s with rst := { s.rst with resets := s.rst.resets.filter (fun r => !done.contains r) } }
  let s := done.foldl (fun s r => s.finishCmd r.2.2) s
  match s.fab.loads.find? (fun l => l.st == .releasing && l.mask == g) with
  | none => s
  | some l => (s.endLoad l).beginLoads

/-- Has every clock domain of region f whose clock runs left reset (R348)? -/
def State.domainsOut (s : State) (f : Nat) : Bool :=
  (halvesOf f).all (fun h => (List.finRange 4).all (fun c =>
    tget 0 (tget {} s.fab.logic h).left c == 2 || dividerOf (s.clockFrames h) c == 0))

/-- May region f take what follows the stage of a group: a stage comes 8 configuration clocks, 320 units of DT, after the one
before, and ACTIVE once the clock domains have left reset (R348)? FAB_RDT holds the DT of stage 1. -/
def State.releaseDue (s : State) (f stage : Nat) (g : List Nat) : Bool :=
  if stage = 0 then true
  else if stage = 3 then g.all s.domainsOut
  else decide ((s.reg (rFabRdt f)).toNat + 320 * stage ≤ s.dt.toNat)

/-- REGION_RELEASE: the group of region f takes its next stage, or becomes ACTIVE. -/
def execRegionRelease (f : Fin 49) (s : State) : Host.Outcome State Fault Refusal :=
  match s.inGroup f with
  | none => .next s
  | some g =>
    let stage := s.fld (rFabRstat f) 4 2
    if ¬ s.releaseDue f stage g then .next s
    else if stage = 3 then .next ((g.foldl (fun s r => s.setRegSt r 4 3) s).groupDone g)
    else .next (g.foldl (fun s r => s.setRegSt r 3 (stage + 1)) s)

/-- A region's ports come back into service, unfrozen (R366 step 3). -/
def State.freePorts (s : State) (f : Nat) : State :=
  if 48 ≤ f then s
  else [2 * f, 2 * f + 1].foldl (fun s p =>
    ((s.setFld (rFabPort p) 32 1 0).setFld (rFabPort p) 48 16 0).returnCredits (0x40 + p)) s

/-- A region has been cleared: it is EMPTY, and keeps its grant. -/
def State.cleared (s : State) (f : Nat) : State :=
  let s := (s.zeroFrames f).setRegSt f 0 0
  let s := ((s.setFld (rFabRstat f) 34 10 0).setFld (rFabRstat f) 44 12 0).setReg (rFabClk f) 0
  (s.updFab (fun x => { x with digests := tset [] x.digests f [],
                               logic := (halvesOf f).foldl (fun t h => tdel h t) x.logic })).freePorts f

/-- REGION_BLANKING: the blanking of region f ends. -/
def execRegionBlanking (f : Fin 49) (s : State) : Host.Outcome State Fault Refusal :=
  match s.fab.loads.find? (fun l => l.todo.contains (f : Nat) && (l.st == .blanking || l.st == .failing)) with
  | none => .next s.beginLoads
  | some l =>
    let l' : FLoad := { l with todo := l.todo.erase (f : Nat) }
    let s := (s.cleared f).setLoad l l'
    if ¬ l'.todo.isEmpty then .next s
    else if l'.blank ∨ l'.st = .failing then .next ((s.endLoad l').beginLoads).settleResets
    else .next (s.loadHeader l').beginLoads

/-! ### Segments (R361, R367 to R369) -/

/-- One record: its frame is written, or what Table 14.9 finds. A full load leaves its CRC-32C unchecked. -/
def State.loadRecord (s : State) (l : FLoad) (r : List Byte) : Except (Nat × Nat) State :=
  let fa := leAt r 0 4
  if ¬ l.full ∧ crc32c (r.take 0x208) ≠ leAt r 0x208 4 then .error (stFrameCrc, fa)
  else if ¬ frameIn l.mask fa then .error (stFrameOutOfRegion, fa)
  else .ok (s.putFrame fa (leNat ((r.drop 8).take 512)))

/-- Records in order, up to the first that fails. -/
def State.loadRecords (s : State) (l : FLoad) (bs : List Byte) : Nat → State × Option (Nat × Nat)
  | 0 => (s, none)
  | n + 1 =>
    match s.loadRecord l (bs.take 528) with
    | .error e => (s, some e)
    | .ok t => t.loadRecords l (bs.drop 528) n

/-- A region whose frames are complete is configured: its clocks are set and run, its flip-flops hold INIT and its block RAMs
their initial contents (R330, R339, R344). -/
def State.configure (s : State) (f : Nat) : State :=
  (s.setReg (rFabClk f) (fabClkWord (s.clockFrames f))).updFab (fun x =>
    { x with logic := (halvesOf f).foldl (fun t h => tput h { rams := s.ramsInit h } t) x.logic })

/-- Steps 5 and 6 of R367: DIGEST and the trailer, and then the regions leave for their release. -/
def State.loadTail (s : State) (l : FLoad) : State :=
  match s.loadBytes l (0x1000 + hdrPayload l.seen) 16 with
  | .error st => s.faultLoad l st 0
  | .ok (t, po) =>
    let s := s.loadPoison l po
    let dig := (l.seen.drop 0x30).take 48
    if Config.sha384 (l.seen.drop 0x1000) ≠ dig then (s.loadLog l stImageSignature 0).failLoad l stImageSignature
    else if crc32c l.seen ≠ leAt t 0 4 then (s.loadLog l stFrameCrc 0).failLoad l stFrameCrc
    else
      let s := l.mask.foldl (fun s f => (s.setRegSt f 2 0).configure f) s
      let s := s.updFab (fun x =>
        { x with groups := x.groups ++ [l.mask],
                 digests := l.mask.foldl (fun d f => tset [] d f dig) (if l.full then tset [] x.digests 49 dig else x.digests) })
      s.setLoad l { l with st := .releasing, seen := [] }

/-- Segment l.seg of a load. -/
def State.loadSegment (s : State) (l : FLoad) : State :=
  let n := hdrFrames l.seen
  if segments n ≤ l.seg then s.loadTail l
  else
    match s.loadBytes l l.seen.length (segBytes n l.seg) with
    | .error st => s.faultLoad l st 0
    | .ok (bs, po) =>
      let s := s.loadPoison l po
      let non := leAt l.seen 0x20 8 * 2 ^ 32 + l.seg
      match Config.gcmOpen l.key non (l.seen.take 512) bs with
      | none => (s.loadLog l stImageSignature 0).failLoad l stImageSignature
      | some pt =>
        let r := s.loadRecords l pt (min 64 (n - 64 * l.seg))
        match r.2 with
        | some (st, fa) =>
          let t := r.1.loadLog l st fa
          if st = stFrameOutOfRegion then t.faultLoad l st fa else t.failLoad l st
        | none =>
          let l' : FLoad := { l with seen := l.seen ++ bs, seg := l.seg + 1 }
          let t := r.1.setLoad l l'
          if segments n ≤ l'.seg then t.loadTail l' else t

/-- LOAD_SEGMENT: the load on a die's write port takes its next segment. -/
def execLoadSegment (die : Fin 2) (s : State) : Host.Outcome State Fault Refusal :=
  match s.fab.loads.find? (fun l => l.st == .segs && l.dies.contains (die : Nat)) with
  | none => .next s.beginLoads
  | some l => .next (s.loadSegment l).beginLoads

/-! ### FAB_LOAD and FAB_BLANK (R363, R364) -/

def maskRegions (w : W64) : List Nat := (List.range 49).filter (fun f => bf w f 1 == 1)

/-- Is a region in a state that a load or blank under way holds it in? A region in HOLD for an uncorrectable frame
is in none, and may be loaded or blanked (R373). -/
def State.regBusy (s : State) (f : Nat) : Bool :=
  let st := s.regSt f
  st == 1 || st == 3 || st == 5 || (st == 2 && (s.inGroup f).isSome)

/-- Region f's partition, where it is granted. -/
def State.regOwner (s : State) (f : Nat) : Option Nat :=
  if s.fld (rFabRstat f) 30 1 = 1 then some (s.fld (rFabRstat f) 31 3) else none

/-- The container of a FAB_LOAD: whether in flash, where, and its length; none where the operands name none. -/
def State.loadSource (s : State) (c : Cmd) : Option (Bool × Nat × Nat) :=
  if c.opf 0 1 1 = 1 then
    let d := s.dirEntry (c.opf 0 2 6)
    if d.2.2.1 then some (true, d.1, d.2.1) else none
  else if (c.op 1).toNat % 4096 ≠ 0 then none
  else
    let l : FLoad := { ctx := c.ctx, base := (c.op 1).toNat }
    match s.loadBytes l 0 512 with
    | .error _ => some (false, l.base, c.opf 2 0 32)
    | .ok (h, _) => if 0x1000 + hdrPayload h + 16 = c.opf 2 0 32 then some (false, l.base, c.opf 2 0 32) else none

def fabLoadCheck (s : State) (c : Cmd) : Nat :=
  let full := c.opf 0 0 1 == 1
  let m := maskRegions (c.op 3)
  if full ∧ c.ctx ≠ 0 then stNotManagement
  else if m = [] ∨ m.contains 48 ≠ full ∨ (s.loadSource c).isNone then stCmdFieldInvalid
  else if ¬ full ∧ m.any (fun f => s.regOwner f != some c.part) then stNotOwner
  else if full ∧ (List.range 49).any (fun f => match s.regOwner f with | none => false | some p => p != 0) then stInUse
  else if (if full then List.range 49 else m).any s.regBusy then stInUse
  else 0

def fabLoadStart (s : State) (c : Cmd) : State :=
  match s.loadSource c with
  | none => s.endCmd c.id stCmdFieldInvalid
  | some (fl, b, n) =>
    s.addLoad { cmd := c.id, ctx := c.ctx, gen := c.gen, part := c.part, full := c.opf 0 0 1 == 1, flash := fl, base := b,
                bytes := n, mask := maskRegions (c.op 3) }

def fabLoadRow : CmdRow :=
  { op := 0x3A, fields := [fm 0 8, fm 0 48, fm 0 32, fm 0 49], check := fabLoadCheck, start := fabLoadStart }

/-- FAB_LOAD. -/
def execFabLoad (q : Fin 16384) (s : State) : Host.Outcome State Fault Refusal := acceptCmd fabLoadRow q s

def fabBlankCheck (s : State) (c : Cmd) : Nat :=
  let m := maskRegions (c.op 0)
  if m.contains 48 ∧ c.ctx ≠ 0 then stNotManagement
  else if m = [] then stCmdFieldInvalid
  else if m.any (fun f => s.regOwner f != some c.part) then stNotOwner
  else if m.any s.regBusy then stInUse
  else 0

def fabBlankRow : CmdRow :=
  { op := 0x3B, fields := [fm 0 49], check := fabBlankCheck,
    start := fun s c =>
      s.addLoad { cmd := c.id, ctx := c.ctx, gen := c.gen, part := c.part, blank := true, mask := maskRegions (c.op 0) } }

/-- FAB_BLANK. -/
def execFabBlank (q : Fin 16384) (s : State) : Host.Outcome State Fault Refusal := acceptCmd fabBlankRow q s

/-- BOOT_FABRIC_LOAD (R370): C0 runs a full load of the lowest valid BOOT entry; without one, the load ends at
once. -/
def execBootFabricLoad (s : State) : Host.Outcome State Fault Refusal :=
  if s.fld rSecStat 0 2 ≠ 1 ∨ s.fld rCfgStat 10 2 ≠ 0 ∨ s.fab.loads.any FLoad.boot then .next s
  else
    match (List.range 64).find? (fun d => (s.dirEntry d).2.2.1 && (s.dirEntry d).2.2.2) with
    | none => .next ((s.setFld rCfgStat 10 2 2).setFld rPwrReady readyFabric 1 1)
    | some d =>
      let e := s.dirEntry d
      .next (s.addLoad { gen := (s.ctx 0).gen, boot := true, full := true, flash := true, base := e.1, bytes := e.2.1 })

end Sys2Proof.Machine
end

