-- ==== Sys2Proof/Machine/Browse.lean ====
section
/-! DEFINITION. Readback, the BBRAM key, and browse (R362, R371 to R375). -/

namespace Sys2Proof.Machine

/-! ### A frame and its upsets -/

/-- The bits of a frame that have flipped since it was written: 0 to 4,095 data, 4,096 to 4,109 check. -/
def State.flips (s : State) (fa : Nat) : List Nat := tget [] s.fab.upsets fa

/-- Flips bits of a frame; a bit that flips twice is as it was. -/
def toggle (l : List Nat) : List Nat → List Nat
  | [] => l
  | b :: bs => toggle (if l.contains b then l.erase b else l ++ [b]) bs

def State.flip (s : State) (fa : Nat) (bs : List Nat) : State :=
  s.updFab (fun x => { x with upsets := tupd [] x.upsets fa (fun l => toggle l bs) })

/-- Bits of a range that have flipped, as a number. -/
def flipMask (l : List Nat) (lo n : Nat) : Nat :=
  ((List.range n).map (fun i => if l.contains (lo + i) then 2 ^ i else 0)).sum

/-- A frame as it reads now, a block-RAM frame of a configured region as the block RAM stands (R371); and its stored check
bits. -/
def State.frameNow (s : State) (fa : Nat) : Nat :=
  match (if fa / 64 % 2 = 1 then s.ramFrame (fa % 64) (fa / 256 % 4096) else none) with
  | some v => v
  | none => s.frame fa ^^^ flipMask (s.flips fa) 0 4096
def State.checkNow (s : State) (fa : Nat) : Nat :=
  (Config.frameCheck (s.frame fa) % 2 ^ 14) ^^^ flipMask (s.flips fa) 4096 14

/-- The syndrome of a set of flipped bits. -/
def syndrome (l : List Nat) : Nat := if l = [] then 0 else Config.frameSynd l % 2 ^ 14

/-- What browse makes of a set of flipped bits (R373): nothing, a single bit, or a multi-bit error. One or two are
told apart for certain; of three or more the syndrome may name a wrong bit or miss. -/
inductive Upset where
  | clean
  | single (b : Nat)
  | multi
deriving DecidableEq, Repr

def judgeFlips (l : List Nat) : Upset :=
  match l with
  | [] => .clean
  | [b] => .single b
  | [_, _] => .multi
  | l => if syndrome l = 0 then .clean else if l.length % 2 = 1 then .single (Config.frameBit l % 4110) else .multi

/-! ### Readback (R371) -/

/-- READBACK: C0 writes a frame's address with GO. -/
def execReadback (faddr : W32) (s : State) : Host.Outcome State Fault Refusal :=
  .next (s.regWrite rCfgRbctl (BitVec.ofNat 64 (faddr.toNat + 2 ^ 33)))

/-- May C0 read a frame back? -/
def State.readable (s : State) (fa : Nat) : Bool :=
  match frameRegion fa with
  | none => false
  | some f => ((s.regOwner f).getD 0 == 0) && s.regSt f != 1 && s.regSt f != 5

/-- READBACK_DONE: the readback that is busy ends. -/
def execReadbackDone (s : State) : Host.Outcome State Fault Refusal :=
  if s.fld rCfgRbctl 34 2 ≠ 1 then .next s
  else
    let fa := s.fld rCfgRbctl 0 32
    if ¬ s.readable fa then .next (s.setFld rCfgRbctl 34 2 3)
    else
      let v := s.frameNow fa
      let t := (List.range 64).foldl (fun t w => t.setReg (rCfgRbdata w) (BitVec.ofNat 64 (bitsOf v (64 * w) 64))) s
      let t := ((t.setFld rCfgRbctl 34 2 2).setFld rCfgRbctl 36 14 (s.checkNow fa)).setFld rCfgRbctl 50 14
        (syndrome (s.flips fa))
      .next (t.setReg rCfgRbdt s.dt)

/-! ### BBRAM (R362) -/

/-- BBRAM_COMMIT: C0 writes COMMIT to CFG_BBCTL. -/
def execBbramCommit (s : State) : Host.Outcome State Fault Refusal := .next (s.regWrite rCfgBbctl 1)

/-- BBRAM_ERASE: C0 writes ERASE to CFG_BBCTL. -/
def execBbramErase (s : State) : Host.Outcome State Fault Refusal := .next (s.regWrite rCfgBbctl 2)

/-! ### Browse (R372, R373) -/

/-- The state of unit u. -/
def State.browse (s : State) (u : Nat) : Browse := tget {} s.fab.browse u
def State.updBrowse (s : State) (u : Nat) (f : Browse → Browse) : State :=
  s.updFab (fun x => { x with browse := tupd {} x.browse u f })

/-- The frame address at a position of unit u's sweep: REGION and INDEX rising. -/
def browseFrame (u pos : Nat) : Nat :=
  let i := pos / 2400
  (if i = 24 then 48 + u else 24 * u + i) + pos % 2400 * 256

/-- BRW_LOG and BRW_LOGDT of unit u. -/
def State.browseLog (s : State) (u synd bit fa kind : Nat) : State :=
  let w := fv 50 14 synd + fv 36 13 bit + fv 4 32 fa + fv 2 2 kind
  (s.setReg (rBrwLog u) (logWord (s.reg (rBrwLog u)) w)).setReg (rBrwLogdt u) s.dt

/-- The multi-bit rule of R373: counted, logged, told once per sweep; with UEFENCE an ACTIVE reconfigurable region goes
to HOLD. -/
def State.browseMulti (s : State) (u fa : Nat) : State :=
  let f := min (fa % 64) 48
  let sy := syndrome (s.flips fa)
  let s := (s.updReg (rBrwCnt u) (fun w => bsat w 24 16 1)).browseLog u sy 0 fa 1
  let own := match s.regOwner f with | none => 0 | some p => p + 8
  let s := if (s.browse u).told.contains fa then s
    else (s.event 0 stBrwUncorrectable none fa (fv 0 14 sy + fv 16 4 own)).updBrowse u
      (fun b => { b with told := b.told ++ [fa] })
  if s.fld (rBrwCtl u) 1 1 = 1 ∧ f < 48 ∧ s.regSt f = 4 then s.setRegSt f 2 0 else s

/-- The unit moves on; the end of a sweep is counted. -/
def State.browseNext (s : State) (u : Nat) : State :=
  let p := s.fld (rBrwStat u) 16 16 + 1
  if p < 60000 then s.setFld (rBrwStat u) 16 16 p
  else
    let s := (s.setFld (rBrwStat u) 16 16 0).setFld (rBrwStat u) 32 32 (s.fld (rBrwStat u) 32 32 + 1)
    (s.setReg (rBrwSweepdt u) s.dt).updBrowse u (fun b => { b with told := [], since := s.dt.toNat })

/-- BROWSE_FRAME: unit u reads the frame it stands at, in which the bits of `flips` have been upset since it was
last read. -/
def execBrowseFrame (u : Fin 2) (flips : List (Fin 4110)) (s : State) : Host.Outcome State Fault Refusal :=
  if s.fld (rBrwCtl u) 0 1 = 0 then .next (s.setFld (rBrwStat u) 0 2 0)
  else if (s.browse u).fix.isSome then .next s
  else
    let fa := browseFrame u (s.fld (rBrwStat u) 16 16)
    let st := s.regSt (min (fa % 64) 48)
    let s := s.setFld (rBrwStat u) 0 2 1
    if st = 1 ∨ st = 5 then .next (s.browseNext u)
    else
      let s := (s.flip fa (flips.map Fin.val)).browseNext u
      match judgeFlips (s.flips fa) with
      | .clean => .next s
      | .single b => .next ((s.setFld (rBrwStat u) 0 2 2).updBrowse u (fun x => { x with fix := some (fa, b, 0) }))
      | .multi => .next (s.browseMulti u fa)

/-- BROWSE_WRITEBACK: the corrected frame is written and read again; `flips` are upsets in between. -/
def execBrowseWriteback (u : Fin 2) (flips : List (Fin 4110)) (s : State) : Host.Outcome State Fault Refusal :=
  match (s.browse u).fix with
  | none => .next s
  | some (fa, b, tries) =>
    let s := (s.setFld (rBrwStat u) 0 2 1).updBrowse u (fun x => { x with fix := none })
    let st := s.regSt (min (fa % 64) 48)
    if st = 1 ∨ st = 5 then .next s
    else
      let sy := syndrome (s.flips fa)
      let s := (s.flip fa [b]).flip fa (flips.map Fin.val)
      match judgeFlips (s.flips fa) with
      | .clean => .next ((s.updReg (rBrwCnt u) (fun w => bsat w 0 24 1)).browseLog u sy b fa 0)
      | r =>
        if tries = 0 then
          let b' := match r with | .single x => x | _ => b
          .next ((s.setFld (rBrwStat u) 0 2 2).updBrowse u (fun x => { x with fix := some (fa, b', 1) }))
        else .next (s.browseMulti u fa)

/-! ### The vote and the watchdog (R374, R375) -/

/-- VOTEFIX: the copies of unit u's control state disagree on a clock, and the majority is restored. -/
def execVotefix (u : Fin 2) (s : State) : Host.Outcome State Fault Refusal :=
  .next ((s.updReg (rBrwCnt u) (fun w => bsat w 40 16 1)).browseLog u 0 0 (s.fld (rBrwStat u) 16 16) 2)

/-- BROWSE_WATCHDOG: an enabled unit whose sweep has not advanced within 250 ms is restarted. -/
def execBrowseWatchdog (u : Fin 2) (s : State) : Host.Outcome State Fault Refusal :=
  if s.fld (rBrwCtl u) 0 1 = 0 ∨ s.dt.toNat < (s.browse u).since + dtMs 250 then .next s
  else
    let s := (s.updReg (rBrwCnt u) (fun w => bsat w 56 7 1)).browseLog u 0 0 (s.fld (rBrwStat u) 16 16) 3
    let s := (s.setFld (rBrwStat u) 16 16 0).setFld (rBrwStat u) 0 2 3
    .next (s.updBrowse u (fun _ => { since := s.dt.toNat }))

end Sys2Proof.Machine
end

