-- ==== Sys2Proof/Machine/CmdEngine.lean ====
section
/-! DEFINITION. Commands that work on engines (R253 to R256): placement, programs, RUN, CONVERT and COPY. -/

namespace Sys2Proof.Machine

/-! ### Slots of a command -/

/-- The slot that context c holds for engine n of a mask: on n, or on the host it has moved to (R442). -/
def State.seat (s : State) (n c : Nat) : Option (Nat × Nat) :=
  (s.slotOf (s.hostOf n c) c).map (fun k => (s.hostOf n c, k))

/-- Has the context a slot for every engine of a list? -/
def State.allSeated (s : State) (c : Nat) (ns : List Nat) : Bool := ns.all (fun n => (s.seat n c).isSome)

/-- The engines that hold the slots of a mask. -/
def State.seatEngines (s : State) (c : Nat) (ns : List Nat) : List Nat :=
  (ns.filterMap (fun n => (s.seat n c).map Prod.fst)).dedup

/-- The engines of a placement, rising; an engine that is retired counts under its own number. -/
def State.placement (s : State) (c : Nat) : List Nat := (List.range 64).filter (fun n => (s.seat n c).isSome &&
  (s.hostOf n c == n && !(s.engs.any (fun e => decide (oget e.2.hosts c = some n))) || s.hostOf n c != n))

/-- Records the generator states of a command's slots at its first start (R440). -/
def State.noteGens (s : State) (c : Cmd) : State :=
  if c.gens ≠ [] then s
  else
    let gs := c.engines.filterMap (fun n => (s.slotOf n c.ctx).map (fun k =>
      (n, k, s.reg (rVtSrm n k), s.reg (rVtSrv n k))))
    s.updCmd c.id (fun d => { d with gens := gs })

/-! ### CTX_PLACE (R253) -/

/-- The lowest base at which a window of `size` units fits among those in use. -/
def firstFit (used : List (Nat × Nat)) (total size : Nat) : Option Nat :=
  (List.range (total + 1 - size)).find? (fun b => used.all (fun u => !rangesMeet b size u.1 u.2))

/-- The slots of engine n that are not EMPTY. -/
def State.usedSlots (s : State) (n : Nat) : List Nat := (List.range 8).filter (fun k => (s.slot n k).st != .empty)

def State.freeSlot (s : State) (n : Nat) : Option Nat := (List.range 8).find? (fun k => (s.slot n k).st == .empty)

/-- Instruction windows and local-memory windows in use on engine n. -/
def State.imUsed (s : State) (n : Nat) : List (Nat × Nat) :=
  (s.usedSlots n).map (fun k => (s.fld (rEsImwin n k) 0 8, s.fld (rEsImwin n k) 16 9))

def State.lmUsed (s : State) (n : Nat) : List (Nat × Nat) :=
  (s.usedSlots n).map (fun k => (s.fld (rVtLmwin n k) 0 7, s.fld (rVtLmwin n k) 8 8))

/-- The gates of a command's mask. -/
def Cmd.gates (c : Cmd) : List Nat := (List.range 256).filter (fun g => bf (c.op (2 + g / 64)) (g % 64) 1 == 1)

/-- Do an instruction window and a local-memory window of these sizes fit on engine n? -/
def State.fits (s : State) (n im lm : Nat) : Bool :=
  (firstFit (s.imUsed n) 256 im).isSome && (firstFit (s.lmUsed n) 128 lm).isSome

def ctxPlaceCheck (s : State) (c : Cmd) : Nat :=
  let ns := maskEngines (c.op 0)
  let im := c.opf 1 0 9
  let lm := c.opf 1 16 8
  if im = 0 ∨ 256 < im ∨ 128 < lm then stCmdFieldInvalid
  else if ns.any (fun n => (s.freeSlot n).isNone || (s.seat n c.ctx).isSome) then stNoSlot
  else if ns.any (fun n => !s.fits n im lm) then stNoSpace
  else if ns.any (fun n => c.gates.any (fun g => s.fld (rEsGate n g) 63 1 == 1)) then stGateInUse
  else if ns.any (fun n => (s.eng n).retired) then stEngineRetired
  else if ns.any (fun n => (s.eng n).frozen.isSome || s.rst.hangs.any (fun h => h.eng == n)) then stMasterFrozen
  else 0

/-- Gives context c a slot of engine n, with windows at the bases given and gates. -/
def State.placeOn (s : State) (c n k ib im lb lm : Nat) (gs : List Nat) : State :=
  let g := (s.ctx c).gen
  let s := s.setSlot n k { st := .placed, ctx := c, gen := g }
  let s := (s.setReg (rEsImwin n k) (BitVec.ofNat 64 (fv 16 9 im + fv 0 8 ib))).setReg (rVtLmwin n k)
    (BitVec.ofNat 64 (fv 8 8 lm + fv 0 7 lb))
  let s := gs.foldl (fun s i => s.setReg (rEsGate n i) (BitVec.ofNat 64 (fv 63 1 1 + fv 50 12 g + fv 40 10 c))) s
  (((s.setControls c n k).setSeeds c n k).setReg (rVtFlags n k) 0).wakeEngine n

/-- One engine of a CTX_PLACE. -/
def State.placeNext (s : State) (c : Cmd) (n : Nat) : State :=
  let im := c.opf 1 0 9
  let lm := c.opf 1 16 8
  match s.freeSlot n, firstFit (s.imUsed n) 256 im, firstFit (s.lmUsed n) 128 lm with
  | some k, some ib, some lb => s.placeOn c.ctx n k ib im lb lm c.gates
  | _, _, _ => s

def ctxPlaceRow : CmdRow :=
  { op := 0x25, check := ctxPlaceCheck, fields := [fm 0 64, fm 0 9 + fm 16 8, fm 0 64, fm 0 64, fm 0 64, fm 0 64],
    start := fun s c => ((maskEngines (c.op 0)).foldl (fun s n => s.placeNext c n) s).finishCmd c.id }

/-- CTX_PLACE. -/
def execCtxPlace (q : Fin 16384) (s : State) : Host.Outcome State Fault Refusal := acceptCmd ctxPlaceRow q s

/-! ### CTX_UNPLACE -/

/-- A register returns to its reset value. -/
def State.resetReg (s : State) (off : Nat) : State := s.setReg off (regReset off)

/-- Slot k of engine n becomes EMPTY: its windows, controls and generator states are released, and what it
still held goes. -/
def State.emptySlot (s : State) (n k : Nat) : State :=
  let s := s.updEng n (fun e =>
    let clear (t : Tab Bank) (b : Nat) : Tab Bank :=
      let x := tget ({} : Bank) t b
      if x.slot = k ∧ x.st ≠ .free then tset {} t b {} else t
    { (e.setSlot k {}) with
      passes := e.passes.filter (fun p => p.slot != k),
      streams := e.streams.filter (fun t => t.slot != k),
      banks := (List.range 2).foldl clear e.banks })
  [rEsImwin n k, rVtLmwin n k, rMtCtl n k, rVtCtl n k, rVtSrm n k, rVtSrv n k].foldl State.resetReg s

/-- Releases the gates of engine n that context c owns. -/
def State.freeGates (s : State) (n c : Nat) : State :=
  (List.range 256).foldl (fun s g =>
    let w := s.reg (rEsGate n g)
    if bf w 63 1 = 1 ∧ bf w 40 10 = c then s.setReg (rEsGate n g) 0 else s) s

/-- Context c gives up its slot for engine n. -/
def State.unplace (s : State) (c n : Nat) : State :=
  match s.seat n c with
  | none => s
  | some (h, k) => ((s.emptySlot h k).freeGates h c).updEng n (fun e => { e with hosts := tdel c e.hosts })

def placedCheck (s : State) (c : Cmd) : Nat := if s.allSeated c.ctx (maskEngines (c.op 0)) then 0 else stNotPlaced

def maskSeats (s : State) (c : Cmd) : List Nat := s.seatEngines c.ctx (maskEngines (c.op 0))

def ctxUnplaceRow : CmdRow :=
  { op := 0x26, fields := [fm 0 64], check := placedCheck, seats := maskSeats,
    start := fun s c => ((maskEngines (c.op 0)).foldl (fun s n => s.unplace c.ctx n) s).finishCmd c.id }

/-- CTX_UNPLACE: waits while a slot is not PLACED. -/
def execCtxUnplace (q : Fin 16384) (s : State) : Host.Outcome State Fault Refusal := acceptCmd ctxUnplaceRow q s

/-! ### IMEM_WRITE (R254) -/

/-- Bytes of an acting context's memory for a command, or the status they are refused with. -/
def State.cmdBytes (s : State) (c va n : Nat) : Except Nat (List Byte) :=
  match s.gather 0 0 c false (spanFrom va n) with
  | .bad _ st => .error st
  | .ok bs po => if po then .error (s.poisonStatus c (spanFrom va n)) else .ok bs

def imemWriteCheck (s : State) (c : Cmd) : Nat :=
  let ns := maskEngines (c.op 0)
  let n := (c.op 2).toNat
  let o := (c.op 3).toNat
  if n % 4 ≠ 0 ∨ o % 4 ≠ 0 then stCmdFieldInvalid
  else if ¬ s.allSeated c.ctx ns then stNotPlaced
  else if (ns.filterMap (fun m => s.seat m c.ctx)).any (fun p => (s.slot p.1 p.2).st != .placed) then stInUse
  else if (ns.filterMap (fun m => s.seat m c.ctx)).any
      (fun p => decide (s.fld (rEsImwin p.1 p.2) 16 9 * 1024 < o + n)) then stEsImemRange
  else match s.cmdBytes c.ctx (c.op 1).toNat n with | .error st => st | .ok _ => 0

/-- Copies instruction words into one window. -/
def State.imemPut (s : State) (n k o : Nat) (bs : List Byte) : State :=
  let b := s.fld (rEsImwin n k) 0 8 * 256 + o / 4
  let put (t : Tab W32) (i : Nat) : Tab W32 := tset 0 t (b + i) (BitVec.ofNat 32 (leNat ((bs.drop (4 * i)).take 4)))
  s.updEng n (fun e => { e with imem := (List.range (bs.length / 4)).foldl put e.imem })

def imemWriteStart (s : State) (c : Cmd) : State :=
  match s.cmdBytes c.ctx (c.op 1).toNat (c.op 2).toNat with
  | .error st => s.endCmd c.id st
  | .ok bs =>
    (((maskEngines (c.op 0)).filterMap (fun n => s.seat n c.ctx)).foldl
      (fun s p => s.imemPut p.1 p.2 (c.op 3).toNat bs) s).finishCmd c.id

def imemWriteRow : CmdRow :=
  { op := 0x27, fields := [fm 0 64, fm 0 48, fm 0 64, fm 0 64], check := imemWriteCheck, start := imemWriteStart }

/-- IMEM_WRITE. -/
def execImemWrite (q : Fin 16384) (s : State) : Host.Outcome State Fault Refusal := acceptCmd imemWriteRow q s

/-! ### RUN (R123, R254) -/

/-- The state that a slot starts a program with (R123). -/
def Slot.program (x : Slot) (cls cmd pc arg idx cnt : Nat) (gen : Nat) : Slot :=
  { st := .ready, ctx := x.ctx, gen := gen, cls := cls, cmd := cmd, pc := pc,
    xs := tset 0 (tset 0 (tset 0 [] 1 (BitVec.ofNat 64 arg)) 2 (BitVec.ofNat 64 idx)) 3 (BitVec.ofNat 64 cnt),
    plhead := x.plhead, plog := x.plog }

/-- Gives every slot of the mask the program. -/
def State.startRun (s : State) (c : Cmd) : State :=
  let ns := maskEngines (c.op 0)
  ns.zipIdx.foldl (fun s p =>
    match s.seat p.1 c.ctx with
    | none => s
    | some (h, k) => (s.wakeEngine h).updSlot h k (fun x =>
        x.program (s.queueClass c.q) c.id (c.opf 1 0 16) (c.op 2).toNat p.2 ns.length (s.ctx c.ctx).gen)) s

def runStart (s : State) (c : Cmd) : State :=
  if c.engines = [] then s.finishCmd c.id else (s.noteGens c).startRun c

def runRow : CmdRow :=
  { op := 0x28, fields := [fm 0 64, fm 0 16, fm 0 48], check := placedCheck, seats := maskSeats, start := runStart }

/-- RUN. -/
def execRun (q : Fin 16384) (s : State) : Host.Outcome State Fault Refusal := acceptCmd runRow q s

/-! ### CONVERT and COPY (R256) -/

/-- The engine that serves CONVERT and COPY. -/
def romSeats (s : State) (c : Cmd) : List Nat := s.seatEngines c.ctx ((s.placement c.ctx).take 1)

/-- A command of the ROM's programs takes a slot. -/
def State.takeSlot (s : State) (c : Cmd) (n : Nat) : State :=
  match s.slotOf n c.ctx with
  | none => s
  | some k => s.updSlot n k (fun x =>
      { st := .blocked, wait := .rom, ctx := x.ctx, gen := (s.ctx c.ctx).gen,
        cls := s.queueClass c.q, cmd := c.id, plhead := x.plhead, plog := x.plog })

/-- The pitch of rows of `n` bytes (R256). -/
def pitch32 (n : Nat) : Nat := (n + 31) / 32 * 32

/-- A conversion's shape, out of OP4 and OP5. -/
structure Conv where
  rows : Nat
  k : Nat
  src : Nat
  sblk : Bool
  dst : Nat
  cvtc : Nat
deriving DecidableEq, Repr

def Cmd.conv (c : Cmd) : Conv :=
  { rows := c.opf 4 0 24, k := c.opf 4 24 24, src := c.opf 5 0 4, sblk := c.opf 5 4 1 == 1, dst := c.opf 5 8 4,
    cvtc := c.opf 5 16 8 }

/-- Block size of an operand of a conversion; 0 where its format has none. -/
def convBlock (f : Fmt) (blk32 : Bool) : Nat := if f.isOcp then 32 else if f.isBlock then blockOf blk32 else 0

/-- Bytes of a row's elements and of its scales. -/
def convElems (f : Fmt) (k : Nat) : Nat := ceilDiv (k * f.bits) 8
def convScales (f : Fmt) (blk32 : Bool) (k : Nat) : Nat :=
  let b := convBlock f blk32
  if b = 0 then 0 else k / b

/-- The addresses of a plane's content at its pitch, and those of the whole plane. -/
def planeContent (base rows n : Nat) : List Int := (List.range rows).flatMap (fun r => spanFrom (base + r * pitch32 n) n)
def planeWhole (base rows n : Nat) : List Int := spanFrom base (rows * pitch32 n)

/-- The checks of CONVERT, in the order of R256. DESIGN CHOICE (log 80): rows = 0 or K = 0, of which the rules say nothing, is
CMD_FIELD_INVALID behind the check of the block size. -/
def convertCheck (s : State) (c : Cmd) : Nat :=
  let v := c.conv
  match Fmt.ofCode v.src, Fmt.ofCode v.dst with
  | some f, some t =>
    let tb := (Cvtc.ofByte v.cvtc).blk32
    let split (b : Nat) : Bool := b == 0 || v.k % b == 0
    if cvtcInvalid t v.cvtc ∨ (f.isOcp ∧ ¬ v.sblk) then stCvtControlInvalid
    else if ¬ (split (convBlock f v.sblk) ∧ split (convBlock t tb)) then stBlockMisaligned
    else if v.rows = 0 ∨ v.k = 0 then stCmdFieldInvalid
    else if romSeats s c = [] then stNotPlaced
    else 0
  | _, _ => stFormatUnsupported

/-- One source row as blocks. -/
def convSrc (f : Fmt) (b : Nat) (els scs : List Byte) (k : Nat) : List SrcBlock :=
  let cs := (bytesToCodes f.bits els).take k
  if b = 0 then [{ scale := 127, codes := cs }]
  else (chunks b (k + 1) cs).zipIdx.map (fun p => { scale := ((scs.getD p.2 0).toNat), codes := p.1 })

/-- One target row: element bytes and scale bytes, padded to their pitches, with the flags. -/
def convDst (t : Fmt) (bs : List CvtBlock) : List Byte × List Byte × Fl :=
  let pad (l : List Byte) : List Byte := l ++ List.replicate (pitch32 l.length - l.length) 0
  (pad (packCodes t.bits (bs.flatMap CvtBlock.codes)),
   (if t.scaled then pad (bs.map (fun b => BitVec.ofNat 8 b.scale)) else []),
   { inv := bs.any CvtBlock.inv, sat := bs.any CvtBlock.sat })

/-- Converts row after row: target planes and flags. -/
def convRows (f t : Fmt) (v : Conv) (els scs : List Byte) (draws : List Nat) : List Byte × List Byte × Fl :=
  let en := convElems f v.k
  let sn := convScales f v.sblk v.k
  let rows := (List.range v.rows).map (fun r =>
    convDst t (convertRun f t (convBlock f v.sblk) (Cvtc.ofByte v.cvtc) ((draws.drop (r * v.k)).take v.k)
      (convSrc f (convBlock f v.sblk) ((els.drop (r * en)).take en) ((scs.drop (r * sn)).take sn) v.k)))
  (rows.flatMap Prod.fst, rows.flatMap (fun x => x.2.1), Fl.union (rows.map (fun x => x.2.2)))

/-- A fault of a conversion: its record names the vector tile's slot as stream engine 0 (R133, R256). -/
def State.convFault (s : State) (c : Cmd) (n : Nat) (a : Int) (st : Nat) : State :=
  match s.slotOf n c.ctx with
  | none => s
  | some k => (s.updCmd c.id (fun d => { d with st := .held })).streamFault n k c.ctx c.id 0 false a st

/-- The end of a conversion whose target is written. -/
def State.convDone (s : State) (c : Cmd) (fl : Fl) (poison : Bool) : State :=
  let s := s.updCmd c.id (fun d => { d.addFlags { inv := fl.inv, sat := fl.sat } with poison := d.poison || poison })
  (s.placeSlots c.id).finishCmd c.id

/-- The conversion itself, on the slot of engine n. -/
def State.runConvert (s : State) (c : Cmd) (n k : Nat) (f t : Fmt) : State :=
  let v := c.conv
  let tb := (Cvtc.ofByte v.cvtc).blk32
  let va (i : Nat) : Nat := (c.op i).toNat
  let rd (b : Nat) (len : Nat) : Gath := if len = 0 then .ok [] false else s.gather n k c.ctx false (planeContent b v.rows len)
  match rd (va 0) (convElems f v.k), rd (va 1) (convScales f v.sblk v.k) with
  | .bad a st, _ => s.convFault c n a st
  | .ok _ _, .bad a st => s.convFault c n a st
  | .ok els p1, .ok scs p2 =>
    let cur := (s.reg (rVtSrv n k)).toNat
    let cnt := if (Cvtc.ofByte v.cvtc).round = 2 then v.rows * v.k else 0
    let ds := drawsFrom cnt cur
    let out := convRows f t v els scs ds.1
    let ea := planeWhole (va 2) v.rows (convElems t v.k)
    let sa := if convBlock t tb = 0 then [] else planeWhole (va 3) v.rows (convScales t tb v.k)
    match (s.placesOf n k c.ctx false true (ea ++ sa)).2 with
    | some (a, st) => s.convFault c n a st
    | none =>
      let s := (s.scatter n k c.ctx false (ea ++ sa) (out.1 ++ out.2.1) (p1 || p2)).1
      let s := s.touchVas c.ctx c.id (planeContent (va 0) v.rows (convElems f v.k) ++
        planeContent (va 1) v.rows (convScales f v.sblk v.k) ++ ea ++ sa)
      (s.setReg (rVtSrv n k) (BitVec.ofNat 64 ds.2)).convDone c out.2.2 (p1 || p2)

/-- CONVERT's work: it waits for pages that move, and a fault freezes the context; once that is unfrozen,
COMMAND_START takes the work up again. -/
def convertStart (s : State) (c : Cmd) : State :=
  match c.engines with
  | [] => s.endCmd c.id stNotPlaced
  | n :: _ =>
    let s := (s.noteGens c).takeSlot c n
    match s.slotOf n c.ctx, Fmt.ofCode c.conv.src, Fmt.ofCode c.conv.dst with
    | some k, some f, some t => let s := s.runConvert c n k f t; { s with free := s.free + 1 }
    | _, _, _ => s.endCmd c.id stFormatUnsupported

/-- Does a conversion touch a page that is moving (R200)? -/
def convertWaits (s : State) (c : Cmd) : Bool :=
  let v := c.conv
  match Fmt.ofCode v.src, Fmt.ofCode v.dst with
  | some f, some t =>
    !s.moves.isEmpty && s.anyMoving c.ctx (planeContent (c.op 0).toNat v.rows (convElems f v.k) ++
      planeContent (c.op 1).toNat v.rows (convScales f v.sblk v.k) ++
      planeWhole (c.op 2).toNat v.rows (convElems t v.k) ++
      planeWhole (c.op 3).toNat v.rows (convScales t (Cvtc.ofByte v.cvtc).blk32 v.k))
  | _, _ => false

def convertRow : CmdRow :=
  { op := 0x2A, check := convertCheck, seats := romSeats, waits := convertWaits, start := convertStart,
    fields := [fm 0 48, fm 0 48, fm 0 48, fm 0 48, fm 0 48, fm 0 5 + fm 8 4 + fm 16 8] }

/-- CONVERT. -/
def execConvert (q : Fin 16384) (s : State) : Host.Outcome State Fault Refusal := acceptCmd convertRow q s

/-- COPY runs as one COPY descriptor on IS0. -/
def copyStart (s : State) (c : Cmd) : State :=
  match c.engines with
  | [] => s.endCmd c.id stNotPlaced
  | n :: _ =>
    let s := (s.noteGens c).takeSlot c n
    match s.slotOf n c.ctx with
    | none => s.endCmd c.id stNotPlaced
    | some k =>
      let d : SDesc := { base := (c.op 0).toNat, n0 := (c.op 2).toNat, mode := 3, addr2 := (c.op 1).toNat }
      s.updEng n (fun e => { e with
        seq := e.seq + 1,
        streams := e.streams ++ [({ seq := e.seq, slot := k, ctx := c.ctx, gen := (s.ctx c.ctx).gen,
                                    cls := s.queueClass c.q, cmd := c.id, se := 0, d := d } : Stream)] })

def copyRow : CmdRow :=
  { op := 0x2B, seats := romSeats, start := copyStart, fields := [fm 0 48, fm 0 48, fm 0 64],
    check := fun s c => if romSeats s c = [] then stNotPlaced else 0 }

/-- COPY. -/
def execCopy (q : Fin 16384) (s : State) : Host.Outcome State Fault Refusal := acceptCmd copyRow q s

end Sys2Proof.Machine
end

