-- ==== Sys2Proof/Machine/CmdChain.lean ====
section
/-! DEFINITION. CHAIN (R255) and the split of chains whose rows span passes (R172, Table 6.6). -/

namespace Sys2Proof.Machine

/-- A pass of a chain: the engine and slot that run it, its stage and its descriptor. -/
structure Link where
  eng : Nat
  slot : Nat
  stage : Nat
  d : MDesc
deriving DecidableEq, Repr

/-! ### Reading the list -/

/-- The words of the list. -/
def State.chainWords (s : State) (c : Cmd) : Except Nat (List W64) :=
  match s.vwords 0 0 c.ctx (c.op 0).toNat (2 * c.opf 1 0 16) with
  | .inr st => .error st
  | .inl (ws, po) => if po then .error (s.poisonStatus c.ctx (spanFrom (c.op 0).toNat (16 * c.opf 1 0 16))) else .ok ws

/-- Word 0 of each entry, its reserved bits and word 1 being zero. -/
def chainHeads (ws : List W64) : Except Nat (List W64) :=
  let hs := (List.range (ws.length / 2)).map (fun i => (ws.getD (2 * i) 0, ws.getD (2 * i + 1) 0))
  if hs.any (fun h => bf h.1 54 2 != 0 || h.2 != 0) then .error stCmdFieldInvalid else .ok (hs.map Prod.fst)

/-- The engines that a list names. -/
def chainEngines (hs : List W64) : List Nat := (hs.map (fun h => bf h 48 6)).dedup

/-- Does a pass normalise a row that spans passes? -/
def MDesc.nfeat (m : MDesc) : Nat := m.epi.nf m.rElem.n1 m.cElem.n1
def MDesc.ntok (m : MDesc) : Nat := m.epi.nt m.rElem.n1 m.cElem.n1
def MDesc.spans (m : MDesc) : Bool := (m.fm == 16 || m.fm == 17) && m.epi.lrow != m.nfeat

/-- Reads and checks the pass of one list entry. -/
def State.readLink (s : State) (c : Cmd) (h : W64) : Except Nat Link := do
  let some p := s.seat (bf h 48 6) c.ctx | .error stNotPlaced
  let m ← s.parsePass p.1 p.2 c.ctx (bf h 0 48) (!c.strict)
  need (!m.spans || decide (m.nfeat < m.epi.lrow)) stChainRowSpan
  .ok { eng := p.1, slot := p.2, stage := bf h 56 8, d := m }

/-! ### Rows that span passes (R172) -/

/-- Cuts the producers, in list order, into rows: passes of one entry, row length and token count whose
features add up to the row. -/
def chainRows : List (Nat × Link) → Nat → List (Nat × Link) → Except Nat (List (List (Nat × Link)))
  | [], _, [] => .ok []
  | _ :: _, _, [] => .error stChainRowSpan
  | cur, sum, p :: ps =>
    let m := p.2.d
    let same : Bool := match cur.head? with
      | none => true
      | some q => q.2.d.fm == m.fm && q.2.d.epi.lrow == m.epi.lrow && q.2.d.ntok == m.ntok
    let n := sum + m.nfeat
    if ¬ same ∨ m.epi.lrow < n then .error stChainRowSpan
    else if n = m.epi.lrow then
      match chainRows [] 0 ps with
      | .error st => .error st
      | .ok rs => .ok ((cur ++ [p]) :: rs)
    else chainRows (cur ++ [p]) n ps

/-- The range of addresses that a pattern touches. -/
def SDesc.bounds (d : SDesc) : Int × Int :=
  let lo (n : Nat) (st : Int) : Int := min 0 (((n : Int) - 1) * st)
  let hi (n : Nat) (st : Int) : Int := max 0 (((n : Int) - 1) * st)
  ((d.base : Int) + lo d.n1 d.s1 + lo d.n2 d.s2 + lo d.n3 d.s3,
   (d.base : Int) + hi d.n1 d.s1 + hi d.n2 d.s2 + hi d.n3 d.s3 + ((d.n0 : Int) - 1))

/-- Does a later pass take its C operand out of what a producer writes (R255)? -/
def Link.consumes (x p : Link) : Bool :=
  decide (p.stage < x.stage) &&
    match p.d.out with
    | none => false
    | some o => decide (o.bounds.1 ≤ (x.d.cElem.base : Int)) && decide ((x.d.cElem.base : Int) ≤ o.bounds.2)

/-- The late form of a consumer of a row (Table 6.6), where it has one that passes the checks. -/
def lateForm (row : List (Nat × Link)) (x : Link) (base : Nat) : Option MDesc :=
  match row.head? with
  | none => none
  | some p =>
    let g := p.2.d
    let segs := row.length
    let fm := match g.fm, x.d.fm with | 16, 0 => 21 | 16, 7 => 22 | 17, 0 => 23 | _, _ => 63
    let e := x.d.epi
    let rms := decide (fm ≠ 23)
    let epi : EpiBlk :=
      { e with lrow := if rms then g.epi.lrow else 0, eps := if rms then g.epi.eps else 0, segs := segs, lpin := base,
               lpsegp := 8 * g.ntok, seglen := if rms then 0 else x.d.k / segs }
    let rf := (Fmt.ofCode x.d.rfmt).getD .f32
    let cf := (Fmt.ofCode x.d.cfmt).getD .f32
    let m := { x.d with fm := fm, epi := epi }
    let even := rms || row.all (fun q => q.2.d.nfeat == x.d.k / segs)
    if fm ≠ 63 ∧ x.d.k = g.epi.lrow ∧ x.d.cElem.n1 = g.ntok ∧ even ∧
        epi.descOk fm (intPath rf cf) x.d.out.isSome ∧
        epi.shapeOk fm x.d.rElem.n1 x.d.cElem.n1 x.d.k (groupLen rf x.d.rblk cf x.d.cblk) then some m
    else none

/-- A producer in its statistics form: segment `seg` of the row, features from `f0` on, side entries from
`base`. -/
def statForm (m : MDesc) (segs seg f0 base : Nat) : MDesc :=
  let n := m.ntok
  let at_ := base + seg * (8 * n)
  let side : SDesc := { base := at_, n0 := 8, n1 := n, s1 := 8, mode := 4 }
  { m with fm := if m.fm = 16 then 15 else 18,
           epi := { m.epi with seg := seg, segs := segs, f0 := f0, eps := 0, side := at_ },
           side := some side }

/-- A chain under a split: its passes in list order and its fix-up passes, with the scratch used. -/
structure Plan where
  links : List (Nat × Link) := []
  fixes : List Fix := []
  used : Nat := 0
  split : Bool := false
deriving DecidableEq, Repr

/-- Replaces the descriptor of list entry `i`. -/
def Plan.put (p : Plan) (i : Nat) (m : MDesc) : Plan :=
  { p with links := p.links.map (fun x => if x.1 = i then (i, { x.2 with d := m }) else x) }

/-- Splits one row: its producers take the statistics form, its consumers the late form; where a consumer has
none, or there is no consumer, each producer gets a fix-up pass. -/
def Plan.splitRow (scratch : Nat) (p : Plan) (row : List (Nat × Link)) : Plan :=
  let base := scratch + p.used
  let segs := row.length
  let nt := (row.head?.map (fun x => x.2.d.ntok)).getD 0
  let users := p.links.filter (fun x => row.any (fun r => x.2.consumes r.2))
  let late := users.map (fun x => (x.1, lateForm row x.2 base))
  let ok := !users.isEmpty && late.all (fun x => x.2.isSome)
  let p1 := (row.zipIdx.foldl (fun (a : Plan × Nat) r =>
    (a.1.put r.1.1 (statForm r.1.2.d segs r.2 a.2 base), a.2 + r.1.2.d.nfeat)) (p, 0)).1
  let p2 := if ok then late.foldl (fun a x => match x.2 with | some m => a.put x.1 m | none => a) p1 else p1
  let fx : List Fix := if ok then [] else row.zipIdx.map (fun r =>
    { stage := r.1.2.stage, eng := r.1.2.eng, slot := r.1.2.slot, d := r.1.2.d, base := base, pitch := 8 * nt,
      segs := segs, seg := r.2 })
  { p2 with fixes := p2.fixes ++ fx, used := p2.used + segs * (8 * nt), split := true }

/-- The whole chain, read, checked and split; or the status that refuses it. -/
def State.chainPlan (s : State) (c : Cmd) : Except Nat Plan := do
  let hs ← chainHeads (← s.chainWords c)
  need (s.allSeated c.ctx (chainEngines hs)) stNotPlaced
  let ls ← hs.foldlM (fun (acc : List Link) h => do let l ← s.readLink c h; .ok (acc ++ [l])) []
  let num := ls.zipIdx.map (fun l => (l.2, l.1))
  let rows ← chainRows [] 0 (num.filter (fun l => l.2.d.spans))
  let p := rows.foldl (Plan.splitRow (c.op 2).toNat) { links := num }
  need (decide (p.used ≤ (c.op 3).toNat)) stNoSpace
  .ok p

/-! ### The command -/

def chainCheck (s : State) (c : Cmd) : Nat :=
  if c.opf 1 0 16 = 0 then stCmdFieldInvalid
  else match s.chainPlan c with | .error st => st | .ok _ => 0

/-- The engines whose slots a chain needs. -/
def chainSeats (s : State) (c : Cmd) : List Nat :=
  match s.chainWords c with
  | .error _ => []
  | .ok ws => match chainHeads ws with
    | .error _ => []
    | .ok hs => s.seatEngines c.ctx (chainEngines hs)

/-- The passes join the queues of their slots, which the ROM's program holds. -/
def chainStart (s : State) (c : Cmd) : State :=
  match s.chainPlan c with
  | .error st => s.endCmd c.id st
  | .ok p =>
    let s := c.engines.foldl (fun s n => s.takeSlot c n) (s.noteGens c)
    let s := s.updCmd c.id (fun d => { d with fixes := p.fixes, split := p.split, extra := p.fixes.length })
    p.links.foldl (fun s x => s.enqueuePass x.2.eng x.2.slot x.2.d c.id x.2.stage) s

def chainRow : CmdRow :=
  { op := 0x29, check := chainCheck, seats := chainSeats, start := chainStart,
    fields := [fm 0 48, fm 0 16, fm 0 48, fm 0 64] }

/-- CHAIN. -/
def execChain (q : Fin 16384) (s : State) : Host.Outcome State Fault Refusal := acceptCmd chainRow q s

end Sys2Proof.Machine
end

