-- ==== Sys2Proof/Machine/Release.lean ====
section
/-! DEFINITION. The release of a pass (R74, R131, R134, R139, R175, R244) and the fix-up passes of a split
chain (R172). -/

namespace Sys2Proof.Machine

/-! ### Fix-up passes (R169, R170, R172) -/

/-- The factor of token t for a fix-up pass: f[s] of a softmax, r[t] of an RMS. -/
def Fix.factor (f : Fix) (es : List (Nat × Nat)) : Nat × Fl :=
  if f.d.fm = 17 then
    let r := lateSoftmax es
    (r.1.getD f.seg 0, r.2)
  else
    let r := lateRms f.d.epi.lrow f.d.epi.eps (es.map Prod.fst)
    (r.code, r.fl)

/-- The factors of every token lane, with flags and poison. -/
def State.fixFactors (s : State) (c : Nat) (f : Fix) : Except (Nat × Int × Nat) (List Nat × Fl × Bool) :=
  let e := { f.d.epi with lpin := f.base, lpsegp := f.pitch, segs := f.segs }
  (List.range f.d.ntok).foldlM (fun (acc : List Nat × Fl × Bool) t => do
    let x ← s.sideEntries f.eng f.slot c e t
    let r := f.factor x.1
    .ok (acc.1 ++ [r.1], acc.2.1.or r.2, acc.2.2 || x.2)) ([], {}, false)

/-- The corrected results in pattern order: each is multiplied by its token's factor and converted, drawing
token by token. -/
def Fix.apply (f : Fix) (o : Fmt) (trans : Bool) (fs draws codes : List Nat) : List Nat × Fl :=
  let nr := f.d.rElem.n1
  let nc := f.d.cElem.n1
  let e := f.d.epi
  let c := Cvtc.ofByte e.cvtc
  let g := gridOf trans nr nc codes
  let out := mapGrid (fun i j v =>
    let t := if e.fax then i else j
    let k := if e.fax then j else i
    let y := fMul (rneF32 (o.elem.decode v)) (fs.getD t 0)
    let z := fConvert o c (draws.getD (t * f.d.nfeat + k) 0) y.code
    { z with fl := z.fl.or y.fl }) g
  (gridOrder trans out.1, out.2)

/-- Runs one fix-up pass for a command. -/
def State.runFix (s : State) (c : Cmd) (f : Fix) : State :=
  match f.d.out, Fmt.ofCode f.d.epi.ofmt with
  | some d, some o =>
    match s.fixFactors c.ctx f, s.gather f.eng f.slot c.ctx d.loc d.addrs with
    | .error (se, a, st), _ => s.streamFault f.eng f.slot c.ctx c.id se false a st
    | .ok _, .bad a st => s.streamFault f.eng f.slot c.ctx c.id 2 false a st
    | .ok fs, .ok bs po =>
      let cur := (s.reg (rVtSrv f.eng f.slot)).toNat
      let n := if (Cvtc.ofByte f.d.epi.cvtc).round = 2 then f.d.ntok * f.d.nfeat else 0
      let ds := drawsFrom n cur
      let y := f.apply o d.trans fs.1 ds.1 (bytesToCodes o.bits bs)
      let poison := po || fs.2.2
      let s := s.setReg (rVtSrv f.eng f.slot) (BitVec.ofNat 64 ds.2)
      let r := s.scatter f.eng f.slot c.ctx d.loc d.addrs (packCodes o.bits y.1) poison
      (r.1.touchVas c.ctx c.id (if d.loc then [] else d.addrs)).updCmd c.id (fun k =>
        { k.addFlags (y.2.or fs.2.1) with poison := k.poison || poison })
  | _, _ => s

/-- The addresses that a fix-up pass reads and writes. -/
def Fix.addrs (f : Fix) : List Int :=
  (match f.d.out with | some d => if d.loc then [] else d.addrs | none => []) ++
    ((List.range f.d.ntok).flatMap (fun t => (List.range f.segs).flatMap (fun g => spanFrom (f.base + g * f.pitch + 8 * t) 8)))

/-- Is a fix-up pass due: every pass of its stage or an earlier one has been released, and no page of it is being moved
(R200)? -/
def State.fixDue (s : State) (id : Nat) (f : Fix) : Bool :=
  !s.anyMoving ((s.cmd id).map Cmd.ctx |>.getD 0) f.addrs &&
  s.engs.all (fun e => e.2.passes.all (fun q => !(q.cmd == id && decide (q.stage ≤ f.stage))))

/-- The fix-up passes that are due run, and a ROM command whose work has ended completes. -/
def State.settleRom (s : State) (id : Nat) : State :=
  match s.cmd id with
  | none => s
  | some c =>
    if (s.ctx c.ctx).frozen.isSome then (if c.fixes = [] then s.finishRom id else s)
    else
      let due := c.fixes.filter (s.fixDue id)
      let s := s.updCmd id (fun k => { k with fixes := k.fixes.filter (fun f => !due.contains f) })
      let s := due.foldl (fun s f => s.runFix c f) s
      match s.cmd id with
      | some k => if k.fixes = [] then s.finishRom id else s
      | none => s

/-! ### RELEASE -/

/-- Writes one held output through its pattern. -/
def State.putOut (s : State) (n : Nat) (p : Pass) (d : Option SDesc) (bs : List Byte) : State :=
  match d with
  | none => s
  | some d => (s.scatter n p.slot p.ctx d.loc d.addrs bs p.poison).1

/-- The pass's stot leaves (R175, R280); the sender adds RANK times RPITCH to a contribution's addresses. -/
def State.releaseStot (s : State) (p : Pass) : State :=
  match p.d.stot with
  | none => s
  | some d =>
    let h := d.stot
    let shift : Int := if h.red then ((h.rank * d.rpitch : Nat) : Int) else 0
    match s.peerRefuses p.ctx d.peer with
    | some st => s.updCmd p.cmd (fun c => c.meet st)
    | none => s.sendStot d.peer p.cmd p.ctx p.gen (if p.d.fm = 63 then 0 else p.d.epi.ofmt) p.poison h (d.addrs.map (fun a => a + shift)) p.held.main

/-- The pass's flags and findings join its command (R244, R245). -/
def State.releaseFlags (s : State) (p : Pass) : State :=
  let w := p.acc.exc.word
  let acc : Fl := { inv := bitsOf w 0 1 == 1, ovf := bitsOf w 1 1 == 1 }
  s.updCmd p.cmd (fun c =>
    let c := (c.addFlags acc).addFlags p.fl
    let c := { c with ckne := c.ckne || p.ckne, poison := c.poison || p.poison }
    if p.verdict = 2 then c.meet stCheckToleranceMiss else c)

/-- A source number for the signals of a slot's passes. -/
def passSrc (n k : Nat) : Nat := 2 ^ 20 + 8 * n + k

/-- The outputs of a judged pass leave. -/
def State.deliverPass (s : State) (n : Nat) (p : Pass) : State :=
  let h := p.held
  let s := s.putOut n p p.d.out h.main
  let s := s.putOut n p p.d.scout h.scales
  let s := s.putOut n p p.d.side h.side
  let s := s.putOut n p p.d.tkout h.cands
  let s := (s.releaseStot p).releaseFlags p
  let s := s.updReg (rMtPasscnt (if p.byPartner then p.partnerEng else n)) (· + 1)
  if p.d.sig then s.sendSig n { gate := p.d.sigGate, ctx := p.ctx, gen := p.gen, src := passSrc n p.slot } else s

/-- Do the addresses of a pass's stot to this device lie on a page that is being moved, so that it waits (R200)? The tile
at ADDR2 has the pattern's layout. -/
def State.stotMoving (s : State) (p : Pass) : Bool :=
  match p.d.stot with
  | none => false
  | some d =>
    let h := d.stot
    let shift : Int := if h.red then ((h.rank * d.rpitch : Nat) : Int) else 0
    let a0 : Int := d.addrs.headD 0
    let as := d.addrs.map (fun a => a + shift) ++ (if h.red then d.addrs.map (fun a => (h.addr2 : Int) + (a - a0)) else [])
    s.isSelf d.peer && s.anyMoving (s.ent d.peer).tctx as

/-- RELEASE: the pass that issued first leaves the tile; a pre-empted replay keeps its place where a successor waits for
it. One that is unresolved delivers nothing; a judged one
writes its outputs, sends its stot and signals; an output pattern that faults freezes its context. -/
def execRelease (e : Fin 64) (s : State) : Host.Outcome State Fault Refusal :=
  let n : Nat := e
  match leastBy Pass.issueNo ((s.eng n).passes.filter (fun p =>
      p.phase != .queued && (p.phase != .saved || s.keepsPlace n p))) with
  | none => .next s
  | some p =>
    match p.phase with
    | .dead => .next (((s.dropPass n p.seq).settleRom p.cmd).wake n)
    | .judged =>
      if s.anyMoving p.ctx p.d.outAddrs ∨ s.stotMoving p then .next s
      else
        match s.outFault n p with
        | some (a, st) => .next ((s.dropPass n p.seq).streamFault n p.slot p.ctx p.cmd 2 true a st)
        | none => .next (((((s.deliverPass n p).touchVas p.ctx p.cmd p.d.outAddrs).dropPass n p.seq).settleRom p.cmd).wake n)
    | _ => .next s

end Sys2Proof.Machine
end

