-- ==== Sys2Proof/Machine/CmdPeer.lean ====
section
/-! DEFINITION. Gate signals and stots of commands, freezing (R141, R142, R177, R258, R259), and the peer table
(R269 to R271). -/

namespace Sys2Proof.Machine

/-! ### GATE_SIGNAL -/

/-- The acting context signals a gate; a gate that it does not own freezes it, and so does an overflow. -/
def gateSignalStart (s : State) (c : Cmd) : State :=
  let g := c.opf 0 8 8
  let n := s.hostOf (c.opf 0 0 6) c.ctx
  let v := c.opf 1 0 32
  if ¬ s.ownsGate n g c.ctx then (s.faultCtx c.ctx c.id stGateNotOwned).finishCmd c.id
  else if 0xFFFFFFFF < s.gateCount n g + v then
    ((((s.setGateCount n g 0xFFFFFFFF).setFld (rEsGate n g) 62 1 1).raiseArmed n c.ctx g).faultCtx c.ctx c.id stGateOverflow).finishCmd c.id
  else (s.addGate n g c.ctx v).finishCmd c.id

def gateSignalRow : CmdRow := { op := 0x2E, fields := [fm 0 6 + fm 8 8, fm 0 32], start := gateSignalStart }

/-- GATE_SIGNAL. -/
def execGateSignal (q : Fin 16384) (s : State) : Host.Outcome State Fault Refusal := acceptCmd gateSignalRow q s

/-! ### STOT_DISCARD -/

/-- Does a STOT_DISCARD of the command discard a reduction? -/
def Cmd.discards (c : Cmd) (r : Reduction) : Bool :=
  r.ctx == c.ctx && (c.opf 0 16 1 == 1 || (r.tag == c.opf 0 0 16 && r.addr2 == (c.op 1).toNat))

def stotDiscardRow : CmdRow :=
  { op := 0x2F, thaw := true, fields := [fm 0 17, fm 0 48],
    start := fun s c => { s with reds := s.reds.filter (fun r => !c.discards r) }.finishCmd c.id }

/-- STOT_DISCARD. -/
def execStotDiscard (q : Fin 16384) (s : State) : Host.Outcome State Fault Refusal := acceptCmd stotDiscardRow q s

/-! ### FREEZE and UNFREEZE (Table 9.6, R259) -/

/-- Does the partition own the master that a command names? 0, or the status that refuses it. -/
def masterCheck (s : State) (c : Cmd) : Nat :=
  let n := c.opf 0 16 14
  match c.opf 0 0 3 with
  | 0 =>
    if s.partOfQueue n ≠ some c.part then stNotOwner
    else if s.fld (rQpQ n) 61 1 = 0 then stCmdFieldInvalid else 0
  | 1 =>
    if 1024 ≤ n then stCmdFieldInvalid
    else if s.partOfCtx n ≠ some c.part then stNotOwner
    else if ¬ (s.ctx n).live then stCmdFieldInvalid else 0
  | 2 =>
    if 64 ≤ n then stCmdFieldInvalid
    else if c.ctx ≠ 0 then stNotOwner else 0
  | 3 =>
    if 96 ≤ n then stCmdFieldInvalid
    else if s.fld (rFabRstat (n / 2)) 30 1 = 1 ∧ s.fld (rFabRstat (n / 2)) 31 3 = c.part then 0 else stNotOwner
  | 4 =>
    if s.entState n = 0 then stPeerUnknown
    else if s.entPart n ≠ c.part then stNotOwner else 0
  | 5 =>
    if n = 0 ∨ 8 ≤ n then stCmdFieldInvalid
    else if c.ctx ≠ 0 then stNotOwner
    else if s.entState (hostEnt n) = 0 then stPeerUnknown else 0
  | _ => stCmdFieldInvalid

/-- Is the named master frozen? An engine is, too, that the hang procedure froze (Table 9.6). -/
def State.masterFrozen (s : State) (kind n : Nat) : Bool :=
  match kind with
  | 0 => s.fld (rQpQ n) 60 1 == 1
  | 1 => (s.ctx n).frozen.isSome
  | 2 => (s.eng n).frozen.isSome || (s.eng n).hung
  | 3 => s.fld (rFabPort n) 32 1 == 1
  | 4 => s.entState n == 2
  | _ => s.entState (hostEnt n) == 2

/-- FREEZE of a master: no event and no status, since no violation caused it. -/
def State.freezeMaster (s : State) (kind n : Nat) : State :=
  match kind with
  | 0 => s.setFld (rQpQ n) 60 1 1
  | 1 => (s.updCtx n (fun x => { x with frozen := some 0 })).stopLoads n
  | 2 => s.updEng n (fun e => { e with frozen := some 0 })
  | 3 => (s.setFld (rFabPort n) 32 1 1).setFld (rFabPort n) 48 16 0
  | 4 => (s.iceEnt n).opsFail n stPeerFrozen
  | _ => s.iceEnt (hostEnt n)

/-- Everything that a thaw lets go on is looked at again: waiting slots, and the ROM's commands of the
contexts. -/
def State.resume (s : State) : State :=
  let s := (s.engs.map Prod.fst).foldl (fun s n => s.wake n) s
  ((s.cmds.filter (fun c => c.st == .running && c.isRom)).map Cmd.id).foldl (fun s id => s.settleRom id) s

/-- UNFREEZE of a master that is frozen. DESIGN CHOICE (log 82): of an engine in the hang procedure it lets the contexts go
on that are no suspects; the procedure takes its course. -/
def State.thawMaster (s : State) (kind n : Nat) : State :=
  match kind with
  | 0 => s.setFld (rQpQ n) 60 1 0
  | 1 => (s.updCtx n (fun x => { x with frozen := none })).resume
  | 2 => ((s.updEng n (fun e => { e with frozen := none, hung := false })).returnCredits n).resume
  | 3 => (s.setFld (rFabPort n) 32 1 0).returnCredits (0x40 + n)
  | 4 => s.setEntState n (s.ent n).thawState
  | _ => s.setEntState (hostEnt n) (s.ent (hostEnt n)).thawState

/-- Is the master a fabric port that the teardown of its loading context froze (R342)? -/
def State.tornPort (s : State) (kind n : Nat) : Bool :=
  kind == 3 && s.fld (rFabPort n) 32 1 == 1 && s.fld (rFabPort n) 48 16 == stContextTornDown

def freezeRow : CmdRow :=
  { op := 0x30, fields := [fm 0 3 + fm 16 14], check := masterCheck,
    start := fun s c =>
      let k := c.opf 0 0 3
      let n := c.opf 0 16 14
      let own := (k == 1 && n == c.ctx) || (k == 0 && n == c.q)
      let s := if own then s.updCmd c.id (fun d => { d with froze := true }) else s
      (if s.masterFrozen k n then s else s.freezeMaster k n).finishCmd c.id }

/-- FREEZE. -/
def execFreeze (q : Fin 16384) (s : State) : Host.Outcome State Fault Refusal := acceptCmd freezeRow q s

def unfreezeRow : CmdRow :=
  { op := 0x31, thaw := true, fields := [fm 0 3 + fm 16 14], check := masterCheck,
    start := fun s c =>
      let k := c.opf 0 0 3
      let n := c.opf 0 16 14
      if s.tornPort k n then s.endCmd c.id stContextStale
      else (if s.masterFrozen k n then s.thawMaster k n else s).finishCmd c.id }

/-- UNFREEZE. -/
def execUnfreeze (q : Fin 16384) (s : State) : Host.Outcome State Fault Refusal := acceptCmd unfreezeRow q s

/-! ### PEER_SET (R269, R270, Table 10.5) -/

/-- The entry that PEER_SET and PEER_CLEAR name: INDEX, ENTRY and PART of OP0. -/
def Cmd.entry (c : Cmd) : Nat := if c.opf 0 14 2 = 0 then c.opf 0 0 14 else hostEnt (c.opf 0 16 3)

/-- The 128-byte block as words. -/
def State.peerBlock (s : State) (c : Cmd) : Except Nat (List W64) :=
  match s.vwords 0 0 c.ctx (c.op 1).toNat 16 with
  | .inr st => .error st
  | .inl (ws, po) => if po then .error (s.poisonStatus c.ctx (spanFrom (c.op 1).toNat 128)) else .ok ws

/-- A field of the block in network order, from byte `o`. -/
def blockBe (ws : List W64) (o n : Nat) : Nat := beNat (((ws.flatMap (fun w => leBytes 8 w.toNat)).drop o).take n)

/-- Reserved values and fields of a block for an entry. -/
def peerBlockOk (ws : List W64) : Bool :=
  let w (i : Nat) : W64 := ws.getD i 0
  bf (w 0) 62 2 == 0 && decide (bf (w 0) 31 3 ≤ 2) && bf (w 1) 14 50 == 0 &&
    (bf (w 0) 30 1 == 1 || blockBe ws 0x14 12 == 0) && (ws.drop 12).all (fun x => x == 0)

/-- Reserved fields of a block for an endpoint. -/
def endpointBlockOk (ws : List W64) : Bool :=
  blockBe ws 4 12 == 0 && (ws.drop 4).all (fun x => x == 0)

/-- The refusals of both commands but for the block's (R270). -/
def peerOwnerCheck (s : State) (c : Cmd) : Nat :=
  let kind := c.opf 0 14 2
  let p := c.opf 0 16 3
  if kind = 3 ∨ (kind ≠ 0 ∧ c.opf 0 0 14 ≠ 0) then stCmdFieldInvalid
  else if kind = 2 then (if c.ctx ≠ 0 then stNotManagement else 0)
  else if c.ctx ≠ 0 ∧ p ≠ c.part then stNotOwner
  else if kind = 0 ∧ s.entState c.entry ≠ 0 ∧ s.entPart c.entry ≠ p then stNotOwner
  else 0

/-- Is the endpoint of a partition set (R270)? -/
def State.endpointSet (s : State) (p : Nat) : Bool := tget ({} : Endpoint) s.net.endpoints p != {}

def peerSetCheck (s : State) (c : Cmd) : Nat :=
  match peerOwnerCheck s c with
  | 0 =>
    if (if c.opf 0 14 2 = 2 then s.endpointSet (c.opf 0 16 3) else s.entState c.entry ≠ 0) then stInUse
    else
      match s.peerBlock c with
      | .error st => st
      | .ok ws =>
        if (if c.opf 0 14 2 = 2 then endpointBlockOk ws else peerBlockOk ws) then 0 else stCmdFieldInvalid
  | st => st

/-- Sets an entry from a block: it is up, with new paths, SEQ 0 and TXN 1. Writes that wait on an unset host
entry stay. -/
def State.setPeer (s : State) (i part : Nat) (ws : List W64) : State :=
  let w (j : Nat) : W64 := ws.getD j 0
  let v6 := bf (w 0) 30 1
  let np := bf (w 0) 34 6
  let cw := max 1 (s.fld rCtCc 32 16) * 1024
  let key (o : Nat) : Nat := leNat (((ws.flatMap (fun x => leBytes 8 x.toNat)).drop o).take 32)
  let r := s.newPaths (np + 1)
  let old := r.2.ent i
  let e : Entry :=
    { udp := bf (w 0) 0 16, rindex := bf (w 0) 16 14, tctx := bf (w 0) 40 10, tgen := bf (w 0) 50 12,
      epoch := bf (w 1) 0 8, dscp := bf (w 1) 8 6, ip := if v6 = 1 then blockBe ws 0x10 16 else blockBe ws 0x10 4,
      txKey := key 0x20, rxKey := key 0x40, paths := r.1, tx := old.tx }
  (r.2.setEnt i e).setReg (entReg i)
    (BitVec.ofNat 64 (fv 61 3 1 + fv 58 3 part + fv 57 1 v6 + fv 54 3 (bf (w 0) 31 3) + fv 48 6 np + fv 0 32 cw))

/-- The key bytes of the block are zeroed once it has been read (R270). -/
def State.wipeKeys (s : State) (c : Cmd) : State :=
  (s.scatter 0 0 c.ctx false (spanFrom ((c.op 1).toNat + 0x20) 0x40) (List.replicate 0x40 0) false).1

def peerSetStart (s : State) (c : Cmd) : State :=
  match s.peerBlock c with
  | .error st => s.endCmd c.id st
  | .ok ws =>
    let p := c.opf 0 16 3
    let s := s.wipeKeys c
    let s := if c.opf 0 14 2 = 2 then
        let x : Endpoint := { v4 := blockBe ws 0 4, v6 := blockBe ws 0x10 16 }
        { s with net := { s.net with endpoints := tset {} s.net.endpoints p x } }
      else s.setPeer c.entry p ws
    s.finishCmd c.id

def peerSetRow : CmdRow :=
  { op := 0x38, fields := [fm 0 19, fm 0 48], check := peerSetCheck, start := peerSetStart }

/-- PEER_SET. -/
def execPeerSet (q : Fin 16384) (s : State) : Host.Outcome State Fault Refusal := acceptCmd peerSetRow q s

/-! ### PEER_CLEAR (R271) -/

/-- An entry is cleared: at once where no packet has been transmitted and not acknowledged, and else when the
last one is, or after 2 ms; a further clear waits with the first. -/
def State.clearPeer (s : State) (i id : Nat) : State :=
  let ids := if id = 0 then [] else [id]
  if s.entState i = 0 then s.finishCmd id
  else if s.entLife i = 4 then s.updEnt i (fun e => { e with clearCmds := e.clearCmds ++ ids })
  else
    let s := (s.fallEnt i 4).updEnt i (fun e => { e with clearDt := s.dt.toNat, clearCmds := ids })
    s.ackClear i

def peerClearStart (s : State) (c : Cmd) : State :=
  if c.opf 0 14 2 = 2 then
    { s with net := { s.net with endpoints := tdel (c.opf 0 16 3) s.net.endpoints } }.finishCmd c.id
  else s.clearPeer c.entry c.id

def peerClearRow : CmdRow := { op := 0x39, fields := [fm 0 19], check := peerOwnerCheck, start := peerClearStart }

/-- PEER_CLEAR. -/
def execPeerClear (q : Fin 16384) (s : State) : Host.Outcome State Fault Refusal := acceptCmd peerClearRow q s

end Sys2Proof.Machine
end

