-- ==== Sys2Proof/Machine/CxlLink.lean ====
section
/-! DEFINITION. CXL ports (R199, R301 to R306): bring-up, refusal and loss; and zeroing of an expander. -/

namespace Sys2Proof.Machine

/-! ### State and readiness -/

def State.cxlSt (s : State) (p : Nat) : Nat := s.fld (rCxlPstat p) 0 3

/-- CXL_PSTAT of a port: STATE and CAUSE. -/
def State.setCxl (s : State) (p st cause : Nat) : State := (s.setFld (rCxlPstat p) 0 3 st).setFld (rCxlPstat p) 8 8 cause

/-- Lanes of a port. -/
def cxlLanes (p : Nat) : List Nat := (List.range 16).map (fun i => 16 + 16 * p + i)

/-- The lanes of a port go off: no rate, width, reversal or flit mode is in use. -/
def State.cxlLanesOff (s : State) (p : Nat) : State :=
  (((cxlLanes p).foldl (fun s l => s.laneOff l) s).setReg (rCxlLink p) 0).setFld (rCxlPstat p) 6 2 0

/-- PWR_READY.CXL is set once every enabled port has CXLPn, is refused, or has found no device in its first 100 ms
(R411). -/
def State.syncCxl (s : State) : State :=
  let ok (p : Nat) : Bool := s.links.cxlDis.contains p || s.fld rPwrReady (7 + p) 1 == 1 || s.cxlSt p == 5 ||
    s.links.noDev.contains p
  if [0, 1].all ok then s.setFld rPwrReady 3 1 1 else s

/-- A port leaves STATE 4: its readiness goes, its lanes are off, its scans stop, and running commands that touched
it complete with CXL_LINK_DOWN (Table 7.6). -/
def State.cxlLeave (s : State) (p : Nat) : State :=
  if s.cxlSt p = 4 then
    let s := if s.fld rPwrReady (7 + p) 1 = 1 then (s.setFld rPwrReady (7 + p) 1 0).setFld rPwrReady 3 1 0 else s
    { s with cmds := s.cmds.map (fun c => if c.ports.contains p then c.meet stCxlLinkDown else c) }
  else s

/-- HP0 is told of a link that is refused or lost. -/
def State.cxlEvent (s : State) (p cause : Nat) : State := s.event 0 stCxlLinkDown none (fv 0 1 p + fv 8 8 cause) 0

/-! ### Bring-up (Table 11.5) -/

/-- A port begins to detect, where it is enabled: the EN written takes effect (R305). -/
def State.cxlBegin (s : State) (p : Nat) : State :=
  let en := s.fld (rCxlPctl p) 0 1
  let dis := s.links.cxlDis.filter (· != p)
  let s := { s with links := { s.links with cxlDis := if en = 0 then dis ++ [p] else dis } }
  if en = 0 then s.setCxl p 0 0
  else
    let s := s.setCxl p 1 0
    { s with links := { s.links with detectAt := oset s.links.detectAt p (some s.dt.toNat),
                                     noDev := s.links.noDev.filter (fun x => x != p) } }

/-- CXL_DETECT: receiver detection on a port that has no device. -/
def execCxlDetect (port : Fin 2) (found : Bool) (s : State) : Host.Outcome State Fault Refusal :=
  if s.cxlSt port ≠ 1 then .next s
  else if found then
    .next (((cxlLanes port).foldl (fun s l => s.laneTrain l 2) (s.setFld (rCxlPstat port) 0 3 2)).setFld
      (rCxlLink port) 8 4 2)
  else
    match oget s.links.detectAt port with
    | none => .next s
    | some t =>
      if t + dtMs 100 ≤ s.dt.toNat ∧ ¬ s.links.noDev.contains (port : Nat) then
        .next ({ s with links := { s.links with noDev := s.links.noDev ++ [(port : Nat)] } }).syncCxl
      else .next s

/-- MAXRATE in force: 4 to 7. -/
def State.cxlMax (s : State) (p : Nat) : Nat := max 4 (min 7 (s.fld (rCxlPctl p) 4 4))

/-- The first check of Table 11.6 that a device fails, as its CAUSE. -/
def State.cxlRefusal (s : State) (p : Nat) (d : CxlDev) : Option Nat :=
  if ¬ d.isCxl then some 1
  else if d.wantsCache then some 2
  else if d.isSwitch then some 3
  else if ¬ d.memClass then some 4
  else if d.multi then some 5
  else if d.width < 4 ∨ min d.rate (s.cxlMax p) < 4 then some 6
  else if d.cap = 0 then some 7
  else none

/-- The operating width: x16, x8 or x4. -/
def cxlWidth (d : CxlDev) : Nat := if 16 ≤ d.width then 16 else if 8 ≤ d.width then 8 else 4

/-- Steps 2 to 6 on a device that has been detected. -/
def State.cxlTrain (s : State) (p : Nat) (d : CxlDev) : State :=
  if ¬ d.trains then ((s.cxlLanesOff p).setCxl p 1 10)
  else
    match s.cxlRefusal p d with
    | some cause =>
      let s := ((s.cxlLanesOff p).setCxl p 5 cause).setReg (rCxlEvdt p) s.dt
      (s.cxlEvent p cause).syncCxl
    | none =>
      let rate := min d.rate (s.cxlMax p)
      let w := cxlWidth d
      let b (x : Bool) : Nat := if x then 1 else 0
      let s := s.cxlLanesOff p
      let ls := if d.reversed then (cxlLanes p).drop (16 - w) else (cxlLanes p).take w
      let s := ls.foldl (fun s l => (s.setFfe l).laneUp l rate) s
      let s := s.setReg (rCxlPstat p) (BitVec.ofNat 64 (fv 7 1 (b (d.flit256 || rate == 7)) + fv 6 1 (b d.reversed) + 4))
      let s := s.setReg (rCxlLink p) (BitVec.ofNat 64 (fv 8 4 rate + fv 0 5 w))
      let s := s.setReg (rCxlDevid p) (BitVec.ofNat 64 (fv 16 16 d.device + fv 0 16 d.vendor))
      (s.setReg (rCxlCap p) (BitVec.ofNat 64 (min 4096 d.cap))).setReg (rCxlEvdt p) s.dt

/-- CXL_BRING_UP: a detected device is trained, enumerated, checked and mapped, or refused. -/
def execCxlBringUp (port : Fin 2) (dev : CxlDev) (s : State) : Host.Outcome State Fault Refusal :=
  if s.cxlSt port = 2 then .next (s.cxlTrain port dev) else .next s

/-- CXL_HOT_ATTACH: an expander attached to a port that detects is brought up; nothing of it is granted. -/
def execCxlHotAttach (port : Fin 2) (dev : CxlDev) (s : State) : Host.Outcome State Fault Refusal :=
  if s.cxlSt port = 1 then .next (s.cxlTrain port dev) else .next s

/-! ### Loss, recovery, media (R199, R295, R304) -/

/-- CXL_LINK_DOWN: a link in STATE 4 is lost, or its expander is silent. -/
def execCxlLinkDown (port : Fin 2) (s : State) : Host.Outcome State Fault Refusal :=
  if s.cxlSt port ≠ 4 then .next s
  else
    let s := ((s.cxlLeave port).setCxl port 6 8).setReg (rCxlEvdt port) s.dt
    .next ((s.cxlLanesOff port).cxlEvent port 8)

/-- CXL_MEDIA: a media event record goes to C0 as an event. -/
def execCxlMedia (port : Fin 2) (s : State) : Host.Outcome State Fault Refusal :=
  if s.cxlSt port = 4 then .next (s.event 0 stCxlMedia none 0 0) else .next s

/-- PCIE_RECOVERY: a link passes through Recovery: scans in progress stop, and replays are counted. -/
def execPcieRecovery (port : Fin 2) (replays : Nat) (s : State) : Host.Outcome State Fault Refusal :=
  if s.cxlSt port ≠ 4 then .next s
  else
    .next (((cxlLanes port).foldl (fun s l => s.abortScan l) s).updReg (rCxlErr port) (fun w => bsat w 0 24 replays))

/-- A CXL link reset (Table 17.1): the port's counts are cleared, a written EN takes effect, and it detects anew. -/
def State.resetCxl (s : State) (p : Nat) : State :=
  let s := (s.cxlLeave p).cxlLanesOff p
  let s := (cxlLanes p).foldl (fun s l => (s.setReg (rLeye l) 0).setReg (rLeyedt l) 0) s
  let s := [rCxlPstat p, rCxlLink p, rCxlDevid p, rCxlCap p, rCxlErr p, rCxlEvdt p].foldl (fun s r => s.setReg r 0) s
  (s.setFld rPwrZero (32 + 16 * p) 16 0).cxlBegin p

/-! ### Zeroing (R409) -/

/-- A range of memory keys is zeroed: nothing of it is listed, and none of its lines is poisoned. -/
def State.zeroKeys (s : State) (lo n : Nat) : State :=
  { s with mem := s.mem.filter (fun c => !inRange lo n c.1),
           poison := s.poison.filter (fun c => !inRange (lo / 64) (n / 64) c.1) }

/-- CXL_ZEROING: the mapped capacity of a port in STATE 4 is zeroed, and CXLPn is set. -/
def execCxlZeroing (port : Fin 2) (s : State) : Host.Outcome State Fault Refusal :=
  if s.cxlSt port ≠ 4 ∨ s.fld rPwrReady (7 + (port : Nat)) 1 = 1 then .next s
  else
    let n := s.cxlCap port
    let s := (s.zeroKeys (cxlBase port) n).setFld rPwrZero (32 + 16 * (port : Nat)) 16 (n / 2 ^ 30)
    .next (s.setFld rPwrReady (7 + (port : Nat)) 1 1).syncCxl

end Sys2Proof.Machine
end

