-- ==== Sys2Proof/Machine/Migrate.lean ====
section
/-! DEFINITION. HBM regions, re-keys, skew, repair and retirement, page moves, and the migration engines (R189 to
R202). -/

namespace Sys2Proof.Machine

/-! ### HBM_REGION (R189) -/

/-- The dies (bit 0 CD0, bit 1 CD1) on which a mode places slices. -/
def modeOn (mode die : Nat) : Bool := match mode with | 0 => true | 1 => die == 0 | 2 => die == 1 | _ => false

/-- The slices that a mode and a first slice take: one, or two for a local region. -/
def modeSlices (mode slice : Nat) : List Nat := if mode = 0 then [slice] else [slice, slice + 1]

/-- Do two placements share a slice of a pseudo-channel? -/
def slicesMeet (m1 s1 m2 s2 : Nat) : Bool :=
  [0, 1].any (fun d => modeOn m1 d && modeOn m2 d) && (modeSlices m1 s1).any (fun x => (modeSlices m2 s2).contains x)

def State.rgnMode (s : State) (r : Nat) : Nat := s.fld (rHbmRgn r) 0 2
def State.rgnSlice (s : State) (r : Nat) : Nat := s.fld (rHbmRgn r) 4 9
def State.rgnOn (s : State) (r : Nat) : Bool := s.fld (rHbmRgn r) 14 1 == 1

/-- Does a placement share a slice with a region? -/
def State.rgnMeets (s : State) (r mode slice : Nat) : Bool := slicesMeet (s.rgnMode r) (s.rgnSlice r) mode slice

/-- Does a placement share a slice with an enabled region but `r`? -/
def State.sliceTaken (s : State) (r mode slice : Nat) : Bool :=
  (List.range 378).any (fun j => j != r && s.rgnOn j && s.rgnMeets j mode slice)

/-- Does a re-key under way use a region as its source or its staging region (R201)? -/
def State.rekeyUses (s : State) (r : Nat) : Bool := s.rekeys.any (fun k => k.r == r || k.t == r)

/-- HBM_RGN's word for a HBM_REGION command. -/
def regionWord (c : Cmd) : Nat := fv 14 1 (c.opf 0 9 1) + fv 4 9 (c.opf 0 14 9) + fv 2 2 (c.opf 0 12 2) + fv 0 2 (c.opf 0 10 2)

def hbmRegionCheck (s : State) (c : Cmd) : Nat :=
  let r := c.opf 0 0 9
  let mode := c.opf 0 10 2
  let slice := c.opf 0 14 9
  let off := bset (s.reg (rHbmRgn r)) 14 1 0
  if 378 ≤ r ∨ mode = 3 ∨ (modeSlices mode slice).any (fun x => decide (378 ≤ x)) then stCmdFieldInvalid
  else if s.rekeyUses r then stInUse
  else if s.rgnOn r ∧ BitVec.ofNat 64 (regionWord c) ≠ off ∧ BitVec.ofNat 64 (regionWord c) ≠ s.reg (rHbmRgn r) then stInUse
  else if c.opf 0 9 1 = 1 ∧ s.sliceTaken r mode slice then stHbmSliceConflict
  else 0

def hbmRegionRow : CmdRow :=
  { op := 0x06, mgmt := true, fields := [fm 0 23], check := hbmRegionCheck, tiers := fun _ _ => [readyHbm],
    start := fun s c => (s.setReg (rHbmRgn (c.opf 0 0 9)) (BitVec.ofNat 64 (regionWord c))).finishCmd c.id }

/-- HBM_REGION. -/
def execHbmRegion (q : Fin 16384) (s : State) : Host.Outcome State Fault Refusal := acceptCmd hbmRegionRow q s

/-! ### REKEY (R201) -/

def rekeyCheck (s : State) (c : Cmd) : Nat :=
  let r := c.opf 0 0 9
  let t := c.opf 0 9 9
  if 378 ≤ r ∨ 378 ≤ t ∨ ¬ s.rgnOn r then stCmdFieldInvalid
  else if r = t ∨ s.rgnOn t ∨ s.rgnMode t ≠ s.rgnMode r then stMigNoStaging
  else if s.sliceTaken t (s.rgnMode t) (s.rgnSlice t) then stHbmSliceConflict
  else if s.rekeys.any (fun k =>
      s.rgnMeets k.r (s.rgnMode t) (s.rgnSlice t) || s.rgnMeets k.t (s.rgnMode t) (s.rgnSlice t)) then stHbmSliceConflict
  else 0

def rekeyStart (s : State) (c : Cmd) : State :=
  let r := c.opf 0 0 9
  let k : Rekey := { r := r, t := c.opf 0 9 9, key := c.opf 0 18 2, cmd := c.id }
  ({ s with rekeys := s.rekeys ++ [k] }.setFld (rHbmRgn r) 13 1 1).addWork (.rekey r) (s.queueClass c.q)

/-- A region that is being re-keyed is re-keyed again once that is done. -/
def rekeyRow : CmdRow :=
  { op := 0x07, mgmt := true, fields := [fm 0 20], check := rekeyCheck, start := rekeyStart,
    tiers := fun _ _ => [readyHbm], waits := fun s c => s.rekeys.any (fun k => k.r == c.opf 0 0 9) }

/-- REKEY. -/
def execRekey (q : Fin 16384) (s : State) : Host.Outcome State Fault Refusal := acceptCmd rekeyRow q s

/-- The end of a re-key (R201 step 3). -/
def State.rekeyDone (s : State) (k : Rekey) : State :=
  let old := s.reg (rHbmRgn k.r)
  let sl := s.rgnSlice k.t
  let s := s.setReg (rHbmRgn k.r) (bset (bset (bset old 4 9 sl) 2 2 k.key) 13 1 0)
  let s := s.updReg (rHbmRgn k.t) (fun w => bset (bset w 4 9 (bf old 4 9)) 2 2 (bf old 2 2))
  ({ s with rekeys := s.rekeys.filter (fun x => x.r != k.r) }.dropWork (.rekey k.r)).finishCmd k.cmd

/-- Copies the next chunk of a re-key, granule by granule (R201 step 2). -/
def State.rekeyChunk (s : State) (k : Rekey) (flaws : List (Nat × Nat)) : State :=
  let s := s.spanMeets (k.r * 2 ^ 30 + k.cursor * 65536) flaws
  let s := (List.range 256).foldl (fun s g =>
    let a := k.r * 2 ^ 30 + k.cursor * 65536 + g * 256
    s.copyCells (hbmCell (s.hbmReloc (s.oldPlace k.r a))) (hbmCell (s.hbmReloc (s.newPlace k a))) 256) s
  let k' := { k with cursor := k.cursor + 1 }
  let s := { s with rekeys := s.rekeys.map (fun x => if x = k then k' else x) }
  if 16384 ≤ k'.cursor then s.rekeyDone k' else s

/-! ### Skew (R192) -/

/-- HBM_SKEW_SAMPLE_EXPIRY: a pseudo-channel's sample, with the sum of its die's occupancies and its requests per
region over the window. -/
def execHbmSkewSampleExpiry (pc : Fin 512) (occ : Fin 65) (sum : Nat) (counts : List (Fin 378 × Nat)) (s : State) :
    Host.Outcome State Fault Refusal :=
  let th := nearLimit 4 64 (s.fld rHbmSkctl 0 7)
  let hot := s.fld rHbmSkctl 16 1 == 1 && decide (th ≤ occ) && decide (4 * sum < th * 256)
  let h := Hot.step (oget s.hbmHot pc) hot s.dt.toNat
  let put (s : State) (h : Option Hot) : State := { s with hbmHot := oset s.hbmHot pc h }
  if Hot.due h s.dt.toNat (dtMs (max 1 (s.fld rHbmSkctl 8 8))) then
    let cs := counts.map (fun x => ((x.1 : Nat), x.2))
    let top := (topSource cs).getD (0, 0)
    let total := max 1 (cs.map Prod.snd).sum
    let w := fv 34 7 (100 * top.2 / total) + fv 25 9 top.1 + fv 23 2 (s.fld (rHbmRgn top.1) 2 2) + fv 14 9 pc
    let s := (s.setReg rHbmSklog (logWord (s.reg rHbmSklog) w)).setReg rHbmSkdt s.dt
    .next (put (s.event 0 stSkew none w 0) (h.map (fun y => { y with raised := true })))
  else .next (put s h)

/-! ### Repair and retirement (R194 to R197) -/

/-- A pseudo-channel is to be retired, for a RETIRE command or none (0). -/
def State.retirePc (s : State) (pc cmd : Nat) : State :=
  let k := pc / 64
  if s.pcRets.any (fun r => r.pc / 64 == k) then
    ((s.setFld rHbmStatus (16 + k) 1 1).event 0 stHbmExhausted none 0 0).finishCmd cmd
  else
    let s := (s.setFld rHbmStatus (8 + k) 1 1).setReg rHbmPcret (BitVec.ofNat 64 (fv 10 1 1 + fv 9 1 1 + fv 0 9 pc))
    let r : PcRet := { pc := pc, cmd := cmd }
    ({ s with pcRets := s.pcRets ++ [r] }.event 0 stHbmPcRetire none 0 0).addWork (.pcRet pc) 0

/-- Has an uncorrectable error of a pseudo-channel recurred within 1 s (R195)? -/
def State.ueRecurs (s : State) (pc : Nat) : Bool :=
  let es := s.hbmErrs.filter (fun x => x.ue && x.pc == pc)
  es.zipIdx.any (fun x => (es.drop (x.2 + 1)).any (fun y => decide (y.dt ≤ x.1.dt + dtMs 1000)))

/-- Is a row to be repaired: it has yielded HBM_PPRTH.CE corrected errors within 24 h, or an uncorrectable one (R194)? -/
def State.repairDue (s : State) (pc bank row : Nat) : Bool :=
  let es := s.hbmErrs.filter (fun x => x.pc == pc && x.bank == bank && x.row == row && decide (s.dt.toNat < x.dt + dtMs 86400000))
  decide (max 1 (s.fld rHbmPprth 0 8) ≤ (es.filter (fun x => !x.ue)).length) || es.any HbmErr.ue

/-- HBM_PC_RETIRE: an uncorrectable error has recurred within 1 s. -/
def execHbmPcRetire (pc : Fin 512) (s : State) : Host.Outcome State Fault Refusal :=
  if s.ueRecurs pc then
    .next ({ s with hbmErrs := s.hbmErrs.filter (fun x => !(x.ue && x.pc == (pc : Nat))) }.retirePc pc 0)
  else .next s

/-- SOFT_REPAIR (R194): a row that is to be repaired is, and keeps its data; where the bank's repair resources are exhausted
its pseudo-channel is retired (R195). -/
def execSoftRepair (pc : Fin 512) (bank row : Nat) (left : Bool) (s : State) : Host.Outcome State Fault Refusal :=
  if ¬ s.repairDue pc bank row then .next s
  else
    let s := { s with hbmErrs := s.hbmErrs.filter (fun x => !(x.pc == (pc : Nat) && x.bank == bank && x.row == row)) }
    if left then .next (s.healthChange (fun h => h ++ [.repair pc bank row])) else .next (s.retirePc pc 0)

/-- Copies the next chunk of a pseudo-channel to the spare, each line read with correction (R196 steps 2 to 4). -/
def State.pcChunk (s : State) (r : PcRet) (flaws : List (Nat × Nat)) : State :=
  let s := flaws.foldl (fun s x => (s.hbmMeets (hbmCell (r.pc, r.cursor * 65536 + 64 * x.1)) x.2).1) s
  let s := s.copyCells (hbmCell (r.pc, r.cursor * 65536)) (hbmCell (spareCell r.pc (r.cursor * 65536))) 65536
  let shown := s.fld rHbmPcret 0 9 == r.pc
  let fin := decide (378 * 32 ≤ r.cursor + 1)
  let r' := { r with cursor := r.cursor + 1, finished := fin }
  let s := { s with pcRets := s.pcRets.map (fun x => if x = r then r' else x) }
  let s := if shown then s.setFld rHbmPcret 32 32 (r.cursor + 1) else s
  if fin then
    let s := if shown then s.setFld rHbmPcret 10 1 0 else s
    ((s.healthChange (fun h => h ++ [.pc r.pc s.dt])).dropWork (.pcRet r.pc)).finishCmd r.cmd
  else s

/-! ### RETIRE -/

def retireCheck (s : State) (c : Cmd) : Nat :=
  let u := c.opf 0 8 10
  match c.opf 0 0 2 with
  | 0 => if 64 ≤ u then stCmdFieldInvalid else if (s.eng u).retired ∨ (s.eng u).retiring.isSome then stEngineRetired else 0
  | 1 => if 512 ≤ u then stCmdFieldInvalid else 0
  | 2 => if 32 ≤ u ∨ ¬ s.chList.contains (u / 4) ∨ s.ddrPr ≤ u % 4 then stCmdFieldInvalid else 0
  | _ => stCmdFieldInvalid

/-- Kind 0 completes at ENGINE_RETIREMENT. -/
def retireStart (s : State) (c : Cmd) : State :=
  let u := c.opf 0 8 10
  match c.opf 0 0 2 with
  | 0 => s.updEng u (fun e => { e with retiring := some 3 })
  | 1 => s.retirePc u c.id
  | _ => s.retireRank { ch := u / 4, phys := u % 4, cmd := c.id, cls := s.queueClass c.q }

def retireRow : CmdRow :=
  { op := 0x08, mgmt := true, fields := [fm 0 2 + fm 8 10], check := retireCheck, start := retireStart,
    tiers := fun _ c => match c.opf 0 0 2 with | 1 => [readyHbm] | 2 => [2] | _ => [] }

/-- RETIRE. -/
def execRetire (q : Fin 16384) (s : State) : Host.Outcome State Fault Refusal := acceptCmd retireRow q s

/-! ### PAGE_MOVE (R200) -/

/-- The leaf of a virtual address: its entry's device address, its page size's exponent, and its page. -/
def State.leafOf (s : State) (va : Nat) : Nat → Nat → Option (Nat × Nat × Nat)
  | lv, table =>
    let sh := 12 + 9 * lv
    let idx := (va >>> sh) % 512
    match s.tableEntry lv table idx with
    | .inr _ => none
    | .inl w =>
      if isLeaf lv w then some (table + 8 * idx, sh, bf w 12 36 * 4096)
      else match lv with
        | 0 => none
        | lv + 1 => s.leafOf va lv (bf w 12 36 * 4096)

/-- The leaf of an address of context c. -/
def State.ctxLeaf (s : State) (c va : Nat) : Option (Nat × Nat × Nat) :=
  match (s.ctx c).root with | none => none | some r => s.leafOf va 3 r

/-- The list of a PAGE_MOVE: virtual page, exponent of its size, destination; or the status that refuses it. -/
def State.pageList (s : State) (c : Cmd) : Except Nat (List (Nat × Nat × Nat)) :=
  let n := (c.op 1).toNat
  if n = 0 ∨ 4096 < n then .error stCmdFieldInvalid
  else
    match s.vwords 0 0 c.ctx (c.op 0).toNat (2 * n) with
    | .inr st => .error st
    | .inl (_, true) => .error (s.poisonStatus c.ctx (spanFrom (c.op 0).toNat (16 * n)))
    | .inl (ws, false) =>
      (List.range n).foldr (fun i (r : Except Nat (List (Nat × Nat × Nat))) =>
        let w := ws.getD (2 * i) 0
        let d := (ws.getD (2 * i + 1) 0).toNat
        let sh := if bf w 48 1 = 1 then 21 else 12
        if bf w 49 15 ≠ 0 ∨ bf w 0 48 % 2 ^ sh ≠ 0 ∨ d % 2 ^ sh ≠ 0 ∨ 2 ^ 48 ≤ d then .error stCmdFieldInvalid
        else match r with | .error st => .error st | .ok l => .ok ((bf w 0 48, sh, d) :: l)) (.ok [])

/-- The 4 KiB parts of a page of 2^`sh` bytes. -/
def pageParts (a sh : Nat) : List Nat := (List.range (2 ^ (sh - 12))).map (fun i => a + 4096 * i)

/-- What is wrong with one page of the list: 0 nothing. Every part of the source and of the destination must be granted. -/
def State.pageCheck (s : State) (c : Cmd) (x : Nat × Nat × Nat) : Nat :=
  match s.ctxLeaf c.ctx x.1 with
  | none => stXlateFault
  | some (_, sh, src) =>
    if sh ≠ x.2.1 then stMigPageSize
    else
      ((pageParts src sh ++ pageParts x.2.2 sh).findSome? (fun a =>
        if s.region a = .regs then some stPermFault
        else match s.leafCheck c.ctx c.part a true with | .bad st => some st | .ok _ => none)).getD 0

def pageMoveCheck (s : State) (c : Cmd) : Nat :=
  match s.pageList c with
  | .error st => st
  | .ok l =>
    if l.any (fun x => s.pageCheck c x == stMigPageSize) then stMigPageSize
    else ((l.map (s.pageCheck c)).find? (fun st => st != 0)).getD 0

def pageMoveStart (s : State) (c : Cmd) : State :=
  match s.pageList c with
  | .error st => s.endCmd c.id st
  | .ok l =>
    (s.updCmd c.id (fun d => { d with todo := l.map (fun x => [x.1, x.2.1, x.2.2]), aux := [0, 0] })).addWork
      (.pages c.id) (s.queueClass c.q)

def pageMoveRow : CmdRow :=
  { op := 0x2C, fields := [fm 0 48, fm 0 13], check := pageMoveCheck, start := pageMoveStart,
    tiers := fun s c => match s.pageList c with
      | .error _ => []
      | .ok l => (l.filter (fun x => isTier (s.region x.2.2))).map (fun x => tierBit x.2.2) }

/-- PAGE_MOVE. -/
def execPageMove (q : Fin 16384) (s : State) : Host.Outcome State Fault Refusal := acceptCmd pageMoveRow q s

/-- The eight bytes at `a` become undefined (R1): free bytes. -/
def State.wildWord (s : State) (a : Nat) : State :=
  { s with free := s.free + 1 }.setBytes a ((List.range 8).map (fun i => Config.freeByte s.free (a + i)))

/-- A page's copy is complete: its leaf is rewritten and its mark cleared, and what waited goes on. `lost` has bit 0 set
where the source's CXL link was lost, bit 1 where the destination's was: the page then keeps its mapping (Table 7.7). Where
software has changed the leaf meanwhile, the leaf and the status are free values (R200, R1). -/
def State.pageDone (s : State) (c : Cmd) (m : MovePage) (lost : Nat) (rest : List (List Nat)) : State :=
  let s := { s with moves := s.moves.filter (fun x => !(x.ctx == c.ctx && x.va == m.va)) }
  let wild := s.word m.entry != m.old
  let n := s.free
  let s := if wild then
      s.wildWord m.entry
    else if 2 ≤ lost then s
    else s.setBytes m.entry (leBytes 8 (bset m.old 12 36 (m.dst / 4096)).toNat)
  let s := s.updCmd c.id (fun d =>
    let d := { d with todo := rest, aux := [0, 0] }
    let d := if lost = 0 then d else d.meet stCxlLinkDown
    if wild then d.meet (Config.freeNat n % 2 ^ 16) else d)
  (if rest.isEmpty then (s.dropWork (.pages c.id)).finishCmd c.id else s).resume

/-- A copy of `n` bytes makes ACTs on the DDR5 lines that it touches, as the accesses of migration engine e (R221). -/
def State.ddrSpan (s : State) (a n e : Nat) (write : Bool) : State :=
  (linesOf a n).foldl (fun s l =>
    match s.region l with
    | .ddr => (s.wakeAt l).ddrAccess (s.ddrLine l) (0xA8 + e) write
    | _ => s) s

/-- Copies `n` bytes of a page; poisoned lines stay poisoned. -/
def State.pageCopy (s : State) (src dst n : Nat) : State :=
  s.wrAll ((List.range n).map (fun i => let r := s.rdPlace (.dev (src + i)); (Place.dev (dst + i), r.1, r.2)))

/-- Does a copy touch a DDR5 channel that changes its timing set, so that it waits (Table 7.7)? -/
def State.changing (s : State) (a n : Nat) : Bool :=
  (linesOf a n).any (fun l => match s.region l with | .ddr => s.chState (s.ddrLine l).ch == 3 | _ => false)

/-- The page that a PAGE_MOVE is at, marked: its entry in the move table. -/
def State.pageMark (s : State) (c : Cmd) (va sh dst : Nat) : Option MovePage :=
  match s.moves.find? (fun m => m.ctx == c.ctx && m.va == va) with
  | some m => some m
  | none =>
    (s.ctxLeaf c.ctx va).map (fun x =>
      { ctx := c.ctx, va := va, size := 2 ^ sh, src := x.2.2, dst := dst, entry := x.1, old := s.word x.1 })

/-- Copies the next chunk of the page that a PAGE_MOVE is at. -/
def State.pageChunk (s : State) (c : Cmd) (e : Nat) (flaws : List (Nat × Nat)) : State :=
  match c.todo with
  | [va, sh, dst] :: rest =>
    match s.pageMark c va sh dst with
    | none =>
      let s := s.updCmd c.id (fun d => { d with todo := rest, aux := [0, 0] }.meet stXlateFault)
      if rest.isEmpty then (s.dropWork (.pages c.id)).finishCmd c.id else s
    | some m =>
      let off := c.aux.getD 0 0
      let n := min (2 ^ sh) 65536
      if s.changing (m.src + off) n || s.changing (dst + off) n then s
      else
        let s := if off = 0 then { s with moves := s.moves ++ [m] } else s
        let dead (a : Nat) : Bool := (cxlPortOf a).isSome && s.lost a
        let lost := (c.aux.getD 1 0) ||| (if dead m.src then 1 else 0) ||| (if dead dst then 2 else 0)
        let s := ((s.ddrSpan (m.src + off) n e false).ddrSpan (dst + off) n e true).spanMeets (m.src + off) flaws
        let s := ((s.pageCopy (m.src + off) (dst + off) n).touchDev c.id m.src).touchDev c.id dst
        if off + n < 2 ^ sh then s.updCmd c.id (fun d => { d with aux := [off + n, lost] })
        else s.pageDone c m lost rest
  | _ => (s.dropWork (.pages c.id)).finishCmd c.id

/-! ### MIGRATION_CHUNK -/

/-- The work of engine e: the one it has, or else the one of highest class that no engine has, the oldest first. -/
def State.workOf (s : State) (e : Nat) : Option Work :=
  match s.works.find? (fun w => w.eng == some e) with
  | some w => some w
  | none =>
    let free := s.works.filter (fun w => w.eng.isNone)
    let top := free.foldl (fun m w => min m w.cls) 4
    free.find? (fun w => w.cls == top)

/-- One chunk of a work of engine e. -/
def State.workChunk (s : State) (w : Work) (e : Nat) (flaws : List (Nat × Nat)) : State :=
  match w.kind with
  | .pages id => match s.cmd id with | none => s.dropWork w.kind | some c => s.pageChunk c e flaws
  | .rekey r =>
    match s.rekeys.find? (fun k => k.r == r) with | none => s.dropWork w.kind | some k => s.rekeyChunk k flaws
  | .pcRet pc =>
    match s.pcRets.find? (fun r => r.pc == pc && !r.finished) with
    | none => s.dropWork w.kind
    | some r => s.pcChunk r flaws
  | .rankRet ch =>
    match s.ddr.rets.find? (fun r => r.ch == ch && !r.finished) with
    | none => s.dropWork w.kind
    | some r => s.rankChunk r e flaws

/-- The command whose work a work is, if any. -/
def State.workCmd (s : State) (w : Work) : Option Nat :=
  match w.kind with
  | .pages id => some id
  | .rekey r => (s.rekeys.find? (fun k => k.r == r)).map Rekey.cmd
  | .pcRet pc => (s.pcRets.find? (fun r => r.pc == pc)).map PcRet.cmd
  | .rankRet ch => (s.ddr.rets.find? (fun r => r.ch == ch)).map RankRet.cmd

/-- MIGRATION_CHUNK: an engine copies the next chunk of its work and meets errors on some of its lines. A command's
START is when its work's first chunk begins (Table 9.5). -/
def execMigrationChunk (e : ChunkRead) (s : State) : Host.Outcome State Fault Refusal :=
  match s.workOf e.eng with
  | none => .next s
  | some w =>
    let n := (if w.eng.isNone then 0 else w.chunks) + 1
    let mark (x : Work) : Work := if x.kind = w.kind then { x with eng := some (e.eng : Nat), chunks := n } else x
    let s := match w.eng, s.workCmd w with
      | none, some id => s.updCmd id (fun c => { c with start := s.dt })
      | _, _ => s
    let flaws := e.flaws.map (fun x => ((x.1 : Nat), (x.2 : Nat)))
    .next ({ s with works := s.works.map mark }.workChunk w e.eng flaws)

end Sys2Proof.Machine
end

