-- ==== Sys2Proof/Machine/EthFrame.lean ====
section
/-! DEFINITION. Frames that a sub-port takes in (R265, R268, R299, R391), and the PTP clock (R284 to R286). -/

namespace Sys2Proof.Machine

/-! ### Endpoints -/

/-- The partition whose endpoint has an address. -/
def State.endpointOf (s : State) (v6 : Bool) (ip : Nat) : Option Nat :=
  (List.range 8).find? (fun p =>
    let e := tget ({} : Endpoint) s.net.endpoints p
    ip != 0 && (if v6 then e.v6 == ip else e.v4 == ip))

/-- A frame that nothing takes is dropped and counted. -/
def State.unhandled (s : State) (p : Nat) : State := s.updReg (rEthRxdrop p) (fun w => bsat w 0 32 1)

/-- A Coroc packet that fails the entry check is dropped and counted (R268). -/
def State.authFail (s : State) : State := s.updReg rCtRxerr (fun w => bsat w 32 32 1)

/-! ### Management messages (R390, R391) -/

/-- A packet of a management message adds to it. -/
def State.msgPart (s : State) (part : Nat) (boot : Bool) (p : Pkt) : State :=
  let mine (m : Mgmt) : Bool := m.part == part && m.boot == boot && !m.whole
  let old := s.sec.inbox.find? mine
  let m : Mgmt := match old with
    | some m => if p.first then { part := part, boot := boot, ip := p.src.1, port := p.src.2 } else m
    | none => { part := part, boot := boot, ip := p.src.1, port := p.src.2 }
  let m' : Mgmt := { m with bytes := m.bytes ++ p.body, whole := p.last }
  { s with sec := { s.sec with inbox := s.sec.inbox.filter (fun x => !mine x) ++ [m'] } }

/-- The management messages at the head of a host entry's reorder buffer are delivered. -/
def State.pumpMsgs (s : State) (part : Nat) : State :=
  let i := hostEnt part
  (List.range ((s.ent i).rx.length + (match (s.ent i).prior with | none => 0 | some x => x.rx.length))).foldl (fun s _ =>
    s.deliverOne i (fun p => p.kind == 4 && p.arg == 2) (fun s p => s.msgPart part (p.epoch == 0) p)) s

/-! ### Coroc packets (R268) -/

/-- Does a packet come in the bootstrap state's clear keys: on HP0's host entry, EPOCH 0 (R391)? -/
def bootPkt (h : List Byte) : Bool := (hdrEntry h).1 && (hdrEntry h).2 % 8 == 0 && beAt h 4 1 == 0

/-- The entry that a header names. -/
def hdrIndex (h : List Byte) : Nat := if (hdrEntry h).1 then hostEnt ((hdrEntry h).2 % 8) else (hdrEntry h).2

/-- The checks of R268 on a UDP payload to an endpoint of partition `part`: the entry and the packet, or none. -/
def State.entryCheck (s : State) (part src sport : Nat) (bytes : List Byte) : Option (Nat × Pkt) :=
  let h := bytes.take 48
  let i := hdrIndex h
  let e := s.ent i
  let boot := bootPkt h
  let free := boot && e.ip == 0
  let prior : Option Prior := e.prior.filter (fun x => x.epoch == beAt h 4 1 && x.epoch != e.epoch)
  let key := if boot then 0 else match prior with | some x => x.key | none => e.rxKey
  if bytes.length < 64 ∨ s.entState i = 0 ∨ s.entPart i ≠ part ∨ (e.ip ≠ src ∧ ¬ free) ∨
      (beAt h 4 1 ≠ e.epoch ∧ ¬ boot ∧ prior = none) then none
  else
    match Config.gcmOpen key (nonce (beAt h 4 1) (beAt h 0x10 8)) h (bytes.drop 48) with
    | none => none
    | some body =>
      match hdrParse h body with
      | none => none
      | some p => if boot ∧ ¬ (p.kind = 4 ∧ p.arg = 2) ∧ p.kind < 8 then none else some (i, { p with src := (src, sport) })

/-- A UDP payload on the Coroc port, that arrived at the MAC at a DT. A bootstrap message that comes while the entry has handshake keys lies outside
their SEQ. -/
def State.takeCoroc (s : State) (part src sport : Nat) (ce : Bool) (rxdt : Nat) (bytes : List Byte) : State :=
  match s.entryCheck part src sport bytes with
  | none => s.authFail
  | some (i, q) =>
    let p := { q with rxdt := rxdt }
    if bootPkt (bytes.take 48) ∧ (s.ent i).epoch ≠ 0 then (if p.kind = 4 then s.msgPart 0 true p else s)
    else s.arrive i ce p

/-! ### PTP (R285, R286) -/

def State.updPtp (s : State) (f : Ptp → Ptp) : State := { s with net := { s.net with ptp := f s.net.ptp } }

/-- STATE of CT_PTPSTAT. -/
def State.ptpSt (s : State) : Nat := s.fld rCtPtpstat 0 3
def State.setPtpSt (s : State) (v : Nat) : State := s.setFld rCtPtpstat 0 3 v

/-- Does the clock listen to a PTP message: enabled, on its port, over its transport? -/
def State.ptpHears (s : State) (p transport : Nat) : Bool :=
  let sel := s.fld rCtPtpctl 16 2
  s.fld rCtPtpctl 0 1 == 1 && s.fld rCtPtpctl 18 2 == transport && transport != 3 && (sel == 0 || sel == p + 1)

/-- Is a message of the domain, and from the chosen master? -/
def State.fromMaster (s : State) (domain sender : Nat) : Bool :=
  s.fld rCtPtpctl 8 8 == domain && (match s.net.ptp.master with | none => false | some m => m.1 == sender)

/-- The offset from the master in units of 250 ps as OFFS holds it; the value of one that does not fit is not
stated. -/
def State.setOffs (s : State) (o : Int) : State :=
  if -(2 ^ 31 : Int) ≤ o ∧ o < 2 ^ 31 then s.setFld rCtPtpstat 32 32 (o % 2 ^ 32).toNat
  else let r := s.takeBits 32; r.2.setFld rCtPtpstat 32 32 r.1

/-- The servo steers DT's rate within ±SLEW ppm; which rate it takes no rule states (R286). -/
def State.steer (s : State) : State :=
  let slew := max 1 (s.fld rCtPtpctl 1 7)
  let r := s.takeBits 8
  r.2.updPtp (fun x => { x with rate := ((r.1 % (2 * slew + 1) : Nat) : Int) - (slew : Int) })

/-- A measured delay exchange: the offset of DT from the master's time, a rate that follows it, and DTOFF at the first lock
and after more than 1 ms. -/
def State.measure (s : State) (t1 t2 t3 t4 : Nat) : State :=
  let m : Int := (((t2 : Int) - t1) - ((t4 : Int) - t3)) / 2
  let off := m + (s.reg rCtDtoff).toInt
  let first := !s.net.ptp.locked
  let s := (((s.setOffs off).setPtpSt 2).updPtp (fun x => { x with locked := true })).steer
  if first ∨ 4000000 < off ∨ off < -4000000 then
    (s.setReg rCtDtoff (BitVec.ofInt 64 (-m))).setReg rCtDtoffdt s.dt
  else s

/-- The announce receipt timeout of the default profile: three announce intervals of 2 s (IEEE 1588-2019; log 74). -/
def announceLimit : Nat := dtMs 6000

/-- A master that has not announced itself in time is given up. -/
def State.ptpExpire (s : State) : State :=
  if s.net.ptp.master.isSome ∧ s.net.ptp.announced + announceLimit ≤ s.dt.toNat then
    s.updPtp (fun x => { x with master := none, t1 := none, t2 := none, t3 := none })
  else s

/-- An Announce: the best master is chosen. -/
def State.ptpAnnounce (s : State) (p k sender rank : Nat) : State :=
  let better : Bool := match s.net.ptp.master with
    | none => true
    | some m => m.1 == sender || decide (rank < m.2)
  let same : Bool := match s.net.ptp.master with | none => false | some m => m.1 == sender
  if ¬ better then s
  else
    let s := s.updPtp (fun x =>
      if same then { x with master := some (sender, rank), announced := s.dt.toNat }
      else { x with master := some (sender, rank), sub := 4 * p + k, t1 := none, t2 := none, t3 := none,
                    announced := s.dt.toNat })
    if same then s else (s.setPtpSt 1).setFld rCtPtpstat 3 1 p

/-- A PTP message. -/
def State.takePtp (s : State) (p k transport : Nat) (m : PtpMsg) : State :=
  if ¬ s.ptpHears p transport then s
  else
    let s := s.ptpExpire
    match m with
    | .announce d sender rank => if s.fld rCtPtpctl 8 8 = d then s.ptpAnnounce p k sender rank else s
    | .sync d sender o =>
      if s.fromMaster d sender then
        s.updPtp (fun x => { x with t1 := o, t2 := some (s.ingress p), lastSync := s.dt.toNat })
      else s
    | .followUp d sender o =>
      if s.fromMaster d sender ∧ s.net.ptp.t2.isSome then s.updPtp (fun x => { x with t1 := some o }) else s
    | .delayResp d sender t4 =>
      if ¬ s.fromMaster d sender then s
      else
        match s.net.ptp.t1, s.net.ptp.t2, s.net.ptp.t3 with
        | some t1, some t2, some t3 => (s.measure t1 t2 t3 t4).updPtp (fun x => { x with t3 := none })
        | _, _, _ => s

/-- PTP_DELAY_REQUEST. -/
def execPtpDelayRequest (s : State) : Host.Outcome State Fault Refusal :=
  let k := s.net.ptp.sub
  if s.fld rCtPtpctl 0 1 = 0 ∨ s.net.ptp.master.isNone ∨ s.net.ptp.t2.isNone ∨ ¬ s.upSubs.contains k then .next s
  else .next ((s.updPtp (fun x => { x with t3 := some (s.egress (k / 4)) })).answerOn k 4 0)

/-- PTP_HOLDOVER: no Sync for 3 s. -/
def execPtpHoldover (s : State) : Host.Outcome State Fault Refusal :=
  if (s.ptpSt = 1 ∨ s.ptpSt = 2) ∧ s.net.ptp.lastSync + dtMs 3000 ≤ s.dt.toNat then .next (s.setPtpSt 3) else .next s

/-! ### FRAME_RECEIVE (R265, R299) -/

/-- Is a frame addressed to transport sub-port t: to its MAC address, or to a group? -/
def State.frameMine (s : State) (t dmac : Nat) : Bool := dmac.testBit 40 || dmac == s.macOf t

/-- A frame that the receive buffer of sub-port k of port p passes on. -/
def State.passFrame (s : State) (p k : Nat) (f : Frame) : State :=
  let t := 4 * p + k
  match f with
  | .arp ip => if (s.endpointOf false ip).isSome then s.answerOn t 0 ip else s.unhandled p
  | .nd ip => if (s.endpointOf true ip).isSome then s.answerOn t 1 ip else s.unhandled p
  | .echo v6 ip => if (s.endpointOf v6 ip).isSome then s.answerOn t (if v6 then 3 else 2) ip else s.unhandled p
  | .ptp tr m => s.takePtp p k tr m
  | .udp v6 plain ce src dst sport dport bytes =>
    match s.endpointOf v6 dst with
    | none => s.unhandled p
    | some part =>
      if ¬ plain ∨ dport ≠ s.fld rCtCtl 0 16 then s.unhandled p else s.takeCoroc part src sport ce (s.ingress p) bytes
  | _ => s.unhandled p

/-- What the MAC of a sub-port that is up makes of a frame: the size, PFC and PAUSE first, then the receive buffer, which
drops a frame that does not fit. -/
def State.takeFrame (s : State) (p k : Nat) (f : Frame) (m : FrameMeta) : State :=
  if f = .bad ∨ m.size < 64 ∨ 9216 < m.size then s.updReg (rEthRxdrop p) (fun w => bsat w 32 32 1)
  else
    match f with
    | .pfc qs => s.takePfc p k (qs.map (fun x => ((x.1 : Nat), (x.2 : Nat))))
    | f =>
      let prio := match m.tag with | some x => (x : Nat) | none => s.prioOf p m.dscp
      let s := s.rxShare p k prio m.wait
      if rxBuffer < m.wait + m.size then s
      else if ¬ s.frameMine (4 * p + k) m.dmac then s.unhandled p
      else s.passFrame p k f

/-- FRAME_RECEIVE. -/
def execFrameReceive (port : Fin 2) (sub : Fin 4) (f : RxFrame) (s : State) : Host.Outcome State Fault Refusal :=
  if s.runs ∧ s.subSt port sub = 4 then .next (s.takeFrame port sub f.frame f.info) else .next s

end Sys2Proof.Machine
end

