-- ==== Sys2Proof/Machine/Secure.lean ====
section
/-! DEFINITION. Signed objects, the boot chain and fawn mode (R379 to R385, R389, R392, R451). -/

namespace Sys2Proof.Machine

def State.updSec (s : State) (f : Sec → Sec) : State := { s with sec := f s.sec }

/-! ### HMAC and HKDF under SHA-384 (RFC 2104, RFC 5869) -/

def xorPad (k : List Byte) (v : Byte) : List Byte := (List.range 128).map (fun i => k.getD i 0 ^^^ v)

def hmac384 (key msg : List Byte) : List Byte :=
  let k := if 128 < key.length then Config.sha384 key else key
  Config.sha384 (xorPad k 0x5C ++ Config.sha384 (xorPad k 0x36 ++ msg))

def hkdfExtract (salt ikm : List Byte) : List Byte := hmac384 salt ikm

/-- HKDF-Expand to at most 48 bytes. -/
def hkdfExpand (prk info : List Byte) (n : Nat) : List Byte := (hmac384 prk (info ++ [1])).take n

/-- The bytes of an ASCII string. -/
def ascii (t : String) : List Byte := t.toList.map (fun c => BitVec.ofNat 8 c.toNat)

/-! ### Signed objects (Table 15.3, R382) -/

/-- The kinds of signed object. -/
inductive ObjKind where
  | record
  | image
  | bundle
deriving DecidableEq, Repr

/-- MAGIC as a number. -/
def ObjKind.magic : ObjKind → Nat
  | .record => leNat (ascii "SRP1PRV")
  | .image => leNat (ascii "SRP1FWI")
  | .bundle => leNat (ascii "SRP1PAT")

def objSvn (o : List Byte) : Nat := leAt o 8 4
def objBodyLen (o : List Byte) : Nat := leAt o 0xC 4
def objDigest (o : List Byte) : List Byte := (o.drop 0x10).take 48
def objBaseId (o : List Byte) : List Byte := (o.drop 0x60).take 16
def objFabBase (o : List Byte) : Nat := leAt o 0x70 4
def objRevoke (o : List Byte) : Nat := leAt o 0x74 4
def objKeyBlock (o : List Byte) : List Byte := (o.drop 0x1000).take 0x1000
def objBody (o : List Byte) : List Byte := (o.drop 0x2000).take (objBodyLen o)

/-- A key block's slot, its key pair, and its form. -/
def kbSlot (k : List Byte) : Nat := leAt k 0 1
def kbPair (k : List Byte) : List Byte := (k.drop 0x20).take 1984
def kbForm (k : List Byte) : Bool := decide (kbSlot k ≤ 3) && zeroAt k 1 0x1F && zeroAt k 0x7E0 (0x1000 - 0x7E0)

/-- The form of a record's body (Table 15.4). -/
def recordForm (b : List Byte) : Bool :=
  let w (i : Nat) : W64 := BitVec.ofNat 64 (leAt b (0x20 + 8 * i) 8)
  let d0 := leAt b 0xB0 1
  let d1 := leAt b 0xB1 1
  b.length == 24064 && zeroAt b 0x16 10 && zeroAt b 0xB2 78 && zeroAt b 0x28 1 && zeroAt b 0x40 0x40 &&
    peerBlockOk ((List.range 16).map w) && decide (4 ≤ d0) && decide (d0 ≤ 16) && decide (4 ≤ d1) && decide (d1 ≤ 16)

/-- Check 1 of R382. -/
def objForm (k : ObjKind) (o : List Byte) : Bool :=
  leAt o 0 7 == k.magic && leAt o 7 1 == 1 && zeroAt o 0x78 392 && zeroAt o (0x200 + 3373) (3584 - 3373) &&
    kbForm (objKeyBlock o) &&
    (match k with
      | .record => decide (objSvn o ≤ 32) && zeroAt o 0x60 20 && decide (objRevoke o < 16) && recordForm (objBody o)
      | .image => decide (objSvn o ≤ 128) && zeroAt o 0x60 16 && zeroAt o 0x74 4 && decide (0x90 ≤ objFabBase o)
      | .bundle => decide (1 ≤ objSvn o) && decide (objSvn o ≤ 255) && zeroAt o 0x70 8)

/-- Check 2 of R382 on a key block. -/
def State.rootOk2 (s : State) (k : List Byte) : Bool :=
  kbForm k && bitsOf s.sec.fuses.rootRev (kbSlot k) 1 == 0 &&
    s.sec.fuses.rootHash[kbSlot k]? == some (Config.sha384 k)

/-- The verification of R382: 0, or the status of the first check that fails. -/
def State.verify (s : State) (k : ObjKind) (o : List Byte) : Nat :=
  let kb := objKeyBlock o
  let floor := match k with | .record => s.sec.fuses.prSvn | .image => s.sec.fuses.fwSvn | .bundle => 0
  if ¬ objForm k o ∨ ¬ s.rootOk2 kb then stImageSignature
  else if ¬ Config.sigOk (kbPair kb) (o.take 512 ++ kb) ((o.drop 0x200).take 3373) then stImageSignature
  else if objSvn o < floor then stImageRollback
  else if objDigest o ≠ Config.sha384 (objBody o) then stImageSignature
  else 0

/-! ### Flash (Table 15.2) -/

def recordArea : Nat := 0
def identityArea : Nat := 0x10000
def imageArea : Nat := 0x20000
def imageMax : Nat := 0x7E0000
def patchArea : Nat := 0x800000

/-- The object at an offset of flash: its header tells its length; one that does not fit its area is cut there, and
fails the check of its form or its digest. -/
def State.flashObj (s : State) (a room : Nat) : List Byte :=
  let n := min room (0x2000 + leAt (s.flashBytes a 16) 0xC 4)
  s.flashBytes a n

/-- Erases a range of flash, and programs bytes at its start. -/
def State.flashWrite (s : State) (a room : Nat) (bs : List Byte) : State :=
  let f := s.fab.flash.filter (fun e => !inRange a room e.1)
  let f := (bs.zipIdx).foldl (fun f x => tset 0 f (a + x.2) x.1) f
  s.updFab (fun y => { y with flash := f })

/-- The patch area: a slot that begins a bundle, and how many slots it takes. -/
def State.bundleAt (s : State) (slot : Nat) : Option Nat :=
  let h := s.flashBytes (patchArea + 0x10000 * slot) 16
  if leAt h 0 7 = ObjKind.bundle.magic then
    some (min (16 - slot) (max 1 ((0x2000 + leAt h 0xC 4 + 0xFFFF) / 0x10000)))
  else none

/-- The bundles of the patch area in the order of their first slots: first slot, slots. -/
def State.bundles (s : State) : Nat → Nat → List (Nat × Nat)
  | 0, _ => []
  | n + 1, slot =>
    if 16 ≤ slot then []
    else match s.bundleAt slot with
      | none => s.bundles n (slot + 1)
      | some k => (slot, k) :: s.bundles n (slot + k)

def State.allBundles (s : State) : List (Nat × Nat) := s.bundles 16 0

/-- Is a patch slot empty? -/
def State.slotEmpty (s : State) (slot : Nat) : Bool := !s.allBundles.any (fun b => inRange b.1 b.2 slot)

/-! ### Registers that show the fuses and the boot -/

/-- SEC_POLICY, SEC_DCSTAT.PRSVN and CFG_KEYSTAT as the fuses stand. -/
def State.showFuses (s : State) : State :=
  let f := s.sec.fuses
  let slot := s.fld rSecPolicy 12 2
  let b (x : Bool) : Nat := if x then 1 else 0
  let s := s.setReg rSecPolicy (BitVec.ofNat 64
    (fv 16 48 f.baseMac + fv 14 2 f.jtagPol + fv 12 2 slot + fv 8 4 f.rootRev + fv 0 8 f.fwSvn))
  let s := s.setFld rSecDcstat 56 8 f.prSvn
  ((s.setFld rCfgKeystat 6 2 f.fabKey).setFld rCfgKeystat 5 1 (b f.bbLock)).setFld rCfgKeystat 0 1 (b f.efValid)

/-- SEC_STAT.SLOTS. -/
def State.showSlots (s : State) : State := s.setFld rSecStat 12 4 (min 15 ((s.allBundles.map Prod.snd).sum))

/-- A fresh SEC_DBGNONCE. -/
def State.newNonce (s : State) : State := let r := s.takeBits 64; r.2.setReg rSecDbgnonce (BitVec.ofNat 64 r.1)

/-! ### HP0 (R383, R390, R391, R451) -/

/-- A record's body. -/
def State.recordBody (s : State) : Option (List Byte) := s.sec.record.map objBody

/-- The IPv6 link-local address with the EUI-64 identifier of BASEMAC (R385). -/
def linkLocal (mac : Nat) : Nat :=
  0xFE80 * 2 ^ 112 + ((mac / 2 ^ 24) ^^^ 0x020000) * 2 ^ 40 + 0xFFFE * 2 ^ 24 + mac % 2 ^ 24

/-- HP0's endpoint and its host entry in the bootstrap state. -/
def State.setHp0Endpoint (s : State) : State :=
  match s.recordBody with
  | some b =>
    let x : Endpoint := { v4 := beNat ((b.drop 0x10).take 4), v6 := beNat (b.take 16) }
    let w (i : Nat) : W64 := BitVec.ofNat 64 (leAt b (0x20 + 8 * i) 8)
    let s := { s with net := { s.net with endpoints := tset {} s.net.endpoints 0 x } }
    let s := if leAt b 0x14 2 = 0 then s else s.setFld rCtCtl 0 16 (leAt b 0x14 2)
    s.setPeer (hostEnt 0) 0 ((List.range 16).map w)
  | none =>
    let x : Endpoint := { v6 := linkLocal s.sec.fuses.baseMac }
    let s := { s with net := { s.net with endpoints := tset {} s.net.endpoints 0 x } }
    s.setPeer (hostEnt 0) 0 []

/-- Q0, C0, HP0's first grant and its event ring, once the units that hold them are ready. -/
def State.setHp0 (s : State) : State :=
  let f : Nat × Nat × Nat × Nat := match s.recordBody with
    | some b => (leAt b 0xA0 8, leAt b 0xB0 1, leAt b 0xA8 8, leAt b 0xB1 1)
    | none => (0, 4, 0x1000, 4)
  let g : Grant := { kind := 0, lo := 0, size := 2 ^ 30 }
  let s := s.updPart 0 (fun x => { x with grants := [g], evAddr := f.2.2.1, evDlog := f.2.2.2, evIdx := 0, evHead := 0 })
  let s := s.setCtx 0 { live := true }
  let s := s.setReg (rQpQ 0) (BitVec.ofNat 64 (fv 61 1 1 + fv 48 5 f.2.1))
  let s := s.setReg (rQpQreg 0) (BitVec.ofNat 64 (fv 24 8 1))
  s.setQueue 0 { live := true, ring := 0, chost := f.1 }

/-- Has Q0 been set up? -/
def State.hp0Up (s : State) : Bool := (s.queue 0).live

/-- The firmware sets HP0 up once CORE and HBM are set; in fawn mode the ROM does so once HBM is zeroed. -/
def State.settleHp0 (s : State) : State :=
  let hbm := s.fld rPwrReady 1 1 == 1
  if s.hp0Up then s
  else if hbm && (s.fld rPwrReady 0 1 == 1 || s.pwr.fawn) then s.setHp0 else s

/-! ### Patches at boot (step 5 of R384, R389) -/

/-- Why a bundle is not applied: 0 where it is. -/
def State.bundleStatus (s : State) (o : List Byte) : Nat :=
  match s.verify .bundle o with
  | 0 =>
    if (s.sec.image.map (fun i => (objDigest i).take 16)) ≠ some (objBaseId o) then stCmdFieldInvalid
    else if objSvn o ≤ s.fld rQpId 16 8 then stImageRollback else 0
  | st => st

/-- QP_ID.PATCH and the patch chain take a bundle. -/
def State.patchApplied (s : State) (o : List Byte) : State :=
  (s.setFld rQpId 16 8 (objSvn o)).updSec (fun x => { x with chain := Config.sha384 (x.chain ++ objDigest o) })

/-- One bundle of the patch area. -/
def State.bootBundle (s : State) (b : Nat × Nat) : State :=
  let o := s.flashObj (patchArea + 0x10000 * b.1) (0x100000 - 0x10000 * b.1)
  match s.bundleStatus o with
  | 0 => s.patchApplied o
  | st => s.setReg rSecPlog (logWord (s.reg rSecPlog) (fv 48 16 st + fv 8 4 b.1))

/-! ### BOOT_CHAIN (R384, R385) -/

/-- The DIGEST of an object, or zeros without one. -/
def digestOr (o : Option (List Byte)) : List Byte :=
  match o with | none => List.replicate 48 0 | some o => objDigest o

/-- The secret of the Alias keys (R392), for the image and record that are in force. -/
def State.cdiNow (s : State) : List Byte :=
  Config.dice (leBytes 32 s.sec.fuses.uds)
    (ascii "SRP1 CDI" ++ digestOr s.sec.image ++ leBytes 1 s.sec.fuses.fwSvn ++ digestOr s.sec.record)

/-- Fawn mode for a cause. -/
def State.enterFawn (s : State) (cause : Nat) : State :=
  let s := ({ s with pwr := { s.pwr with fawn := true } }.setFld rSecStat 0 2 2).setFld rSecStat 2 3 cause
  let s := s.updSec (fun x => { x with cdi := s.cdiNow })
  (s.newNonce.setHp0Endpoint).settleHp0

/-- Steps 4 to 6 after the image has verified. -/
def State.bootImage (s : State) (image : List Byte) : State :=
  let s := s.updSec (fun x =>
    { x with image := some image, fuses := { x.fuses with fwSvn := max x.fuses.fwSvn (objSvn image) } })
  let s := s.updSec (fun x => { x with cdi := s.cdiNow })
  let s := (List.range 6).foldl (fun s w => s.setReg (rSecMeas w) (BitVec.ofNat 64 (leAt (objDigest image) (8 * w) 8))) s
  let s := (s.setFld rCfgFlash 0 16 (objFabBase image)).setReg rSecBootdt s.dt
  let s := s.allBundles.foldl (fun s b => s.bootBundle b) s
  ((s.setFld rSecStat 0 2 1).newNonce.setHp0Endpoint).settleHp0

/-- Step 3. -/
def State.bootRecord (s : State) (record : List Byte) : State :=
  let slot := kbSlot (objKeyBlock record)
  let rev := objRevoke record &&& (15 - 2 ^ slot)
  let s := s.updSec (fun x =>
    { x with record := some record,
             fuses := { x.fuses with rootRev := x.fuses.rootRev ||| rev, prSvn := max x.fuses.prSvn (objSvn record) } })
  let s := s.setFld rSecPolicy 12 2 slot
  let image := s.flashObj imageArea imageMax
  match s.verify .image image with
  | 0 => s.bootImage image
  | st => s.enterFawn (if st = stImageRollback then 3 else 2)

/-- Is a step of start-up done? -/
def State.did (s : State) (k : Nat) : Bool := s.pwr.steps.contains k

/-- A step of start-up completes. -/
def State.stepDone (s : State) (k : Nat) : State := { s with pwr := { s.pwr with steps := s.pwr.steps ++ [k] } }

/-- BOOT_CHAIN: start-up step B. -/
def execBootChain (flash : Option FlashId) (s : State) : Host.Outcome State Fault Refusal :=
  if ¬ s.pwr.up ∨ ¬ s.did 0 ∨ s.did 1 then .next s
  else
    let s := s.stepDone 1
    match flash with
    | none => .next ((s.enterFawn 4).showFuses).showSlots
    | some f =>
      let s := (s.setFld rCfgStat 8 2 (if f.octal then 3 else 2)).setReg rCfgFlash
        (BitVec.ofNat 64 (fv 32 24 f.jedec + fv 16 16 f.cap))
      let record := s.flashObj recordArea 0x10000
      let s := if s.verify .record record = 0 then s.bootRecord record else s.enterFawn 1
      .next (s.showFuses).showSlots

end Sys2Proof.Machine
end

