-- ==== Sys2Proof/Machine/Dumps.lean ====
section
/-! DEFINITION. Dumps (R435 to R439). -/

namespace Sys2Proof.Machine

def State.updRst (s : State) (f : Rst → Rst) : State := { s with rst := f s.rst }

/-! ### What a dump contains (R436, Table 17.5) -/

/-- A range of registers as a unit. -/
def regUnit (cls idx off len : Nat) : DumpUnit := { cls := cls, idx := idx, addr := regBase + off, len := len }

/-- The summary's registers of one engine. -/
def engSummary (n : Nat) : List DumpUnit :=
  [regUnit 0 n (rEsStatus n) 8, regUnit 0 n (rEsSlot n 0) 64, regUnit 5 n (rEsGate n 0) 2048,
   regUnit 1 n (rMtStatus n) 8, regUnit 2 n (rVtStatus n) 8]

/-- The summary: queues, engines, and the status registers of PWR_, RST_, HBM_ and DDR_. -/
def summaryUnits : List DumpUnit :=
  [regUnit 6 0 (rQpQ 0) 131072, regUnit 6 0 (rQpQreg 0) 131072] ++ (List.range 64).flatMap engSummary ++
  [regUnit 12 0 rPwrReady 8, regUnit 12 0 rPwrStat 8, regUnit 12 0 rPwrAlert 24, regUnit 12 0 (rPwrEng 0) 512,
   regUnit 12 0 (rPwrRail 0) 72, regUnit 12 0 (rPwrRtr 0) 80, regUnit 15 0 rRstCause 16, regUnit 15 0 rRstHlog 24,
   regUnit 10 0 rHbmStatus 8, regUnit 10 0 rHbmSklog 32, regUnit 10 1 rDdrGeom 16] ++
  (List.range 8).flatMap (fun c => [regUnit 10 (1 + c) (rDdrChstat c) 8, regUnit 10 (1 + c) (rDdrEcc c) 40])

/-- The save areas of engine n: the part of its store that contexts cannot address (R81). -/
def saveUnit (n : Nat) : DumpUnit := { cls := 4, idx := n, addr := storeBase n + storeOpen, len := storeBytes - storeOpen }

/-- The trace buffers: 16,384 records of 32 bytes each. -/
def traceUnits : List DumpUnit := (List.range 3).map (fun b => { cls := 8, idx := b, addr := 0, len := 524288 })

/-- What a hang dump adds for its engine: its registers, both vector banks, slot states and pass queues, stream
descriptors and cursors, save areas and gates. -/
def hangUnits (n : Nat) : List DumpUnit :=
  [regUnit 1 n (n * 0x1000) 0x98, regUnit 2 n (0x40000 + n * 0x1000) 0x180, regUnit 0 n (0x80000 + n * 0x1000) 0xC0,
   { cls := 2, idx := n, addr := 0, len := 16384 }, { cls := 1, idx := n, addr := 0, len := 4096 },
   { cls := 0, idx := n, addr := 0, len := 4096 }, { cls := 3, idx := n, addr := 0, len := 4096 },
   saveUnit n, regUnit 5 n (rEsGate n 0) 2048]

/-! ### Reading a unit (R437) -/

/-- The bytes of a trace record. -/
def recBytes (r : Option (List W64)) : List Byte :=
  (List.range 4).flatMap (fun i => leBytes 8 (((r.getD []).getD i 0).toNat))

/-- What the dump engine reads from a unit. State that no register shows has no layout in the spec, so its bytes are
free values. -/
def State.unitData (s : State) (u : DumpUnit) : List Byte :=
  if regBase ≤ u.addr then
    (List.range (u.len / 8)).flatMap (fun i => leBytes 8 (s.regRead (u.addr - regBase + 8 * i)).toNat)
  else if u.cls = 8 then (List.range (u.len / 32)).flatMap (fun i => recBytes (oget s.noc.trace (u.idx * 16384 + i)))
  else (List.range u.len).map (fun i => Config.freeByte s.free (u.addr + i))

/-- An entry: its header (Table 17.7), and its data padded to 32 bytes. -/
def dumpEntry (u : DumpUnit) (bad : Bool) (dt : Nat) (bs : List Byte) : List Byte :=
  leBytes 8 (fv 16 1 (if bad then 1 else 0) + fv 12 4 u.cls + fv 0 12 u.idx) ++ leBytes 8 dt ++ leBytes 8 bs.length ++
  leBytes 8 (u.addr % 2 ^ 48) ++ bs ++ List.replicate ((32 - bs.length % 32) % 32) 0

/-- Bytes of the dump area. -/
def dumpArea : Nat := 0x4000000

/-- Adds an entry, or truncates the dump. -/
def Dump.add (d : Dump) (rest : List DumpUnit) (e : List Byte) (bad : Bool) : Dump :=
  if dumpArea < 256 + d.bytes.length + e.length then { d with trunc := true, units := [] }
  else { d with units := rest, bytes := d.bytes ++ e, entries := d.entries + 1, bad := d.bad + (if bad then 1 else 0) }

/-- The next unit of a dump is read. -/
def State.readUnit (s : State) (d : Dump) : State × Dump :=
  match d.units with
  | [] => (s, d)
  | u :: rest =>
    let s := if u.cls ≤ 5 then s.wakeEngine u.idx else s
    ({ s with free := s.free + 1 }, d.add rest (dumpEntry u false s.dt.toNat (s.unitData u)) false)

/-- The next unit of a dump does not answer: it is not accessed again. -/
def State.failUnit (s : State) (d : Dump) : Dump :=
  match d.units with
  | [] => d
  | u :: rest =>
    d.add (rest.filter (fun v => !(v.cls == u.cls && v.idx == u.idx))) (dumpEntry u true s.dt.toNat []) true

/-! ### The end of collection (R438, R439, Table 17.6) -/

/-- The header of a dump. -/
def Dump.header (d : Dump) (seq ended : Nat) : List Byte :=
  ascii "SRP1DMP" ++ leBytes 1 1 ++ leBytes 4 seq ++ leBytes 4 (fv 8 1 (if d.trunc then 1 else 0) + fv 0 2 d.kind) ++
  leBytes 8 d.dt.toNat ++ leBytes 8 ended ++ leBytes 4 (256 + d.bytes.length) ++ leBytes 4 d.entries ++ leBytes 4 d.bad ++
  leBytes 4 d.eng ++ List.replicate 208 0

/-- The dump lies in the area, and is not sent yet. -/
def State.storeDump (s : State) (d : Dump) : State :=
  let seq := s.rst.dumpSeq + 1
  let lost := min 255 (s.fld rDmpStat 8 8 + s.fld rDmpStat 1 1)
  let s := s.putBytes (s.reg rDmpBase).toNat (d.header seq s.dt.toNat ++ d.bytes) false
  let w := fv 32 32 seq + fv 8 8 lost + fv 3 2 d.kind + fv 2 1 (if d.trunc then 1 else 0) + fv 1 1 1 + fv 0 1 1
  let s := (s.setReg rDmpStat (BitVec.ofNat 64 w)).setReg rDmpDt d.dt
  (s.setReg rDmpLen (BitVec.ofNat 64 (fv 32 16 (min 65535 d.bad) + fv 0 32 (256 + d.bytes.length)))).updRst
    (fun r => { r with dumpSeq := seq })

/-- The dump under way has changed; with no unit left it is stored. -/
def State.putDump (s : State) (d : Dump) : State :=
  let s := s.updRst (fun r => { r with dumps := r.dumps.set 0 d })
  if d.units.isEmpty then s.storeDump d else s

/-- A dump is due: it waits for those before it. -/
def State.addDump (s : State) (d : Dump) : State :=
  (s.updRst (fun r => { r with dumps := r.dumps ++ [d] })).setFld rDmpStat 0 1 1

/-- DUMP_COLLECT: the dump engine reads the next unit of the dump under way. -/
def execDumpCollect (s : State) : Host.Outcome State Fault Refusal :=
  match s.rst.dumps with
  | [] => .next s
  | d :: _ => if d.units.isEmpty then .next s else let r := s.readUnit d; .next (r.1.putDump r.2)

/-- DUMP_ACCESS_TIMEOUT: the next unit of the dump under way does not answer within 10 µs. -/
def execDumpAccessTimeout (s : State) : Host.Outcome State Fault Refusal :=
  match s.rst.dumps with
  | [] => .next s
  | d :: _ => if d.units.isEmpty then .next s else .next (s.putDump (s.failUnit d))

/-! ### Sending (R439) -/

/-- The dump in the area is sent to HP0, or kept where it cannot be. -/
def State.sendDump (s : State) (cmd : Nat) : State :=
  let host := (s.reg rDmpHost).toNat
  let n := s.fld rDmpLen 0 32
  if host = 0 ∨ s.entState (hostEnt 0) ≠ 1 then s
  else
    let r := s.postHost 0 cmd host (s.bytes (s.reg rDmpBase).toNat n)
    match r.2 with
    | .bad _ => s
    | .op _ =>
      (r.1.setFld rDmpStat 1 1 0).event 0 stDumpReady none (fv 32 32 n + fv 0 32 (s.fld rDmpStat 32 32)) (s.fld rDmpLen 32 16)

/-- DUMP_SEND: a collected dump, or the kept one that is to be sent again, is sent or kept; its command completes. -/
def execDumpSend (s : State) : Host.Outcome State Fault Refusal :=
  match s.rst.dumps with
  | [] => .next s
  | d :: rest =>
    if ¬ d.units.isEmpty then .next s
    else
      let s := (s.sendDump d.cmd).finishCmd d.cmd
      .next ((s.updRst (fun r => { r with dumps := rest })).setFld rDmpStat 0 1 (if rest.isEmpty then 0 else 1))

/-! ### DUMP -/

def dumpRow : CmdRow :=
  { op := 0x0B, mgmt := true, fields := [fm 0 2, fm 0 64], tiers := fun _ _ => [readyHbm],
    check := fun s c => if c.opf 0 1 1 = 1 ∧ s.fld rDmpLen 0 32 = 0 then stCmdFieldInvalid else 0,
    start := fun s c =>
      if c.opf 0 1 1 = 1 then s.addDump { kind := 0, cmd := c.id, dt := s.dt, resend := true }
      else
        let more := if c.opf 0 0 1 = 1 then (maskEngines (c.op 1)).map saveUnit ++ traceUnits else []
        s.addDump { kind := 0, cmd := c.id, dt := s.dt, units := summaryUnits ++ more } }

/-- DUMP. -/
def execDump (q : Fin 16384) (s : State) : Host.Outcome State Fault Refusal := acceptCmd dumpRow q s

/-- A dump of kind 2 is taken whole at once, and abandons what is under way; without HBM there is nowhere to keep
it. Answers whether it was taken. -/
def State.dumpNow (s : State) : State × Bool :=
  if s.fld rPwrReady readyHbm 1 = 0 then (s, false)
  else
    let d : Dump := { kind := 2, dt := s.dt, units := summaryUnits }
    let r := (List.range summaryUnits.length).foldl (fun r _ => r.1.readUnit r.2) (s, d)
    (r.1.storeDump r.2, true)

end Sys2Proof.Machine
end

