-- ==== Sys2Proof/Machine/Resets.lean ====
section
/-! DEFINITION. Resets of the whole device (R386, R400, R417, R424, R427, R444, R445), and JTAG (R394). -/

namespace Sys2Proof.Machine

/-! ### What a power-on reset leaves -/

/-- The state after a reset of the whole device, with what no reset changes: fuses, flash, the health record's
copies, and what has already left the device. The device is held in reset while `up` is clear. -/
def State.rebirth (s : State) (up : Bool) : State :=
  { State.reset with
    pending := s.pending, free := s.free,
    health := { copyA := s.health.copyA, copyB := s.health.copyB },
    net := { out := s.net.out },
    fab := { flash := s.fab.flash, bbKey := s.fab.bbKey, bbCrc := s.fab.bbCrc },
    sec := { fuses := s.sec.fuses },
    ddr := { untrained := s.ddr.untrained },
    pwr := { up := up, steps := if up then [0] else [] } }

/-! ### The health record in the device (R444, Table 17.8) -/

/-- The valid copy with the higher SEQ: its SEQ, whether it is copy B, and its records. -/
def Health.best (h : Health) : Option (Nat × Bool × List HRec) :=
  match h.copyA, h.copyB with
  | some a, some b => if a.1 < b.1 then some (b.1, true, b.2) else some (a.1, false, a.2)
  | some a, none => some (a.1, false, a.2)
  | none, some b => some (b.1, true, b.2)
  | none, none => none

/-- One record takes effect at start-up. Ranks and channels wait for the tier's initialisation. -/
def State.applyRec (s : State) (r : HRec) : State :=
  match r with
  | .remap e w => s.setReg (rMtRemap e) w
  | .engine e _ _ => (s.updEng e (fun x => { x with retired := true })).setFld (rPwrEng e) 12 2 3
  | .pc p _ =>
    let x : PcRet := { pc := p, cursor := 378 * 32, finished := true }
    { s with pcRets := s.pcRets ++ [x] }.setFld rHbmStatus (8 + p / 64) 1 1
  | .repair _ _ _ => s
  | .rank _ _ _ _ _ => s
  | .channel _ _ _ => s

/-- Every record that the device holds takes effect. -/
def State.applyHealth (s : State) : State := s.health.now.foldl (fun s r => s.applyRec r) s

/-- The record is read from flash. -/
def State.readHealth (s : State) : State :=
  match s.health.best with
  | none => s.setFld rRstHrec 34 1 1
  | some b =>
    { s with health := { s.health with now := b.2.2 } }.setReg rRstHrec
      (BitVec.ofNat 64 (fv 32 1 (if b.2.1 then 1 else 0) + fv 0 32 b.1))

/-! ### Power-on reset (R362, R400, R401) -/

/-- The BBRAM after a loss of power: kept by VBATT and found whole by its CRC, or cleared. -/
def State.wakeBbram (s : State) (vbatt : Bool) : State :=
  if vbatt ∧ crc32c (keyBytes s.fab.bbKey) = s.fab.bbCrc then s.setFld rCfgKeystat 1 1 1
  else { s with fab := { s.fab with bbKey := 0, bbCrc := 0 } }

/-- POWER_ON_RESET: RESET_N is released after the rails have come up; `vbatt` says that the BBRAM kept its supply. -/
def execPowerOnReset (vbatt : Bool) (s : State) : Host.Outcome State Fault Refusal :=
  .next ((((s.rebirth true).wakeBbram vbatt).readHealth).applyHealth).showFuses

/-- The device is held in power-on reset; a trip stays latched until the rails are removed. -/
def State.holdReset (s : State) (tripped : Bool) : State :=
  let t := s.rebirth false
  { t with pwr := { t.pwr with tripped := tripped } }

/-- RAIL_DROOP: the device holds itself in power-on reset. -/
def execRailDroop (s : State) : Host.Outcome State Fault Refusal := .next (s.holdReset s.pwr.tripped)

/-- POWER_DOWN: RESET_N is driven low and the rails fall. -/
def execPowerDown (s : State) : Host.Outcome State Fault Refusal := .next (s.holdReset false)

/-! ### Device warm reset (R424, R427, Table 17.9) -/

/-- Registers that survive a device warm reset whole: the control fields that C0 writes, PTP state, the timing sets,
the hang log, and the alerts. -/
def warmRegs : List Nat :=
  [rHbmSkctl, rHbmPprth, rMigRate, rDdrCfg, rCtCc, rCtPath, rCtPtpctl, rCtPtplat 0, rCtPtplat 1, rCtPtpstat, rCtDtoff,
   rCtDtoffdt, rPwrGov, rPwrLpctl, rRstWd, rDmpBase, rDmpHost, rRstHlog, rRstHlogdt, rRstHrec, rPwrAlert, rPwrAlertdt,
   rBrwCtl 0, rBrwCtl 1, rCxlPctl 0, rCxlPctl 1] ++
  (List.range 8).flatMap (fun c => [rDdrIdle c, rDdrSched c, rDdrActth c, rDdrEvth c, rDdrTset c 0, rDdrTset c 1]) ++
  (List.range 2).flatMap (fun p => [rEthPcfg p, rEthFecth p, rEthMac p] ++ (List.range 8).map (rEthDscpmap p)) ++
  (List.range 48).map rLctl

/-- A field of one state's register is copied into another. -/
def State.keepFld (t s : State) (off lo n : Nat) : State := t.setFld off lo n (s.fld off lo n)

/-- The registers that survive whole, and the fields of others that do. -/
def State.keepRegs (t s : State) : State :=
  let t := warmRegs.foldl (fun t r => t.setReg r (s.reg r)) t
  let t := (List.range 3).foldl (fun t b => t.keepFld s (rNocTrctl b) 16 1) t
  (((t.keepFld s rCtCtl 16 1).keepFld s rCfgRbctl 0 32).keepFld s rCfgKeystat 1 1).keepFld s rSecStat 5 1

/-- Every context's tag has gone one on, and no context exists. -/
def bumpCtxs (t : Tab Ctx) : Tab Ctx :=
  (List.range 1024).foldl (fun (x : Tab Ctx) c => tset {} x c { gen := ((tget ({} : Ctx) t c).gen + 1) % 4096 }) []

/-- The tags of `n` domains have gone one on. -/
def bumpTags (t : Tab Nat) (n : Nat) : Tab Nat :=
  (List.range n).foldl (fun x i => tset 0 x i ((tget 0 t i + 1) % 4096)) []

/-- The bytes of a dump that is not sent, by offset (R409). -/
def State.unsentDump (s : State) : List (Nat × Byte) :=
  if s.fld rDmpStat 1 1 = 0 then []
  else ((s.bytes (s.reg rDmpBase).toNat (s.fld rDmpLen 0 32)).zipIdx.map (fun x => (x.2, x.1))).filter (fun x => x.1 != 0)

/-- The registers of a dump that is not sent; the dump engine is idle. -/
def State.keepDump (t s : State) : State :=
  if s.fld rDmpStat 1 1 = 0 then t
  else ((t.setReg rDmpStat (bset (s.reg rDmpStat) 0 1 0)).setReg rDmpLen (s.reg rDmpLen)).setReg rDmpDt (s.reg rDmpDt)

/-- The records of the retirements whose copy a reset ends: they stay retired (Table 8.5). -/
def State.openRets (s : State) : List HRec :=
  (s.pcRets.filter (fun r => !r.finished)).map (fun r => .pc r.pc s.dt) ++
  (s.ddr.rets.filter (fun r => !r.finished)).map (fun r => .rank r.ch r.phys r.dest r.spare (s.serials r.ch))

/-- A device warm reset for a cause of RST_CAUSE; `dumped` says that a kind 2 dump preceded it. -/
def State.warmReset (s : State) (cause : Nat) (dumped : Bool) : State :=
  let t := s.rebirth true
  let open_ := s.openRets
  let now := s.health.now ++ open_
  let t := { t with
    dt := s.dt, ctxs := bumpCtxs s.ctxs,
    noc := { dgenE := bumpTags s.noc.dgenE 64, dgenF := bumpTags s.noc.dgenF 48, dgenD := (s.noc.dgenD + 1) % 4096 },
    health := { s.health with now := now, queue := if open_.isEmpty then s.health.queue else s.health.queue ++ [now] },
    net := { t.net with ptp := s.net.ptp },
    ddr := { t.ddr with dimms := s.ddr.dimms, phy := s.ddr.phy, fsp := s.ddr.fsp },
    sec := { t.sec with aliasGone := s.sec.aliasGone },
    rst := { kept := s.unsentDump, dumpSeq := s.rst.dumpSeq } }
  let t := (t.keepRegs s).keepDump s
  let t := (t.setReg rRstCause (BitVec.ofNat 64 (fv 8 1 (if dumped then 1 else 0) + fv 0 3 cause))).setReg rRstCausedt s.dt
  let t := (List.range 2).foldl (fun t p => t.setFld (rEthPstat p) 12 2 (t.fld (rEthPcfg p) 0 2)) t
  (t.applyHealth).showFuses

/-- DEVICE_WARM_RESET: RESET_N is low for 10 µs with the rails in tolerance. A device that is held in power-on reset
or has tripped stays so. -/
def execDeviceWarmReset (s : State) : Host.Outcome State Fault Refusal :=
  if s.pwr.up ∧ ¬ s.pwr.tripped then .next (s.warmReset 1 false) else .next s

/-! ### The open-drain pins (R404, R412, R417, R418) -/

/-- READY is released while CORE, HBM and FABRIC are all set, and held low otherwise. -/
def State.readyReleased (s : State) : Bool := [0, readyHbm, readyFabric].all (fun b => s.fld rPwrReady b 1 == 1)

/-- ALERT_N is asserted while any PWR_ALERT bit is set. -/
def State.alertAsserted (s : State) : Bool := s.fld rPwrAlert 0 6 != 0

/-- THERMTRIP_N stays latched until the rails are removed. -/
def State.thermtripAsserted (s : State) : Bool := s.pwr.tripped

/-! ### The device controller fails (R386) -/

/-- PWR_ALERT bit `b` is set. -/
def State.alert (s : State) (b : Nat) : State := (s.setFld rPwrAlert b 1 1).setReg rPwrAlertdt s.dt

/-- ALERT_N is asserted, a kind 2 dump is taken, and the device is reset. -/
def State.controllerFails (s : State) (cause : Nat) : State :=
  if ¬ s.pwr.up ∨ s.pwr.tripped then s
  else
    let r := (s.alert 4).dumpNow
    r.1.warmReset cause r.2

/-- DC_WATCHDOG. -/
def execDcWatchdog (s : State) : Host.Outcome State Fault Refusal := .next (s.controllerFails 3)

/-- DC_MEMORY_ERROR: an uncorrectable error in controller memory. -/
def execDcMemoryError (s : State) : Host.Outcome State Fault Refusal := .next (s.controllerFails 4)

/-- DC_SELF_TEST: a pass is counted, and a mismatch resets the device. -/
def execDcSelfTest (pass : Bool) (s : State) : Host.Outcome State Fault Refusal :=
  if pass then .next (if s.runs then s.updReg rSecDcstat (fun w => bsat w 32 24 1) else s)
  else .next (s.controllerFails 5)

/-! ### JTAG (R394) -/

/-- Does JTAG carry out instructions other than BYPASS and IDCODE? -/
def State.jtagOpen (s : State) : Bool :=
  s.sec.fuses.jtagPol == 0 || (s.sec.fuses.jtagPol == 1 && s.fld rSecStat 5 1 == 1)

/-- JTAG_INSTRUCTION: BYPASS and IDCODE work in every state and end a boundary scan; boundary scan takes over the
pins; the spec gives the others no effect. -/
def execJtagInstruction (i : Jtag) (s : State) : Host.Outcome State Fault Refusal :=
  let scan (v : Bool) : State := { s with sec := { s.sec with scanning := v } }
  match i with
  | .bypass => .next (scan false)
  | .idcode => .next (scan false)
  | .boundary => if s.jtagOpen then .next (scan true) else .next s
  | .other => if s.jtagOpen then .refused .jtagPrivate else .next s

end Sys2Proof.Machine
end

