-- ==== Sys2Proof/Machine/Firmware.lean ====
section
/-! DEFINITION. FW_IMAGE, FW_PATCH and the patch of the queue processors (R387 to R389, Table 15.6). -/

namespace Sys2Proof.Machine

/-- Does a command write or apply firmware now? -/
def State.fwBusy (s : State) (c : Cmd) : Bool :=
  s.sec.patch.isSome || s.cmds.any (fun d => d.id != c.id && (d.opcode == 0x09 || d.opcode == 0x0A))

/-! ### FW_IMAGE (R387) -/

/-- The flash area of an object that FW_IMAGE writes. -/
def imageRoom (prov : Bool) : Nat × Nat := if prov then (recordArea, 0x10000) else (imageArea, imageMax)

def fwImageCheck (s : State) (c : Cmd) : Nat :=
  if s.fwBusy c then stInUse
  else if (imageRoom (c.opf 2 0 1 == 1)).2 < (c.op 1).toNat then stCmdFieldInvalid else 0

/-- A verified object is programmed; an image takes the patch area with it. -/
def State.programImage (s : State) (prov : Bool) (o : List Byte) : State :=
  let a := imageRoom prov
  let s := s.flashWrite a.1 a.2 o
  if prov then s else (s.flashWrite patchArea 0x100000 []).showSlots

/-- Does the flash take what is programmed: its read-back agrees, at the first write or the repeated one? When it does no
rule says. -/
def State.flashTakes (s : State) : Bool := Config.freeNat s.free % 4 != 3

/-- An area that two writes have failed on: what it holds no rule says. -/
def State.spoilImage (s : State) (prov : Bool) (o : List Byte) : State :=
  s.programImage prov ((Config.flashFault s.free o).take (imageRoom prov).2)

def fwImageStart (s : State) (c : Cmd) : State :=
  let prov := c.opf 2 0 1 == 1
  match s.cmdBytes c.ctx (c.op 0).toNat (c.op 1).toNat with
  | .error st => s.endCmd c.id st
  | .ok o =>
    match s.verify (if prov then .record else .image) o with
    | 0 =>
      let t := { s with free := s.free + 1 }
      if s.flashTakes then
        let s := (t.programImage prov o).finishCmd c.id
        if c.opf 2 1 1 = 1 then s.warmReset 6 false else s
      else (t.spoilImage prov o).endCmd c.id stDeviceFault
    | st => s.endCmd c.id st

def fwImageRow : CmdRow :=
  { op := 0x0A, mgmt := true, fields := [fm 0 64, fm 0 64, fm 0 2], check := fwImageCheck, start := fwImageStart }

/-- FW_IMAGE. -/
def execFwImage (q : Fin 16384) (s : State) : Host.Outcome State Fault Refusal := acceptCmd fwImageRow q s

/-! ### FW_PATCH (R388, R389) -/

/-- Slots that a bundle takes. -/
def patchSlots (n : Nat) : Nat := ceilDiv n 0x10000

/-- The lowest run of empty slots that holds `k`. -/
def State.slotRun (s : State) (k : Nat) : Option Nat :=
  (List.range 16).find? (fun b => decide (b + k ≤ 16) && (List.range k).all (fun i => s.slotEmpty (b + i)))

/-- The checks before step 1, on a bundle that has been read. -/
def State.patchStatus (s : State) (o : List Byte) (persist : Bool) : Nat :=
  if 0x100000 < o.length then stCmdFieldInvalid
  else
    match s.bundleStatus o with
    | 0 => if persist ∧ (s.slotRun (patchSlots o.length)).isNone then stNoSpace else 0
    | st => st

/-- QP_STATUS.STATE of queue processor p. -/
def State.setQpSt (s : State) (p v : Nat) : State := s.setFld rQpStatus (4 * p) 4 v

def fwPatchStart (s : State) (c : Cmd) : State :=
  match s.cmdBytes c.ctx (c.op 0).toNat (c.op 1).toNat with
  | .error st => s.endCmd c.id st
  | .ok o =>
    let persist := c.opf 2 0 1 == 1
    match s.patchStatus o persist with
    | 0 => (s.updSec (fun x => { x with patch := some { cmd := c.id, bundle := o, persist := persist } })).setQpSt 0 1
    | st => s.endCmd c.id st

def fwPatchRow : CmdRow :=
  { op := 0x09, mgmt := true, fields := [fm 0 64, fm 0 64, fm 0 1], start := fwPatchStart,
    check := fun s c =>
      if s.fwBusy c then stInUse else if 0x100000 < (c.op 1).toNat then stCmdFieldInvalid else 0 }

/-- FW_PATCH. -/
def execFwPatch (q : Fin 16384) (s : State) : Host.Outcome State Fault Refusal := acceptCmd fwPatchRow q s

/-! ### QUEUE_PROCESSOR_PATCH (Table 15.6) -/

/-- Does a teardown that queue processor p runs lie between its tag increment and its page release? -/
def State.tearsOn (s : State) (p : Nat) : Bool :=
  s.cmds.any (fun c => c.qp == p && c.opcode == 0x24 && (s.ctx c.ctx).tearing)

/-- Has queue processor p accepted a command, but the patch's own, that is not complete? -/
def State.drains (s : State) (p id : Nat) : Bool :=
  s.cmds.any (fun c => c.qp == p && c.id != id) ||
    s.queues.any (fun x => x.2.recs.any (fun c => c.qp == p && !c.ops.isEmpty))

def State.setPatch (s : State) (x : Patch) : State := s.updSec (fun y => { y with patch := some x })

/-- The device controller applies its own part, the bundle is kept where PERSIST asks for it, and the command
completes. -/
def State.endPatch (s : State) (x : Patch) : State :=
  let s := (s.patchApplied x.bundle).updSec (fun y => { y with patch := none })
  let s := if x.persist then
      match s.slotRun (patchSlots x.bundle.length) with
      | none => s
      | some b => (s.flashWrite (patchArea + 0x10000 * b) (0x10000 * patchSlots x.bundle.length) x.bundle).showSlots
    else s
  s.finishCmd x.cmd

/-- QUEUE_PROCESSOR_PATCH: the queue processor that a patch has come to takes its next step, once it may. -/
def execQueueProcessorPatch (s : State) : Host.Outcome State Fault Refusal :=
  match s.sec.patch with
  | none => .next s
  | some x =>
    if 4 ≤ x.qp then .next (if s.health.queue.isEmpty then s.endPatch x else s)
    else if x.step = 1 then .next (if s.tearsOn x.qp then s else s.setPatch { x with step := 2 })
    else if x.step = 2 then .next (if s.drains x.qp x.cmd then s else (s.setPatch { x with step := 4 }).setQpSt x.qp 2)
    else if x.step = 4 then .next ((s.setPatch { x with step := 5 }).setQpSt x.qp 3)
    else
      let t := (s.setPatch { x with qp := x.qp + 1, step := 1 }).setQpSt x.qp 0
      .next (if x.qp = 3 then t else t.setQpSt (x.qp + 1) 1)

end Sys2Proof.Machine
end

