-- ==== Sys2Proof/Machine/Power.lean ====
section
/-! DEFINITION. The power governor, temperatures, the PMBus and low-power states (R402, R407, R413 to R420). -/

namespace Sys2Proof.Machine

def State.updPwr (s : State) (f : Pwr → Pwr) : State := { s with pwr := f s.pwr }

/-! ### Islands (R406, R407) -/

/-- The longest period of an engine island or a region, and of a router or gateway, in 1/256 of nominal. -/
def longest : Nat := 2048
def longestRtr : Nat := 640

/-- The die of an island: 0 or 1. Islands are the engines, F00 to F47, the halves of FS on CD0 and CD1, the herds' routers,
and the gateways (Table 1.4). -/
def islandDie (i : Nat) : Nat :=
  if i < 64 then i / 32
  else if i < 112 then (i - 64) / 24
  else if i < 114 then i - 112
  else if i < 122 then (i - 114) / 4 else i - 122

/-- Where the STRETCH of an island other than a half of FS lies: its register and its lowest bit. -/
def stretchAt (i : Nat) : Nat × Nat :=
  if i < 64 then (rPwrEng i, 0) else if i < 112 then (rFabRstat (i - 64), 12) else (rPwrRtr (i - 114), 0)

def State.stretch (s : State) (i : Nat) : Nat :=
  if i = 112 then s.pwr.fs0 else if i = 113 then s.pwr.fs1 else s.fld (stretchAt i).1 (stretchAt i).2 12

/-- FAB_RSTAT of FS shows the longer stretch of its halves (Table 13.7). -/
def State.showFs (s : State) : State := s.setFld (rFabRstat 48) 12 12 (max s.pwr.fs0 s.pwr.fs1)

def State.setStretch (s : State) (i v : Nat) : State :=
  if i = 112 then (s.updPwr (fun p => { p with fs0 := v })).showFs
  else if i = 113 then (s.updPwr (fun p => { p with fs1 := v })).showFs
  else s.setFld (stretchAt i).1 (stretchAt i).2 12 v

def islandMax (i : Nat) : Nat := if i < 114 then longest else longestRtr

/-! ### The stages (R414) -/

/-- The class whose factor is to grow next: background first, urgent last. -/
def cutClass (c : List Nat) : Option Nat := [3, 2, 1, 0].find? (fun k => decide (c.getD k 256 < longest))
def restoreClass (c : List Nat) : Option Nat := [0, 1, 2, 3].find? (fun k => decide (256 < c.getD k 256))

def addTo (top v d : Nat) : Nat := min top (v + d)
def subTo (v d : Nat) : Nat := max 256 (v - d)

/-- The factor of the current stage grows by d; `hot` says that the fabric draws more than 90 W. -/
def Gov.cut (g : Gov) (hot : Bool) (d : Nat) : Gov :=
  if hot && decide (g.fab1 < longest) then { g with fab1 := addTo longest g.fab1 d }
  else
    match cutClass g.cls with
    | some k => { g with cls := g.cls.set k (addTo longest (g.cls.getD k 256) d) }
    | none =>
      if max g.fab1 g.fab3 < longest then { g with fab3 := addTo longest g.fab3 d }
      else { g with rtr := addTo longestRtr g.rtr d }

/-- The last stage that stretches gives back d. -/
def Gov.restore (g : Gov) (d : Nat) : Gov :=
  if 256 < g.rtr then { g with rtr := subTo g.rtr d }
  else if 256 < g.fab3 then { g with fab3 := subTo g.fab3 d }
  else
    match restoreClass g.cls with
    | some k => { g with cls := g.cls.set k (subTo (g.cls.getD k 256) d) }
    | none => { g with fab1 := subTo g.fab1 d }

/-- Is every island at its longest period? -/
def Gov.spent (g : Gov) : Bool :=
  max g.fab1 g.fab3 == longest && g.cls.all (fun v => v == longest) && g.rtr == longestRtr

/-- The class of what an engine issues: of its issuing pass, or else of its running thread. -/
def State.issueClass (s : State) (n : Nat) : Option Nat :=
  match (s.eng n).passes.find? (fun p => p.phase == .issuing) with
  | some p => some p.cls
  | none =>
    let b := tget ({} : Bank) (s.eng n).banks (s.eng n).active
    if b.st = .run then some (s.slot n b.slot).cls else none

/-- An island's factor under one set of stages: a region's grows in proportion to its draw, up to its longest period. -/
def State.factor (s : State) (g : Gov) (regions : List Nat) (i : Nat) : Nat :=
  if i < 64 then (match s.issueClass i with | none => 256 | some k => g.cls.getD k 256)
  else if i < 114 then min longest (256 + (max g.fab1 g.fab3 - 256) * max 1 (regions.getD (i - 64) 0))
  else g.rtr

/-- The larger of what the power limit and the die's temperature call for (Table 16.8). -/
def State.wanted (s : State) (regions : List Nat) (i : Nat) : Nat :=
  max (s.factor s.pwr.gov regions i) (s.factor (if islandDie i = 0 then s.pwr.heat0 else s.pwr.heat1) regions i)

/-- A factor moves towards another by at most 16. -/
def approach (v w : Nat) : Nat := if v ≤ w then min w (v + 16) else max w (v - 16)

/-- One island takes its new factor; one that stretches by droop keeps it for its recovery. -/
def State.moveIsland (s : State) (regions : List Nat) (i : Nat) : State :=
  match oget s.pwr.droops i with
  | some v => s.updPwr (fun p => { p with droops := oset p.droops i (some (approach v (s.wanted regions i))) })
  | none => s.setStretch i (approach (s.stretch i) (s.wanted regions i))

/-! ### GOVERNOR_UPDATE (R413 to R416) -/

/-- PCAP and TTH in force. -/
def State.pcap (s : State) : Nat := max 400 (min 1000 (s.fld rPwrGov 0 10))
def State.tth (s : State) : Nat := max 70 (min 105 (s.fld rPwrGov 16 8))

/-- An estimate with its correction. -/
def State.watts (s : State) (w : Nat) : Nat := ((w : Int) + s.pwr.corr).toNat

/-- One set of stages follows a demand by a step of at most 16. -/
def Gov.follow (g : Gov) (more hot : Bool) (d : Nat) : Gov := if more then g.cut hot d else g.restore d

/-- The condition of R415 on the averages that the governor has read. -/
def State.capMissed (s : State) (g : Sensors) : Bool := s.pwr.gov.spent && decide (s.pcap < s.watts g.avg100)

/-- GOVERNOR_UPDATE: the stages follow the power limit and the dies' temperatures by a step that the spec leaves
open, and every island moves towards its factor. -/
def execGovernorUpdate (g : Sensors) (s : State) : Host.Outcome State Fault Refusal :=
  if ¬ s.runs then .next s
  else
    let hot := decide (90 < g.regions.sum)
    let r := s.takeBits 4
    let d := r.1 + 1
    let s := r.2.updPwr (fun p =>
      { p with gov := p.gov.follow (decide (s.pcap < s.watts g.avg10 + 15)) hot d,
               heat0 := p.heat0.follow (decide (s.tth < g.tcd0)) hot d,
               heat1 := p.heat1.follow (decide (s.tth < g.tcd1)) hot d })
    let s := (List.range 124).foldl (fun s i => s.moveIsland g.regions i) s
    let miss := s.capMissed g
    let s := s.updPwr (fun p => { p with missFrom := if miss then some (p.missFrom.getD s.dt.toNat) else none })
    let shown := if miss then s.fld rPwrStat 16 1 else 0
    .next (s.setReg rPwrStat (BitVec.ofNat 64 (fv 40 8 g.tiod + fv 32 8 g.tcd1 + fv 24 8 g.tcd0 + fv 16 1 shown +
      fv 0 16 (s.watts g.avg1000))))

/-- GOVERNOR_CALIBRATION: the estimate of what the regulators that answer supply, in W, is held against their
readings. -/
def execGovernorCalibration (est : Nat) (s : State) : Host.Outcome State Fault Refusal :=
  let mw := ((List.range 9).map (fun k =>
    if s.fld (rPwrRail k) 63 1 = 1 then 0 else s.fld (rPwrRail k) 0 12 * s.fld (rPwrRail k) 12 12)).sum
  .next (if s.runs then s.updPwr (fun p => { p with corr := ((mw / 10000 : Nat) : Int) - est }) else s)

/-- CAPMISS: the condition has lasted 1 ms. -/
def execCapmiss (s : State) : Host.Outcome State Fault Refusal :=
  match s.pwr.missFrom with
  | none => .next s
  | some t => if t + dtMs 1 ≤ s.dt.toNat then .next ((s.alert 1).setFld rPwrStat 16 1 1) else .next s

/-! ### Temperatures (R416, R417) -/

/-- TEMPERATURE_ALERT: a sensor reaches 105 °C. -/
def execTemperatureAlert (s : State) : Host.Outcome State Fault Refusal := .next (if s.runs then s.alert 0 else s)

/-- THERMAL_TRIP: a sensor reaches 115 °C. -/
def execThermalTrip (s : State) : Host.Outcome State Fault Refusal :=
  if ¬ s.pwr.up ∨ s.pwr.tripped then .next s
  else
    let s := s.chList.foldl (fun s c => (s.sre c).setFld (rDdrChstat c) 0 3 4) s
    let s := (List.range 48).foldl (fun s l => s.laneOff l) s
    .next ((s.alert 5).updPwr (fun p => { p with tripped := true }))

/-- Every DIMM of a channel: is one above the limit, are all 5 °C below it? -/
def State.dimmHeat (s : State) (ch : Nat) (ts : List Nat) : State :=
  let th := s.fld rPwrGov 24 8
  let awake (s : State) : Bool := s.mayChange ch
  if ts.any (fun t => decide (th < t)) then
    let s := s.alert 3
    let s := if s.ddr.heat.contains ch then s else s.updDdr (fun d => { d with heat := d.heat ++ [ch] })
    if awake s ∧ s.chSet ch = 0 then s.changeSet ch 1 else s
  else if s.ddr.heat.contains ch ∧ ts.all (fun t => decide (t + 5 ≤ th)) then
    let s := s.updDdr (fun d => { d with heat := d.heat.filter (fun c => c != ch) })
    if awake s ∧ s.chSet ch = 1 ∧ ¬ s.ddr.low.contains ch ∧ s.fld (rDdrTsel ch) 0 1 = 0 then s.changeSet ch 0 else s
  else s

/-- DIMM_TEMPERATURE_READ: the temperatures of each channel's DIMMs in °C. -/
def execDimmTemperatureRead (temps : List (List Nat)) (s : State) : Host.Outcome State Fault Refusal :=
  .next (if s.runs then s.chList.foldl (fun s c => s.dimmHeat c (temps.getD c [])) s else s)

/-! ### The PMBus (R402) -/

/-- The reading of regulator k, absent where none is given. -/
def railOf (rails : List Rail) (k : Nat) : Rail := rails.getD k ⟨false, 0, 0, 0, 0⟩

/-- PMBUS_TELEMETRY: VOUT, IOUT and temperature of every regulator; one that does not answer is marked ABSENT. -/
def execPmbusTelemetry (rails : List Rail) (s : State) : Host.Outcome State Fault Refusal :=
  if ¬ s.runs then .next s
  else .next ((List.range 9).foldl (fun s k =>
    let r := railOf rails k
    if r.answers then
      s.updReg (rPwrRail k) (fun w => bset (bset (bset (bset w 0 12 r.vout) 12 12 r.iout) 24 8 r.temp) 63 1 0)
    else s.setFld (rPwrRail k) 63 1 1) s)

/-- PMBUS_ALERT: STATUS_WORD of every regulator, CLEAR_FAULTS, and PWR_ALERT.PMBUS. -/
def execPmbusAlert (rails : List Rail) (s : State) : Host.Outcome State Fault Refusal :=
  if ¬ s.runs then .next s
  else
  let s := (List.range 9).foldl (fun s k =>
    let r := railOf rails k
    if r.answers then s.updReg (rPwrRail k) (fun w => bset (bset w 32 16 r.status) 63 1 0)
    else s.setFld (rPwrRail k) 63 1 1) s
  .next (s.alert 2)

/-! ### Droop (R407) -/

/-- LOCAL_SUPPLY_DROOP: the island stretches by an amount the spec leaves open, within its longest period. -/
def execLocalSupplyDroop (i : Fin 124) (s : State) : Host.Outcome State Fault Refusal :=
  if (oget s.pwr.droops i).isSome then .next s
  else
    let v := s.stretch i
    let r := s.takeBits 12
    let w := min (islandMax i) (v + 1 + r.1)
    .next ((r.2.updPwr (fun p => { p with droops := oset p.droops i (some v) })).setStretch i w)

/-- LOCAL_SUPPLY_RECOVERY: the droop stretch is released. -/
def execLocalSupplyRecovery (i : Fin 124) (s : State) : Host.Outcome State Fault Refusal :=
  match oget s.pwr.droops i with
  | none => .next s
  | some v => .next ((s.updPwr (fun p => { p with droops := oset p.droops i none })).setStretch i v)

/-! ### Low-power states (R419, R420) -/

/-- Has slot k of engine n work: is it READY, or BLOCKED on anything but GWAIT, and not frozen? -/
def State.slotWork (s : State) (n k : Nat) : Bool :=
  let x := s.slot n k
  let waits : Bool := match x.wait with | .gwait _ _ _ => true | _ => false
  !s.slotFrozen n k && (x.st == .ready || (x.st == .blocked && !waits) || x.live)

/-- Does an engine hold work beside its descriptors (R420)? Of a frozen context, only passes past their queue are work. -/
def State.engineBusy (s : State) (n : Nat) : Bool :=
  (List.range 8).any (fun k => s.slotWork n k) ||
    (s.eng n).passes.any (fun p => !(s.frozenOn n p.ctx && (p.phase == .queued || p.phase == .saved))) ||
    (s.eng n).repair.isSome

/-- Does an engine hold work (R420)? -/
def State.engineWork (s : State) (n : Nat) : Bool :=
  s.engineBusy n || (s.eng n).streams.any (fun t => !s.frozenOn n t.ctx)

/-- STATE of an engine island. -/
def State.engPower (s : State) (n : Nat) : Nat := s.fld (rPwrEng n) 12 2

/-- ENGINE_CLOCK_GATE. -/
def execEngineClockGate (e : Fin 64) (s : State) : Host.Outcome State Fault Refusal :=
  if ¬ s.runs ∨ s.engPower e ≠ 0 ∨ s.fld rPwrLpctl 0 16 = 0 ∨ s.engineWork e then .next s
  else .next (s.setFld (rPwrEng e) 12 2 1)

/-- HERD_RETENTION: a herd whose engines are all gated or retired. -/
def execHerdRetention (h : Fin 8) (s : State) : Host.Outcome State Fault Refusal :=
  let ns := (List.range 8).map (fun i => 8 * (h : Nat) + i)
  if ¬ s.runs ∨ s.fld rPwrLpctl 28 1 = 0 ∨ ¬ ns.all (fun n => s.engPower n == 1 || s.engPower n == 3) then .next s
  else .next (ns.foldl (fun s n => if s.engPower n = 1 then s.setFld (rPwrEng n) 12 2 2 else s) s)

/-- ROUTER_CLOCK_GATE: a herd's router island sees no packet for 64 cycles. -/
def execRouterClockGate (i : Fin 8) (s : State) : Host.Outcome State Fault Refusal :=
  .next (if s.runs then s.setFld (rPwrRtr i) 12 2 1 else s)

end Sys2Proof.Machine
end

