-- ==== Sys2Proof/Machine/Teardown.lean ====
section
/-! DEFINITION. Teardown of contexts with transfers in flight (R257, R430 to R432, Tables 7.7 and 17.3). -/

namespace Sys2Proof.Machine

/-! ### Commands -/

/-- What a context's teardown does to a command of it that is not complete: a page move keeps the pages moved so far
(Table 7.7). Of its operations those in `host`, its writes to the partition's endpoint, are still waited for (R239). -/
def Cmd.torn (host : List Nat) (d : Cmd) : Cmd :=
  { d with status := if d.opcode = 0x2C ∧ d.started then stMigAborted else stContextTornDown,
           ops := d.ops.filter host.contains }

/-- The remote writes on their way to hosts. -/
def State.hostOps (s : State) : List Nat := (s.net.ops.filter (fun o => decide (16384 ≤ o.ent))).map NetOp.id

/-- The commands of context c but one end, the ones whose remote writes alone are missing among them. -/
def State.tearCmds (s : State) (c keep : Nat) : State :=
  let ids := (s.cmds.filter (fun d => d.ctx == c && d.id != keep)).map Cmd.id
  let host := s.hostOps
  let s := { s with
    moves := s.moves.filter (fun m => m.ctx != c),
    queues := s.queues.map (fun q => (q.1, { q.2 with recs := q.2.recs.map (fun d =>
      if d.ctx = c ∧ d.ops ≠ [] then { d.torn host with fin := s.dt } else d) })) }
  ids.foldl (fun s id => ((s.dropWork (.pages id)).updCmd id (Cmd.torn host)).finishCmd id) s

/-! ### Masters (Table 17.3) -/

/-- Is a pass given up: it waits in its queue, or issues for the first time? A replay goes on. -/
def Pass.givenUp (p : Pass) : Bool :=
  p.phase == .queued || ((p.phase == .saved || p.phase == .issuing) && !p.replayOf)

/-- The banks that hold work of slot k are free. -/
def Engine.freeBanks (e : Engine) (k : Nat) : Engine :=
  (List.range 2).foldl (fun e b =>
    let x := tget ({} : Bank) e.banks b
    if x.slot = k ∧ x.st ≠ .free then { e with banks := tset {} e.banks b {} } else e) e

/-- The masters of slot k stop: its program, its passes that have not issued, its streams and its thread. -/
def Engine.stopSlot (e : Engine) (k gen : Nat) : Engine :=
  let x := e.slot k
  let x' : Slot := { st := .placed, ctx := x.ctx, gen := gen, plhead := x.plhead, plog := x.plog }
  let e := (e.setSlot k x').freeBanks k
  { e with passes := e.passes.filter (fun p => !(p.slot == k && p.givenUp)),
           streams := e.streams.filter (fun t => t.slot != k) }

/-- A running descriptor stops at a 4 KiB boundary; which one no rule fixes. The bytes of a PEER_WRITE are the
transport's already. -/
def State.tearStream (s : State) (n : Nat) (t : Stream) : State :=
  if ¬ t.started ∨ t.d.mode = 5 ∨ s.streamMoving t then s
  else ({ s with free := s.free + 1 }.runStream n (4096 * (Config.freeNat s.free % t.pieces + 1)) t).1

/-- The descriptors of slot k that run stop. -/
def State.tearStreams (s : State) (n k : Nat) : State :=
  ((s.eng n).streams.filter (fun t => t.slot == k)).foldl (fun s t => s.tearStream n t) s

/-- The gates of engine n that context c owns take its new tag (step 2 of R430). -/
def State.retagGates (s : State) (n c gen : Nat) : State :=
  (List.range 256).foldl (fun s g =>
    let w := s.reg (rEsGate n g)
    if bf w 63 1 = 1 ∧ bf w 40 10 = c then s.setFld (rEsGate n g) 50 12 gen else s) s

/-- A fabric port is frozen by the teardown of the context that loaded its region (R342). -/
def State.tearPort (s : State) (p : Nat) : State :=
  let was := s.fld (rFabPort p) 32 1 == 1
  let s := (s.setFld (rFabPort p) 32 1 1).setFld (rFabPort p) 48 16 stContextTornDown
  match was, s.regOwner (p / 2) with
  | false, some o => s.frozenEvent o 3 p stContextTornDown none
  | _, _ => s

/-- Both ports of every region that context c loaded under tag g. -/
def State.tearPorts (s : State) (c g : Nat) : State :=
  ((List.range 48).filter (fun f => s.regSt f != 0 && s.fld (rFabRstat f) 34 10 == c && s.fld (rFabRstat f) 44 12 == g)).foldl
    (fun s f => (s.tearPort (2 * f)).tearPort (2 * f + 1)) s

/-- A suspect that is torn down is replayed no longer (Table 17.10). -/
def Hang.drop (h : Hang) (c : Nat) : Hang :=
  { h with suspects := h.suspects.filter (fun x => x.1 != c),
           st := match h.st with | .replay x i => if x = c then .ready else .replay x i | st => st }

/-! ### Steps 1 to 4 of R430 -/

/-- Operations of which no packet is left are over. -/
def State.sweepOps (s : State) : State :=
  (s.net.ops.filter (fun o => (s.ent o.ent).tx.all (fun t => t.op != o.id))).foldl (fun s o => s.opDone o.id 0) s

/-- Context c stops: its tag goes one on everywhere, its commands but one end, its masters stop, its peers are told. -/
def State.tearDown (s : State) (c keep : Nat) : State :=
  let g := (s.ctx c).gen
  let g' := (g + 1) % 4096
  let s := (s.fab.loads.filter (fun l => l.ctx == c && !l.blank && !l.boot && l.cmd != 0)).foldl (fun s l => s.stopLoad l) s
  let s := s.tearCmds c keep
  let s := (s.seatsOf c).foldl (fun s p => s.tearStreams p.1 p.2) s
  let s := s.updCtx c (fun x => { x with gen := g', tearing := true, tearDt := s.dt, frozen := none })
  let s := (s.seatsOf c).foldl (fun s p => (s.updEng p.1 (fun e => e.stopSlot p.2 g')).retagGates p.1 c g') s
  let s := (s.tearPorts c g).updRst (fun r => { r with hangs := r.hangs.map (fun h => h.drop c) })
  match s.partOfCtx c with
  | none => s
  | some p => (s.netTeardown p c g).sweepOps

def ctxTeardownRow : CmdRow := { op := 0x24, thaw := true, start := fun s c => s.tearDown c.ctx c.id }

/-- CTX_TEARDOWN: it completes at the fence or after 2 ms. -/
def execCtxTeardown (q : Fin 16384) (s : State) : Host.Outcome State Fault Refusal := acceptCmd ctxTeardownRow q s

/-! ### The fence and the release (R431, step 6 of R430) -/

/-- Is no request of a context's masters left on its way (condition 1)? -/
def State.ejected (s : State) (c g : Nat) : Bool :=
  let mine (p : NocPkt) : Bool := p.ctx == c && p.cgen == g && [0, 1, 5, 6].contains p.ty
  s.engs.all (fun e => e.2.passes.all (fun p => p.ctx != c) && e.2.streams.all (fun t => t.ctx != c)) &&
    !s.noc.net.any mine && !s.noc.queue.any mine

/-- Has every incoming operation that had begun ended (condition 3)? -/
def State.opsEnded (s : State) (c : Nat) : Bool := s.net.ents.all (fun x => x.2.begun.all (fun o => o.1 != c))

/-- The quiesce fence of a context that is torn down. -/
def State.fence (s : State) (c : Nat) : Bool :=
  s.ejected c (((s.ctx c).gen + 4095) % 4096) && s.noticesDone c && s.opsEnded c

/-- Slots, windows, gates, reductions, and the number itself are released; a teardown command completes. -/
def State.releaseCtx (s : State) (c st : Nat) : State :=
  let g := (s.ctx c).gen
  let s := (s.seatsOf c).foldl (fun s p => (s.emptySlot p.1 p.2).freeGates p.1 c) s
  let s := (s.engs.map Prod.fst).foldl (fun s n => s.updEng n (fun e => { e with hosts := tdel c e.hosts })) s
  let s := { s with reds := s.reds.filter (fun r => r.ctx != c) }.dropHeld (fun p => p.ctx == c)
  let s := (s.net.ents.map Prod.fst).foldl
    (fun s i => s.updEnt i (fun e => { e with begun := e.begun.filter (fun o => o.1 != c) })) s
  let s := s.setCtx c { gen := g }
  let s := match s.cmds.find? (fun d => d.opcode == 0x24 && d.ctx == c && d.st == .running) with
    | none => s
    | some d => s.endCmd d.id st
  s.settleResets

/-- QUIESCE_FENCE. -/
def execQuiesceFence (c : Fin 1024) (s : State) : Host.Outcome State Fault Refusal :=
  if s.runs ∧ (s.ctx c).tearing ∧ s.fence c then .next (s.releaseCtx c 0) else .next s

/-- The 4 KiB pages that incoming operations of a context have addressed and not finished are zeroed (R432). -/
def State.scrub (s : State) (c : Nat) : State :=
  let pages := (s.net.ents.flatMap (fun e => (e.2.begun.filter (fun o => o.1 == c)).flatMap (fun o => o.2.2))).dedup
  pages.foldl (fun s a => s.putBytes a (List.replicate 4096 0) false) s

/-- TEARDOWN_TIMEOUT: 2 ms after T0 without the fence. -/
def execTeardownTimeout (c : Fin 1024) (s : State) : Host.Outcome State Fault Refusal :=
  let x := s.ctx c
  if s.runs ∧ x.tearing ∧ ¬ s.fence c ∧ x.tearDt.toNat + dtMs 2 ≤ s.dt.toNat then
    .next ((s.scrub c).releaseCtx c stTeardownScrubbed)
  else .next s

end Sys2Proof.Machine
end

