-- ==== Sys2Proof/Machine/VDecode.lean ====
section
/-! DEFINITION. Bundles of the vector tile (R93 to R95) and what makes one illegal (Table 4.9). -/

namespace Sys2Proof.Machine

/-- The operations of Table 4.4. -/
inductive VOp where
  | nop
  | vld | vlds | vst | vstm | sld | sst | amov | aget
  | vadd | vsub | vmax | vmin | vand | vor | vxor | vshl | vshr | vcmp | vsel | vbcst | vperm | vextr | vcvt
  | vmaxi | vmini | smaxi | smini | vtopk | sadd | ssub | smul | smovi | slui | br | varm | vdisarm | vreti | vsig
  | vsrrd | vsrwr | vflags
  | vmul | vfma | vfms | vfnma | vdot2 | vrsum | vexp2 | vlog2 | vrcp | vrsqrt | vsilu | vgelu | verf
deriving DecidableEq, Repr

/-- The slots of a bundle: LS, ALU, MAC. -/
inductive VSlot where
  | ls | alu | mac
deriving DecidableEq, Repr

/-- A 42-bit slot instruction (Table 4.3). -/
structure VFields where
  op : Nat
  d : Nat
  a : Nat
  b : Nat
  x : Nat
deriving DecidableEq, Repr

def VFields.ofBits (w : Nat) : VFields :=
  { op := bitsOf w 34 8, d := bitsOf w 28 6, a := bitsOf w 22 6, b := bitsOf w 16 6, x := bitsOf w 0 16 }

/-- The operation that an opcode names in a slot; none is reserved or in the wrong slot. -/
def VOp.ofCode (sl : VSlot) (op : Nat) : Option VOp :=
  if op = 0 then some .nop
  else
    match sl with
    | .ls =>
      match op with
      | 0x01 => some .vld | 0x02 => some .vlds | 0x03 => some .vst | 0x04 => some .vstm | 0x05 => some .sld
      | 0x06 => some .sst | 0x08 => some .amov | 0x09 => some .aget | _ => none
    | .alu =>
      match op with
      | 0x10 => some .vadd | 0x11 => some .vsub | 0x12 => some .vmax | 0x13 => some .vmin | 0x14 => some .vand
      | 0x15 => some .vor | 0x16 => some .vxor | 0x17 => some .vshl | 0x18 => some .vshr | 0x19 => some .vcmp
      | 0x1A => some .vsel | 0x1B => some .vbcst | 0x1C => some .vperm | 0x1D => some .vextr | 0x20 => some .vcvt
      | 0x28 => some .vmaxi | 0x29 => some .vmini | 0x2A => some .smaxi | 0x2B => some .smini | 0x2C => some .vtopk
      | 0x30 => some .sadd | 0x31 => some .ssub | 0x32 => some .smul | 0x33 => some .smovi | 0x34 => some .slui
      | 0x38 => some .br | 0x39 => some .varm | 0x3A => some .vdisarm | 0x3B => some .vreti | 0x3C => some .vsig
      | 0x3D => some .vsrrd | 0x3E => some .vsrwr | 0x3F => some .vflags | _ => none
    | .mac =>
      match op with
      | 0x40 => some .vmul | 0x41 => some .vfma | 0x42 => some .vfms | 0x43 => some .vfnma | 0x44 => some .vdot2
      | 0x48 => some .vrsum | 0x50 => some .vexp2 | 0x51 => some .vlog2 | 0x52 => some .vrcp | 0x53 => some .vrsqrt
      | 0x54 => some .vsilu | 0x55 => some .vgelu | 0x56 => some .verf | _ => none

/-- Does the operation write a scalar register named by D? -/
def VOp.scalarDest : VOp → Bool
  | .sld => true | .aget => true | .vcmp => true | .vextr => true | .vmaxi => true | .vmini => true
  | .smaxi => true | .smini => true | .sadd => true | .ssub => true | .smul => true | .smovi => true
  | .slui => true | .vsrrd => true | .vflags => true | .vrsum => true | _ => false

/-- Does D name a pair of scalar registers? -/
def VOp.pairDest : VOp → Bool
  | .vmaxi => true | .vmini => true | .smaxi => true | .smini => true | .vsrrd => true | _ => false

/-- The special functions. -/
def VOp.isSpecial : VOp → Bool
  | .vexp2 => true | .vlog2 => true | .vrcp => true | .vrsqrt => true | .vsilu => true | .vgelu => true
  | .verf => true | _ => false

/-- The status of an illegal slot instruction (Table 4.9), if it is one: 0x010B VT_ILLEGAL_BUNDLE or
0x0106 CVT_CONTROL_INVALID. `delay`: in a delay bundle; `handler`: in a gate handler.
DESIGN CHOICE (log 76), where Table 4.9 names no status: VCMP and VRSUM of TYPE 1 or 2, VCMP of comparison 4 to 7, AMOV of
D[1:0] = 3 and AGET of X[1:0] = 3 are illegal as reserved encodings; VTOPK, whose X[1:0] are bits of its k (R108), has no
TYPE to test. -/
def slotIllegal (sl : VSlot) (delay handler : Bool) (i : VFields) : Option Nat :=
  let ill : Option Nat := some 0x010B
  match VOp.ofCode sl i.op with
  | none => ill
  | some o =>
    if o = .nop then (if i.d = 0 ∧ i.a = 0 ∧ i.b = 0 ∧ i.x = 0 then none else ill)
    else if o.scalarDest ∧ 32 ≤ i.d then ill
    else if o.pairDest ∧ i.d % 2 = 1 then ill
    else if o.isSpecial ∧ bitsOf i.x 0 2 ≠ 0 then ill
    else
      match o with
      | .vtopk => if i.d % 4 ≠ 0 ∨ bitsOf i.x 0 7 = 0 ∨ 64 < bitsOf i.x 0 7 then ill else none
      | .vcmp => if bitsOf i.x 0 2 = 1 ∨ bitsOf i.x 0 2 = 2 ∨ 3 < bitsOf i.x 2 3 then ill else none
      | .vrsum => if bitsOf i.x 0 2 = 1 ∨ bitsOf i.x 0 2 = 2 then ill else none
      | .amov => if bitsOf i.d 0 2 = 3 then ill else none
      | .aget => if bitsOf i.x 0 2 = 3 then ill else none
      | .br => if delay then ill else none
      | .vreti => if delay ∨ ¬ handler then ill else none
      | .vcvt =>
        match Fmt.ofCode (bitsOf i.x 12 4), Fmt.ofCode (bitsOf i.x 8 4) with
        | some t, some _ =>
          if 32 ≤ i.b then none
          else if bitsOf i.b 0 4 ≠ 0 then ill
          else if cvtcInvalid t (bitsOf i.x 0 8) then some 0x0106 else none
        | _, _ => ill
      | _ => none

/-- A bundle: its control and its three slots (Table 4.2). -/
structure Bundle where
  ctl : Nat
  mac : VFields
  alu : VFields
  ls : VFields
deriving DecidableEq, Repr

def Bundle.ofBits (w : Nat) : Bundle :=
  { ctl := bitsOf w 126 2, mac := .ofBits (bitsOf w 84 42), alu := .ofBits (bitsOf w 42 42), ls := .ofBits (bitsOf w 0 42) }

/-- The status of an illegal bundle, if it is one. -/
def Bundle.illegal (b : Bundle) (delay handler : Bool) : Option Nat :=
  if b.ctl = 3 then some 0x010B
  else
    match slotIllegal .ls delay handler b.ls, slotIllegal .alu delay handler b.alu, slotIllegal .mac delay handler b.mac with
    | none, none, r => r
    | none, some st, r => if r = some 0x010B then r else some st
    | some st, _, _ => some st

/-- Does a bundle hold an operation in some slot? -/
def Bundle.has (b : Bundle) (o : VOp) : Bool :=
  VOp.ofCode .ls b.ls.op == some o || VOp.ofCode .alu b.alu.op == some o || VOp.ofCode .mac b.mac.op == some o

end Sys2Proof.Machine
end

