-- ==== Sys2Proof/Machine/VLanes.lean ====
section
/-! DEFINITION. What the vector tile's operations compute (R97 to R100, R107 to R109). -/

namespace Sys2Proof.Machine

/-! ### Registers as lanes (R88, R99) -/

/-- Numbers packed into one, `w` bits each, the first lowest. -/
def packNat (w : Nat) (xs : List Nat) : Nat := xs.foldr (fun x acc => x % 2 ^ w + acc * 2 ^ w) 0

/-- `n` fields of `w` bits of a number, the lowest first. -/
def fieldsOf (w n v : Nat) : List Nat := (List.range n).map (fun i => bitsOf v (w * i) w)

abbrev Vec := BitVec 1024

def Vec.lanes (v : Vec) : List Nat := fieldsOf 32 32 v.toNat
def Vec.ofLanes (xs : List Nat) : Vec := BitVec.ofNat 1024 (packNat 32 xs)

def Bank.vr (b : Bank) (r : Nat) : Vec := tget 0 b.v (r % 64)
def Bank.sr (b : Bank) (r : Nat) : Nat := (tget (0 : W32) b.s (r % 32)).toNat

/-! ### Typed lanes (R97) -/

/-- The lane type of TYPE: an element format and its width; none is INT32. -/
def laneType (t : Nat) : Option (Elem × Nat) :=
  match t with
  | 0 => some (.f32, 32) | 1 => some (.bf16, 16) | 2 => some (.f16, 16) | _ => none

/-- A floating lane's value; FTZ makes a subnormal +0. -/
def laneVal (t : Elem) (ftz : Bool) (w : Nat) : Val :=
  if ftz && t.subnormal w then Val.zero else t.decode w

/-- Rounds the exact result of a floating lane once; a result NaN is the format's canonical NaN. DESIGN CHOICE (log 77):
a NaN operand makes no invalid operation, not even beside 0 times infinity, where IEEE 754 leaves the flag open. -/
def laneRound (t : Elem) (ftz : Bool) (v : Val) (nanIn : Bool) : FRes :=
  let c := (cvtElem t 0 0 0 v).code
  let c := if ftz && t.subnormal c then 0 else c
  { code := c, fl := { inv := v.isNaN && !nanIn, ovf := !v.isNaN && !v.isInf && (t.decode c).isInf } }

/-- Lane-wise over floating lanes of a type. -/
def laneMap (t : Elem) (w : Nat) (ftz : Bool) (f : List Val → Val) (vs : List Vec) : Vec × Fl :=
  let cols := vs.map (fun v => fieldsOf w (1024 / w) v.toNat)
  let rs := (List.range (1024 / w)).map (fun l =>
    let xs := cols.map (fun c => laneVal t ftz (c.getD l 0))
    laneRound t ftz (f xs) (xs.any Val.isNaN))
  (BitVec.ofNat 1024 (packNat w (rs.map FRes.code)), Fl.union (rs.map FRes.fl))

/-- Lane-wise over INT32 lanes, wrapping. -/
def intMap (f : List Int → Int) (vs : List Vec) : Vec × Fl :=
  let cols := vs.map Vec.lanes
  (Vec.ofLanes ((List.range 32).map (fun l => wrapInt 32 (f (cols.map (fun c => sextNat 32 (c.getD l 0)))))), {})

/-- A typed operation. -/
def typed (ty : Nat) (ftz : Bool) (f : List Val → Val) (g : List Int → Int) (vs : List Vec) : Vec × Fl :=
  match laneType ty with
  | some (t, w) => laneMap t w ftz f vs
  | none => intMap g vs

def l0 {α : Type} (d : α) (xs : List α) : α := xs.getD 0 d
def l1 {α : Type} (d : α) (xs : List α) : α := xs.getD 1 d
def l2 {α : Type} (d : α) (xs : List α) : α := xs.getD 2 d

def vAddOp (xs : List Val) : Val := (l0 .zero xs).add (l1 .zero xs)
def vSubOp (xs : List Val) : Val := (l0 .zero xs).add (l1 .zero xs).neg
def vMulOp (xs : List Val) : Val := (l0 .zero xs).mul (l1 .zero xs)
def vFmaOp (xs : List Val) : Val := ((l0 .zero xs).mul (l1 .zero xs)).add (l2 .zero xs)
def vFmsOp (xs : List Val) : Val := ((l0 .zero xs).mul (l1 .zero xs)).add (l2 .zero xs).neg
def vFnmaOp (xs : List Val) : Val := ((l0 .zero xs).mul (l1 .zero xs)).neg.add (l2 .zero xs)
def iAddOp (xs : List Int) : Int := l0 0 xs + l1 0 xs
def iSubOp (xs : List Int) : Int := l0 0 xs - l1 0 xs
def iMulOp (xs : List Int) : Int := l0 0 xs * l1 0 xs
def iFmaOp (xs : List Int) : Int := l0 0 xs * l1 0 xs + l2 0 xs
def iFmsOp (xs : List Int) : Int := l0 0 xs * l1 0 xs - l2 0 xs
def iFnmaOp (xs : List Int) : Int := l2 0 xs - l0 0 xs * l1 0 xs

/-- VMAX and VMIN (R97): a NaN lane is ignored unless both are; equal lanes give Va's. -/
def maxLane (mini : Bool) (t : Elem) (ftz : Bool) (a b : Nat) : Nat :=
  let fl (w : Nat) : Nat := if ftz && t.subnormal w then 0 else w
  let x := t.decode (fl a)
  let y := t.decode (fl b)
  if x.isNaN && y.isNaN then (cvtElem t 0 0 0 .nan).code
  else if x.isNaN then fl b
  else if y.isNaN then fl a
  else if (if mini then y.lt x else x.lt y) then fl b else fl a

def vMaxMin (mini : Bool) (ty : Nat) (ftz : Bool) (a b : Vec) : Vec :=
  match laneType ty with
  | some (t, w) =>
    BitVec.ofNat 1024 (packNat w (List.zipWith (maxLane mini t ftz) (fieldsOf w (1024 / w) a.toNat)
      (fieldsOf w (1024 / w) b.toNat)))
  | none =>
    Vec.ofLanes (List.zipWith (fun x y =>
      if (if mini then decide (sextNat 32 y < sextNat 32 x) else decide (sextNat 32 x < sextNat 32 y)) then y else x)
      a.lanes b.lanes)

/-- VCMP: 0 eq, 1 lt, 2 le, 3 ne; a NaN is unequal to everything. DESIGN CHOICE (log 77): a comparison with a NaN sets no
INV. -/
def cmpLane (int ftz : Bool) (op a b : Nat) : Bool :=
  let fl (w : Nat) : Nat := if ftz && Elem.f32.subnormal w then 0 else w
  let lt := if int then laneLt true a b else laneLt false (fl a) (fl b)
  let eq := if int then laneEq true a b else laneEq false (fl a) (fl b)
  match op with
  | 0 => eq | 1 => lt | 2 => lt || eq | _ => !eq

def vCmp (int ftz : Bool) (op : Nat) (a b : Vec) : Nat :=
  packNat 1 (List.zipWith (fun x y => if cmpLane int ftz op x y then 1 else 0) a.lanes b.lanes)

/-- A lane shifted by a count; the spec states no result for a count of 32 or more. -/
def shiftLane (right : Bool) (n free w : Nat) : Nat :=
  if n < 32 then (if right then w >>> n else (w <<< n) % 2 ^ 32) else free % 2 ^ 32

/-- VDOT2: one rounding of Vc + a·b + a'·b' (Table 4.4). -/
def vDot2 (f16 ftz : Bool) (a b c : Vec) : Vec × Fl :=
  let t : Elem := if f16 then .f16 else .bf16
  let pa := fieldsOf 16 64 a.toNat
  let pb := fieldsOf 16 64 b.toNat
  let rs := c.lanes.zipIdx.map (fun p =>
    let at_ (l : List Nat) (k : Nat) : Val := laneVal t ftz (l.getD (2 * p.2 + k) 0)
    let x := laneVal .f32 ftz p.1
    let nan := x.isNaN || (at_ pa 0).isNaN || (at_ pa 1).isNaN || (at_ pb 0).isNaN || (at_ pb 1).isNaN
    laneRound .f32 ftz ((x.add ((at_ pa 0).mul (at_ pb 0))).add ((at_ pa 1).mul (at_ pb 1))) nan)
  (Vec.ofLanes (rs.map FRes.code), Fl.union (rs.map FRes.fl))

/-- One level of the fixed tree of R98. -/
def treeLevel (f : Nat → Nat → FRes) : List Nat → List FRes
  | a :: b :: rest => f a b :: treeLevel f rest
  | _ => []

/-- The tree, level by level. -/
def treeSum (f : Nat → Nat → FRes) : Nat → List Nat → FRes
  | 0, xs => { code := xs.headD 0 }
  | n + 1, xs =>
    let l := treeLevel f xs
    let r := treeSum f n (l.map FRes.code)
    { code := r.code, fl := (Fl.union (l.map FRes.fl)).or r.fl }

def vRsum (int ftz : Bool) (a : Vec) : FRes :=
  if int then { code := wrapInt 32 ((a.lanes.map (sextNat 32)).sum) }
  else treeSum (fun x y =>
    let p := laneVal .f32 ftz x
    let q := laneVal .f32 ftz y
    laneRound .f32 ftz (p.add q) (p.isNaN || q.isNaN)) 5 a.lanes

def vSpecial (fn : SpFn) (ftz : Bool) (a : Vec) : Vec × Fl :=
  let rs := a.lanes.map (fSpecial fn ftz)
  (Vec.ofLanes (rs.map FRes.code), Fl.union (rs.map FRes.fl))

/-! ### VCVT (R99) -/

/-- The elements of a source register: codes, and blocks with their scales. -/
def cvtSource (s : Fmt) (hi blk32 : Bool) (v : Vec) : List SrcBlock :=
  let w := s.bits
  let base := if w = 16 ∧ hi then 512 else 0
  let codes := (List.range 32).map (fun i => bitsOf v.toNat (base + w * i) w)
  let sc (k : Nat) : Nat := bitsOf v.toNat (512 + 8 * k) 8
  if s.isOcp ∨ (s.isBlock ∧ blk32) then [{ scale := sc 0, codes := codes }]
  else if s.isBlock then [{ scale := sc 0, codes := codes.take 16 }, { scale := sc 1, codes := codes.drop 16 }]
  else [{ scale := 127, codes := codes }]

/-- A result register: elements from byte 0, scales at bytes 64 and 65, every other byte 0. -/
def cvtLay (t : Fmt) (bs : List CvtBlock) : Vec :=
  let el := packNat t.bits (bs.flatMap CvtBlock.codes)
  let sc := if t.scaled then packNat 8 (bs.map CvtBlock.scale) else 0
  BitVec.ofNat 1024 (el + sc * 2 ^ 512)

/-- VCVT with a control that has been checked or substituted (R44). DESIGN CHOICE (log 80), where a register CVTC of
BLK = 0 meets an OCP format: an OCP source or target has blocks of 32, a P1 source those of BLK, and an OCP source of the
target's own format is converted like any other. -/
def vCvt (s t : Fmt) (c : Cvtc) (hi : Bool) (draws : List Nat) (v : Vec) : Vec × Fl :=
  let src := cvtSource s hi c.blk32 v
  let sblk := if s.isOcp then 32 else if s.isBlock then c.block else 0
  let bs := convertRun s t sblk c draws src
  (cvtLay t bs, { sat := bs.any CvtBlock.sat, inv := bs.any CvtBlock.inv })

/-! ### Searches (R107, R108) -/

/-- The lanes with their indices from Sb. -/
def indexed (v : Vec) (sb : Nat) : List (Nat × Nat) := v.lanes.zipIdx.map (fun p => (p.1, (sb + p.2) % 2 ^ 32))

/-- VMAXI and VMINI. -/
def vSearch (mini int : Bool) (carry : Option (Nat × Nat)) (v : Vec) (sb : Nat) : (Nat × Nat) × Bool :=
  searchPairs int mini (match carry with | none => indexed v sb | some p => indexed v sb ++ [p])

/-- VTOPK: the merged list of k, filled up to 64 (R108). -/
def vTopk (mini : Bool) (k : Nat) (old : List (Nat × Nat)) (v : Vec) (sb : Nat) : List (Nat × Nat) :=
  let l := topK mini k (old.take k ++ indexed v sb)
  l ++ List.replicate (64 - l.length) emptyCand

/-! ### Circular addressing (R100) -/

/-- The element addresses of an access: A as a signed offset, addresses modulo 2^32. -/
def circAddrs (n a ab al : Nat) : List Nat :=
  (List.range n).map (fun e =>
    let off : Int := sextNat 32 a + 4 * (e : Int)
    if al = 0 then wrapInt 32 ((ab : Int) + off) else wrapInt 32 ((ab : Int) + off % (al : Int)))

/-- A after the access. -/
def circNext (a al : Nat) (inc : Int) : Nat :=
  if al = 0 then wrapInt 32 (sextNat 32 a + inc) else wrapInt 32 ((sextNat 32 a + inc) % (al : Int))

end Sys2Proof.Machine
end

