-- ==== Sys2Proof/Machine/Vtile.lean ====
section
/-! DEFINITION. The vector tile (chapter 04): bundles and their effects, landing results, faults,
thread launch, switches, gate handlers and the end of a thread. -/

namespace Sys2Proof.Machine

/-! ### Results in flight (R90, R92, R102) -/

/-- Puts a result among those in flight: by due time, later issue after earlier. -/
def insertPend (p : Pend) : List Pend → List Pend
  | [] => [p]
  | q :: qs => if p.due < q.due then p :: q :: qs else q :: insertPend p qs

/-- A result lands in its bank. Stores land in local memory. -/
def Bank.land (b : Bank) (t : VTarget) : Bank :=
  match t with
  | .v r x => { b with v := tset 0 b.v (r % 64) x }
  | .s r x => { b with s := tset 0 b.s (r % 32) x }
  | .mem _ _ => b

def Engine.bank (e : Engine) (k : Nat) : Bank := tget {} e.banks k
def Engine.setBank (e : Engine) (k : Nat) (b : Bank) : Engine := { e with banks := tset {} e.banks k b }

/-- Four bytes of local memory. -/
def Engine.lmemPut (e : Engine) (a w : Nat) : Engine :=
  { e with lmem := (leBytes 4 w).zipIdx.foldl (fun m p => tset 0 m (a + p.2) p.1) e.lmem }

/-- Lands one result of bank k. -/
def Engine.landOne (e : Engine) (k : Nat) (t : VTarget) : Engine :=
  match t with
  | .mem a x => e.lmemPut a x.toNat
  | _ => e.setBank k ((e.bank k).land t)

/-- Lands the results of bank k that are due by a time, in order. -/
def Engine.landDue (e : Engine) (k t : Nat) : Engine :=
  let due := (e.bank k).pend.filter (fun p => decide (p.due ≤ t))
  let e := due.foldl (fun e p => e.landOne k p.tgt) e
  let b := e.bank k
  e.setBank k { b with pend := b.pend.filter (fun p => !decide (p.due ≤ t)) }

/-- The time of the last result in flight of a bank. -/
def Bank.lastDue (b : Bank) : Nat := b.pend.foldl (fun m p => max m p.due) 0

/-- Lands everything of bank k; time passes as far as that takes. -/
def Engine.drainBank (e : Engine) (k : Nat) : Engine :=
  let t := max e.tc (e.bank k).lastDue
  { e.landDue k t with tc := t }

/-! ### One bundle -/

/-- What the slots of a bundle do. `pend` holds results with their latencies, LS before ALU before MAC. -/
structure VRes where
  pend : List (Nat × VTarget) := []
  areg : Option (Nat × Nat × Nat) := none
  fl : Fl := {}
  br : Option (Nat × Nat) := none
  ret : Bool := false
  arm : Option (Nat × Nat) := none
  disarm : Option Nat := none
  sig : Option Nat := none
  srm : Option Nat := none
  srv : Option Nat := none
  clear : Bool := false
deriving DecidableEq, Repr

/-- What a bundle reads beside its bank: its PC, FTZ, the generator states, the flags and a free value. -/
structure VIn where
  pc : Nat := 0
  ftz : Bool := false
  srm : Nat := 1
  srv : Nat := 1
  flags : Nat := 0
  free : Nat := 0
deriving DecidableEq, Repr

def vres (lat r : Nat) (x : Vec × Fl) : VRes := { pend := [(lat, .v r x.1)], fl := x.2 }
def sres (lat r x : Nat) : VRes := { pend := [(lat, .s r (BitVec.ofNat 32 x))] }
def pres (lat r : Nat) (p : Nat × Nat) : List (Nat × VTarget) :=
  [(lat, .s r (BitVec.ofNat 32 p.1)), (lat, .s (r + 1) (BitVec.ofNat 32 p.2))]

/-- The immediate as a signed number. -/
def VFields.simm (i : VFields) : Int := sextNat 16 i.x

/-- How many elements an LS operation accesses; 0 where it accesses none. -/
def lsCount (o : VOp) : Nat :=
  match o with
  | .vld => 32 | .vst => 32 | .vstm => 32 | .vlds => 1 | .sld => 1 | .sst => 1 | _ => 0

/-- A, AB and AL of the address register that an LS instruction names. -/
def Bank.areg (b : Bank) (i : VFields) : Nat × Nat × Nat :=
  let k := i.a % 8
  ((tget (0 : W32) b.a k).toNat, (tget (0 : W32) b.ab k).toNat, (tget (0 : W32) b.al k).toNat)

def lsAddrs (o : VOp) (b : Bank) (i : VFields) : List Nat :=
  let r := b.areg i
  circAddrs (lsCount o) r.1 r.2.1 r.2.2

/-- A 4-byte element of local memory. -/
def Engine.lmemWord (e : Engine) (a : Nat) : Nat := leNat ((List.range 4).map (fun k => tget 0 e.lmem (a + k)))

/-- The LS slot: `base` is the window's first byte. -/
def lsRun (e : Engine) (base : Nat) (b : Bank) (i : VFields) : VRes :=
  match VOp.ofCode .ls i.op with
  | none => {}
  | some o =>
    let as := lsAddrs o b i
    let rd := as.map (fun a => e.lmemWord (base + a))
    let r := b.areg i
    let k := i.a % 8
    let next : Option (Nat × Nat × Nat) := some (0, k, circNext r.1 r.2.2 i.simm)
    let st (xs : List (Nat × Nat)) : List (Nat × VTarget) := xs.map (fun p => (2, .mem (base + p.1) (BitVec.ofNat 32 p.2)))
    match o with
    | .vld => { vres 5 i.d (Vec.ofLanes rd, {}) with areg := next }
    | .vlds => { vres 5 i.d (Vec.ofLanes (List.replicate 32 (rd.headD 0)), {}) with areg := next }
    | .vst => { pend := st (as.zip (b.vr i.b).lanes), areg := next }
    | .vstm =>
      let m := b.sr i.d
      { pend := st (((as.zip (b.vr i.b).lanes).zipIdx.filter (fun p => bitsOf m p.2 1 == 1)).map Prod.fst), areg := next }
    | .sld => { sres 4 i.d (rd.headD 0) with areg := next }
    | .sst => { pend := st (as.zip [b.sr i.b]), areg := next }
    | .amov => { areg := some (i.d % 4, k, b.sr i.b) }
    | .aget => sres 1 i.d (if i.x % 4 = 0 then r.1 else if i.x % 4 = 1 then r.2.1 else r.2.2)
    | _ => {}

/-- The entries of a VTOPK list in Vd to Vd + 3 (R108). -/
def Bank.topkList (b : Bank) (d : Nat) : List (Nat × Nat) :=
  ((b.vr d).lanes ++ (b.vr (d + 1)).lanes).zip ((b.vr (d + 2)).lanes ++ (b.vr (d + 3)).lanes)

/-- VADD, VSUB: 3 tc, INT32 1 tc. -/
def addLat (x : Nat) : Nat := if x % 4 = 3 then 1 else 3

/-- The draws of a conversion: 32 from SRV under SR (R113). -/
def cvtDraws (c : Cvtc) (srv : Nat) : List Nat × Option Nat :=
  if c.round = 2 then
    let r := drawsFrom 32 srv
    (r.1, some r.2)
  else ([], none)

/-- VCVT (R99): the register control is taken with the substitutions of R44. -/
def runVcvt (u : VIn) (b : Bank) (i : VFields) : VRes :=
  match Fmt.ofCode (bitsOf i.x 12 4), Fmt.ofCode (bitsOf i.x 8 4) with
  | some t, some s =>
    let ctl := if 32 ≤ i.b then Cvtc.runtime t (b.sr i.b % 256) else Cvtc.ofByte (bitsOf i.x 0 8)
    let d := cvtDraws ctl u.srv
    let hi := decide (i.b < 32) && bitsOf i.b 4 1 == 1
    { vres 4 i.d (vCvt s t ctl hi d.1 (b.vr i.a)) with srv := d.2 }
  | _, _ => {}

/-- VMAXI and VMINI (R107). -/
def runSearch (mini : Bool) (b : Bank) (i : VFields) : VRes :=
  let carry := if bitsOf i.x 0 1 = 1 then some (b.sr i.d, b.sr (i.d + 1)) else none
  let r := vSearch mini (bitsOf i.x 1 1 == 1) carry (b.vr i.a) (b.sr i.b)
  let inc := if bitsOf i.x 2 1 = 1 then [(1, VTarget.s i.b (BitVec.ofNat 32 (b.sr i.b + 32)))] else []
  { pend := inc ++ pres 4 i.d r.1, fl := { nanall := r.2 } }

/-- SMAXI and SMINI. -/
def runMerge (mini : Bool) (b : Bank) (i : VFields) : VRes :=
  let r := searchPairs (bitsOf i.x 1 1 == 1) mini [(b.sr i.d, b.sr (i.d + 1)), (b.sr i.a, b.sr (i.a + 1))]
  { pend := pres 2 i.d r.1, fl := { nanall := r.2 } }

/-- VTOPK. -/
def runTopk (b : Bank) (i : VFields) : VRes :=
  let old := if bitsOf i.x 8 1 = 1 then [] else b.topkList i.d
  let l := vTopk (bitsOf i.x 7 1 == 1) (bitsOf i.x 0 7) old (b.vr i.a) (b.sr i.b)
  let vs := l.map Prod.fst
  let is := l.map Prod.snd
  { pend := [(6, .v i.d (Vec.ofLanes (vs.take 32))), (6, .v (i.d + 1) (Vec.ofLanes (vs.drop 32))),
             (6, .v (i.d + 2) (Vec.ofLanes (is.take 32))), (6, .v (i.d + 3) (Vec.ofLanes (is.drop 32)))] }

/-- Does BR's condition hold? -/
def brHolds (c w : Nat) : Bool :=
  match c with
  | 0 => true | 1 => w != 0 | 2 => w == 0 | _ => decide (2 ^ 31 ≤ w)

/-- A bundle index, modulo its 15 bits. -/
def pcWrap (t : Int) : Nat := wrapInt 15 t

/-- Lane-wise bit operations and shifts. -/
def runBits (o : VOp) (u : VIn) (b : Bank) (i : VFields) : VRes :=
  let x := b.vr i.a
  let y := b.vr i.b
  let n := b.sr i.b
  let sh (right : Bool) : Vec :=
    Vec.ofLanes (x.lanes.zipIdx.map (fun p => shiftLane right n (Config.freeNat (u.free + p.2)) p.1))
  vres 1 i.d ((match o with
    | .vand => x &&& y | .vor => x ||| y | .vxor => x ^^^ y | .vshl => sh false | _ => sh true), {})

/-- The scalar operations. -/
def runScalar (o : VOp) (b : Bank) (i : VFields) : VRes :=
  let x := b.sr i.a
  let y := b.sr i.b
  match o with
  | .sadd => sres 1 i.d (x + y)
  | .ssub => sres 1 i.d (wrapInt 32 ((x : Int) - (y : Int)))
  | .smul => sres 2 i.d (x * y)
  | .smovi => sres 1 i.d (wrapInt 32 i.simm)
  | _ => sres 1 i.d (b.sr i.d % 65536 + 65536 * i.x)

/-- The ALU slot. -/
def aluRun (u : VIn) (b : Bank) (i : VFields) : VRes :=
  let x := b.vr i.a
  let y := b.vr i.b
  match VOp.ofCode .alu i.op with
  | none => {}
  | some o =>
    match o with
    | .vadd => vres (addLat i.x) i.d (typed (i.x % 4) u.ftz vAddOp iAddOp [x, y])
    | .vsub => vres (addLat i.x) i.d (typed (i.x % 4) u.ftz vSubOp iSubOp [x, y])
    | .vmax => vres (addLat i.x) i.d (vMaxMin false (i.x % 4) u.ftz x y, {})
    | .vmin => vres (addLat i.x) i.d (vMaxMin true (i.x % 4) u.ftz x y, {})
    | .vand => runBits o u b i
    | .vor => runBits o u b i
    | .vxor => runBits o u b i
    | .vshl => runBits o u b i
    | .vshr => runBits o u b i
    | .vcmp => sres 2 i.d (vCmp (i.x % 4 == 3) u.ftz (bitsOf i.x 2 3) x y)
    | .vsel =>
      let m := b.sr (bitsOf i.x 10 6)
      vres 1 i.d (Vec.ofLanes ((x.lanes.zip y.lanes).zipIdx.map (fun p => if bitsOf m p.2 1 = 1 then p.1.1 else p.1.2)), {})
    | .vbcst => vres 1 i.d (Vec.ofLanes (List.replicate 32 (b.sr i.a)), {})
    | .vperm => vres 2 i.d (Vec.ofLanes (y.lanes.map (fun k => x.lanes.getD (k % 32) 0)), {})
    | .vextr => sres 2 i.d (x.lanes.getD (bitsOf i.x 0 5) 0)
    | .vcvt => runVcvt u b i
    | .vmaxi => runSearch false b i
    | .vmini => runSearch true b i
    | .smaxi => runMerge false b i
    | .smini => runMerge true b i
    | .vtopk => runTopk b i
    | .sadd => runScalar o b i
    | .ssub => runScalar o b i
    | .smul => runScalar o b i
    | .smovi => runScalar o b i
    | .slui => runScalar o b i
    | .br => { br := some (2, if brHolds (i.d % 4) (b.sr i.a) then pcWrap ((u.pc : Int) + i.simm) else pcWrap (u.pc + 3)) }
    | .varm => { arm := some (i.x % 256, b.sr i.a % 2 ^ 15) }
    | .vdisarm => { disarm := some (i.x % 256) }
    | .vreti => { ret := true }
    | .vsig => { sig := some (i.x % 256) }
    | .vsrrd =>
      let g := if i.x % 2 = 0 then u.srm else u.srv
      { pend := pres 1 i.d (g % 2 ^ 32, g / 2 ^ 32) }
    | .vsrwr =>
      let v := seedState (b.sr i.a + 2 ^ 32 * b.sr (i.a + 1))
      if i.x % 2 = 0 then { srm := some v } else { srv := some v }
    | .vflags => { sres 1 i.d u.flags with clear := i.x % 2 == 1 }
    | _ => {}

/-- The MAC slot. -/
def macRun (u : VIn) (b : Bank) (i : VFields) : VRes :=
  let x := b.vr i.a
  let y := b.vr i.b
  let z := b.vr (bitsOf i.x 10 6)
  match VOp.ofCode .mac i.op with
  | none => {}
  | some o =>
    match o with
    | .vmul => vres 4 i.d (typed (i.x % 4) u.ftz vMulOp iMulOp [x, y])
    | .vfma => vres 4 i.d (typed (i.x % 4) u.ftz vFmaOp iFmaOp [x, y, z])
    | .vfms => vres 4 i.d (typed (i.x % 4) u.ftz vFmsOp iFmsOp [x, y, z])
    | .vfnma => vres 4 i.d (typed (i.x % 4) u.ftz vFnmaOp iFnmaOp [x, y, z])
    | .vdot2 => vres 4 i.d (vDot2 (i.x % 2 == 1) u.ftz x y z)
    | .vrsum =>
      let r := vRsum (i.x % 4 == 3) u.ftz x
      { sres 6 i.d r.code with fl := r.fl }
    | .vexp2 => vres 8 i.d (vSpecial .exp2 u.ftz x)
    | .vlog2 => vres 8 i.d (vSpecial .log2 u.ftz x)
    | .vrcp => vres 8 i.d (vSpecial .rcp u.ftz x)
    | .vrsqrt => vres 8 i.d (vSpecial .rsqrt u.ftz x)
    | .vsilu => vres 12 i.d (vSpecial .silu u.ftz x)
    | .vgelu => vres 12 i.d (vSpecial .gelu u.ftz x)
    | .verf => vres 12 i.d (vSpecial .erf u.ftz x)
    | _ => {}

/-! ### Faults (R114) -/

/-- A vector-tile fault of bank k: its writes complete, the images are saved, the fault is recorded and
the context freezes. -/
def State.vtFault (s : State) (n k st : Nat) : State :=
  let b0 := (s.eng n).bank k
  let s := s.updEng n (fun e => (e.drainBank k).drainBank (1 - k))
  let b := (s.eng n).bank k
  let o := (s.eng n).bank (1 - k)
  let x := s.slot n b.slot
  let s := s.setSlot n b.slot
    (if b.handler then { x with himage := some b, image := some o } else { x with image := some b, himage := none })
  let s := s.updEng n (fun e =>
    let e := e.setBank k {}
    if b.handler then e.setBank (1 - k) {} else e)
  let w := logWord (s.reg (rVtFault n)) (fv 48 16 st + fv 16 15 b0.pc + fv 4 3 b0.slot + fv 3 1 k +
    fv 2 1 (if b0.handler then 1 else 0))
  ((s.setReg (rVtFault n) w).setReg (rVtFaultdt n) s.dt).faultCtx x.ctx x.cmd st

/-! ### Issuing a bundle -/

/-- The bundle at a bank's PC in its slot's window; none outside it. -/
def State.vtFetch (s : State) (n : Nat) (b : Bank) : Option Bundle :=
  let w := s.reg (rVtLmwin n b.slot)
  if bf w 8 8 * 4096 ≤ 16 * b.pc then none
  else some (.ofBits (leNat ((List.range 16).map (fun i => tget 0 (s.eng n).lmem (bf w 0 7 * 4096 + 16 * b.pc + i)))))

/-- The status that keeps a bundle from executing (Table 4.9), if any, in the table's order. -/
def State.bundleFault (s : State) (n : Nat) (b : Bank) (u : Bundle) : Option Nat :=
  let size := s.fld (rVtLmwin n b.slot) 8 8 * 4096
  let x := s.slot n b.slot
  let cap := max 1 (s.fld (rVtCtl n b.slot) 4 12)
  match u.illegal (b.br.isSome || b.ret.isSome) b.handler with
  | some st => some st
  | none =>
    let o := (VOp.ofCode .ls u.ls.op).getD .nop
    let r := b.areg u.ls
    if (lsAddrs o b u.ls).any (fun a => decide (size ≤ a)) then some stVtMemRange
    else if 0 < lsCount o ∧ (r.1 % 4 ≠ 0 ∨ r.2.1 % 4 ≠ 0 ∨ r.2.2 % 4 ≠ 0) then some stVtMisaligned
    else if VOp.ofCode .alu u.alu.op = some .varm ∧ 4 ≤ x.arms.length ∧
        ¬ x.arms.any (fun a => a.gate == u.alu.x % 256) then some stVtArmLimit
    else if b.handler ∧ cap ≤ b.hcount ∧ b.ret = none then some stVtHandlerOverrun
    else none

/-- Arms a gate (R105). -/
def armGate (g pc : Nat) (l : List Arm) : List Arm :=
  if l.any (fun a => a.gate == g) then l.map (fun a => if a.gate = g then { a with pc := pc } else a)
  else l ++ [{ gate := g, pc := pc }]

/-- The bank after a bundle: results in flight, A registers, branch state and the next PC. -/
def Bank.after (b : Bank) (tc ctl : Nat) (r : VRes) : Bank :=
  let b := { b with pend := r.pend.foldl (fun l (p : Nat × VTarget) => insertPend { due := tc + p.1, tgt := p.2 } l) b.pend }
  let b := match r.areg with
    | none => b
    | some (f, k, v) =>
      let w : W32 := BitVec.ofNat 32 v
      if f = 0 then { b with a := tset 0 b.a k w }
      else if f = 1 then { b with ab := tset 0 b.ab k w }
      else { b with al := tset 0 b.al k w }
  let pc := match b.br with
    | some (1, t) => t
    | _ => pcWrap (b.pc + 1)
  let br := match b.br with
    | some (2, t) => some (1, t)
    | some _ => none
    | none => r.br
  let ret := match b.ret with
    | some k => some (k - 1)
    | none => if r.ret then some 2 else none
  { b with pc := pc, br := br, ret := ret, hcount := b.hcount + 1, ended := ctl == 1, sync := ctl == 2 }

def VRes.join (a b c : VRes) : VRes :=
  { pend := a.pend ++ b.pend ++ c.pend, areg := a.areg, fl := (a.fl.or b.fl).or c.fl, br := b.br, ret := b.ret,
    arm := b.arm, disarm := b.disarm, sig := b.sig, srm := b.srm, srv := b.srv, clear := b.clear }

/-- The source of a thread's signals. -/
def threadSrc (n k : Nat) : Nat := 8192 + 8 * n + k

/-- The stores of a bank in flight become visible (VSIG's release ordering). -/
def Engine.landStores (e : Engine) (k : Nat) : Engine :=
  let isMem (p : Pend) : Bool := match p.tgt with | .mem _ _ => true | _ => false
  let e := ((e.bank k).pend.filter isMem).foldl (fun e p => e.landOne k p.tgt) e
  let b := e.bank k
  e.setBank k { b with pend := b.pend.filter (fun p => !isMem p) }

/-- The gates and generators that a bundle changes. -/
def State.bundleSide (s : State) (n k : Nat) (r : VRes) : State :=
  let s := if r.clear then s.setFld (rVtFlags n k) 0 4 0 else s
  let s := s.updReg (rVtFlags n k) (fun w => w ||| BitVec.ofNat 64 r.fl.bits)
  let s := match r.srm with | none => s | some v => s.setReg (rVtSrm n k) (BitVec.ofNat 64 v)
  let s := match r.srv with | none => s | some v => s.setReg (rVtSrv n k) (BitVec.ofNat 64 v)
  let s := match r.arm with
    | none => s
    | some (g, pc) => s.updSlot n k (fun x => { x with arms := armGate g pc x.arms })
  match r.disarm with
  | none => s
  | some g => s.updSlot n k (fun x => { x with arms := x.arms.filter (fun a => a.gate != g) })

/-- VRETI's swap back from bank k (R105): the handler's bank drains, and the parked thread resumes once its pending writes
have landed (R91). -/
def Engine.swapBack (e : Engine) (k : Nat) (b : Bank) : Engine :=
  let e := (e.setBank k { b with st := .draining, ret := none }).landDue (1 - k) (e.bank (1 - k)).lastDue
  { e.setBank (1 - k) { e.bank (1 - k) with st := .run } with active := 1 - k }

/-- Executes a legal bundle of the active bank. -/
def State.runBundle (s : State) (n : Nat) (u : Bundle) : State :=
  let e := s.eng n
  let k := e.active
  let b := e.bank k
  let x := s.slot n b.slot
  let inp : VIn :=
    { pc := b.pc, ftz := s.fld (rVtCtl n b.slot) 0 1 == 1, srm := (s.reg (rVtSrm n b.slot)).toNat,
      srv := (s.reg (rVtSrv n b.slot)).toNat, flags := s.fld (rVtFlags n b.slot) 0 4, free := s.free }
  let base := s.fld (rVtLmwin n b.slot) 0 7 * 4096
  let r := (lsRun e base b u.ls).join (aluRun inp b u.alu) (macRun inp b u.mac)
  let s := if r.sig.isSome then s.updEng n (fun e => e.landStores k) else s
  let b := (s.eng n).bank k
  let b' := b.after e.tc u.ctl r
  let s := s.updEng n (fun e => { e.setBank k b' with tc := e.tc + 1 })
  let s := (s.bundleSide n b.slot r).updReg (rVtBundles n) (· + 1)
  let s := { s with free := s.free + 32 }
  let s := match r.sig with
    | none => s
    | some g => s.sendSig n { gate := g, ctx := x.ctx, gen := x.gen, src := threadSrc n b.slot }
  -- VRETI's swap back, after its two delay bundles
  if b'.ret = some 0 then s.updEng n (fun e => e.swapBack k b') else s

/-- The lowest pending armed gate of a slot. -/
def Slot.pendingGate (x : Slot) : Option Arm :=
  (x.arms.filter Arm.pending).foldl (fun m a => match m with
    | none => some a
    | some c => if a.gate < c.gate then some a else some c) none

/-- Is a gate handler to be entered at this bundle boundary (R105)? -/
def State.handlerDue (s : State) (n : Nat) : Bool :=
  let e := s.eng n
  let b := e.bank e.active
  b.st == .run && !b.handler && !b.ended && (e.bank (1 - e.active)).st == .free &&
    (s.slot n b.slot).pendingGate.isSome && !s.slotFrozen n b.slot

/-- May the active bank issue: it runs, its thread has not ended, no SYNC waits, no handler is due and
its context is not frozen (a running handler goes on until its VRETI)? -/
def State.vtReady (s : State) (n : Nat) : Bool :=
  let e := s.eng n
  let b := e.bank e.active
  let busy := (b.pend.filter (fun p => decide (e.tc < p.due))) != []
  s.runs && b.st == .run && !b.ended && !(b.sync && busy) && !s.handlerDue n && !e.retired && !e.hung &&
    (b.handler || !s.slotFrozen n b.slot)

/-- Issues the bundle at the active bank's PC where it holds operation `o`. A bundle that may not be
executed faults, whichever row names it. -/
def vtRun (n : Nat) (o : VOp) (s : State) : Host.Outcome State Fault Refusal :=
  if s.vtReady n then
    let k := (s.eng n).active
    let s1 := s.updEng n (fun e => (e.landDue (1 - k) e.tc).landDue k e.tc)
    let b := (s1.eng n).bank k
    match s1.vtFetch n b with
    | none => .next (s1.vtFault n k stVtMemRange)
    | some u =>
      match s1.bundleFault n b u with
      | some st => .next (s1.vtFault n k st)
      | none => if u.has o then .next (s1.runBundle n u) else .next s
  else .next s

/-! ### Landing, draining and ending (R90, R102, R104) -/

/-- The least due time among the banks' results. -/
def Engine.nextDue (e : Engine) : Option Nat :=
  ((e.bank 0).pend ++ (e.bank 1).pend).foldl (fun m p => match m with
    | none => some p.due
    | some d => some (min d p.due)) none

/-- RESULT_LAND: the results due next land. While the tile issues, only those whose latency has passed. -/
def execResultLand (e : Fin 64) (s : State) : Host.Outcome State Fault Refusal :=
  match (s.eng e).nextDue with
  | none => .next s
  | some d =>
    if s.vtReady e ∧ (s.eng e).tc < d then .next s
    else .next (s.updEng e (fun x => { ((x.landDue 0 d).landDue 1 d) with tc := max x.tc d }))

/-- BANK_DRAINED: a swapped-out bank's writes complete; a thread's image is saved, a handler's contents
are discarded; the bank is FREE. While the other bank issues, that is once the writes' latencies have passed (R90). -/
def execBankDrained (e : Fin 64) (bank : Fin 2) (s : State) : Host.Outcome State Fault Refusal :=
  let b := (s.eng e).bank bank
  if b.st = .draining ∧ ¬ (s.vtReady e ∧ (s.eng e).tc < b.lastDue) then
    let s := s.updEng e (fun x => x.drainBank bank)
    let b := (s.eng e).bank bank
    let s := if b.handler then s else s.updSlot e b.slot (fun x => { x with image := some { b with st := .free } })
    .next (s.updEng e (fun x => x.setBank bank {}))
  else .next s

/-- THREAD_END: a thread that issued END ends once its writes have landed; its pending events and its
arming table go. DESIGN CHOICE (log 78): an END in a gate handler, which is part of the thread (R152), ends the whole
thread; one in VRETI's second delay bundle is lost at the swap back. -/
def execThreadEnd (e : Fin 64) (s : State) : Host.Outcome State Fault Refusal :=
  let k := (s.eng e).active
  let b := (s.eng e).bank k
  if b.st = .run ∧ b.ended then
    let s := s.updEng e (fun x =>
      let x := (x.drainBank k).setBank k {}
      if b.handler then x.setBank (1 - k) {} else x)
    let s := s.updSlot e b.slot (fun x => { x with live := false, image := none, himage := none, arms := [] })
    .next (s.wake e)
  else .next s

/-! ### Switching (R104, R148, R151) -/

/-- The slots with a live thread that may run. -/
def State.liveSlots (s : State) (n : Nat) : List Nat :=
  (List.range 8).filter (fun k => (s.slot n k).live && !s.slotFrozen n k)

/-- The thread that should have the tile: the highest class, then launch order. -/
def State.wantThread (s : State) (n : Nat) : Option Nat :=
  (s.liveSlots n).foldl (fun m k => match m with
    | none => some k
    | some j =>
      let a := s.slot n k
      let b := s.slot n j
      if a.cls < b.cls ∨ (a.cls = b.cls ∧ a.launch < b.launch) then some k else some j) none

/-- Puts slot k's thread into bank j, running; a handler that faulted comes back beside it. -/
def State.swapIn (s : State) (n j k : Nat) : State :=
  let x := s.slot n k
  let main := { (x.image.getD {}) with slot := k, st := .run, pend := [] }
  let s := s.setSlot n k { x with image := none, himage := none }
  match x.himage with
  | none => s.updEng n (fun e => { e.setBank j main with active := j })
  | some h =>
    s.updEng n (fun e =>
      { (e.setBank j { h with slot := k, st := .run, pend := [] }).setBank (1 - j) { main with st := .parked } with active := j })

/-- Does the running thread of slot j keep the tile from the thread of slot t: it is that thread, or it may run and its
class is no lower (R148, R246)? -/
def State.keepsTile (s : State) (n j t : Nat) : Bool :=
  j == t || (!s.slotFrozen n j && decide ((s.slot n j).cls ≤ (s.slot n t).cls))

/-- THREAD_SWITCH: the tile goes to the thread that should have it, or falls idle where the running
thread's context is frozen and no other is live. A running handler or an ended thread holds it back, and so does the bank
of the incoming thread while it drains (R104). -/
def execThreadSwitch (e : Fin 64) (s : State) : Host.Outcome State Fault Refusal :=
  let n : Nat := e
  let k := (s.eng n).active
  let b := (s.eng n).bank k
  let other := (s.eng n).bank (1 - k)
  let running := b.st = .run
  if ¬ s.runs ∨ (s.eng n).retired ∨ (s.eng n).hung ∨ (running ∧ (b.handler ∨ b.ended)) ∨ other.st ≠ .free then .next s
  else
    match s.wantThread n with
    | none =>
      if running ∧ s.slotFrozen n b.slot then .next (s.updEng n (fun x => x.setBank k { b with st := .draining }))
      else .next s
    | some t =>
      if running then
        if s.keepsTile n b.slot t then .next s
        else if (s.slot n t).himage.isSome then .next (s.updEng n (fun x => x.setBank k { b with st := .draining }))
        else .next ((s.updEng n (fun x => x.setBank k { b with st := .draining })).swapIn n (1 - k) t)
      else if b.st ≠ .free ∧ (b.slot = t ∨ (s.slot n t).himage.isSome) then .next s
      else .next (s.swapIn n (1 - k) t)

/-- GATE_HANDLER_ENTRY (R105): the lowest pending armed gate of the running thread is taken. -/
def execGateHandlerEntry (e : Fin 64) (s : State) : Host.Outcome State Fault Refusal :=
  let n : Nat := e
  let k := (s.eng n).active
  let b := (s.eng n).bank k
  if s.handlerDue n then
    match (s.slot n b.slot).pendingGate with
    | none => .next s
    | some a =>
      let s := s.updSlot n b.slot (fun x =>
        { x with arms := x.arms.map (fun c => if c.gate = a.gate then { c with pending := false } else c) })
      let h : Bank := { st := .run, slot := b.slot, s := tset 0 [] 0 (BitVec.ofNat 32 a.gate), pc := a.pc, handler := true }
      .next (s.updEng n (fun x => { (x.setBank k { b with st := .parked }).setBank (1 - k) h with active := 1 - k }))
  else .next s

/-! ### VLAUNCH (R147) -/

/-- The bank a launch initialises. -/
def launchBank (k : Nat) (d a b : W64) : Bank :=
  let put (t : Tab W32) (r : Nat) (v : Nat) : Tab W32 := tset 0 t r (BitVec.ofNat 32 v)
  { slot := k, pc := bf d 0 15, s := put (put (put (put [] 0 (bf a 0 32)) 1 (bf a 32 32)) 2 (bf b 0 32)) 3 (bf b 32 32) }

def execVlaunch (e : Fin 64) (sl : Fin 8) (s : State) : Host.Outcome State Fault Refusal :=
  esRun e sl (fun i => match i with
    | .vlaunch d a b => some (fun s =>
        let x := s.slot e sl
        let bank := launchBank sl (x.x d) (x.x a) (x.x b)
        if x.live then s.blockRetry e sl
        else if s.fld (rVtLmwin e sl) 8 8 * 4096 ≤ 16 * bank.pc then s.esFault e sl stVtMemRange
        else
          let no := (s.eng e).seq
          let s := (s.updEng e (fun en => { en with seq := no + 1 })).beginCmd x.cmd
          s.retire e sl (fun x => { x with live := true, launch := no, image := some bank, himage := none, arms := [] }))
    | _ => none) s

end Sys2Proof.Machine
end

