-- ==== Sys2Proof/Machine/Retire.lean ====
section
/-! DEFINITION. Retirement of engines (R79, R442), and the end of a revoke (R395, R452). -/

namespace Sys2Proof.Machine

/-! ### Quiet enough to move -/

/-- Can a retiring engine's passes move: none drains, waits for its verdict or for its partner, and a held one waits
only for a failed one before it? -/
def Engine.movable (e : Engine) : Bool :=
  e.passes.all (fun p => p.phase == .queued || p.phase == .saved || p.phase == .issuing || p.phase == .failed ||
    ((p.phase == .judged || p.phase == .dead) &&
      e.passes.any (fun q => decide (q.issueNo < p.issueNo) && q.phase == .failed)))

/-- The issuing pass is pre-empted: its image is kept. -/
def Engine.preempt (e : Engine) : Engine :=
  { e with passes := e.passes.map (fun p => if p.phase = .issuing then { p with phase := .saved } else p) }

/-- What one bank holds becomes an image of its slot; a swapped-out handler's contents are discarded. -/
def Engine.saveBank (e : Engine) (b : Nat) : Engine :=
  let x := e.bank b
  if x.st = .free then e
  else
    let y := e.slot x.slot
    let y' : Slot :=
      if x.handler then (if x.st = .draining then y else { y with himage := some x })
      else { y with image := some { x with st := .free } }
    (e.setSlot x.slot y').setBank b {}

/-- The thread is switched out: every write lands, and both banks are saved. -/
def Engine.switchOut (e : Engine) : Engine := (((e.drainBank 0).drainBank 1).saveBank 0).saveBank 1

/-! ### The host of a context (step 2 of R442) -/

/-- Engines in the order of the search: the same herd, the same die, the other die, each rising. -/
def hostOrder (n : Nat) : List Nat :=
  let all := List.range 64
  all.filter (fun m => m / 8 == n / 8) ++ all.filter (fun m => m / 32 == n / 32 && m / 8 != n / 8) ++
    all.filter (fun m => m / 32 != n / 32)

/-- The gates of engine n that context c owns. -/
def State.gatesOf (s : State) (n c : Nat) : List Nat :=
  (List.range 256).filter (fun g => bf (s.reg (rEsGate n g)) 63 1 == 1 && bf (s.reg (rEsGate n g)) 40 10 == c)

/-- The host that slot k of engine n moves to, if there is one. -/
def State.hostFor (s : State) (n k : Nat) : Option Nat :=
  let c := (s.slot n k).ctx
  let im := s.fld (rEsImwin n k) 16 9
  let lm := s.fld (rVtLmwin n k) 8 8
  (hostOrder n).find? (fun m => m != n && !(s.eng m).retired && (s.slotOf m c).isNone && (s.freeSlot m).isSome &&
    s.fits m im lm && (s.gatesOf n c).all (fun g => s.fld (rEsGate m g) 63 1 == 0))

/-! ### The move -/

/-- How many of some numbers are not 0 and at most x. -/
def rankOf (xs : List Nat) (x : Nat) : Nat := (xs.filter (fun y => y != 0 && decide (y ≤ x))).length

/-- Passes, streams and the thread of slot k of an engine join slot j of another, behind what that one has. -/
def Engine.adopt (h e : Engine) (k j : Nat) : Engine :=
  let ps := e.passes.filter (fun p => p.slot == k)
  let ts := e.streams.filter (fun t => t.slot == k)
  let nos := ps.map Pass.issueNo ++ ps.map Pass.runNo
  let place (x : Nat) : Nat := if x = 0 then 0 else h.issued + rankOf nos x
  let seqs := ps.map Pass.seq ++ ts.map Stream.seq
  let ps' := ps.map (fun p =>
    { p with slot := j, seq := h.seq + rankOf seqs p.seq, issueNo := place p.issueNo, runNo := place p.runNo })
  let ts' := ts.map (fun t => { t with slot := j, seq := h.seq + rankOf seqs t.seq })
  let x := e.slot k
  let seat (b : Bank) : Bank := { b with slot := j }
  let x' : Slot := { x with image := x.image.map seat, himage := x.himage.map seat, launch := h.seq }
  { (h.setSlot j x') with passes := h.passes ++ ps', streams := h.streams ++ ts', seq := h.seq + seqs.length + 1,
                          issued := h.issued + nos.length, sigs := h.sigs ++ e.sigs.filter (fun g => g.ctx == x.ctx) }

/-- The contents of a slot's two windows are copied: instruction words, and local memory with its marks. -/
def Engine.copyWindows (h e : Engine) (ib ib' im lb lb' lm : Nat) : Engine :=
  { h with
    imem := (List.range (im * 256)).foldl (fun t i => tset 0 t (ib' * 256 + i) (tget 0 e.imem (ib * 256 + i))) h.imem,
    lmem := (List.range (lm * 4096)).foldl (fun t i => tset 0 t (lb' * 4096 + i) (tget 0 e.lmem (lb * 4096 + i))) h.lmem,
    lpoison := (List.range (lm * 64)).foldl
      (fun t i => tset false t (lb' * 64 + i) (tget false e.lpoison (lb * 64 + i))) h.lpoison }

/-- Commands that work on slot k of engine n work on slot j of engine m. -/
def Cmd.rehost (d : Cmd) (c n k m j : Nat) : Cmd :=
  if d.ctx ≠ c then d
  else
    { d with
      engines := d.engines.map (fun x => if x = n then m else x),
      gens := d.gens.map (fun x => if x.1 = n ∧ x.2.1 = k then (m, j, x.2.2) else x),
      fixes := d.fixes.map (fun f => if f.eng = n ∧ f.slot = k then { f with eng := m, slot := j } else f) }

/-- Slot k of engine n moves to engine m. -/
def State.moveSlot (s : State) (n k m : Nat) : State :=
  let c := (s.slot n k).ctx
  let im := s.fld (rEsImwin n k) 16 9
  let lm := s.fld (rVtLmwin n k) 8 8
  let ib := s.fld (rEsImwin n k) 0 8
  let lb := s.fld (rVtLmwin n k) 0 7
  match s.freeSlot m, firstFit (s.imUsed m) 256 im, firstFit (s.lmUsed m) 128 lm with
  | some j, some ib', some lb' =>
    let e := s.eng n
    let s := s.updEng m (fun h => (h.adopt e k j).copyWindows e ib ib' im lb lb' lm)
    let s := (s.setReg (rEsImwin m j) (BitVec.ofNat 64 (fv 16 9 im + fv 0 8 ib'))).setReg (rVtLmwin m j)
      (BitVec.ofNat 64 (fv 8 8 lm + fv 0 7 lb'))
    let s := [(rMtCtl n k, rMtCtl m j), (rVtCtl n k, rVtCtl m j), (rVtSrm n k, rVtSrm m j), (rVtSrv n k, rVtSrv m j),
      (rVtFlags n k, rVtFlags m j)].foldl (fun s r => s.setReg r.2 (s.reg r.1)) s
    let s := (s.gatesOf n c).foldl (fun s g => s.setReg (rEsGate m g) (s.reg (rEsGate n g))) s
    let s := (s.emptySlot n k).freeGates n c
    let s := s.updEng n (fun e => { e with sigs := e.sigs.filter (fun g => g.ctx != c), hosts := tput c m e.hosts })
    let s := (s.engs.map Prod.fst).foldl (fun s i => s.updEng i (fun e =>
      if oget e.hosts c = some n then { e with hosts := tput c m e.hosts } else e)) s
    { s with cmds := s.cmds.map (fun (d : Cmd) => d.rehost c n k m j) }.wakeEngine m
  | _, _, _ => s

/-- Slot k of a retiring engine: its context moves, or is frozen where it has no host or its save areas are lost. -/
def State.rehome (s : State) (n : Nat) (lost : List Nat) (k : Nat) : State :=
  let c := (s.slot n k).ctx
  if lost.contains c then s.freezeCtx c stEngineRetired
  else match s.hostFor n k with
    | some m => s.moveSlot n k m
    | none => s.freezeCtx c stEngineRetired

/-! ### ENGINE_RETIREMENT -/

/-- Steps 5 and 6 of R442, and the end of the RETIRE commands that name the engine. -/
def State.retireEngine (s : State) (n cause : Nat) : State :=
  let s := (List.range 8).foldl (fun s p => s.updPart p (fun x =>
    { x with grants := x.grants.filter (fun g => !(g.kind == 1 && g.lo == n)) })) s
  let s := (s.updEng n (fun e => { e with retired := true, retiring := none, repair := none, frozen := none })).setFld
    (rPwrEng n) 12 2 3
  let s := (s.healthChange (fun h => h ++ [.engine n cause s.dt])).event 0 stEngineRetire none
    (fv 8 2 cause + fv 0 6 n) 0
  (s.cmds.filter (fun d => d.opcode == 0x08 && d.st == .running && d.opf 0 0 2 == 0 && d.opf 0 8 10 == n)).foldl
    (fun s d => s.finishCmd d.id) s

/-- Does a hang procedure hold back an engine's retirement: its dump, or a replay, is not over (Table 17.10)? -/
def State.hangHolds (s : State) (n : Nat) : Bool :=
  s.rst.hangs.any (fun h => h.eng == n && (match h.st with | .ready => false | _ => true))

/-- ENGINE_RETIREMENT (R442): a retirement that is due is carried out; `lost` are the contexts whose save areas cannot
be read. -/
def execEngineRetirement (e : Fin 64) (lost : List (Fin 1024)) (s : State) : Host.Outcome State Fault Refusal :=
  let n : Nat := e
  match (s.eng n).retiring with
  | none => .next s
  | some cause =>
    if ¬ s.runs ∨ ¬ (s.eng n).movable ∨ s.hangHolds n then .next s
    else
      let s := s.updEng n (fun x => x.preempt.switchOut)
      let s := (s.usedSlots n).foldl (fun s k => s.rehome n (lost.map (fun c => (c : Nat))) k) s
      .next (s.retireEngine n cause)

/-! ### REVOKE_ZEROING -/

/-- What two grants of a kind share. -/
def Grant.common (a b : Grant) : Grant :=
  if a.kind ≠ 0 then b
  else
    let lo := max a.lo b.lo
    { kind := 0, lo := lo, size := min (a.lo + a.size) (b.lo + b.size) - lo }

/-- What is left of grant a without b. -/
def Grant.minus (a b : Grant) : List Grant :=
  if ¬ a.meets b then [a]
  else if a.kind ≠ 0 then []
  else
    let top := b.lo + b.size
    (if a.lo < b.lo then [{ kind := 0, lo := a.lo, size := b.lo - a.lo }] else []) ++
      (if top < a.lo + a.size then [{ kind := 0, lo := top, size := a.lo + a.size - top }] else [])

/-- Is a request to what a grant covers still on its way (R452)? -/
def State.requested (s : State) (g : Grant) : Bool :=
  (s.noc.held ++ s.noc.net ++ s.noc.queue).any (fun p => [0, 1].contains p.ty && g.covers p.addr)

/-- What a revoke takes is zeroed (R395): memory, an engine's store or a herd's pool. A fabric region is blanked. -/
def State.zeroGrant (s : State) (c : Cmd) (g : Grant) : State :=
  let zero (s : State) (a n : Nat) : State :=
    (List.range (n / 4096)).foldl (fun s i => s.putBytes (a + 4096 * i) (List.replicate 4096 0) false) s
  match g.kind with
  | 0 => zero s g.lo g.size
  | 1 => s.zeroKeys (storeBase g.lo) storeOpen
  | 2 => s.zeroKeys (poolBase g.lo) (poolBase 1 - poolBase 0)
  | 3 => s.addLoad { cmd := c.id, ctx := 0, part := c.part, blank := true, mask := [g.lo] }
  | _ => s

/-- REVOKE_ZEROING: the oldest revoke of partition p that has taken effect is carried out. That of a fabric region ends
with its blanking. -/
def execRevokeZeroing (p : Fin 8) (s : State) : Host.Outcome State Fault Refusal :=
  match (s.part p).revoking.find? (fun r => s.revoked r) with
  | none => .next s
  | some r =>
    let had := ((s.part p).grants.filter (fun g => g.meets r.grant)).map (fun g => g.common r.grant)
    let cut (x : Part) : Part :=
      { x with revoking := x.revoking.erase r, grants := x.grants.flatMap (fun g => g.minus r.grant) }
    let c : Cmd := (s.cmd r.cmd).getD { id := r.cmd }
    if ¬ s.runs ∨ s.requested r.grant then .next s
    else if had.isEmpty then .next ((s.updPart p cut).finishCmd r.cmd)
    else
      let s := ((had.foldl (fun s g => s.zeroGrant c g) s).updPart p cut).showGrant r.grant p false
      .next (if r.grant.kind = 3 then s else s.finishCmd r.cmd)

end Sys2Proof.Machine
end

