-- ==== Sys2Proof/Machine/Hang.lean ====
section
/-! DEFINITION. Watchdogs, hangs and the guilty context (R433, R440). -/

namespace Sys2Proof.Machine

/-! ### The engine reset (R424, Table 17.9) -/

/-- Registers of engine n that its reset clears: logs, counts and fault records. -/
def engineLogs (n : Nat) : List Nat :=
  [rMtCkstat n, rMtCklog n, rMtCkdt n, rMtExc n 0, rMtExc n 1, rMtPasscnt n, rVtFault n, rVtFaultdt n, rVtBundles n,
   rEsFault n, rEsFaultdt n, rEsSfault n, rEsSfaultva n, rEsSfaultdt n, rEsInsns n] ++
  (List.range 8).map (rVtFlags n)

/-- A slot after the reset of its engine: a program that ran is gone, and the pass log is cleared. -/
def Slot.afterReset (x : Slot) : Slot :=
  match x.st with
  | .empty => {}
  | .halted => { st := .halted, ctx := x.ctx, gen := x.gen, cls := x.cls, cmd := x.cmd }
  | _ => { st := .placed, ctx := x.ctx, gen := x.gen }

/-- An engine after its reset: windows' contents, signals on their way and its moves stay. -/
def Engine.afterReset (e : Engine) : Engine :=
  { e with
    slots := (List.range 8).foldl (fun t k => tset {} t k (e.slot k).afterReset) [],
    last := [], runLen := [], yielded := [], esActive := 0, tc := 0, banks := [], active := 0, streams := [],
    passes := [], repair := none, frozen := none, hung := false }

/-- The engine reset. Gates, placement, MT_CKTOL and MT_REMAP stay; modes come from the contexts' configuration. -/
def State.resetEngine (s : State) (n : Nat) : State :=
  let s := (s.updEng n Engine.afterReset).dropHeld (fun p => p.src == n)
  let s := s.updNoc (fun x => { x with dgenE := tset 0 x.dgenE n ((tget 0 x.dgenE n + 1) % 4096) })
  let s := (engineLogs n).foldl State.resetReg s
  (s.usedSlots n).foldl (fun s k => s.setControls (s.slot n k).ctx n k) s

/-! ### Suspects -/

/-- Has slot k of engine n anything that makes its context a suspect? -/
def State.suspectSlot (s : State) (n k : Nat) : Bool :=
  let x := s.slot n k
  let e := s.eng n
  x.st != .empty && ((x.st != .placed && x.st != .halted) || x.live || e.passes.any (fun p => p.slot == k) ||
    e.streams.any (fun t => t.slot == k))

/-- Puts a suspect among others, by START of its command. -/
def State.insertSuspect (s : State) (x : Nat × Nat) : List (Nat × Nat) → List (Nat × Nat)
  | [] => [x]
  | y :: ys =>
    let at_ (z : Nat × Nat) : Nat := match s.cmd z.2 with | some c => c.start.toNat | none => 0
    if at_ x < at_ y then x :: y :: ys else y :: s.insertSuspect x ys

/-- The suspects of a hang of engine n with their commands, in order of START. -/
def State.suspects (s : State) (n : Nat) : List (Nat × Nat) :=
  (((List.range 8).filter (s.suspectSlot n)).map (fun k => ((s.slot n k).ctx, (s.slot n k).cmd))).foldl
    (fun l x => s.insertSuspect x l) []

/-- Steps 1 and 2 of R440: the engine and its suspects stop, and a dump is due. -/
def State.startHang (s : State) (n : Nat) : State :=
  let h : Hang := { eng := n, suspects := s.suspects n, dt := s.dt }
  let s := (s.updEng n (fun e => { e with hung := true })).updRst (fun r => { r with hangs := r.hangs ++ [h] })
  let s := s.frozenEvent 0 2 n stEngineHang none
  s.addDump { kind := 1, eng := n, dt := s.dt, units := summaryUnits ++ hangUnits n ++ traceUnits }

def State.setHang (s : State) (h h' : Hang) : State :=
  s.updRst (fun r => { r with hangs := r.hangs.map (fun x => if x = h then h' else x) })

/-! ### Verdicts -/

/-- What a command still runs on any engine is discarded, and its slots are PLACED. -/
def State.dropCmdWork (s : State) (c id : Nat) : State :=
  ((s.seatsOf c).filter (fun p => (s.slot p.1 p.2).cmd == id)).foldl
    (fun s p => s.updEng p.1 (fun e =>
      let e := e.stopSlot p.2 (s.ctx c).gen
      { e with passes := e.passes.filter (fun q => q.slot != p.2) })) s

/-- A replay that hangs shows the guilty context (step 5 of R440). -/
def State.guilty (s : State) (n : Nat) (h : Hang) (c id : Nat) : State :=
  let s := (s.resetEngine n).dropCmdWork c id
  let s := s.freezeCtx c stEngineHang
  let s := (s.updCmd id (fun d => { d.meet stEngineHang with froze := true })).finishCmd id
  let g := (s.ctx c).gen
  let s := s.event 0 stEngineHang (some c) n (fv 10 12 g + fv 0 10 c)
  s.setHang h { h with st := .ready, guilty := some (c, g) }

/-- A watchdog of engine n expires. -/
def State.expire (s : State) (n : Nat) : State :=
  match s.rst.hangs.find? (fun h => h.eng == n) with
  | none => s.startHang n
  | some h => match h.st with | .replay c id => s.guilty n h c id | _ => s

/-- Do the packets of an entry wait on the peer's window, on PFC, or on an entry that is frozen or DOWN (R433)? -/
def State.peerHolds (s : State) (i : Nat) : Bool :=
  let e := s.ent i
  s.entState i != 1 || s.paused (e.path (e.nextPath % max 1 e.paths.length)).sub e.dscp ||
    (match e.nextTx with
      | none => false
      | some (n, t) => decide (s.fld (entReg i) 0 32 < e.flight + t.p.body.length) || decide (e.rwnd < e.reach n))

/-- Is a descriptor's time no work to a watchdog: the transport, which has its bytes, is held by its peer? -/
def State.streamHeld (s : State) (t : Stream) : Bool :=
  match t.op with
  | none => false
  | some id => s.net.ops.any (fun o => o.id == id && s.peerHolds o.ent)

/-- Does the time of engine n count to its watchdog (R433)? -/
def State.engineCounts (s : State) (n : Nat) : Bool :=
  s.engineBusy n || (s.eng n).streams.any (fun t => !s.frozenOn n t.ctx && !s.streamHeld t)

/-- ENGINE_WATCHDOG: RST_WD.ENG has passed with work and without progress. -/
def execEngineWatchdog (e : Fin 64) (s : State) : Host.Outcome State Fault Refusal :=
  if s.runs ∧ ¬ (s.eng e).retired ∧ s.engineCounts e then .next (s.expire e) else .next s

/-- STREAM_WATCHDOG: RST_WD.SE has passed with a running descriptor and without progress. -/
def execStreamWatchdog (e : Fin 64) (se : Fin 4) (s : State) : Host.Outcome State Fault Refusal :=
  if s.runs ∧ ¬ (s.eng e).retired ∧ (s.streamHeads e se).any (fun t => t.started && !s.streamHeld t) then .next (s.expire e) else .next s

/-! ### Replay (steps 3, 4 and 6 of R440) -/

/-- The command of a suspect runs again from its beginning, on all of its engines, with its generators restored. -/
def State.replayCmd (s : State) (c : Cmd) : State :=
  let s := s.dropCmdWork c.ctx c.id
  let s := c.gens.foldl (fun s g => (s.setReg (rVtSrm g.1 g.2.1) g.2.2.1).setReg (rVtSrv g.1 g.2.1) g.2.2.2) s
  let seats := if c.opcode = 0x28 then maskSeats s c else if c.opcode = 0x29 then chainSeats s c else romSeats s c
  let c' : Cmd := { c with st := .running, engines := seats, fixes := [] }
  let s := s.updCmd c.id (fun _ => c')
  match c.opcode with
  | 0x28 => runStart s c'
  | 0x29 => chainStart s c'
  | 0x2A => convertStart s c'
  | 0x2B => copyStart s c'
  | _ => s

/-- The engine returns to service, and RST_HLOG tells how the procedure ended. -/
def State.endHang (s : State) (h : Hang) : State :=
  let out := if h.guilty.isSome then 0 else if (s.eng h.eng).retired then 2 else 1
  let g := h.guilty.getD (0, 0)
  let w := fv 44 4 (min 15 h.done) + fv 32 12 g.2 + fv 22 10 g.1 + fv 20 2 out + fv 14 6 h.eng
  let s := (s.setReg rRstHlog (logWord (s.reg rRstHlog) w)).setReg rRstHlogdt h.dt
  (s.updRst (fun r => { r with hangs := r.hangs.erase h })).resume

/-- The next suspect whose command is still open is replayed; after the last one the procedure ends. -/
def State.nextReplay (s : State) (h : Hang) : State :=
  let left := h.suspects.dropWhile (fun x => (s.cmd x.2).isNone)
  match left with
  | [] => s.endHang h
  | x :: rest =>
    match s.cmd x.2 with
    | none => s.endHang h
    | some c => ((s.setHang h { h with suspects := rest, st := .replay x.1 x.2, done := h.done + 1 }).replayCmd c).resume

/-- Is the dump of a hang still to be collected? -/
def State.hangDumpOpen (s : State) (n : Nat) : Bool :=
  s.rst.dumps.any (fun d => d.kind == 1 && d.eng == n && !d.units.isEmpty)

/-- After the dump: the engine is reset, and a test pass that fails makes its retirement due. -/
def State.hangReset (s : State) (h : Hang) (pass : Bool) : State :=
  let s := s.resetEngine h.eng
  let h' : Hang := { h with st := .ready }
  let s := s.setHang h h'
  if pass then s.nextReplay h' else s.updEng h.eng (fun e => { e with retiring := some 1 })

/-- SUSPECT_REPLAY: once the dump is collected the engine is reset, `pass` telling its built-in test; once a replay has
ended the next begins. A retirement that is due comes first (Table 17.10). -/
def execSuspectReplay (e : Fin 64) (pass : Bool) (s : State) : Host.Outcome State Fault Refusal :=
  match s.rst.hangs.find? (fun h => h.eng == (e : Nat)) with
  | none => .next s
  | some h =>
    if ¬ s.runs then .next s
    else match h.st with
      | .dump => if s.hangDumpOpen e then .next s else .next (s.hangReset h pass)
      | .ready => if (s.eng e).retiring.isSome then .next s else .next (s.nextReplay h)
      | .replay _ id =>
        if (s.cmd id).isSome then .next s
        else
          let h' : Hang := { h with st := .ready }
          let s := s.setHang h h'
          if (s.eng e).retiring.isSome then .next s else .next (s.nextReplay h')

end Sys2Proof.Machine
end

