-- ==== Sys2Proof/Machine/Mgmt.lean ====
section
/-! DEFINITION. Management messages: the handshake, attestation, certificates and unlocking (R390 to R394). -/

namespace Sys2Proof.Machine

/-! ### Messages (Table 15.7) -/

def msgType (m : Mgmt) : Nat := leAt m.bytes 0 1
def msgBody (m : Mgmt) : List Byte := m.bytes.drop 8

/-- Is a message well formed, of at most 16 KiB? -/
def msgOk (m : Mgmt) : Bool :=
  leAt m.bytes 1 1 == 1 && zeroAt m.bytes 2 2 && decide (8 ≤ m.bytes.length) && leAt m.bytes 4 4 == m.bytes.length - 8 &&
    decide (m.bytes.length ≤ 0x4000)

/-- The row that answers a message: HELLO takes what no other row does. -/
def msgRow (m : Mgmt) : Nat := if [3, 4, 6, 9].contains (msgType m) then msgType m else 1

/-- The first whole message of a partition that a row answers, taken off the inbox. -/
def State.takeMsg (s : State) (part row : Nat) : Option (Mgmt × State) :=
  match s.sec.inbox.find? (fun m => m.whole && m.part == part && msgRow m == row) with
  | none => none
  | some m => some (m, s.updSec (fun x => { x with inbox := x.inbox.erase m }))

/-- A message's bytes. -/
def msgBytes (ty : Nat) (body : List Byte) : List Byte := leBytes 1 ty ++ leBytes 1 1 ++ leBytes 2 0 ++ leBytes 4 body.length ++ body

/-- The answer to a message: in clear keys to where it came from, or on the partition's host entry. -/
def State.answerMgmt (s : State) (m : Mgmt) (ty : Nat) (body : List Byte) : State :=
  let bs := msgBytes ty body
  if m.boot then s.emit (.mgmt m.part m.ip m.port bs)
  else
    let i := hostEnt m.part
    let ps := firstLast ((cutBytes (s.mtu i) (bs.length + 1) 0 bs).map (fun x =>
      ({ kind := 4, arg := 2, body := x.2 } : Pkt)))
    (s.post i 0 0 ps).1

/-- ERROR. -/
def State.answerError (s : State) (m : Mgmt) (st : Nat) : State := s.answerMgmt m 8 (leBytes 2 st)

/-- Runs a row on its next message: a malformed one is refused. -/
def mgmtRun (part row : Nat) (f : State → Mgmt → State) (s : State) : Host.Outcome State Fault Refusal :=
  if ¬ s.runs then .next s
  else
    let s := s.pumpMsgs part
    match s.takeMsg part row with
    | none => .next s
    | some (m, t) => .next (if msgOk m then f t m else t.answerError m stNotOwner)

/-! ### Keys of the device (R392) -/

def deviceLabel : List Byte := ascii "SRP1 DeviceID"
def State.deviceSecret (s : State) : List Byte := Config.dice (leBytes 32 s.sec.fuses.uds) deviceLabel

/-- Both Alias signatures over a message. -/
def State.aliasSign (s : State) (msg : List Byte) : List Byte := Config.pairSign s.sec.cdi msg

/-! ### HELLO (R391) -/

/-- The handshake that a HELLO payload starts, with REPLY's payload. -/
def State.startHandshake (s : State) (m : Mgmt) (b : List Byte) : State × List Byte :=
  let n := s.takeBits 256
  let x := n.2.takeBits 256
  let k := x.2.takeBits 256
  let kem := Config.kemEncaps k.1 ((b.drop 64).take 1184)
  let nd := leBytes 32 n.1
  let head := nd ++ Config.x25519Share x.1 ++ kem.1 ++ Config.pairPublic s.sec.cdi
  let th := Config.sha384 (b ++ head)
  let h : Handshake :=
    { th := th, nonces := b.take 32 ++ nd, ikm := Config.x25519 x.1 ((b.drop 32).take 32) ++ kem.2,
      keyIdx := leAt b 1248 1, ip := m.ip, port := m.port }
  (k.2.updSec (fun y => { y with hand := some h }), head ++ s.aliasSign th)

def State.onHello (s : State) (m : Mgmt) : State :=
  let b := msgBody m
  let idx := leAt b 1248 1
  if m.part ≠ 0 ∨ msgType m ≠ 1 ∨ b.length ≠ 1249 ∨ ¬ (idx ≤ 3 ∨ idx = 0xFF) then s.answerError m stNotOwner
  else if s.sec.aliasGone then s.answerError m stImageSignature
  else
    let r := s.startHandshake m b
    r.1.answerMgmt m 2 r.2

/-- HELLO; it also refuses every message that no row takes. -/
def execHello (part : Fin 8) (s : State) : Host.Outcome State Fault Refusal := mgmtRun part 1 State.onHello s

/-! ### FINISH (R391) -/

/-- Management pair k of the record; none where it is unset. -/
def State.mgmtPair (s : State) (k : Nat) : Option (List Byte) :=
  match s.recordBody with
  | none => none
  | some b =>
    let p := (b.drop (0x100 + 1984 * k)).take 1984
    if p.all (fun x => x == 0) then none else some p

/-- Does a FINISH payload verify against a handshake? -/
def State.finishOk (s : State) (h : Handshake) (b : List Byte) : Bool :=
  let msg := Config.sha384 (h.th ++ ascii "finish")
  if h.keyIdx = 0xFF then
    b.length == 4096 + 3373 && s.rootOk2 (b.take 4096) && Config.sigOk (kbPair (b.take 4096)) msg (b.drop 4096)
  else
    match s.mgmtPair h.keyIdx with
    | none => false
    | some p => b.length == 3373 && Config.sigOk p msg b

/-- EPOCH runs from 1 to 255 and then to 1 again. -/
def nextEpoch (e : Nat) : Nat := e % 255 + 1

/-- The keys of a handshake are installed on HP0's host entry; SEQ and TXN restart. Packets that wait for an
acknowledgement are sent anew under the new keys; the host's packets of the EPOCH before are still delivered (R396). -/
def State.installKeys (s : State) (h : Handshake) : State :=
  let i := hostEnt 0
  let e := s.ent i
  let prk := hkdfExtract h.nonces h.ikm
  let key (label : String) : Nat := leNat (hkdfExpand prk (ascii label ++ h.th) 32)
  let ep := nextEpoch e.epoch
  let bare := e.ip == 0
  let r : List Path × State := if bare then s.newPaths 1 else (e.paths, s)
  let gone := match e.prior with | none => 0 | some x => (x.rx.map (fun (p : Pkt) => p.body.length)).sum
  let s := { r.2 with net := { r.2.net with rbuf := r.2.net.rbuf - gone } }
  let x : Entry :=
    { udp := if bare then h.port else e.udp, rindex := e.rindex, tctx := e.tctx, tgen := e.tgen, dscp := e.dscp,
      ip := if bare then h.ip else e.ip, epoch := ep, txKey := key "SRP1 d2h", rxKey := key "SRP1 h2d", paths := r.1,
      prior := some { epoch := e.epoch, key := e.rxKey, next := e.rxNext, rx := e.rx, drops := e.drops },
      tx := e.tx.map (fun t => { t with num := false, sent := false, held := false, tries := 0, after := 0 }) }
  let s := s.setEnt i x
  let cw := max 1 (s.fld rCtCc 32 16) * 1024
  let s := (s.setFld (entReg i) 0 32 cw).setFld (entReg i) 32 16 0
  let s := if bare then
      ((s.setFld (entReg i) 57 1 (if 2 ^ 32 ≤ h.ip then 1 else 0)).setFld (entReg i) 54 3 0).setFld (entReg i) 48 6 0
    else s
  s.setFld rSecStat 16 8 ep

def State.onFinish (s : State) (m : Mgmt) : State :=
  match s.sec.hand with
  | none => s.answerError m stNotOwner
  | some h =>
    if m.part ≠ 0 then s.answerError m stNotOwner
    else if s.finishOk h (msgBody m) then (s.updSec (fun x => { x with hand := none })).installKeys h
    else s.answerError m stImageSignature

/-- FINISH. -/
def execFinish (part : Fin 8) (s : State) : Host.Outcome State Fault Refusal := mgmtRun part 3 State.onFinish s

/-! ### ATTEST_REQ (R393) -/

/-- 48 bytes of a digest, or zeros. -/
def dig48 (b : List Byte) : List Byte := (List.range 48).map (fun i => b.getD i 0)

/-- The attestation report for a partition. -/
def State.report (s : State) (part : Nat) (nonce : List Byte) : List Byte :=
  let f := s.sec.fuses
  let w := fv 36 2 (s.fld rSecPolicy 12 2) + fv 32 4 f.rootRev + fv 24 8 f.prSvn + fv 16 8 f.fwSvn +
    fv 8 8 (s.fld rQpId 16 8) + fv 4 1 (s.fld rSecStat 5 1) + fv 3 1 (if s.pwr.fawn then 1 else 0) + fv 0 3 part
  let reg (r : Nat) : List Byte :=
    dig48 (if s.regSt r = 4 ∧ s.regOwner r = some part then tget [] s.fab.digests r else [])
  ascii "SRP1ATTS" ++ leBytes 8 s.dt.toNat ++ nonce ++ leBytes 8 w ++ leBytes 8 0 ++ digestOr s.sec.image ++
  digestOr s.sec.record ++ dig48 s.sec.chain ++ dig48 (tget [] s.fab.digests 49) ++ (List.range 48).flatMap reg

def State.onAttest (s : State) (m : Mgmt) : State :=
  let b := msgBody m
  if b.length ≠ 32 then s.answerError m stNotOwner
  else if s.sec.aliasGone then s.answerError m stImageSignature
  else
    let r := s.report m.part b
    s.answerMgmt m 5 (r ++ s.aliasSign r)

/-- ATTEST_REQ. -/
def execAttestReq (part : Fin 8) (s : State) : Host.Outcome State Fault Refusal := mgmtRun part 4 State.onAttest s

/-! ### CERTS_REQ -/

/-- A certificate with its length before it. -/
def certBytes (c : List Byte) : List Byte := leBytes 4 c.length ++ c

/-- The identity area holds certificates one after another, each with its length before it, up to a length of 0. -/
def certsIn : Nat → List Byte → List (List Byte)
  | 0, _ => []
  | n + 1, b =>
    let k := leAt b 0 4
    if k = 0 ∨ b.length < 4 + k then [] else (b.drop 4).take k :: certsIn n (b.drop (4 + k))

/-- The certificates of the DeviceID keys and of the Alias keys. -/
def State.certs (s : State) : List (List Byte) :=
  let meas := digestOr s.sec.image ++ digestOr s.sec.record
  certsIn 16 (s.flashBytes identityArea 0x10000) ++
    [0, 1].map (fun k => Config.aliasCert k s.deviceSecret s.sec.cdi meas)

def State.onCerts (s : State) (m : Mgmt) : State :=
  if (msgBody m).length ≠ 0 then s.answerError m stNotOwner else s.answerMgmt m 7 (s.certs.flatMap certBytes)

/-- CERTS_REQ. -/
def execCertsReq (part : Fin 8) (s : State) : Host.Outcome State Fault Refusal := mgmtRun part 6 State.onCerts s

/-! ### UNLOCK (R394) -/

/-- Does an UNLOCK payload carry a root key block that signs the nonce in force? -/
def State.unlockOk (s : State) (b : List Byte) : Bool :=
  let msg := leBytes 8 (s.reg rSecDbgnonce).toNat ++ (Config.pairPublic s.deviceSecret).take 32
  b.length == 4096 + 3373 && s.rootOk2 (b.take 4096) && Config.sigOk (kbPair (b.take 4096)) msg (b.drop 4096)

def State.onUnlock (s : State) (m : Mgmt) : State :=
  if m.part ≠ 0 ∨ m.boot then s.answerError m stNotOwner
  else if s.unlockOk (msgBody m) then
    ((s.setFld rSecStat 5 1 1).updSec (fun x => { x with aliasGone := true })).newNonce
  else s.newNonce.answerError m stImageSignature

/-- UNLOCK. -/
def execUnlock (part : Fin 8) (s : State) : Host.Outcome State Fault Refusal := mgmtRun part 9 State.onUnlock s

end Sys2Proof.Machine
end

