-- ==== Sys2Proof/Machine/Ddr5Init.lean ====
section
/-! DEFINITION. The initialisation of the DDR5 tier (R208 to R211, R218, R223, R443): SPD reads, geometry, training. -/

namespace Sys2Proof.Machine

/-! ### DIMMs (R208, R218, Table 8.2) -/

/-- A timing in DRAM clocks at a data rate: t ps rounded up, where a clock lasts 2,000,000 / rate ps. -/
def ddrClocks (t rate : Nat) : Nat := ceilDiv (t * rate) 2000000

/-- CL's limit at a data rate. -/
def clLimit (rate : Nat) : Nat :=
  if rate = 6400 then 56 else if rate = 5600 then 52 else if rate = 4800 then 42 else 28

/-- Is a DIMM of the accepted kind, but for its data rate and CL? -/
def spdOk (d : Spd) : Bool :=
  d.rdimm && d.width == 4 && d.devices == 10 && [16, 32, 64].contains d.density && [1, 2].contains d.ranks && !d.stacked &&
    (d.drfm || d.rfm) && decide (d.trcd ≤ 17500) && decide (d.trp ≤ 17500) && decide (d.tras ≤ 32000) &&
    decide (d.twr ≤ 30000) && decide (d.trfc ≤ if d.density = 64 then 190000 else 130000)

/-- The data rate of a channel: the highest that its DIMMs and their number allow; 0 where none is. -/
def chanRate (ds : List Spd) : Nat :=
  let top := if ds.length = 1 then 6400 else 5600
  ([6400, 5600, 4800].find? (fun r => decide (r ≤ top) && ds.all (fun d => decide (r ≤ d.rate)))).getD 0

/-- A population: DIMMs per channel, ranks per DIMM, density, data rate. -/
structure Popul where
  dpc : Nat
  rpd : Nat
  density : Nat
  rate : Nat
deriving DecidableEq, Repr

/-- The population of a channel whose DIMMs are all accepted and alike. -/
def populOf (ds : List Spd) : Option Popul :=
  match ds with
  | [] => none
  | d :: _ =>
    let r := chanRate ds
    let fits (x : Spd) : Bool := [r, 3200].all (fun q => decide (ddrClocks x.taa q ≤ clLimit q))
    if ds.length ≤ 2 ∧ r ≠ 0 ∧ ds.all (fun x => spdOk x && fits x && x.ranks == d.ranks && x.density == d.density) then
      some { dpc := ds.length, rpd := d.ranks, density := d.density, rate := r }
    else none

/-! ### The tier's population (R209) -/

/-- Is a channel retired with the DIMMs it holds (R443)? -/
def State.chanRetired (s : State) (c : Nat) : Bool :=
  s.health.now.any (fun r => match r with | .channel k ser _ => k == c && ser == s.serials c | _ => false)

/-- The channels that take part in the choice: accepted, and not retired. -/
def State.candidates (s : State) : List (Nat × Popul) :=
  (List.range 8).filterMap (fun c =>
    if s.chanRetired c then none else (populOf (tget [] s.ddr.dimms c)).map (fun p => (c, p)))

/-- The population that the most channels share; on a tie that of the lowest channel. -/
def bestPopul (cs : List (Nat × Popul)) : Option Popul :=
  let count (p : Popul) : Nat := (cs.filter (fun x => x.2 == p)).length
  cs.foldl (fun (b : Option Popul) x =>
    match b with
    | none => some x.2
    | some p => if count p < count x.2 then some x.2 else some p) none

/-! ### Health records of the tier (Table 17.8) -/

/-- Records of ranks and channels whose DIMMs have changed are removed. -/
def State.pruneHealth (s : State) : State :=
  let stale (r : HRec) : Bool :=
    match r with
    | .rank c _ _ _ ser => ser != s.serials c
    | .channel c ser _ => ser != s.serials c
    | _ => false
  if s.health.now.any stale then s.healthChange (fun h => h.filter (fun r => !stale r)) else s

/-- A rank's record is applied where the geometry holds its destination. -/
def State.applyRank (s : State) (c phys dest spare : Nat) : State :=
  match s.logicalRank c phys with
  | none => s
  | some q =>
    if dest = 0 then
      if s.spareRank = some spare then (s.setFld (rDdrRankmap c) (2 * q) 2 spare).setFld rDdrStatus c 1 1 else s
    else if s.ddrRsvr ≠ 0 then
      let r : RankRet := { ch := c, q := q, phys := phys, dest := 1, finished := true }
      (s.updDdr (fun d => { d with rets := d.rets ++ [r] })).setFld rDdrStatus 24 1 1
    else s

def State.applyRanks (s : State) : State :=
  s.health.now.foldl (fun s r =>
    match r with
    | .rank c phys dest spare _ => if s.chList.contains c then s.applyRank c phys dest spare else s
    | _ => s) s

/-! ### Geometry and timings (R211, R223) -/

/-- DDR_TSETn for a channel at a data rate. -/
def tsetWord (ds : List Spd) (rate : Nat) : W64 :=
  let worst (f : Spd → Nat) : Nat := (ds.map f).foldl max 0
  BitVec.ofNat 64 (fv 40 8 (ddrClocks (worst Spd.tras) rate) + fv 32 8 (ddrClocks (worst Spd.trp) rate) +
    fv 24 8 (ddrClocks (worst Spd.trcd) rate) + fv 16 8 (ddrClocks (worst Spd.taa) rate) + fv 8 8 (rate / 100) + 1)

/-- DDR_CHSTAT of a populated channel, but for its rate. -/
def chstatWord (p : Popul) (rate st : Nat) : W64 :=
  BitVec.ofNat 64 (fv 18 2 p.rpd + fv 16 2 p.dpc + fv 8 8 (rate / 100) + st)

/-- Training of a rank at a timing set: the PHY keeps its results, and the DRAM's set point is programmed to match (R223).
Results that a reset left stand (Table 17.9). -/
def State.trainRank (s : State) (c rank set rate : Nat) : State :=
  let i := 2 * (4 * c + rank) + set
  if tget 0 s.ddr.fsp i = rate then s
  else { s with free := s.free + 1 }.updDdr (fun d =>
    { d with phy := tset 0 d.phy i (Config.freeNat s.free), fsp := tset 0 d.fsp i rate })

/-- Every rank of a channel is trained at both timing sets, and the channel is in service at the first, its banks
refreshed. -/
def State.trainChan (s : State) (c : Nat) (p : Popul) : State :=
  let ds := tget [] s.ddr.dimms c
  let s := (s.setReg (rDdrTset c 0) (tsetWord ds p.rate)).setReg (rDdrTset c 1) (tsetWord ds 3200)
  let s := (List.range (p.dpc * p.rpd)).foldl (fun s r => (s.trainRank c r 0 p.rate).trainRank c r 1 3200) s
  let s := (s.updChanBanks c (fun x => { x with refreshed := s.dt.toNat })).issue c [.mpc, .mrw]
  s.setReg (rDdrChstat c) (chstatWord p p.rate 2)

/-- DDR_GEOM for the channels of the tier. -/
def State.setGeom (s : State) (cs : List Nat) (p : Popul) : State :=
  let pr := p.dpc * p.rpd
  let spare := if s.fld rDdrCfg 1 1 = 1 ∧ 1 < pr then 1 else 0
  let nr := pr - spare
  let dens := if p.density = 16 then 1 else if p.density = 32 then 2 else 3
  let rows := 2 ^ (15 + dens)
  let n := cs.length * nr
  let rsvr := if s.fld rDdrCfg 0 1 = 1 ∧ 2 ≤ n then ceilDiv rows n else 0
  let mib := n * 64 * (rows - rsvr) * 8192 / 2 ^ 20
  let mask := (cs.map (fun c => 2 ^ c)).sum
  s.setReg rDdrGeom (BitVec.ofNat 64 (fv 44 18 rsvr + fv 21 23 mib + fv 18 2 dens + fv 15 3 nr + fv 12 3 pr +
    fv 8 4 cs.length + fv 0 8 mask))

/-- A channel is left out of the tier. -/
def State.leaveOut (s : State) (c : Nat) (report : Bool) : State :=
  let p : Popul := match tget [] s.ddr.dimms c with
    | [] => ⟨0, 0, 0, 0⟩
    | d :: ds => ⟨ds.length + 1, d.ranks, d.density, 0⟩
  let s := s.setReg (rDdrChstat c) (chstatWord p 0 5)
  if report then s.event 0 stDimmRefused none 0 0 else s

/-- Training fails on a channel: it is left out, and retired where it failed with these DIMMs before (R443). -/
def State.trainFails (s : State) (c : Nat) : State :=
  let x : Nat × List Nat := (c, s.serials c)
  if s.ddr.untrained.contains x then
    (s.healthChange (fun h => h ++ [.channel c (s.serials c) s.dt])).leaveOut c true
  else (s.updDdr (fun d => { d with untrained := d.untrained.filter (fun y => y.1 != c) ++ [x] })).leaveOut c false

/-- What becomes of one channel, given the tier's population and the channels whose training fails. -/
def State.initChan (s : State) (p : Popul) (failed : List Nat) (c : Nat) : State :=
  match tget [] s.ddr.dimms c with
  | [] => s.setReg (rDdrChstat c) 0
  | ds =>
    if s.chanRetired c ∨ populOf ds ≠ some p then s.leaveOut c true
    else if failed.contains c then s.trainFails c
    else (s.trainChan c p).updDdr (fun d => { d with untrained := d.untrained.filter (fun x => x.1 != c) })

/-- The DIMMs that the SPD reports are the tier's; the training of a channel whose serial numbers changed is lost
(Table 17.9). -/
def State.takeDimms (s : State) (t : Tab (List Spd)) : State :=
  let new : State := s.updDdr (fun d => { d with dimms := t })
  let same (c : Nat) : Bool := s.serials c == new.serials c
  new.updDdr (fun d => { d with phy := d.phy.filter (fun x => same (x.1 / 8)), fsp := d.fsp.filter (fun x => same (x.1 / 8)) })

/-- The initialisation of the tier (step J). -/
def State.initTier (s : State) (dimms : List (List Spd)) (failed : List Nat) : State :=
  let t : Tab (List Spd) := (List.range 8).foldl (fun x c => tset [] x c (dimms.getD c [])) []
  let s := (s.takeDimms t).pruneHealth
  let s := (s.setReg rDdrGeom 0).setReg rDdrStatus 0
  match bestPopul s.candidates with
  | none => (List.range 8).foldl (fun s c => s.initChan ⟨0, 0, 0, 0⟩ [] c) s
  | some p =>
    let cs := (s.candidates.filter (fun x => x.2 == p && !failed.contains x.1)).map Prod.fst
    let s := (List.range 8).foldl (fun s c => s.initChan p failed c) s
    if cs.isEmpty then s else (s.setGeom cs p).applyRanks

/-- A channel that initialises after a reset of its own trains again (R410). -/
def State.retrain (s : State) (failed : List Nat) (c : Nat) : State :=
  match populOf (tget [] s.ddr.dimms c) with
  | none => s
  | some p => if failed.contains c then s else s.trainChan c p

end Sys2Proof.Machine
end

