-- ==== Sys2Proof/Machine/Startup.lean ====
section
/-! DEFINITION. The steps of start-up but for the boot chain and the fabric load (R408 to R411): A to M are 0 to 12. -/

namespace Sys2Proof.Machine

/-! ### What starts by itself -/

/-- CXL bring-up begins once the lanes are calibrated and the engines are in service (step L); never in fawn mode. -/
def State.advance (s : State) : State :=
  if s.did 11 ∨ ¬ s.did 3 ∨ ¬ s.did 6 then s else (((s.stepDone 11).cxlBegin 0).cxlBegin 1).syncCxl

/-- May step k run: the device is up, the steps before it are done, and it is not? -/
def State.stepOpen (s : State) (k : Nat) (after : List Nat) : Bool := s.runs && after.all s.did && !s.did k

/-! ### Step C: BIST -/

/-- Where a fault lies that a spare may repair. -/
def bistLoc (f : BistFault) : Loc :=
  match f with
  | .row i => .row i
  | .col j => .col j
  | .checkRow => .ckRow
  | .checkCol => .ckCol
  | .other => .unlocated

/-- An engine is retired at start-up: it is power-gated, recorded and reported (R408, R442). -/
def State.bistRetire (s : State) (n : Nat) : State :=
  let s := (s.updEng n (fun e => { e with retired := true })).setFld (rPwrEng n) 12 2 3
  (s.healthChange (fun h => h ++ [.engine n 2 s.dt])).event 0 stEngineRetire none (fv 8 2 2 + fv 0 6 n) 0

/-- A fault takes a spare line, or retires the engine. -/
def State.bistFault (s : State) (n : Nat) (f : BistFault) : State :=
  if (s.eng n).retired then s
  else
    let w := s.reg (rMtRemap n)
    let t := if bistLoc f = .unlocated then (w, false) else spareTry (bistLoc f) 3 [] (spareDoubt w (bistLoc f))
    if t.2 then ((s.setReg (rMtRemap n) t.1).healthRemap n t.1).event 0 stLineRemap none n t.1.toNat else s.bistRetire n

/-- BIST: step C, with the faults that it finds. -/
def execBist (faults : List (Fin 64 × BistFault)) (s : State) : Host.Outcome State Fault Refusal :=
  if s.stepOpen 2 [0] then .next (faults.foldl (fun s f => s.bistFault f.1 f.2) (s.stepDone 2)) else .next s

/-! ### Steps D to I -/

/-- LANE_CALIBRATION: step D. -/
def execLaneCalibration (s : State) : Host.Outcome State Fault Refusal :=
  if s.stepOpen 3 [0] then .next (s.stepDone 3).advance else .next s

def isRepair (r : HRec) : Bool := match r with | .repair _ _ _ => true | _ => false

/-- HBM_TRAINING: step E; recorded soft repairs are made hard and leave the record (R194, Table 17.8). -/
def execHbmTraining (s : State) : Host.Outcome State Fault Refusal :=
  if s.stepOpen 4 [0] then
    let s := s.stepDone 4
    .next (if s.health.now.any isRepair then s.healthChange (fun h => h.filter (fun r => !isRepair r)) else s)
  else .next s

/-- The keys K[0] to K[3] are drawn. -/
def State.drawKeys (s : State) : State :=
  (List.range 4).foldl (fun s k =>
    let r := s.takeBits 64
    { r.2 with hbmKeys := tset 0 r.2.hbmKeys k (BitVec.ofNat 64 r.1) }) s

/-- The bytes of a kept dump lie in the area, which zeroing leaves out. -/
def State.restoreDump (s : State) : State :=
  let base := (s.reg rDmpBase).toNat
  (s.rst.kept.foldl (fun s x => s.setByte (base + x.1) x.2) s).updRst (fun r => { r with kept := [] })

/-- HBM_ZEROING: step F. -/
def execHbmZeroing (s : State) : Host.Outcome State Fault Refusal :=
  if s.stepOpen 5 [4] then
    let s := ((s.stepDone 5).drawKeys.zeroKeys 0 (2 ^ 39)).restoreDump
    .next (s.setFld rPwrReady readyHbm 1 1).settleHp0
  else .next s

/-- ENGINES_INTO_SERVICE: step G; it is never reached in fawn mode. -/
def execEnginesIntoService (s : State) : Host.Outcome State Fault Refusal :=
  if s.stepOpen 6 [1, 2] ∧ s.fld rSecStat 0 2 = 1 then
    .next (((s.stepDone 6).setFld rPwrReady 0 1 1).settleHp0).advance
  else .next s

/-- ETHERNET_BRING_UP: step I; in fawn mode it waits for lane calibration and HP0's endpoint alone, and
runs on ETH0 sub-port 0. -/
def execEthernetBringUp (s : State) : Host.Outcome State Fault Refusal :=
  if s.stepOpen 8 (if s.pwr.fawn then [1, 3] else [3, 6]) then
    .next ((List.range 2).foldl (fun s p => (List.range 4).foldl (fun s k => s.startSub p k) s) (s.stepDone 8))
  else .next s

/-! ### Steps J and K: DDR5 -/

/-- DDR5_TRAINING: step J, with what the SPD of each channel's DIMMs reports and the channels whose training fails;
and the training of channels that initialise after a reset of their own. -/
def execDdr5Training (dimms : List (List Spd)) (failed : List (Fin 8)) (s : State) :
    Host.Outcome State Fault Refusal :=
  let bad := failed.map (fun c => (c : Nat))
  if s.stepOpen 9 [0] ∧ ¬ s.pwr.fawn then
    let s := (s.stepDone 9).initTier dimms bad
    .next (if s.chList.isEmpty then (s.setFld rPwrReady 2 1 1).setFld rPwrReady 6 1 1 else s)
  else if s.runs ∧ s.did 9 then
    .next (((s.ddr.initing.filter (fun c => s.chState c == 1))).foldl (fun s c => s.retrain bad c) s)
  else .next s

/-- The memory keys of one channel's lines. -/
def State.zeroChan (s : State) (c : Nat) : State := (s.zeroKeys (ddrBase + c * 2 ^ 39) (2 ^ 39)).issue c [.wrp]

/-- The end of a zeroing: the readiness bit and the count are set, and resets of channels complete. -/
def State.ddrReady (s : State) : State :=
  let s := (s.setFld rPwrZero 0 16 (s.ddrCap / 2 ^ 30)).setFld rPwrReady 2 1 1
  let done := s.rst.resets.filter (fun r => r.1 == 7)
  let s := s.updRst (fun r => { r with resets := r.resets.filter (fun x => x.1 != 7) })
  done.foldl (fun s r => s.finishCmd r.2.2) s

/-- DDR5_ZEROING: step K; and the zeroing of channels that initialise after a reset of their own. -/
def execDdr5Zeroing (s : State) : Host.Outcome State Fault Refusal :=
  if ¬ s.runs ∨ ¬ s.did 9 ∨ s.chList.isEmpty ∨ s.ddr.initing.any (fun c => s.chState c == 1) then .next s
  else if ¬ s.did 10 then
    let s := s.chList.foldl (fun s c => s.issue c [.wrp]) s
    .next ((((s.stepDone 10).zeroKeys ddrBase (2 ^ 42)).updDdr (fun d => { d with initing := [] })).ddrReady)
  else if s.ddr.initing.isEmpty then .next s
  else
    .next (((s.ddr.initing.foldl (fun s c => s.zeroChan c) s).updDdr (fun d => { d with initing := [] })).ddrReady)

end Sys2Proof.Machine
end

