-- ==== Sys2Proof/Machine/ResetCmd.lean ====
section
/-! DEFINITION. RESET of a named domain (R425, R426), the start of held commands (R243, R247), and the queue watchdog (R433,
R434). -/

namespace Sys2Proof.Machine

def State.addReset (s : State) (kind unit cmd : Nat) : State :=
  s.updRst (fun r => { r with resets := r.resets ++ [(kind, unit, cmd)] })

/-! ### Host partition (R426) -/

/-- Contexts of partition p that exist and are not being torn down. -/
def State.partCtxs (s : State) (p : Nat) : List Nat :=
  ((s.ctxs.filter (fun x => x.2.live && !x.2.tearing)).map Prod.fst).filter (fun c => s.partOfCtx c == some p)

/-- Set peer entries of partition p. -/
def State.partPeers (s : State) (p : Nat) : List Nat :=
  (s.net.ents.map Prod.fst).filter (fun i => decide (i < 16384) && s.entPart i == p && s.entState i != 0)

/-- Regions granted to partition p that are not EMPTY. -/
def State.partRegions (s : State) (p : Nat) : List Nat :=
  (List.range 49).filter (fun f => s.regOwner f == some p && s.regSt f != 0)

/-- A host partition reset begins. -/
def State.resetPart (s : State) (p cmd : Nat) : State :=
  let s := s.addReset 2 p cmd
  let s := (s.partCtxs p).foldl (fun s c => s.tearDown c 0) s
  let s := (s.partPeers p).foldl (fun s i => s.clearPeer i 0) s
  let s := (s.partRegions p).foldl (fun s f => s.addLoad { part := p, blank := true, mask := [f] }) s
  let s := ((s.queues.map Prod.fst).filter (fun q => s.partOfQueue q == some p)).foldl (fun s q => s.settleQueue q) s
  s.settleResets

/-! ### Engine, fabric region, DDR5 channel -/

/-- A command whose work an engine reset has discarded stays open until its context is torn down: operation 0 never
ends. -/
def State.loseWork (s : State) (n : Nat) : State :=
  ((List.range 8).filter (s.suspectSlot n)).foldl
    (fun s k => s.updCmd (s.slot n k).cmd (fun c => { c with ops := c.ops ++ [0] })) s

/-- A region's ports after its reset: counts and causes are cleared, but for a freeze that its loading context's teardown
made (R342). -/
def State.resetRegionPorts (s : State) (f : Nat) : State :=
  [2 * f, 2 * f + 1].foldl (fun s p =>
    let s := s.dropHeld (fun k => k.src == 0x40 + p)
    if s.fld (rFabPort p) 48 16 = stContextTornDown then s.setFld (rFabPort p) 0 32 0
    else (s.setReg (rFabPort p) 0).returnCredits (0x40 + p)) s

/-- A fabric region reset (R350): an ACTIVE region passes into HOLD and releases again. -/
def State.resetRegion (s : State) (f cmd : Nat) : State :=
  let s := s.updNoc (fun x => { x with dgenF := tset 0 x.dgenF f ((tget 0 x.dgenF f + 1) % 4096) })
  let s := s.resetRegionPorts f
  if s.regSt f = 4 then
    ((s.setRegSt f 2 0).updFab (fun x => { x with groups := x.groups ++ [[f]] })).addReset 4 f cmd
  else s.finishCmd cmd

/-- The copies under way in a channel end: their ranks stay retired (Table 8.5). -/
def State.endCopies (s : State) (ch : Nat) : State :=
  (List.range 4).foldl (fun s _ =>
    match s.ddr.rets.find? (fun r => r.ch == ch && !r.finished) with
    | none => s
    | some r => s.rankDone r) s

/-- A DDR5 channel reset (R410): its controller, PHY and ranks initialise again. -/
def State.resetChan (s : State) (ch cmd : Nat) : State :=
  if ¬ s.chList.contains ch then s.finishCmd cmd
  else
    let s := s.endCopies ch
    let s := s.updDdr (fun d =>
      { d with banks := d.banks.filter (fun b => b.1 / 256 != ch), throttles := d.throttles.filter (fun t => t.ch != ch),
               fast := d.fast.filter (fun r => r.1 != ch), dqs := tdel ch d.dqs, moving := tdel ch d.moving,
               due := d.due.filter (fun x => x.1 != ch), mr4 := d.mr4.filter (fun x => x.1 / 4 != ch),
               phy := d.phy.filter (fun x => x.1 / 8 != ch), fsp := d.fsp.filter (fun x => x.1 / 8 != ch),
               drift := d.drift.filter (fun x => x.1 / 4 != ch), change := d.change.filter (· != ch),
               low := d.low.filter (· != ch), heat := d.heat.filter (· != ch),
               initing := d.initing.filter (· != ch) ++ [ch] })
    let s := [rDdrTset ch 0, rDdrTset ch 1, rDdrTsel ch, rDdrEcc ch, rDdrEvlog ch, rDdrEvdt ch].foldl State.resetReg s
    let s := s.updNoc (fun x => { x with wq := x.wq.filter (fun w => s.chanOf w.addr != ch), draining := x.draining.filter (· != ch) })
    ((s.setFld (rDdrChstat ch) 0 3 1).setFld rPwrReady 2 1 0).addReset 7 ch cmd

/-! ### RESET -/

/-- How many units a kind has. -/
def resetUnits (k : Nat) : Nat :=
  match k with | 1 => 1 | 2 => 8 | 3 => 64 | 4 => 48 | 5 => 2 | 6 => 2 | 7 => 8 | _ => 0

/-- Is a domain being reset already? -/
def State.resetting (s : State) (k u : Nat) : Bool :=
  s.rst.resets.any (fun r => r.1 == k && r.2.1 == u) || (k == 3 && s.rst.hangs.any (fun h => h.eng == u)) ||
    (k == 4 && (s.inGroup u).isSome) || (k == 7 && s.ddr.initing.contains u)

def resetCheck (s : State) (c : Cmd) : Nat :=
  let k := c.opf 0 0 4
  let u := c.opf 0 8 14
  if resetUnits k ≤ u ∨ (k = 2 ∧ u = 0) then stCmdFieldInvalid
  else if k = 3 ∧ (s.eng u).retired then stEngineRetired
  else if s.resetting k u then stInUse
  else 0

def resetStart (s : State) (c : Cmd) : State :=
  let u := c.opf 0 8 14
  match c.opf 0 0 4 with
  | 1 => s.warmReset 2 false
  | 2 => s.resetPart u c.id
  | 3 => ((s.loseWork u).resetEngine u).finishCmd c.id
  | 4 => s.resetRegion u c.id
  | 5 => (s.resetPort u).finishCmd c.id
  | 6 => (s.resetCxl u).finishCmd c.id
  | _ => s.resetChan u c.id

def resetRow : CmdRow :=
  { op := 0x0C, mgmt := true, fields := [fm 0 4 + fm 8 14], check := resetCheck, start := resetStart }

/-- RESET. -/
def execReset (q : Fin 16384) (s : State) : Host.Outcome State Fault Refusal := acceptCmd resetRow q s

/-! ### COMMAND_START (R243, R247) -/

/-- The rows of Table 9.3. -/
def cmdRows : List CmdRow :=
  [nopRow, partConfigRow, partGrantRow, partRegulateRow, regReadRow, regWriteRow, hbmRegionRow, rekeyRow, retireRow,
   fwPatchRow, fwImageRow, dumpRow, resetRow] ++
  [queueCreateRow, queueDeleteRow, ctxCreateRow, ctxConfigRow, ctxTeardownRow, ctxPlaceRow, ctxUnplaceRow, imemWriteRow,
   runRow, chainRow, convertRow, copyRow, pageMoveRow, xlateInvalRow, gateSignalRow, stotDiscardRow, freezeRow,
   unfreezeRow] ++
  [peerSetRow, peerClearRow, fabLoadRow, fabBlankRow]

/-- The row of an opcode. -/
def rowOf (op : Nat) : Option CmdRow := cmdRows.find? (fun r => r.op == op)

/-- COMMAND_START: a held command starts once nothing holds it. -/
def execCommandStart (id : Nat) (s : State) : Host.Outcome State Fault Refusal :=
  match s.cmd id with
  | none => .next s
  | some c =>
    match rowOf c.opcode with
    | none => .next s
    | some r => if s.runs ∧ c.st = .held then .next (s.lateStart r c) else .next s

/-! ### The queue watchdog (R434) -/

/-- Is a held command ready to start? -/
def State.startReady (s : State) (c : Cmd) : Bool :=
  c.st == .held && (match rowOf c.opcode with | none => false | some r => !s.mustHold r c)

/-- Does queue processor p hold an entry that it may accept, or a command ready to start (R433)? -/
def State.procWork (s : State) (p : Nat) : Bool :=
  (s.queues.map Prod.fst).any (fun q => s.procOf q == p && s.queueReady q) ||
    s.cmds.any (fun c => c.qp == p && s.startReady c)

/-- A restart of queue processor p: the commands that it accepted meet DEVICE_FAULT, and those that had not started
end. -/
def State.restartProc (s : State) (p : Nat) : State :=
  let fault (c : Cmd) : Cmd := if c.qp = p then c.meet stDeviceFault else c
  let ids := (s.cmds.filter (fun c => c.qp == p && c.st == .held && !c.started)).map Cmd.id
  let s := { s with
    cmds := s.cmds.map fault,
    queues := s.queues.map (fun (q : Nat × Queue) =>
      (q.1, { q.2 with recs := q.2.recs.map (fun (c : Cmd) => if c.ops.isEmpty then c else fault c) })) }
  let s := ids.foldl (fun s id => s.finishCmd id) s
  (s.setReg rRstHlog (logWord (s.reg rRstHlog) (fv 20 2 3 + fv 14 6 p))).setReg rRstHlogdt s.dt

/-- QUEUE_WATCHDOG: RST_WD.QP has passed without an acceptance or a start. -/
def execQueueWatchdog (p : Fin 4) (s : State) : Host.Outcome State Fault Refusal :=
  if s.runs ∧ s.procWork p then .next (s.restartProc p) else .next s

end Sys2Proof.Machine
end

