-- ==== Sys2Proof/Machine/VtRows.lean ====
section
/-! DEFINITION. The vector tile's instructions, one row each (Table 4.4): the bundle at the active bank's
PC issues where it holds the row's operation. -/

namespace Sys2Proof.Machine

def execVtNop (e : Fin 64) (s : State) : Host.Outcome State Fault Refusal := vtRun e .nop s
def execVld (e : Fin 64) (s : State) : Host.Outcome State Fault Refusal := vtRun e .vld s
def execVlds (e : Fin 64) (s : State) : Host.Outcome State Fault Refusal := vtRun e .vlds s
def execVst (e : Fin 64) (s : State) : Host.Outcome State Fault Refusal := vtRun e .vst s
def execVstm (e : Fin 64) (s : State) : Host.Outcome State Fault Refusal := vtRun e .vstm s
def execSld (e : Fin 64) (s : State) : Host.Outcome State Fault Refusal := vtRun e .sld s
def execSst (e : Fin 64) (s : State) : Host.Outcome State Fault Refusal := vtRun e .sst s
def execAmov (e : Fin 64) (s : State) : Host.Outcome State Fault Refusal := vtRun e .amov s
def execAget (e : Fin 64) (s : State) : Host.Outcome State Fault Refusal := vtRun e .aget s
def execVadd (e : Fin 64) (s : State) : Host.Outcome State Fault Refusal := vtRun e .vadd s
def execVsub (e : Fin 64) (s : State) : Host.Outcome State Fault Refusal := vtRun e .vsub s
def execVmax (e : Fin 64) (s : State) : Host.Outcome State Fault Refusal := vtRun e .vmax s
def execVmin (e : Fin 64) (s : State) : Host.Outcome State Fault Refusal := vtRun e .vmin s
def execVand (e : Fin 64) (s : State) : Host.Outcome State Fault Refusal := vtRun e .vand s
def execVor (e : Fin 64) (s : State) : Host.Outcome State Fault Refusal := vtRun e .vor s
def execVxor (e : Fin 64) (s : State) : Host.Outcome State Fault Refusal := vtRun e .vxor s
def execVshl (e : Fin 64) (s : State) : Host.Outcome State Fault Refusal := vtRun e .vshl s
def execVshr (e : Fin 64) (s : State) : Host.Outcome State Fault Refusal := vtRun e .vshr s
def execVcmp (e : Fin 64) (s : State) : Host.Outcome State Fault Refusal := vtRun e .vcmp s
def execVsel (e : Fin 64) (s : State) : Host.Outcome State Fault Refusal := vtRun e .vsel s
def execVbcst (e : Fin 64) (s : State) : Host.Outcome State Fault Refusal := vtRun e .vbcst s
def execVperm (e : Fin 64) (s : State) : Host.Outcome State Fault Refusal := vtRun e .vperm s
def execVextr (e : Fin 64) (s : State) : Host.Outcome State Fault Refusal := vtRun e .vextr s
def execVcvt (e : Fin 64) (s : State) : Host.Outcome State Fault Refusal := vtRun e .vcvt s
def execVmaxi (e : Fin 64) (s : State) : Host.Outcome State Fault Refusal := vtRun e .vmaxi s
def execVmini (e : Fin 64) (s : State) : Host.Outcome State Fault Refusal := vtRun e .vmini s
def execSmaxi (e : Fin 64) (s : State) : Host.Outcome State Fault Refusal := vtRun e .smaxi s
def execSmini (e : Fin 64) (s : State) : Host.Outcome State Fault Refusal := vtRun e .smini s
def execVtopk (e : Fin 64) (s : State) : Host.Outcome State Fault Refusal := vtRun e .vtopk s
def execSadd (e : Fin 64) (s : State) : Host.Outcome State Fault Refusal := vtRun e .sadd s
def execSsub (e : Fin 64) (s : State) : Host.Outcome State Fault Refusal := vtRun e .ssub s
def execSmul (e : Fin 64) (s : State) : Host.Outcome State Fault Refusal := vtRun e .smul s
def execSmovi (e : Fin 64) (s : State) : Host.Outcome State Fault Refusal := vtRun e .smovi s
def execSlui (e : Fin 64) (s : State) : Host.Outcome State Fault Refusal := vtRun e .slui s
def execBr (e : Fin 64) (s : State) : Host.Outcome State Fault Refusal := vtRun e .br s
def execVarm (e : Fin 64) (s : State) : Host.Outcome State Fault Refusal := vtRun e .varm s
def execVdisarm (e : Fin 64) (s : State) : Host.Outcome State Fault Refusal := vtRun e .vdisarm s
def execVreti (e : Fin 64) (s : State) : Host.Outcome State Fault Refusal := vtRun e .vreti s
def execVsig (e : Fin 64) (s : State) : Host.Outcome State Fault Refusal := vtRun e .vsig s
def execVsrrd (e : Fin 64) (s : State) : Host.Outcome State Fault Refusal := vtRun e .vsrrd s
def execVsrwr (e : Fin 64) (s : State) : Host.Outcome State Fault Refusal := vtRun e .vsrwr s
def execVflags (e : Fin 64) (s : State) : Host.Outcome State Fault Refusal := vtRun e .vflags s
def execVmul (e : Fin 64) (s : State) : Host.Outcome State Fault Refusal := vtRun e .vmul s
def execVfma (e : Fin 64) (s : State) : Host.Outcome State Fault Refusal := vtRun e .vfma s
def execVfms (e : Fin 64) (s : State) : Host.Outcome State Fault Refusal := vtRun e .vfms s
def execVfnma (e : Fin 64) (s : State) : Host.Outcome State Fault Refusal := vtRun e .vfnma s
def execVdot2 (e : Fin 64) (s : State) : Host.Outcome State Fault Refusal := vtRun e .vdot2 s
def execVrsum (e : Fin 64) (s : State) : Host.Outcome State Fault Refusal := vtRun e .vrsum s
def execVexp2 (e : Fin 64) (s : State) : Host.Outcome State Fault Refusal := vtRun e .vexp2 s
def execVlog2 (e : Fin 64) (s : State) : Host.Outcome State Fault Refusal := vtRun e .vlog2 s
def execVrcp (e : Fin 64) (s : State) : Host.Outcome State Fault Refusal := vtRun e .vrcp s
def execVrsqrt (e : Fin 64) (s : State) : Host.Outcome State Fault Refusal := vtRun e .vrsqrt s
def execVsilu (e : Fin 64) (s : State) : Host.Outcome State Fault Refusal := vtRun e .vsilu s
def execVgelu (e : Fin 64) (s : State) : Host.Outcome State Fault Refusal := vtRun e .vgelu s
def execVerf (e : Fin 64) (s : State) : Host.Outcome State Fault Refusal := vtRun e .verf s

end Sys2Proof.Machine
end

