-- ==== Sys2Proof/Machine/Dispatch.lean ====
section
/-! DEFINITION. One arm per command (R121, R95, R241 and the events): each is one call of its own
meaning. -/

namespace Sys2Proof.Machine

def exec (i : Instr) (s : State) : Host.Outcome State Fault Refusal :=
  match i with
  | .powerOnReset vbatt => Sys2Proof.Machine.execPowerOnReset vbatt s
  | .deviceWarmReset => Sys2Proof.Machine.execDeviceWarmReset s
  | .railDroop => Sys2Proof.Machine.execRailDroop s
  | .powerDown => Sys2Proof.Machine.execPowerDown s
  | .bootChain flash => Sys2Proof.Machine.execBootChain flash s
  | .bist faults => Sys2Proof.Machine.execBist faults s
  | .laneCalibration => Sys2Proof.Machine.execLaneCalibration s
  | .hbmTraining => Sys2Proof.Machine.execHbmTraining s
  | .hbmZeroing => Sys2Proof.Machine.execHbmZeroing s
  | .enginesIntoService => Sys2Proof.Machine.execEnginesIntoService s
  | .bootFabricLoad => Sys2Proof.Machine.execBootFabricLoad s
  | .ethernetBringUp => Sys2Proof.Machine.execEthernetBringUp s
  | .ddr5Training dimms failed => Sys2Proof.Machine.execDdr5Training dimms failed s
  | .ddr5Zeroing => Sys2Proof.Machine.execDdr5Zeroing s
  | .cxlZeroing port => Sys2Proof.Machine.execCxlZeroing port s
  | .esNop e sl => Sys2Proof.Machine.execEsNop e sl s
  | .add e sl => Sys2Proof.Machine.execAdd e sl s
  | .sub e sl => Sys2Proof.Machine.execSub e sl s
  | .and e sl => Sys2Proof.Machine.execAnd e sl s
  | .or e sl => Sys2Proof.Machine.execOr e sl s
  | .xor e sl => Sys2Proof.Machine.execXor e sl s
  | .shl e sl => Sys2Proof.Machine.execShl e sl s
  | .shr e sl => Sys2Proof.Machine.execShr e sl s
  | .sra e sl => Sys2Proof.Machine.execSra e sl s
  | .slt e sl => Sys2Proof.Machine.execSlt e sl s
  | .sltu e sl => Sys2Proof.Machine.execSltu e sl s
  | .mul e sl => Sys2Proof.Machine.execMul e sl s
  | .addi e sl => Sys2Proof.Machine.execAddi e sl s
  | .andi e sl => Sys2Proof.Machine.execAndi e sl s
  | .ori e sl => Sys2Proof.Machine.execOri e sl s
  | .xori e sl => Sys2Proof.Machine.execXori e sl s
  | .shli e sl => Sys2Proof.Machine.execShli e sl s
  | .shri e sl => Sys2Proof.Machine.execShri e sl s
  | .movi e sl => Sys2Proof.Machine.execMovi e sl s
  | .movk e sl => Sys2Proof.Machine.execMovk e sl s
  | .ld e sl => Sys2Proof.Machine.execLd e sl s
  | .st e sl => Sys2Proof.Machine.execSt e sl s
  | .ldw e sl => Sys2Proof.Machine.execLdw e sl s
  | .stw e sl => Sys2Proof.Machine.execStw e sl s
  | .loadDataReturn e sl ix => Sys2Proof.Machine.execLoadDataReturn e sl ix s
  | .beq e sl => Sys2Proof.Machine.execBeq e sl s
  | .bne e sl => Sys2Proof.Machine.execBne e sl s
  | .blt e sl => Sys2Proof.Machine.execBlt e sl s
  | .bge e sl => Sys2Proof.Machine.execBge e sl s
  | .bltu e sl => Sys2Proof.Machine.execBltu e sl s
  | .jmp e sl => Sys2Proof.Machine.execJmp e sl s
  | .jr e sl => Sys2Proof.Machine.execJr e sl s
  | .mpass e sl => Sys2Proof.Machine.execMpass e sl s
  | .strm e sl => Sys2Proof.Machine.execStrm e sl s
  | .swait e sl => Sys2Proof.Machine.execSwait e sl s
  | .fence e sl => Sys2Proof.Machine.execFence e sl s
  | .vlaunch e sl => Sys2Proof.Machine.execVlaunch e sl s
  | .vwait e sl => Sys2Proof.Machine.execVwait e sl s
  | .gsig e sl => Sys2Proof.Machine.execGsig e sl s
  | .gwait e sl => Sys2Proof.Machine.execGwait e sl s
  | .gwaitReturn e sl => Sys2Proof.Machine.execGwaitReturn e sl s
  | .gset e sl => Sys2Proof.Machine.execGset e sl s
  | .grd e sl => Sys2Proof.Machine.execGrd e sl s
  | .rddt e sl => Sys2Proof.Machine.execRddt e sl s
  | .rdsr e sl => Sys2Proof.Machine.execRdsr e sl s
  | .plrd e sl => Sys2Proof.Machine.execPlrd e sl s
  | .yield e sl => Sys2Proof.Machine.execYield e sl s
  | .halt e sl => Sys2Proof.Machine.execHalt e sl s
  | .slotHalted e sl => Sys2Proof.Machine.execSlotHalted e sl s
  | .streamDescriptorStart e se => Sys2Proof.Machine.execStreamDescriptorStart e se s
  | .streamDescriptorComplete e se => Sys2Proof.Machine.execStreamDescriptorComplete e se s
  | .passIssue e => Sys2Proof.Machine.execPassIssue e s
  | .drainStart e faults => Sys2Proof.Machine.execDrainStart e faults s
  | .verdict e => Sys2Proof.Machine.execVerdict e s
  | .release e => Sys2Proof.Machine.execRelease e s
  | .replay e => Sys2Proof.Machine.execReplay e s
  | .partnerRun e faults => Sys2Proof.Machine.execPartnerRun e faults s
  | .lineRemap e tests => Sys2Proof.Machine.execLineRemap e tests s
  | .passPreempt e groups => Sys2Proof.Machine.execPassPreempt e groups s
  | .passResume e bank => Sys2Proof.Machine.execPassResume e bank s
  | .vtNop e => Sys2Proof.Machine.execVtNop e s
  | .vld e => Sys2Proof.Machine.execVld e s
  | .vlds e => Sys2Proof.Machine.execVlds e s
  | .vst e => Sys2Proof.Machine.execVst e s
  | .vstm e => Sys2Proof.Machine.execVstm e s
  | .sld e => Sys2Proof.Machine.execSld e s
  | .sst e => Sys2Proof.Machine.execSst e s
  | .amov e => Sys2Proof.Machine.execAmov e s
  | .aget e => Sys2Proof.Machine.execAget e s
  | .vadd e => Sys2Proof.Machine.execVadd e s
  | .vsub e => Sys2Proof.Machine.execVsub e s
  | .vmax e => Sys2Proof.Machine.execVmax e s
  | .vmin e => Sys2Proof.Machine.execVmin e s
  | .vand e => Sys2Proof.Machine.execVand e s
  | .vor e => Sys2Proof.Machine.execVor e s
  | .vxor e => Sys2Proof.Machine.execVxor e s
  | .vshl e => Sys2Proof.Machine.execVshl e s
  | .vshr e => Sys2Proof.Machine.execVshr e s
  | .vcmp e => Sys2Proof.Machine.execVcmp e s
  | .vsel e => Sys2Proof.Machine.execVsel e s
  | .vbcst e => Sys2Proof.Machine.execVbcst e s
  | .vperm e => Sys2Proof.Machine.execVperm e s
  | .vextr e => Sys2Proof.Machine.execVextr e s
  | .vcvt e => Sys2Proof.Machine.execVcvt e s
  | .vmaxi e => Sys2Proof.Machine.execVmaxi e s
  | .vmini e => Sys2Proof.Machine.execVmini e s
  | .smaxi e => Sys2Proof.Machine.execSmaxi e s
  | .smini e => Sys2Proof.Machine.execSmini e s
  | .vtopk e => Sys2Proof.Machine.execVtopk e s
  | .sadd e => Sys2Proof.Machine.execSadd e s
  | .ssub e => Sys2Proof.Machine.execSsub e s
  | .smul e => Sys2Proof.Machine.execSmul e s
  | .smovi e => Sys2Proof.Machine.execSmovi e s
  | .slui e => Sys2Proof.Machine.execSlui e s
  | .br e => Sys2Proof.Machine.execBr e s
  | .varm e => Sys2Proof.Machine.execVarm e s
  | .vdisarm e => Sys2Proof.Machine.execVdisarm e s
  | .vreti e => Sys2Proof.Machine.execVreti e s
  | .vsig e => Sys2Proof.Machine.execVsig e s
  | .vsrrd e => Sys2Proof.Machine.execVsrrd e s
  | .vsrwr e => Sys2Proof.Machine.execVsrwr e s
  | .vflags e => Sys2Proof.Machine.execVflags e s
  | .vmul e => Sys2Proof.Machine.execVmul e s
  | .vfma e => Sys2Proof.Machine.execVfma e s
  | .vfms e => Sys2Proof.Machine.execVfms e s
  | .vfnma e => Sys2Proof.Machine.execVfnma e s
  | .vdot2 e => Sys2Proof.Machine.execVdot2 e s
  | .vrsum e => Sys2Proof.Machine.execVrsum e s
  | .vexp2 e => Sys2Proof.Machine.execVexp2 e s
  | .vlog2 e => Sys2Proof.Machine.execVlog2 e s
  | .vrcp e => Sys2Proof.Machine.execVrcp e s
  | .vrsqrt e => Sys2Proof.Machine.execVrsqrt e s
  | .vsilu e => Sys2Proof.Machine.execVsilu e s
  | .vgelu e => Sys2Proof.Machine.execVgelu e s
  | .verf e => Sys2Proof.Machine.execVerf e s
  | .resultLand e => Sys2Proof.Machine.execResultLand e s
  | .threadEnd e => Sys2Proof.Machine.execThreadEnd e s
  | .threadSwitch e => Sys2Proof.Machine.execThreadSwitch e s
  | .bankDrained e bank => Sys2Proof.Machine.execBankDrained e bank s
  | .gateHandlerEntry e => Sys2Proof.Machine.execGateHandlerEntry e s
  | .gateSignalArrival e ix => Sys2Proof.Machine.execGateSignalArrival e ix s
  | .nop q => Sys2Proof.Machine.execNop q s
  | .partConfig q => Sys2Proof.Machine.execPartConfig q s
  | .partGrant q => Sys2Proof.Machine.execPartGrant q s
  | .partRegulate q => Sys2Proof.Machine.execPartRegulate q s
  | .regRead q => Sys2Proof.Machine.execRegRead q s
  | .regWrite q => Sys2Proof.Machine.execRegWrite q s
  | .hbmRegion q => Sys2Proof.Machine.execHbmRegion q s
  | .rekey q => Sys2Proof.Machine.execRekey q s
  | .retire q => Sys2Proof.Machine.execRetire q s
  | .fwPatch q => Sys2Proof.Machine.execFwPatch q s
  | .fwImage q => Sys2Proof.Machine.execFwImage q s
  | .dump q => Sys2Proof.Machine.execDump q s
  | .reset q => Sys2Proof.Machine.execReset q s
  | .queueCreate q => Sys2Proof.Machine.execQueueCreate q s
  | .queueDelete q => Sys2Proof.Machine.execQueueDelete q s
  | .ctxCreate q => Sys2Proof.Machine.execCtxCreate q s
  | .ctxConfig q => Sys2Proof.Machine.execCtxConfig q s
  | .ctxTeardown q => Sys2Proof.Machine.execCtxTeardown q s
  | .ctxPlace q => Sys2Proof.Machine.execCtxPlace q s
  | .ctxUnplace q => Sys2Proof.Machine.execCtxUnplace q s
  | .imemWrite q => Sys2Proof.Machine.execImemWrite q s
  | .run q => Sys2Proof.Machine.execRun q s
  | .chain q => Sys2Proof.Machine.execChain q s
  | .convert q => Sys2Proof.Machine.execConvert q s
  | .copy q => Sys2Proof.Machine.execCopy q s
  | .pageMove q => Sys2Proof.Machine.execPageMove q s
  | .xlateInval q => Sys2Proof.Machine.execXlateInval q s
  | .gateSignal q => Sys2Proof.Machine.execGateSignal q s
  | .stotDiscard q => Sys2Proof.Machine.execStotDiscard q s
  | .freeze q => Sys2Proof.Machine.execFreeze q s
  | .unfreeze q => Sys2Proof.Machine.execUnfreeze q s
  | .peerSet q => Sys2Proof.Machine.execPeerSet q s
  | .peerClear q => Sys2Proof.Machine.execPeerClear q s
  | .peerClearTimeout ent => Sys2Proof.Machine.execPeerClearTimeout ent s
  | .fabLoad q => Sys2Proof.Machine.execFabLoad q s
  | .fabBlank q => Sys2Proof.Machine.execFabBlank q s
  | .commandStart id => Sys2Proof.Machine.execCommandStart id s
  | .completionRecordWrite q => Sys2Proof.Machine.execCompletionRecordWrite q s
  | .eventRecord p => Sys2Proof.Machine.execEventRecord p s
  | .frameReceive port sub f => Sys2Proof.Machine.execFrameReceive port sub f s
  | .write ent => Sys2Proof.Machine.execWrite ent s
  | .read ent => Sys2Proof.Machine.execRead ent s
  | .readResp ent => Sys2Proof.Machine.execReadResp ent s
  | .doorbell ent => Sys2Proof.Machine.execDoorbell ent s
  | .gateSignalMessage ent => Sys2Proof.Machine.execGateSignalMessage ent s
  | .stot ent => Sys2Proof.Machine.execStot ent s
  | .ack ent => Sys2Proof.Machine.execAck ent s
  | .ackTimer ent => Sys2Proof.Machine.execAckTimer ent s
  | .notice ent => Sys2Proof.Machine.execNotice ent s
  | .probe ent => Sys2Proof.Machine.execProbe ent s
  | .packetTransmit ent => Sys2Proof.Machine.execPacketTransmit ent s
  | .retransmissionTimer ent seq => Sys2Proof.Machine.execRetransmissionTimer ent seq s
  | .hello part => Sys2Proof.Machine.execHello part s
  | .finish part => Sys2Proof.Machine.execFinish part s
  | .attestReq part => Sys2Proof.Machine.execAttestReq part s
  | .certsReq part => Sys2Proof.Machine.execCertsReq part s
  | .unlock part => Sys2Proof.Machine.execUnlock part s
  | .ptpHoldover => Sys2Proof.Machine.execPtpHoldover s
  | .autoNegotiation port sub media => Sys2Proof.Machine.execAutoNegotiation port sub media s
  | .linkTraining port sub => Sys2Proof.Machine.execLinkTraining port sub s
  | .maxWaitTimer port sub => Sys2Proof.Machine.execMaxWaitTimer port sub s
  | .pcsAlignment port sub => Sys2Proof.Machine.execPcsAlignment port sub s
  | .alignmentTimeout port sub => Sys2Proof.Machine.execAlignmentTimeout port sub s
  | .fecWindow port sub corr uc => Sys2Proof.Machine.execFecWindow port sub corr uc s
  | .lossOfLink port sub => Sys2Proof.Machine.execLossOfLink port sub s
  | .holdOffExpiry port sub => Sys2Proof.Machine.execHoldOffExpiry port sub s
  | .pfcQuantaExpiry port sub prio => Sys2Proof.Machine.execPfcQuantaExpiry port sub prio s
  | .eyeScanStart l => Sys2Proof.Machine.execEyeScanStart l s
  | .eyeScanDone l hl hr vu vd eye => Sys2Proof.Machine.execEyeScanDone l hl hr vu vd eye s
  | .cxlDetect port found => Sys2Proof.Machine.execCxlDetect port found s
  | .cxlBringUp port dev => Sys2Proof.Machine.execCxlBringUp port dev s
  | .cxlLinkDown port => Sys2Proof.Machine.execCxlLinkDown port s
  | .cxlMedia port => Sys2Proof.Machine.execCxlMedia port s
  | .cxlHotAttach port dev => Sys2Proof.Machine.execCxlHotAttach port dev s
  | .creditRequest src dst => Sys2Proof.Machine.execCreditRequest src dst s
  | .creditGrant dst => Sys2Proof.Machine.execCreditGrant dst s
  | .packetInject r => Sys2Proof.Machine.execPacketInject r s
  | .packetEject ix => Sys2Proof.Machine.execPacketEject ix s
  | .partitionGrantReturn src part kind => Sys2Proof.Machine.execPartitionGrantReturn src part kind s
  | .islandWake ix => Sys2Proof.Machine.execIslandWake ix s
  | .fabricPortRequest p r tid => Sys2Proof.Machine.execFabricPortRequest p r tid s
  | .fabricPortTimeout ix => Sys2Proof.Machine.execFabricPortTimeout ix s
  | .regionRelease f => Sys2Proof.Machine.execRegionRelease f s
  | .loadSegment die => Sys2Proof.Machine.execLoadSegment die s
  | .regionBlanking f => Sys2Proof.Machine.execRegionBlanking f s
  | .readback faddr => Sys2Proof.Machine.execReadback faddr s
  | .readbackDone => Sys2Proof.Machine.execReadbackDone s
  | .bbramCommit => Sys2Proof.Machine.execBbramCommit s
  | .bbramErase => Sys2Proof.Machine.execBbramErase s
  | .browseFrame u flips => Sys2Proof.Machine.execBrowseFrame u flips s
  | .browseWriteback u flips => Sys2Proof.Machine.execBrowseWriteback u flips s
  | .browseWatchdog u => Sys2Proof.Machine.execBrowseWatchdog u s
  | .queueProcessorPatch => Sys2Proof.Machine.execQueueProcessorPatch s
  | .dcWatchdog => Sys2Proof.Machine.execDcWatchdog s
  | .dcMemoryError => Sys2Proof.Machine.execDcMemoryError s
  | .dcSelfTest pass => Sys2Proof.Machine.execDcSelfTest pass s
  | .hbmSkewSampleExpiry pc occ sum counts => Sys2Proof.Machine.execHbmSkewSampleExpiry pc occ sum counts s
  | .softRepair pc bank row left => Sys2Proof.Machine.execSoftRepair pc bank row left s
  | .hbmPcRetire pc => Sys2Proof.Machine.execHbmPcRetire pc s
  | .migrationChunk e => Sys2Proof.Machine.execMigrationChunk e s
  | .refresh ch rank sub bank => Sys2Proof.Machine.execRefresh ch rank sub bank s
  | .mr4Poll ch rank fast => Sys2Proof.Machine.execMr4Poll ch rank fast s
  | .targetedRefresh ch rank sub bank => Sys2Proof.Machine.execTargetedRefresh ch rank sub bank s
  | .rowDisturbanceWindow ch => Sys2Proof.Machine.execRowDisturbanceWindow ch s
  | .actStorm ch rank sub bank => Sys2Proof.Machine.execActStorm ch rank sub bank s
  | .ddrSkew ch rank sub bank occ sum => Sys2Proof.Machine.execDdrSkew ch rank sub bank occ sum s
  | .dqsTracking ch => Sys2Proof.Machine.execDqsTracking ch s
  | .frequencyChange ch => Sys2Proof.Machine.execFrequencyChange ch s
  | .rankRetire ch rank parity copy => Sys2Proof.Machine.execRankRetire ch rank parity copy s
  | .selfRefreshEntry ch => Sys2Proof.Machine.execSelfRefreshEntry ch s
  | .selfRefreshExit ch => Sys2Proof.Machine.execSelfRefreshExit ch s
  | .lowTimingSetEntry ch => Sys2Proof.Machine.execLowTimingSetEntry ch s
  | .lowTimingSetExit ch => Sys2Proof.Machine.execLowTimingSetExit ch s
  | .engineClockGate e => Sys2Proof.Machine.execEngineClockGate e s
  | .herdRetention h => Sys2Proof.Machine.execHerdRetention h s
  | .routerClockGate ix => Sys2Proof.Machine.execRouterClockGate ix s
  | .governorUpdate g => Sys2Proof.Machine.execGovernorUpdate g s
  | .governorCalibration est => Sys2Proof.Machine.execGovernorCalibration est s
  | .capmiss => Sys2Proof.Machine.execCapmiss s
  | .temperatureAlert => Sys2Proof.Machine.execTemperatureAlert s
  | .thermalTrip => Sys2Proof.Machine.execThermalTrip s
  | .dimmTemperatureRead temps => Sys2Proof.Machine.execDimmTemperatureRead temps s
  | .pmbusTelemetry rails => Sys2Proof.Machine.execPmbusTelemetry rails s
  | .pmbusAlert rails => Sys2Proof.Machine.execPmbusAlert rails s
  | .engineWatchdog e => Sys2Proof.Machine.execEngineWatchdog e s
  | .streamWatchdog e se => Sys2Proof.Machine.execStreamWatchdog e se s
  | .queueWatchdog p => Sys2Proof.Machine.execQueueWatchdog p s
  | .suspectReplay e pass => Sys2Proof.Machine.execSuspectReplay e pass s
  | .quiesceFence c => Sys2Proof.Machine.execQuiesceFence c s
  | .teardownTimeout c => Sys2Proof.Machine.execTeardownTimeout c s
  | .dumpCollect => Sys2Proof.Machine.execDumpCollect s
  | .dumpAccessTimeout => Sys2Proof.Machine.execDumpAccessTimeout s
  | .dumpSend => Sys2Proof.Machine.execDumpSend s
  | .engineRetirement e lost => Sys2Proof.Machine.execEngineRetirement e lost s
  | .healthRecordWrite => Sys2Proof.Machine.execHealthRecordWrite s
  | .mtCkstatClear e => Sys2Proof.Machine.execMtCkstatClear e s
  | .hbmEccClear => Sys2Proof.Machine.execHbmEccClear s
  | .ddrEccClear ch => Sys2Proof.Machine.execDdrEccClear ch s
  | .ethFecClear port sub => Sys2Proof.Machine.execEthFecClear port sub s
  | .cxlErrClear port => Sys2Proof.Machine.execCxlErrClear port s
  | .nocPrbctlClear p => Sys2Proof.Machine.execNocPrbctlClear p s
  | .nocTrctlClear b => Sys2Proof.Machine.execNocTrctlClear b s
  | .brwCntClear u => Sys2Proof.Machine.execBrwCntClear u s
  | .registerWrite off v => Sys2Proof.Machine.execRegisterWrite off v s
  | .memoryTargetResponse dst ecc => Sys2Proof.Machine.execMemoryTargetResponse dst ecc s
  | .fabricLogicResponse ix data poison => Sys2Proof.Machine.execFabricLogicResponse ix data poison s
  | .revokeZeroing p => Sys2Proof.Machine.execRevokeZeroing p s
  | .localSupplyDroop ix => Sys2Proof.Machine.execLocalSupplyDroop ix s
  | .localSupplyRecovery ix => Sys2Proof.Machine.execLocalSupplyRecovery ix s
  | .votefix u => Sys2Proof.Machine.execVotefix u s
  | .pcieRecovery port replays => Sys2Proof.Machine.execPcieRecovery port replays s
  | .ptpDelayRequest => Sys2Proof.Machine.execPtpDelayRequest s
  | .jtagInstruction ix => Sys2Proof.Machine.execJtagInstruction ix s

end Sys2Proof.Machine
end

