-- ==== Sys2Proof/Machine/Step.lean ====
section
/-! DEFINITION. The step: the command at the front of the queue runs on the state with the queue's rest; on an empty
queue device time goes on. -/

namespace Sys2Proof.Machine

/-- One unit of device time, 250 ps (R11), while the device is out of power-on reset: the clocks of the fabric run on
(R344, R346), the NoC's injection ports try what they hold (R313), and then DT counts. -/
def State.tick (s : State) : State :=
  if s.pwr.up then let t := s.fabTick.portsTick; { t with dt := t.dt + 1 } else s

/-- One step. -/
def step (s : State) : Host.Outcome State Fault Refusal :=
  match s.pending with
  | [] => .next s.tick
  | c :: cs => exec c { s with pending := cs }

/-- The command that a word spells goes to the front of the queue; no row of the table gives its bits, so no word spells
one. -/
def State.withFetchWord (s : State) (nbits w : Nat) : State :=
  match decodeTableWord nbits w with
  | none => s
  | some c => { s with pending := c :: s.pending }

end Sys2Proof.Machine
end

