-- ==== Sys2Proof/WellFormed.lean ====
section
/-! DEFINITION. Which commands and events are well formed: the ranges of their operands, as the rules that name them
give them. An operand whose type is its range needs no check. -/

namespace Sys2Proof

/-- Does a list name nothing twice? -/
def distinct {α : Type} [DecidableEq α] : List α → Bool
  | [] => true
  | x :: xs => !xs.contains x && distinct xs

/-- A regulator's readings, as PWR_RAIL holds them (R402): 12 bits of mV, 12 of 0.1 A, 8 of °C and 16 of STATUS_WORD. -/
def Rail.wf (r : Rail) : Bool :=
  decide (r.vout < 2 ^ 12) && decide (r.iout < 2 ^ 12) && decide (r.temp < 2 ^ 8) && decide (r.status < 2 ^ 16)

/-- What an expander shows (R302, Table 11.6): a width of 1 to 16 lanes, 16-bit identifiers. -/
def CxlDev.wf (d : CxlDev) : Bool :=
  decide (1 ≤ d.width) && decide (d.width ≤ 16) && decide (d.vendor < 2 ^ 16) && decide (d.device < 2 ^ 16)

/-- A frame (R265, R272): IPv4 addresses of 32 bits, IPv6 addresses of 128, ports of 16. -/
def Frame.wf : Frame → Bool
  | .pfc q => distinct (q.map Prod.fst)
  | .arp ip => decide (ip < 2 ^ 32)
  | .nd ip => decide (ip < 2 ^ 128)
  | .echo v6 ip => decide (ip < 2 ^ (if v6 then 128 else 32))
  | .udp v6 _ _ src dst sport dport _ =>
    decide (src < 2 ^ (if v6 then 128 else 32)) && decide (dst < 2 ^ (if v6 then 128 else 32)) &&
      decide (sport < 2 ^ 16) && decide (dport < 2 ^ 16)
  | .bad | .pause | .ptp _ _ | .other => true

/-- What the MAC sees of a frame: a 48-bit address, what the 2 MiB buffer may hold, and a size that has room for the UDP
payload behind its headers and the FCS (R299). -/
def FrameMeta.wf (m : FrameMeta) (f : Frame) : Bool :=
  decide (m.dmac < 2 ^ 48) && decide (m.wait ≤ 2 ^ 21) &&
    (match f with
     | .udp v6 _ _ _ _ _ _ bs =>
       decide ((if v6 then 40 else 20) + 26 + (if m.tag.isSome then 4 else 0) + bs.length ≤ m.size)
     | _ => true)

/-- A request of a region's logic (R342): a 48-bit address, and 1 to 512 bytes that stay inside a 4 KiB page. -/
def FabReq.wf : FabReq → Bool
  | .read a n => decide (a < 2 ^ 48) && decide (0 < n) && decide (n ≤ 512) && decide (a % 4096 + n ≤ 4096)
  | .write a d _ =>
    decide (a < 2 ^ 48) && decide (0 < d.length) && decide (d.length ≤ 512) && decide (a % 4096 + d.length ≤ 4096)
  | .gate _ _ _ => true

/-- Is a command or event well formed? -/
def Instr.wf (i : Instr) : Bool :=
  match i with
  | .bist faults => distinct (faults.map Prod.fst)
  | .ddr5Training dimms failed => decide (dimms.length ≤ 8) && dimms.all (fun d => decide (d.length ≤ 2)) && distinct failed
  | .drainStart _ faults => distinct (faults.map (fun f => (f.1, f.2.1)))
  | .partnerRun _ faults => distinct (faults.map (fun f => (f.1, f.2.1)))
  | .commandStart id => decide (0 < id)
  | .frameReceive _ _ f => f.frame.wf && f.info.wf f.frame
  | .retransmissionTimer _ seq => decide (seq < 2 ^ 33)
  | .cxlBringUp _ dev => dev.wf
  | .cxlHotAttach _ dev => dev.wf
  | .packetInject r => decide (r.addr < 2 ^ 48)
  | .fabricPortRequest _ r _ => r.wf
  | .browseFrame _ flips => distinct flips
  | .browseWriteback _ flips => distinct flips
  | .hbmSkewSampleExpiry _ occ sum counts => decide ((occ : Nat) ≤ sum) && decide (sum ≤ 256 * 64) && distinct (counts.map Prod.fst)
  | .governorUpdate g => decide (g.regions.length ≤ 50)
  | .dimmTemperatureRead temps => decide (temps.length ≤ 8) && temps.all (fun d => decide (d.length ≤ 2))
  | .pmbusTelemetry rails => decide (rails.length ≤ 9) && rails.all Rail.wf
  | .pmbusAlert rails => decide (rails.length ≤ 9) && rails.all Rail.wf
  | .engineRetirement _ lost => distinct lost
  | .registerWrite off _ => decide (off % 8 = 0) && decide (off < 2 ^ 24)
  | .fabricLogicResponse _ data _ => decide (data.length ≤ 512)
  | .powerOnReset _ | .deviceWarmReset | .railDroop | .powerDown | .bootChain _ | .laneCalibration
  | .hbmTraining | .hbmZeroing | .enginesIntoService | .bootFabricLoad | .ethernetBringUp | .ddr5Zeroing
  | .cxlZeroing _ | .esNop _ _ | .add _ _ | .sub _ _ | .and _ _ | .or _ _ | .xor _ _ | .shl _ _ | .shr _ _
  | .sra _ _ | .slt _ _ | .sltu _ _ | .mul _ _ | .addi _ _ | .andi _ _ | .ori _ _ | .xori _ _ | .shli _ _
  | .shri _ _ | .movi _ _ | .movk _ _ | .ld _ _ | .st _ _ | .ldw _ _ | .stw _ _ | .loadDataReturn _ _ _
  | .beq _ _ | .bne _ _ | .blt _ _ | .bge _ _ | .bltu _ _ | .jmp _ _ | .jr _ _ | .mpass _ _ | .strm _ _
  | .swait _ _ | .fence _ _ | .vlaunch _ _ | .vwait _ _ | .gsig _ _ | .gwait _ _ | .gwaitReturn _ _ | .gset _ _
  | .grd _ _ | .rddt _ _ | .rdsr _ _ | .plrd _ _ | .yield _ _ | .halt _ _ | .slotHalted _ _
  | .streamDescriptorStart _ _ | .streamDescriptorComplete _ _ | .passIssue _ | .verdict _ | .release _
  | .replay _ | .lineRemap _ _ | .passPreempt _ _ | .passResume _ _ | .vtNop _ | .vld _ | .vlds _ | .vst _
  | .vstm _ | .sld _ | .sst _ | .amov _ | .aget _ | .vadd _ | .vsub _ | .vmax _ | .vmin _ | .vand _ | .vor _
  | .vxor _ | .vshl _ | .vshr _ | .vcmp _ | .vsel _ | .vbcst _ | .vperm _ | .vextr _ | .vcvt _ | .vmaxi _
  | .vmini _ | .smaxi _ | .smini _ | .vtopk _ | .sadd _ | .ssub _ | .smul _ | .smovi _ | .slui _ | .br _
  | .varm _ | .vdisarm _ | .vreti _ | .vsig _ | .vsrrd _ | .vsrwr _ | .vflags _ | .vmul _ | .vfma _ | .vfms _
  | .vfnma _ | .vdot2 _ | .vrsum _ | .vexp2 _ | .vlog2 _ | .vrcp _ | .vrsqrt _ | .vsilu _ | .vgelu _ | .verf _
  | .resultLand _ | .threadEnd _ | .threadSwitch _ | .bankDrained _ _ | .gateHandlerEntry _
  | .gateSignalArrival _ _ | .nop _ | .partConfig _ | .partGrant _ | .partRegulate _ | .regRead _ | .regWrite _
  | .hbmRegion _ | .rekey _ | .retire _ | .fwPatch _ | .fwImage _ | .dump _ | .reset _ | .queueCreate _
  | .queueDelete _ | .ctxCreate _ | .ctxConfig _ | .ctxTeardown _ | .ctxPlace _ | .ctxUnplace _ | .imemWrite _
  | .run _ | .chain _ | .convert _ | .copy _ | .pageMove _ | .xlateInval _ | .gateSignal _ | .stotDiscard _
  | .freeze _ | .unfreeze _ | .peerSet _ | .peerClear _ | .peerClearTimeout _ | .fabLoad _ | .fabBlank _
  | .completionRecordWrite _ | .eventRecord _ | .write _ | .read _ | .readResp _ | .doorbell _
  | .gateSignalMessage _ | .stot _ | .ack _ | .ackTimer _ | .notice _ | .probe _ | .packetTransmit _ | .hello _
  | .finish _ | .attestReq _ | .certsReq _ | .unlock _ | .ptpHoldover | .autoNegotiation _ _ _
  | .linkTraining _ _ | .maxWaitTimer _ _ | .pcsAlignment _ _ | .alignmentTimeout _ _ | .fecWindow _ _ _ _
  | .lossOfLink _ _ | .holdOffExpiry _ _ | .pfcQuantaExpiry _ _ _ | .eyeScanStart _ | .eyeScanDone _ _ _ _ _ _
  | .cxlDetect _ _ | .cxlLinkDown _ | .cxlMedia _ | .creditRequest _ _ | .creditGrant _ | .packetEject _
  | .partitionGrantReturn _ _ _ | .islandWake _ | .fabricPortTimeout _ | .regionRelease _ | .loadSegment _
  | .regionBlanking _ | .readback _ | .readbackDone | .bbramCommit | .bbramErase | .browseWatchdog _
  | .queueProcessorPatch | .dcWatchdog | .dcMemoryError | .dcSelfTest _ | .softRepair _ _ _ _ | .hbmPcRetire _
  | .migrationChunk _ | .ddrSkew _ _ _ _ _ _ | .refresh _ _ _ _ | .mr4Poll _ _ _ | .targetedRefresh _ _ _ _ | .rowDisturbanceWindow _
  | .actStorm _ _ _ _ | .dqsTracking _ | .frequencyChange _ | .rankRetire _ _ _ _ | .selfRefreshEntry _
  | .selfRefreshExit _ | .lowTimingSetEntry _ | .lowTimingSetExit _ | .engineClockGate _ | .herdRetention _
  | .routerClockGate _ | .governorCalibration _ | .capmiss | .temperatureAlert | .thermalTrip
  | .engineWatchdog _ | .streamWatchdog _ _ | .queueWatchdog _ | .suspectReplay _ _ | .quiesceFence _
  | .teardownTimeout _ | .dumpCollect | .dumpAccessTimeout | .dumpSend | .healthRecordWrite | .mtCkstatClear _
  | .hbmEccClear | .ddrEccClear _ | .ethFecClear _ _ | .cxlErrClear _ | .nocPrbctlClear _ | .nocTrctlClear _
  | .brwCntClear _ | .memoryTargetResponse _ _ | .revokeZeroing _ | .localSupplyDroop _
  | .localSupplyRecovery _ | .votefix _ | .pcieRecovery _ _ | .ptpDelayRequest | .jtagInstruction _ => true

end Sys2Proof
end

