-- ==== Sys2Proof/Safety.lean ====
section
/-! DEFINITION. The terms that claims are stated in: what a run must not do, what a command leaves unchanged, and which
row of the table stands for which operation. -/

namespace Sys2Proof.Machine

/-! ### Safe states -/

/-- Memory and the poison marks are in canonical form: equal contents are equal data. -/
def State.memoryOk (s : State) : Prop := Memory.wf s.mem = true ∧ twf false s.poison = true

/-- A step is safe where it answers a next state. -/
def State.stepsOn (s : State) : Prop := ∃ t, step s = .next t

/-! ### The sequencer -/

/-- Slot k of engine n issues instruction i: it is the slot that R124 chooses, and i is what it fetches. -/
def State.issues (s : State) (n k : Nat) (i : EsInsn) : Prop := s.chosen n = some k ∧ s.fetch n k = .ok i

/-- What an instruction of slot k of engine n that acts on its own slot alone leaves unchanged: every other engine,
every other slot, the engine beyond its slots and its issue books, every register of the P1 but ES_INSNS, every byte of
memory, and the rest of the state. -/
structure EsFrame (s t : State) (n k : Nat) : Prop where
  rest : { t with engs := s.engs, regs := s.regs } = s
  others : ∀ m, m ≠ n → t.eng m = s.eng m
  slots : ∀ j, j ≠ k → t.slot n j = s.slot n j
  engine : { t.eng n with slots := (s.eng n).slots, last := (s.eng n).last, runLen := (s.eng n).runLen,
                          yielded := (s.eng n).yielded, esActive := (s.eng n).esActive } = s.eng n
  regs : ∀ o, o ≠ rEsInsns n → t.reg o = s.reg o
  insns : t.reg (rEsInsns n) = s.reg (rEsInsns n) + 1
  bytes : ∀ a, t.byte a = s.byte a

/-- The same of one slot: all but Xd and the PC. -/
structure SlotFrame (x y : Slot) (d : BitVec 5) : Prop where
  others : ∀ r, r ≠ d → y.x r = x.x r
  zero : y.x 0 = 0
  rest : { y with xs := x.xs, pc := x.pc } = x

/-- Command c completes as an instruction of slot sl of engine e that goes on with the next one and leaves v in Xd: all
else of the slot and of the P1 is as it was. -/
def State.writesX (s : State) (c : Instr) (e : Fin 64) (sl : Fin 8) (d : BitVec 5) (v : W64) : Prop :=
  ∃ t, exec c s = .next t ∧ EsFrame s t e sl ∧ SlotFrame (s.slot e sl) (t.slot e sl) d ∧
    (t.slot e sl).pc = (s.slot e sl).pc + 1 ∧ (d ≠ 0 → (t.slot e sl).x d = v)

/-- Command c completes as an instruction of slot sl of engine e that changes the PC and the link register alone: the PC
becomes p, and Xd the index after the instruction. -/
def State.jumps (s : State) (c : Instr) (e : Fin 64) (sl : Fin 8) (d : BitVec 5) (p : Nat) : Prop :=
  ∃ t, exec c s = .next t ∧ EsFrame s t e sl ∧ SlotFrame (s.slot e sl) (t.slot e sl) d ∧ (t.slot e sl).pc = p ∧
    (d ≠ 0 → (t.slot e sl).x d = BitVec.ofNat 64 ((s.slot e sl).pc + 1))

/-- The row of an operation of opcode 0x01. -/
def aluRow (f : Alu) (e : Fin 64) (sl : Fin 8) : Instr :=
  match f with
  | .add => .add e sl | .sub => .sub e sl | .and => .and e sl | .or => .or e sl | .xor => .xor e sl
  | .shl => .shl e sl | .shr => .shr e sl | .sra => .sra e sl | .slt => .slt e sl | .sltu => .sltu e sl
  | .mul => .mul e sl

/-- The row of an operation with a 16-bit immediate. -/
def immRow (f : ImmOp) (e : Fin 64) (sl : Fin 8) : Instr :=
  match f with
  | .addi => .addi e sl | .andi => .andi e sl | .ori => .ori e sl | .xori => .xori e sl

/-- The row of a conditional branch. -/
def brRow (f : BrOp) (e : Fin 64) (sl : Fin 8) : Instr :=
  match f with
  | .beq => .beq e sl | .bne => .bne e sl | .blt => .blt e sl | .bge => .bge e sl | .bltu => .bltu e sl

/-- The row of an instruction. -/
def esRow (i : EsInsn) (e : Fin 64) (sl : Fin 8) : Instr :=
  match i with
  | .nop => .esNop e sl
  | .alu f _ _ _ => aluRow f e sl
  | .imm f _ _ _ => immRow f e sl
  | .shi r _ _ _ => if r then .shri e sl else .shli e sl
  | .movi _ _ => .movi e sl
  | .movk _ _ _ => .movk e sl
  | .mem f _ _ _ => match f with | .ld => .ld e sl | .st => .st e sl | .ldw => .ldw e sl | .stw => .stw e sl
  | .br f _ _ _ => brRow f e sl
  | .jmp _ _ => .jmp e sl
  | .jr _ _ => .jr e sl
  | .mpass _ => .mpass e sl
  | .strm _ _ => .strm e sl
  | .swait _ => .swait e sl
  | .fence => .fence e sl
  | .vlaunch _ _ _ => .vlaunch e sl
  | .vwait => .vwait e sl
  | .gsig _ _ => .gsig e sl
  | .gwait _ _ _ => .gwait e sl
  | .gset _ _ => .gset e sl
  | .grd _ _ => .grd e sl
  | .rddt _ => .rddt e sl
  | .rdsr _ _ => .rdsr e sl
  | .plrd _ _ _ => .plrd e sl
  | .yield => .yield e sl
  | .halt => .halt e sl

/-! ### The vector tile -/

/-- The state in which a bundle of engine n executes: the results that are due have landed (R90). -/
def State.landed (s : State) (n : Nat) : State :=
  s.updEng n (fun e => (e.landDue (1 - (s.eng n).active) e.tc).landDue (s.eng n).active e.tc)

/-- The active bank of engine n. -/
def State.actBank (s : State) (n : Nat) : Bank := (s.eng n).bank (s.eng n).active

/-- Engine n executes bundle u: its vector tile is ready, u is what its active bank fetches, and Table 4.9 has no
fault for it. -/
def State.executes (s : State) (n : Nat) (u : Bundle) : Prop :=
  s.vtReady n = true ∧ (s.landed n).vtFetch n ((s.landed n).actBank n) = some u ∧
    (s.landed n).bundleFault n ((s.landed n).actBank n) u = none

/-- What a bundle of engine n reads beside its bank. -/
def State.vtIn (s : State) (n : Nat) : VIn :=
  let b := s.actBank n
  { pc := b.pc, ftz := s.fld (rVtCtl n b.slot) 0 1 == 1, srm := (s.reg (rVtSrm n b.slot)).toNat,
    srv := (s.reg (rVtSrv n b.slot)).toNat, flags := s.fld (rVtFlags n b.slot) 0 4, free := s.free }

/-- A result is on its way to a target of the bank that executed the bundle, `lat` tc after its issue. -/
def State.inFlight (s t : State) (n lat : Nat) (x : VTarget) : Prop :=
  (⟨(s.eng n).tc + lat, x⟩ : Pend) ∈ ((t.eng n).bank (s.eng n).active).pend

/-- The row of a slot operation. -/
def vtRow (o : VOp) (e : Fin 64) : Instr :=
  match o with
  | .nop => .vtNop e
  | .vld => .vld e | .vlds => .vlds e | .vst => .vst e | .vstm => .vstm e | .sld => .sld e | .sst => .sst e
  | .amov => .amov e | .aget => .aget e
  | .vadd => .vadd e | .vsub => .vsub e | .vmax => .vmax e | .vmin => .vmin e | .vand => .vand e | .vor => .vor e
  | .vxor => .vxor e | .vshl => .vshl e | .vshr => .vshr e | .vcmp => .vcmp e | .vsel => .vsel e
  | .vbcst => .vbcst e | .vperm => .vperm e | .vextr => .vextr e | .vcvt => .vcvt e
  | .vmaxi => .vmaxi e | .vmini => .vmini e | .smaxi => .smaxi e | .smini => .smini e | .vtopk => .vtopk e
  | .sadd => .sadd e | .ssub => .ssub e | .smul => .smul e | .smovi => .smovi e | .slui => .slui e | .br => .br e
  | .varm => .varm e | .vdisarm => .vdisarm e | .vreti => .vreti e | .vsig => .vsig e
  | .vsrrd => .vsrrd e | .vsrwr => .vsrwr e | .vflags => .vflags e
  | .vmul => .vmul e | .vfma => .vfma e | .vfms => .vfms e | .vfnma => .vfnma e | .vdot2 => .vdot2 e
  | .vrsum => .vrsum e | .vexp2 => .vexp2 e | .vlog2 => .vlog2 e | .vrcp => .vrcp e | .vrsqrt => .vrsqrt e
  | .vsilu => .vsilu e | .vgelu => .vgelu e | .verf => .verf e

/-! ### Commands of the queues -/

/-- The command that the entry at the head of queue q gives row r, with the engines it needs. -/
def State.taken (s : State) (r : CmdRow) (q : Nat) : Cmd :=
  { s.readEntry q with engines := r.seats (s.passEntry q) (s.readEntry q) }

/-- The state in which that command is accepted and not started. -/
def State.queued (s : State) (r : CmdRow) (q : Nat) : State :=
  let p := s.passEntry q
  { p with cmds := p.cmds ++ [s.taken r q], nextCmd := p.nextCmd + 1 }

/-- The queue processor takes the entry of queue q for row r, and nothing holds or refuses it (R239, R243, R245). -/
def State.starts (s : State) (r : CmdRow) (q : Nat) : Prop :=
  s.mayServe q = true ∧ (s.readEntry q).opcode = r.op ∧
    (s.passEntry q).entryStatus r (s.readEntry q) (s.entryPoison q) = (0, false) ∧
    (s.queued r q).mustHold r (s.taken r q) = false

/-- The command that runs then. -/
def State.runningCmd (s : State) (r : CmdRow) (q : Nat) : Cmd :=
  { s.taken r q with st := .running, started := true, start := s.dt, engines := r.seats (s.queued r q) (s.taken r q) }

/-- The state in which its work begins: HEAD has passed the entry, and the command is among those that run. -/
def State.running (s : State) (r : CmdRow) (q : Nat) : State :=
  (s.queued r q).updCmd (s.taken r q).id (fun _ => s.runningCmd r q)

/-- The rows of Table 9.3 with their commands. -/
def queueRows : List (CmdRow × (Fin 16384 → Instr)) :=
  [(nopRow, .nop), (partConfigRow, .partConfig), (partGrantRow, .partGrant), (partRegulateRow, .partRegulate),
   (regReadRow, .regRead), (regWriteRow, .regWrite), (hbmRegionRow, .hbmRegion), (rekeyRow, .rekey),
   (retireRow, .retire), (fwPatchRow, .fwPatch), (fwImageRow, .fwImage), (dumpRow, .dump), (resetRow, .reset),
   (queueCreateRow, .queueCreate), (queueDeleteRow, .queueDelete), (ctxCreateRow, .ctxCreate),
   (ctxConfigRow, .ctxConfig), (ctxTeardownRow, .ctxTeardown), (ctxPlaceRow, .ctxPlace),
   (ctxUnplaceRow, .ctxUnplace), (imemWriteRow, .imemWrite), (runRow, .run), (chainRow, .chain),
   (convertRow, .convert), (copyRow, .copy), (pageMoveRow, .pageMove), (xlateInvalRow, .xlateInval),
   (gateSignalRow, .gateSignal), (stotDiscardRow, .stotDiscard), (freezeRow, .freeze), (unfreezeRow, .unfreeze),
   (peerSetRow, .peerSet), (peerClearRow, .peerClear), (fabLoadRow, .fabLoad), (fabBlankRow, .fabBlank)]

/-- The command of row r that queue q gives in s is finished in t with a status: its record waits to be written. -/
def State.finishes (s t : State) (q st : Nat) : Prop :=
  ∃ d ∈ (t.queue q).recs, d.id = s.nextCmd ∧ d.status = st ∧ d.accept = s.dt ∧ d.start = s.dt ∧ d.fin = s.dt

/-- The command that queue q gives in s runs on in t. -/
def State.keepsRunning (s t : State) (q : Nat) : Prop := ∃ d ∈ t.cmds, d.id = s.nextCmd ∧ d.q = q ∧ d.st = .running

/-- A write of bytes to host address a is among the packets for the host of partition p. -/
def State.toHost (t : State) (p a : Nat) (bs : List Byte) : Prop :=
  ∃ x ∈ (t.ent (hostEnt p)).tx, x.p.kind = 1 ∧ x.p.arg = a ∧ x.p.body = bs

/-- An event waits to be written for partition p. -/
def State.told (t : State) (p code : Nat) : Prop := ∃ v ∈ (t.part p).events, v.code = code ∧ v.dt = t.dt

/-! ### Coroc packets -/

/-- The row that delivers a packet of an entry, by its kind. -/
def pktRow (p : Pkt) (i : Fin 16392) : Option Instr :=
  if p.kind = 1 then some (.write i)
  else if p.kind = 2 then some (.read i)
  else if p.kind = 3 then some (.readResp i)
  else if p.kind = 5 then some (.stot i)
  else if p.kind ≠ 4 then none
  else if p.arg = 1 then some (.gateSignalMessage i)
  else if p.arg = 0 ∨ p.strayMsg i = true then some (.doorbell i)
  else none

/-- p is the packet that entry i delivers next: it heads the reorder buffer in SEQ order, those of the EPOCH before first, the entry is set, and no page
that it addresses, or that the reduction it completes is written to, is being moved. -/
def State.delivers (s : State) (i : Nat) (p : Pkt) : Prop :=
  (s.ent i).due = some p ∧ s.runs = true ∧ s.entState i ≠ 0 ∧
    (p.toCtx && s.anyMoving p.tctx (spanFrom p.arg (max 1 p.body.length))) = false ∧ s.stotWaits i = false

/-- Checks 2 and 3 of Table 10.6 fail on it: a notice names its tag, or TCTX has gone. -/
def State.stalePkt (s : State) (i : Nat) (p : Pkt) : Bool :=
  (s.ent i).dueDrops.any (fun n => n.ctx == p.sctx && n.gen == p.sgen && !passed n.last p.seq) ||
    (p.toCtx && !s.ctxCurrent i p)

/-- In t the packet is refused with a status, which an ACK of entry i is to report. -/
def State.refusedWith (t : State) (i : Nat) (p : Pkt) (st : Nat) : Prop :=
  (p.seq, st) ∈ (t.ent i).refused ∧ 0 < (t.ent i).unacked

/-- In t entry i is frozen for a packet, and its partition is told; HP0's host entry refuses the packet and goes on. -/
def State.violated (s t : State) (i : Nat) (p : Pkt) (st : Nat) : Prop :=
  if i = hostEnt 0 then t.refusedWith i p st ∧ t.entState i = s.entState i
  else t.refusedWith i p stPeerFrozen ∧ t.entState i = 2 ∧ t.told (s.entPart i) stFrozen

/-- From s to t one packet leaves on entry i, sealed under the keys of its entry e. -/
def State.sends (s t : State) (i : Nat) (e : Entry) (p : Pkt) : Prop :=
  ∃ sub hdr, t.net.out = s.net.out ++
    [.coroc sub i hdr (hdrBytes false e.rindex p ++
      Config.gcmSeal e.txKey (nonce e.epoch p.txn) (hdrBytes false e.rindex p) p.body)]

/-- From s to t an ACK leaves on entry i that tells of it as e. -/
def State.acks (s t : State) (i : Nat) (e : Entry) : Prop :=
  ∃ p : Pkt, p.kind = 8 ∧ p.body = s.ackBody e ∧ p.txn = e.txn ∧ p.epoch = e.epoch ∧ s.sends t i e p

/-- From s to t nothing has changed but the registers at some offsets. -/
def State.onlyRegs (s t : State) (offs : List Nat) : Prop :=
  t = { s with regs := t.regs } ∧ ∀ off, off ∉ offs → t.reg off = s.reg off

/-- Memory in t is that of s with the keys of a range zeroed: nothing of it is listed, the rest is as it was. -/
def State.zeroed (s t : State) (lo n : Nat) : Prop :=
  ∀ c : Host.Cell, c ∈ t.mem ↔ c ∈ s.mem ∧ ¬ (lo ≤ c.1 ∧ c.1 < lo + n)

/-! ### The on-chip network -/

/-- In t the answer to request p is on its way: a packet of a TYPE and a status, to p's source, with p's tags. -/
def State.answered (t : State) (p : NocPkt) (ty status : Nat) : Prop :=
  ∃ q ∈ t.noc.net, q.ty = ty ∧ q.status = status ∧ q.cls = 1 ∧ q.src = p.src ∧ q.org = p.dst ∧
    q.dst = sourcePoint p.src ∧ q.tid = p.tid ∧ q.dgen = p.dgen ∧ q.ctx = p.ctx ∧ q.stamp = t.dt.toNat

/-- From s to t one packet enters the network behind the others. -/
def State.injects (s t : State) (p : NocPkt) : Prop := t.noc.net = s.noc.net ++ [{ p with stamp := s.dt.toNat }]

end Sys2Proof.Machine
end

