-- ==== Sys2Proof/Certificates/Slice0/Obligations.lean ====
section
/-! DEFINITION. The statements about the model, each with the rules of the spec that it rests on. -/

open Sys2Proof Sys2Proof.Machine

/-- O1, tier 1. When command c is at the front of the queue, a step is exec of c on the state whose queue holds the
rest. (R121, R241.) -/
def Obligations.StepRunsFrontCommand : Prop :=
  ∀ (s : State) (c : Instr) (cs : List Instr), s.pending = c :: cs → step s = exec c { s with pending := cs }

/-- O2, tier 1. With no command waiting, a step while the device is out of power-on reset lets the fabric's clocks run
(their logic, block RAM and NoC ports), offers the NoC's injection ports what they hold, and then adds one unit of
250 ps to DT (assumption 2: the model's choice of a tick); with no fabric logic loaded and nothing held there it
adds to DT and changes nothing else. In power-on reset nothing changes. (R11, R284, R313, R344.) -/
def Obligations.IdleStepTakesOneUnitOfTime : Prop :=
  ∀ s : State, s.pending = [] →
    (s.pwr.up = false → step s = .next s) ∧
    (s.pwr.up = true → ∃ t, step s = .next t ∧ t.dt = s.dt + 1 ∧ t.pending = [] ∧
      t = { s.fabTick.portsTick with dt := s.dt + 1 } ∧
      (s.fab.logic = [] → s.noc.held = [] → s.noc.kept = [] → t = { s with dt := s.dt + 1 }))

/-- O3, tier 3. From every state whose memory and poison marks are in canonical form (addresses strictly rising, no
entry equal to what an unlisted address reads as), whatever command a step runs, the next state's are too. (R180,
R187, R134, R409.) -/
def Obligations.StepKeepsMemoryCanonical : Prop :=
  ∀ s t : State, s.memoryOk → step s = .next t → t.memoryOk

/-- O4, tier 1. The memory and the poison marks of State.reset are in canonical form. (R180, R409.) -/
def Obligations.ResetMemoryCanonical : Prop :=
  State.reset.memoryOk

/-- O5, tier 2. Whatever a command does, it leaves the queue of waiting commands as it is; DT stays as it was or
begins anew at 0, as a power-on reset leaves it; and the count of free values that have been taken never falls, so
none is used twice. (R11, R284.) -/
def Obligations.CommandsLeaveQueueAndTime : Prop :=
  ∀ (c : Instr) (s t : State), exec c s = .next t →
    t.pending = s.pending ∧ (t.dt = s.dt ∨ t.dt = 0) ∧ s.free ≤ t.free

/-- O6, tier 2. For every command and every state exec answers a next state, but for a JTAG instruction other than
BYPASS, IDCODE and boundary scan. (R394, R242.) -/
def Obligations.OnlyJtagStops : Prop :=
  ∀ (c : Instr) (s : State), c ≠ .jtagInstruction .other → ∃ t, exec c s = .next t

/-- O7, tier 1. At State.reset DT is 0, every register of the map reads its reset value, no event waits, and no queue,
context slot, peer entry or HBM region is set up: PWR_READY and QP_Q read 0, and HBM_RGN r shows its key index r
mod 4 and slice r with EN clear. (R10, R284.) -/
def Obligations.ResetRegistersAndTime : Prop :=
  State.reset.dt = 0 ∧ (∀ off, State.reset.reg off = regReset off) ∧ State.reset.reg rPwrReady = 0 ∧
    (∀ p, (State.reset.part p).events = []) ∧ (∀ n k, (State.reset.slot n k).st = .empty) ∧
    (∀ q : Fin 16384, State.reset.reg (rQpQ q) = 0) ∧
    (∀ r : Fin 378, State.reset.fld (rHbmRgn r) 14 1 = 0 ∧ State.reset.fld (rHbmRgn r) 2 2 = (r : Nat) % 4 ∧
      State.reset.fld (rHbmRgn r) 4 9 = r)

/-- O8, tier 3. For every well-formed sequencer instruction, with every operand at every value, decoding the word that
Tables 5.1 and 5.2 give it yields that instruction. (R120, R121, R122.) -/
def Obligations.EsDecodeEncode : Prop :=
  ∀ i : EsInsn, i.wf = true → EsInsn.decode i.encode = some i

/-- O9, tier 2. A word that decodes to an instruction is that instruction's own word, and the instruction is well
formed: no bit is ignored, since an unused field must be zero. (R121, R122.) -/
def Obligations.EsEncodeDecode : Prop :=
  ∀ (w : W32) (i : EsInsn), EsInsn.decode w = some i → i.wf = true ∧ i.encode = w

/-- O10, tier 1. Each word, written out from the tables, decodes to the instruction it stands for, and a reserved
opcode, a reserved FN or a non-zero unused field decodes to none. (R120, R121, R122.) -/
def Obligations.EsWords : Prop :=
  EsInsn.decode 0x04220001 = some (.alu .sub 1 2 0) ∧
  EsInsn.decode 0x04221800 = some (.alu .add 1 2 3) ∧
  EsInsn.decode 0x0422180A = some (.alu .mul 1 2 3) ∧
  EsInsn.decode 0x0422180B = none ∧
  EsInsn.decode 0x0822FFFF = some (.imm .addi 1 2 0xFFFF) ∧
  EsInsn.decode 0x4022FFF8 = some (.mem .ld 1 2 0xFFF8) ∧
  EsInsn.decode 0x60220010 = some (.br .beq 1 2 0x10) ∧
  EsInsn.decode 0x80030000 = some (.mpass 3) ∧
  EsInsn.decode 0x80230000 = none ∧
  EsInsn.decode 0xA4050107 = some (.gwait 5 7 true) ∧
  EsInsn.decode 0xC4200006 = none ∧
  EsInsn.decode 0xFC000000 = some .halt

/-- O11, tier 2. When a slot issues ADD, SUB, AND, OR, XOR, SHL, SHR, SRA, SLT, SLTU or MUL with operands Xa and Xb,
the row's command completes: Xd holds the result (shifts by the low six bits of Xb, comparisons give 1 or 0), X0
stays 0, the PC moves on by one, ES_INSNS counts one, and no other register, slot, engine or byte of memory
changes. ADDI adds the sign-extended immediate; ANDI, ORI and XORI take it zero-extended; SHLI and SHRI shift by
it; MOVI loads its 21-bit immediate sign-extended; MOVK replaces one of the four 16-bit pieces of Xd. Each command
completes with the frame of a register write. (R118, R120, R121, R124.) -/
def Obligations.EsResults : Prop :=
  (∀ (s : State) (e : Fin 64) (sl : Fin 8) (f : Alu) (d a b : BitVec 5), s.issues e sl (.alu f d a b) →
    let x := (s.slot e sl).x a
    let y := (s.slot e sl).x b
    s.writesX (aluRow f e sl) e sl d (match f with
      | .add => x + y
      | .sub => x - y
      | .and => x &&& y
      | .or => x ||| y
      | .xor => x ^^^ y
      | .shl => x <<< (y.toNat % 64)
      | .shr => x >>> (y.toNat % 64)
      | .sra => x.sshiftRight (y.toNat % 64)
      | .slt => if x.slt y then 1 else 0
      | .sltu => if x.ult y then 1 else 0
      | .mul => x * y)) ∧
  (∀ (s : State) (e : Fin 64) (sl : Fin 8) (d a : BitVec 5),
    let x := (s.slot e sl).x a
    (∀ (f : ImmOp) (i : BitVec 16), s.issues e sl (.imm f d a i) →
      s.writesX (immRow f e sl) e sl d (match f with
        | .addi => x + i.signExtend 64
        | .andi => x &&& i.setWidth 64
        | .ori => x ||| i.setWidth 64
        | .xori => x ^^^ i.setWidth 64)) ∧
    (∀ n : BitVec 6, s.issues e sl (.shi false d a n) → s.writesX (.shli e sl) e sl d (x <<< n.toNat)) ∧
    (∀ n : BitVec 6, s.issues e sl (.shi true d a n) → s.writesX (.shri e sl) e sl d (x >>> n.toNat)) ∧
    (∀ i : BitVec 21, s.issues e sl (.movi d i) → s.writesX (.movi e sl) e sl d (i.signExtend 64)) ∧
    (∀ (h : BitVec 2) (i : BitVec 16), s.issues e sl (.movk d h i) →
      s.writesX (.movk e sl) e sl d (((s.slot e sl).x d &&& ~~~((0xFFFF : W64) <<< (16 * h.toNat))) |||
        (i.setWidth 64 <<< (16 * h.toNat)))))

/-- O12, tier 2. BEQ, BNE, BLT, BGE and BLTU go to PC plus the signed offset where their condition on Xd and Xa holds
and to the next instruction where it does not; JMP and JR write the index after them to Xd, JR taking its target
from Xa before that. A target outside the slot's window is not gone to: the slot faults with ES_IMEM_RANGE, a
branch whether or not its condition holds (R122 as assumption 83 reads it). (R121, R122, R153.) -/
def Obligations.EsBranches : Prop :=
  ∀ (s : State) (e : Fin 64) (sl : Fin 8),
    let x := s.slot e sl
    let size := s.fld (rEsImwin e sl) 16 9 * 256
    let goes (c : Instr) (d : BitVec 5) (p : Int) : Prop :=
      (0 ≤ p ∧ p < size → s.jumps c e sl d p.toNat) ∧
      (¬ (0 ≤ p ∧ p < size) → exec c s = .next (s.esFault e sl stEsImemRange))
    (∀ (f : BrOp) (d a : BitVec 5) (i : BitVec 16), s.issues e sl (.br f d a i) →
      let taken : Bool := match f with
        | .beq => x.x d == x.x a
        | .bne => x.x d != x.x a
        | .blt => (x.x d).slt (x.x a)
        | .bge => !(x.x d).slt (x.x a)
        | .bltu => (x.x d).ult (x.x a)
      let p : Int := x.pc + i.toInt
      (taken = true → goes (brRow f e sl) 0 p) ∧
      (taken = false → 0 ≤ p ∧ p < size → s.jumps (brRow f e sl) e sl 0 (x.pc + 1)) ∧
      (taken = false → ¬ (0 ≤ p ∧ p < size) → exec (brRow f e sl) s = .next (s.esFault e sl stEsImemRange))) ∧
    (∀ (d : BitVec 5) (i : BitVec 21), s.issues e sl (.jmp d i) → goes (.jmp e sl) d (x.pc + i.toInt)) ∧
    (∀ d a : BitVec 5, s.issues e sl (.jr d a) → goes (.jr e sl) d ((x.x a).toNat : Int))

/-- O13, tier 2. When the slot that the sequencer chooses fetches outside its window, or a word that spells no
instruction, every sequencer row faults it: ES_FAULT shows VALID and the status, ES_FAULTDT the time, the slot
keeps its registers and its PC, its context is frozen with ES_IMEM_RANGE or ES_ILLEGAL_INSN unless it was frozen
before, and no byte of memory changes. (R122, R153.) -/
def Obligations.EsFetchFaults : Prop :=
  ∀ (s : State) (e : Fin 64) (sl : Fin 8) (i : EsInsn) (st : Nat), s.chosen e = some sl →
    (s.fetch e sl = .range ∧ st = stEsImemRange) ∨ (s.fetch e sl = .illegal ∧ st = stEsIllegalInsn) →
    ∃ t, exec (esRow i e sl) s = .next t ∧ t.fld (rEsFault e) 48 16 = st ∧ t.fld (rEsFault e) 0 1 = 1 ∧
      t.reg (rEsFaultdt e) = s.dt ∧ t.slot e sl = s.slot e sl ∧ t.mem = s.mem ∧
      ((s.ctx (s.slot e sl).ctx).frozen = none → (t.ctx (s.slot e sl).ctx).frozen = some st)

/-- O14, tier 2. When a slot issues LD (8 bytes) or LDW (4 bytes) at Xa plus the signed offset, on a page that is not
being moved, and the address is aligned and translates to device address v for reading, the command completes: the
load is outstanding with the data that v holds then and its poison mark, zero-extended for LDW; the PC moves on;
Xd keeps its value until the data returns; every other engine and slot and every byte of memory keep theirs. When
the data of an outstanding load returns to a slot that is not frozen and is not poisoned, Xd takes it, the load is
no longer outstanding, and nothing else of the slot or of the P1 changes; poisoned data freezes the context with
POISON and leaves the slot as it is. (R118, R119, R121, R122, R132, R134.) -/
def Obligations.EsLoads : Prop :=
  (∀ (s : State) (e : Fin 64) (sl : Fin 8) (d a : BitVec 5) (i : BitVec 16) (wide : Bool) (v : Nat),
    let x := s.slot e sl
    let n := if wide then 8 else 4
    let va := x.x a + i.signExtend 64
    s.issues e sl (.mem (if wide then .ld else .ldw) d a i) → s.anyMoving x.ctx [(va.toNat : Int)] = false →
    s.dataAddr x.ctx va n false = .inl v →
    ∃ t, exec (if wide then .ld e sl else .ldw e sl) s = .next t ∧
      t.slot e sl = { x with pc := x.pc + 1, loads := x.loads ++
        [{ rd := d.toNat, data := BitVec.ofNat 64 (s.dataRead v n).1, poison := (s.dataRead v n).2 }] } ∧
      (∀ m, m ≠ (e : Nat) → t.eng m = s.eng m) ∧ (∀ j, j ≠ (sl : Nat) → t.slot e j = s.slot e j) ∧
      (∀ q, t.byte q = s.byte q)) ∧
  (∀ (s : State) (e : Fin 64) (sl : Fin 8) (k : Nat) (l : Load),
    let x := s.slot e sl
    x.loads[k]? = some l → s.slotFrozen e sl = false →
    (l.poison = false → ∃ t, exec (.loadDataReturn e sl k) s = .next t ∧
      (t.slot e sl).loads = x.loads.eraseIdx k ∧ (t.slot e sl).x 0 = 0 ∧
      (∀ r : BitVec 5, r ≠ 0 → (t.slot e sl).x r = if r = BitVec.ofNat 5 l.rd then l.data else x.x r) ∧
      { t.slot e sl with xs := x.xs, loads := x.loads } = x ∧ { t with engs := s.engs } = s ∧
      (∀ m, m ≠ (e : Nat) → t.eng m = s.eng m) ∧ (∀ j, j ≠ (sl : Nat) → t.slot e j = s.slot e j)) ∧
    (l.poison = true → ∃ t, exec (.loadDataReturn e sl k) s = .next t ∧
      t = s.faultCtx x.ctx x.cmd stPoison ∧ t.slot e sl = x))

/-- O15, tier 2. When a slot issues ST (8 bytes) or STW (4 bytes) at Xa plus the signed offset, on a page that is not
being moved, and the address is aligned and translates to device address v for writing, where v is memory (no
register, no fabric window, not lost), the command completes: each byte of Xd lies at its address v + k unless a
later byte of the same store lies in the same place; every byte whose place the store does not touch is unchanged;
no poison mark changes; and the slot goes on with its registers as they were. (R121, R122, R132, R203.) -/
def Obligations.EsStores : Prop :=
  ∀ (s : State) (e : Fin 64) (sl : Fin 8) (d a : BitVec 5) (i : BitVec 16) (wide : Bool) (v : Nat),
    let x := s.slot e sl
    let n := if wide then 8 else 4
    let va := x.x a + i.signExtend 64
    s.issues e sl (.mem (if wide then .st else .stw) d a i) → s.anyMoving x.ctx [(va.toNat : Int)] = false →
    s.dataAddr x.ctx va n true = .inl v → s.region v ≠ .regs →
    (∀ k, k < n → isFabric (v + k) = false ∧ s.lost (v + k) = false) →
    ∃ t, exec (if wide then .st e sl else .stw e sl) s = .next t ∧
      (∀ k, k < n → (∀ j, k < j → j < n → s.memKey (v + j) ≠ s.memKey (v + k)) →
        t.byte (v + k) = ((x.x d) >>> (8 * k)).setWidth 8) ∧
      (∀ q, (∀ k, k < n → s.memKey q ≠ s.memKey (v + k)) → t.byte q = s.byte q) ∧ t.poison = s.poison ∧
      t.slot e sl = { x with pc := x.pc + 1 } ∧ (∀ m, m ≠ (e : Nat) → t.eng m = s.eng m) ∧
      (∀ j, j ≠ (sl : Nat) → t.slot e j = s.slot e j)

/-- O16, tier 2. MPASS with room in the pass queue and a descriptor that passes every check puts the pass last in the
engine's list, in phase queued; STRM with fewer than eight descriptors on the stream engine, an aligned and
unpoisoned descriptor, and a mode of Table 5.4 puts the descriptor last; VLAUNCH of a slot with no live thread, at
a bundle index inside the local-memory window, makes the slot's thread live with S0 to S3 from Xa and Xb. Each
command completes and the slot goes on. SWAIT goes on where the slot has no unfinished descriptor on the stream
engine, FENCE where it has none on any, VWAIT where it has no live thread; otherwise the slot becomes BLOCKED with
its PC unchanged and waits for just that. HALT blocks always. SLOT_HALTED makes a halting slot of no command
HALTED once its passes, streams and thread are done. (R121, R123, R125, R126, R129, R136, R137, R147.) -/
def Obligations.EsQueuesAndWaits : Prop :=
  (∀ (s : State) (e : Fin 64) (sl : Fin 8),
    let x := s.slot e sl
    (∀ (a : BitVec 5) (m : MDesc), s.issues e sl (.mpass a) → s.queuedPasses e sl < 32 →
      s.anyMoving x.ctx (spanFrom (x.x a).toNat 128) = false →
      s.parsePass e sl x.ctx (x.x a).toNat false = .ok m →
      ∃ t, exec (.mpass e sl) s = .next t ∧ (t.slot e sl).pc = x.pc + 1 ∧ (t.slot e sl).st = x.st ∧
        (t.eng e).passes = (s.eng e).passes ++
          [{ seq := (s.eng e).seq, slot := sl, ctx := x.ctx, gen := x.gen, cls := x.cls, cmd := x.cmd, d := m,
             bank := m.bank }]) ∧
    (∀ (a : BitVec 5) (se : BitVec 2) (ws : List W64) (d : SDesc), s.issues e sl (.strm a se) →
      (s.slotStreams e sl se.toNat).length < 8 → s.anyMoving x.ctx (spanFrom (x.x a).toNat 64) = false →
      (x.x a).toNat % 64 = 0 → s.vwords e sl x.ctx (x.x a).toNat 8 = .inl (ws, false) →
      SDesc.ofWords ws = some d → strmMode d.mode se.toNat = true →
      ∃ t, exec (.strm e sl) s = .next t ∧ (t.slot e sl).pc = x.pc + 1 ∧ (t.slot e sl).st = x.st ∧
        (t.eng e).streams = (s.eng e).streams ++
          [{ seq := (s.eng e).seq, slot := sl, ctx := x.ctx, gen := x.gen, cls := x.cls, cmd := x.cmd,
             se := se.toNat, d := d }]) ∧
    (∀ d a b : BitVec 5, s.issues e sl (.vlaunch d a b) → x.live = false →
      16 * bf (x.x d) 0 15 < s.fld (rVtLmwin e sl) 8 8 * 4096 →
      ∃ t, exec (.vlaunch e sl) s = .next t ∧ (t.slot e sl).pc = x.pc + 1 ∧ (t.slot e sl).live = true ∧
        (t.slot e sl).arms = [] ∧ ∃ k, (t.slot e sl).image = some k ∧ k.pc = bf (x.x d) 0 15 ∧
          k.sr 0 = bf (x.x a) 0 32 ∧ k.sr 1 = bf (x.x a) 32 32 ∧ k.sr 2 = bf (x.x b) 0 32 ∧
          k.sr 3 = bf (x.x b) 32 32 ∧ (∀ r, k.vr r = 0))) ∧
  (∀ (s : State) (e : Fin 64) (sl : Fin 8),
    let x := s.slot e sl
    let waits (c : Instr) (w : Wait) : Prop := ∃ t, exec c s = .next t ∧ EsFrame s t e sl ∧
      t.slot e sl = { x with st := .blocked, wait := w }
    let on (c : Instr) : Prop := ∃ t, exec c s = .next t ∧ EsFrame s t e sl ∧ t.slot e sl = { x with pc := x.pc + 1 }
    (∀ se : BitVec 2, s.issues e sl (.swait se) →
      if s.slotStreams e sl se.toNat = [] then on (.swait e sl) else waits (.swait e sl) (.swait se.toNat)) ∧
    (s.issues e sl .fence →
      if (∀ u ∈ (s.eng e).streams, u.slot ≠ (sl : Nat)) then on (.fence e sl) else waits (.fence e sl) .fence) ∧
    (s.issues e sl .vwait → if x.live = true then waits (.vwait e sl) .vwait else on (.vwait e sl)) ∧
    (s.issues e sl .halt → waits (.halt e sl) .halt) ∧
    (x.st = .blocked → x.wait = .halt → s.slotFrozen e sl = false → s.workDone e sl = true → s.cmd x.cmd = none →
      ∃ t, exec (.slotHalted e sl) s = .next t ∧ t.slot e sl = { x with st := .halted, wait := .none } ∧
        { t with engs := s.engs } = s))

/-- O17, tier 2. GSET by the owner sets the gate's count to the low 32 bits of Xa, or 0 for X0; GRD by the owner reads
it into Xd; on a gate that the context does not own both freeze it with GATE_NOT_OWNED. GSIG sends one signal to
the gate and engine that Xa names, of the low 32 bits of Xb or 1 for X0, carrying the context and its tag; a non-
zero bit of Xa[63:14] faults with ES_ILLEGAL_INSN and sends nothing. GWAIT by the owner goes on where the count
has reached the threshold (1 for X0), taking it off the count if CONSUME is set, and blocks otherwise; a blocked
GWAIT returns once the count has reached it. The oldest signal of its source for a gate, of a live context with
the signal's tag that owns the gate, adds its value to the count where the sum fits 32 bits; a stale one is
dropped. (R141, R142, R144, R146.) -/
def Obligations.EsGates : Prop :=
  (∀ (s : State) (e : Fin 64) (sl : Fin 8),
    let x := s.slot e sl
    (∀ (a : BitVec 5) (g : BitVec 8), s.issues e sl (.gset a g) →
      if s.ownsGate e g.toNat x.ctx then
        ∃ t, exec (.gset e sl) s = .next t ∧ t.gateCount e g.toNat = (if a = 0 then 0 else (x.x a).toNat % 2 ^ 32) ∧
          t.ownsGate e g.toNat x.ctx = true ∧ t.slot e sl = { x with pc := x.pc + 1 } ∧
          (∀ h : BitVec 8, h ≠ g → t.reg (rEsGate e h.toNat) = s.reg (rEsGate e h.toNat)) ∧ t.mem = s.mem
      else exec (.gset e sl) s = .next (s.faultCtx x.ctx x.cmd stGateNotOwned)) ∧
    (∀ (d : BitVec 5) (g : BitVec 8), s.issues e sl (.grd d g) →
      if s.ownsGate e g.toNat x.ctx then s.writesX (.grd e sl) e sl d (BitVec.ofNat 64 (s.gateCount e g.toNat))
      else exec (.grd e sl) s = .next (s.faultCtx x.ctx x.cmd stGateNotOwned)) ∧
    (∀ a b : BitVec 5, s.issues e sl (.gsig a b) →
      let m := s.hostOf (bf (x.x a) 8 6) x.ctx
      if x.x a < 2 ^ 14 then
        ∃ t, exec (.gsig e sl) s = .next t ∧ (t.eng m).sigs = (s.eng m).sigs ++
          [{ gate := bf (x.x a) 0 8, value := if b = 0 then 1 else (x.x b).toNat % 2 ^ 32, ctx := x.ctx,
             gen := x.gen, src := 8 * e + sl }] ∧
          (∀ k, k ≠ m → (t.eng k).sigs = (s.eng k).sigs) ∧ t.slot e sl = { x with pc := x.pc + 1 } ∧ t.mem = s.mem
      else exec (.gsig e sl) s = .next (s.esFault e sl stEsIllegalInsn))) ∧
  (∀ (s : State) (e : Fin 64) (sl : Fin 8),
    let x := s.slot e sl
    (∀ (a : BitVec 5) (g : BitVec 8) (c : Bool), s.issues e sl (.gwait a g c) → s.ownsGate e g.toNat x.ctx = true →
      let thr := if a = 0 then 1 else (x.x a).toNat
      ∃ t, exec (.gwait e sl) s = .next t ∧ t.mem = s.mem ∧
        if thr ≤ s.gateCount e g.toNat then
          t.slot e sl = { x with pc := x.pc + 1 } ∧
            t.gateCount e g.toNat = s.gateCount e g.toNat - (if c then thr else 0)
        else t.slot e sl = { x with st := .blocked, wait := .gwait g.toNat thr c } ∧
            t.gateCount e g.toNat = s.gateCount e g.toNat) ∧
    (∀ (g thr : Nat) (c : Bool), g < 256 → x.st = .blocked → x.wait = .gwait g thr c → s.slotFrozen e sl = false →
      thr ≤ s.gateCount e g →
      ∃ t, exec (.gwaitReturn e sl) s = .next t ∧
        t.slot e sl = { x with st := .ready, wait := .none, pc := x.pc + 1 } ∧
        t.gateCount e g = s.gateCount e g - (if c then thr else 0)) ∧
    (∀ (k : Nat) (g : Sig), sigReady (s.eng e).sigs k = true → (s.eng e).sigs[k]? = some g → g.gate < 256 →
      ((s.ctx g.ctx).gen ≠ g.gen ∨ (s.ctx g.ctx).live = false →
        exec (.gateSignalArrival e k) s = .next (s.updEng e (fun y => { y with sigs := y.sigs.eraseIdx k }))) ∧
      ((s.ctx g.ctx).gen = g.gen → (s.ctx g.ctx).live = true → s.ownsGate e g.gate g.ctx = true →
        s.gateCount e g.gate + g.value < 2 ^ 32 →
        ∃ t, exec (.gateSignalArrival e k) s = .next t ∧ t.gateCount e g.gate = s.gateCount e g.gate + g.value ∧
          (t.eng e).sigs = (s.eng e).sigs.eraseIdx k ∧ t.mem = s.mem)))

/-- O18, tier 2. ES_NOP and YIELD change no register of the slot; a YIELD of the slot that holds issue makes its class
pass it on; RDDT gives DT at issue, RDSR the slot, context, tag, class, engine or pass-log head, PLRD a word of
the pass log at Xa mod 16. Each command completes and the slot goes on with the next instruction. (R121, R124,
R140, R150.) -/
def Obligations.EsReadsAndYield : Prop :=
  ∀ (s : State) (e : Fin 64) (sl : Fin 8),
    let x := s.slot e sl
    (s.issues e sl .nop → ∃ t, exec (.esNop e sl) s = .next t ∧ EsFrame s t e sl ∧
      t.slot e sl = { x with pc := x.pc + 1 }) ∧
    (s.issues e sl .yield → ∃ t, exec (.yield e sl) s = .next t ∧ EsFrame s t e sl ∧
      t.slot e sl = { x with pc := x.pc + 1 } ∧
      (s.holder e = some (sl : Nat) → tget false (t.eng e).yielded x.cls = true)) ∧
    (∀ d : BitVec 5, s.issues e sl (.rddt d) → s.writesX (.rddt e sl) e sl d s.dt) ∧
    (∀ (d : BitVec 5) (r : BitVec 3), s.issues e sl (.rdsr d r) →
      s.writesX (.rdsr e sl) e sl d (BitVec.ofNat 64
        (([(sl : Nat), x.ctx, x.gen, x.cls, (e : Nat), x.plhead % 2 ^ 32]).getD r.toNat 0))) ∧
    (∀ (d a : BitVec 5) (w : BitVec 2), s.issues e sl (.plrd d a w) →
      s.writesX (.plrd e sl) e sl d (tget 0 x.plog ((x.x a).toNat % 16 * 4 + w.toNat)))

/-- O19, tier 2. When engine e executes bundle u and u holds operation o in some slot, o's command completes: tc and
VT_BUNDLES count one, the active bank's END and SYNC marks follow the bundle's control, local memory is that after
the results that were due have landed (unless VSIG makes stores visible or the bundle is the second after a
VRETI), no byte of device memory changes, no other engine's banks or local memory change, and no context is
frozen. The second bundle after a VRETI swaps the banks back: the other bank runs with none of its results still
in flight. VT_NOP's command completes so too; a bundle of three NOPs changes no register of the P1 but VT_BUNDLES,
no V, S or address register, puts no result in flight, and the PC goes on with the next bundle where no branch is
pending. When the vector tile is ready and the bundle at its PC lies outside the window or meets a condition of
Table 4.9, every slot row makes the fault: VT_FAULT shows VALID, the status and the PC, VT_FAULTDT the time, the
bank becomes free with its image saved in the slot, and the context is frozen with that status unless it was
frozen before. (R90, R91, R93, R94, R95, R104, R114.) -/
def Obligations.VtBundles : Prop :=
  (∀ (s : State) (e : Fin 64) (u : Bundle), s.executes e u →
    let k := (s.eng e).active
    let b := (s.landed e).actBank e
    b.slot < 8 →
    (∀ o : VOp, u.has o = true →
      ∃ t, exec (vtRow o e) s = .next t ∧ (t.eng e).tc = (s.eng e).tc + 1 ∧
        t.reg (rVtBundles e) = s.reg (rVtBundles e) + 1 ∧
        ((t.eng e).bank k).ended = (u.ctl == 1) ∧ ((t.eng e).bank k).sync = (u.ctl == 2) ∧
        (VOp.ofCode .alu u.alu.op ≠ some .vsig → b.ret ≠ some 1 → (t.eng e).lmem = ((s.landed e).eng e).lmem) ∧
        (b.ret = some 1 → k < 2 → (t.eng e).active = 1 - k ∧ ((t.eng e).bank (1 - k)).st = .run ∧
          ((t.eng e).bank (1 - k)).pend = [] ∧ ((t.eng e).bank k).st = .draining) ∧
        t.mem = s.mem ∧ t.ctxs = s.ctxs ∧
        (∀ m, m ≠ (e : Nat) → (t.eng m).banks = (s.eng m).banks ∧ (t.eng m).lmem = (s.eng m).lmem)) ∧
    (u.has .nop = true →
      ∃ t, exec (.vtNop e) s = .next t ∧ (t.eng e).tc = (s.eng e).tc + 1 ∧
        t.reg (rVtBundles e) = s.reg (rVtBundles e) + 1 ∧ t.mem = s.mem ∧
        (VOp.ofCode .ls u.ls.op = some .nop → VOp.ofCode .alu u.alu.op = some .nop →
          VOp.ofCode .mac u.mac.op = some .nop →
          (∀ o, o ≠ rVtBundles e → t.reg o = s.reg o) ∧ ((t.eng e).bank k).v = b.v ∧ ((t.eng e).bank k).s = b.s ∧
          ((t.eng e).bank k).a = b.a ∧ ((t.eng e).bank k).pend = b.pend ∧
          (b.br = none → ((t.eng e).bank k).pc = (b.pc + 1) % 2 ^ 15)))) ∧
  (∀ (s : State) (e : Fin 64) (o : VOp) (st : Nat), s.vtReady e = true →
    let b := (s.landed e).actBank e
    ((s.landed e).vtFetch e b = none ∧ st = stVtMemRange ∨
      ∃ u, (s.landed e).vtFetch e b = some u ∧ (s.landed e).bundleFault e b u = some st) → st < 2 ^ 16 →
    ∃ t, exec (vtRow o e) s = .next t ∧ t.fld (rVtFault e) 48 16 = st ∧ t.fld (rVtFault e) 0 1 = 1 ∧
      t.fld (rVtFault e) 16 15 = b.pc % 2 ^ 15 ∧ t.reg (rVtFaultdt e) = s.dt ∧ t.mem = s.mem ∧
      ((t.eng e).bank (s.eng e).active).st = .free ∧
      ((s.ctx (s.slot e b.slot).ctx).frozen = none → (t.ctx (s.slot e b.slot).ctx).frozen = some st))

/-- O20, tier 2. A legal bundle whose ALU slot holds VAND, VOR, VXOR, VSHL or VSHR by less than 32, VSEL, VBCST, VPERM
or VEXTR completes, and that operation's result is on its way to Vd (Sd for VEXTR) with the latency of Table 4.4:
the lane-wise logic of Va and Vb, the lanes of Va shifted by Sb, Va's lanes where the mask S[IMM[15:10]] has 1 and
Vb's elsewhere, Sa in every lane, the lanes of Va that the low five bits of Vb's lanes name, and lane IMM[4:0] of
Va. (R90, R95.) -/
def Obligations.VtLaneMoves : Prop :=
  ∀ (s : State) (e : Fin 64) (u : Bundle), s.executes e u →
    let b := (s.landed e).actBank e
    let i := u.alu
    let x := (b.vr i.a).lanes
    let y := (b.vr i.b).lanes
    let gives (o : VOp) (lat : Nat) (r : VTarget) : Prop := VOp.ofCode .alu i.op = some o →
      ∃ t, exec (vtRow o e) s = .next t ∧ s.inFlight t e lat r
    gives .vand 1 (.v i.d (b.vr i.a &&& b.vr i.b)) ∧ gives .vor 1 (.v i.d (b.vr i.a ||| b.vr i.b)) ∧
    gives .vxor 1 (.v i.d (b.vr i.a ^^^ b.vr i.b)) ∧
    (b.sr i.b < 32 → gives .vshl 1 (.v i.d (Vec.ofLanes (x.map (fun w => w * 2 ^ b.sr i.b % 2 ^ 32)))) ∧
      gives .vshr 1 (.v i.d (Vec.ofLanes (x.map (fun w => w / 2 ^ b.sr i.b))))) ∧
    gives .vsel 1 (.v i.d (Vec.ofLanes ((x.zip y).zipIdx.map (fun p =>
      if (b.sr (i.x / 2 ^ 10 % 2 ^ 6)).testBit p.2 then p.1.1 else p.1.2)))) ∧
    gives .vbcst 1 (.v i.d (Vec.ofLanes (List.replicate 32 (b.sr i.a)))) ∧
    gives .vperm 2 (.v i.d (Vec.ofLanes (y.map (fun k => x.getD (k % 32) 0)))) ∧
    gives .vextr 2 (.s i.d (BitVec.ofNat 32 (x.getD (i.x % 32) 0)))

/-- O21, tier 2. A legal bundle with VADD, VSUB, VMUL, VFMA, VFMS or VFNMA of type INT32 completes with each lane of
Vd the wrapped result of the lanes of Va, Vb and Vc, 1 tc after its issue for VADD and VSUB and 4 for the others;
of a floating type, with each lane the exact result rounded once to the lane format, 3 or 4 tc after. VMAX and
VMIN of INT32 give the larger and the smaller lane. (R90, R95, R97.) -/
def Obligations.VtArithmetic : Prop :=
  ∀ (s : State) (e : Fin 64) (u : Bundle), s.executes e u →
    let b := (s.landed e).actBank e
    let ftz := ((s.landed e).vtIn e).ftz
    let gives (sl : VSlot) (i : VFields) (o : VOp) (lat : Nat) (x : Vec) : Prop := VOp.ofCode sl i.op = some o →
      ∃ t, exec (vtRow o e) s = .next t ∧ s.inFlight t e lat (.v i.d x)
    let int (f : Int → Int → Int → Int) (x y z : Vec) : Vec := Vec.ofLanes ((List.range 32).map (fun l =>
      wrapInt 32 (f (sextNat 32 (x.lanes.getD l 0)) (sextNat 32 (y.lanes.getD l 0)) (sextNat 32 (z.lanes.getD l 0)))))
    let a := u.alu
    let m := u.mac
    let x := b.vr a.a
    let y := b.vr a.b
    let p := b.vr m.a
    let q := b.vr m.b
    let r := b.vr (m.x / 2 ^ 10 % 2 ^ 6)
    (a.x % 4 = 3 →
      gives .alu a .vadd 1 (int (fun v w _ => v + w) x y 0) ∧ gives .alu a .vsub 1 (int (fun v w _ => v - w) x y 0) ∧
      gives .alu a .vmax 1 (int (fun v w _ => max v w) x y 0) ∧ gives .alu a .vmin 1 (int (fun v w _ => min v w) x y 0)) ∧
    (m.x % 4 = 3 →
      gives .mac m .vmul 4 (int (fun v w _ => v * w) p q 0) ∧ gives .mac m .vfma 4 (int (fun v w z => v * w + z) p q r) ∧
      gives .mac m .vfms 4 (int (fun v w z => v * w - z) p q r) ∧
      gives .mac m .vfnma 4 (int (fun v w z => z - v * w) p q r)) ∧
    (∀ (t : Elem) (w : Nat), laneType (a.x % 4) = some (t, w) →
      gives .alu a .vadd 3 (laneMap t w ftz vAddOp [x, y]).1 ∧ gives .alu a .vsub 3 (laneMap t w ftz vSubOp [x, y]).1 ∧
      gives .alu a .vmax 3 (vMaxMin false (a.x % 4) ftz x y) ∧ gives .alu a .vmin 3 (vMaxMin true (a.x % 4) ftz x y)) ∧
    (∀ (t : Elem) (w : Nat), laneType (m.x % 4) = some (t, w) →
      gives .mac m .vmul 4 (laneMap t w ftz vMulOp [p, q]).1 ∧ gives .mac m .vfma 4 (laneMap t w ftz vFmaOp [p, q, r]).1 ∧
      gives .mac m .vfms 4 (laneMap t w ftz vFmsOp [p, q, r]).1 ∧
      gives .mac m .vfnma 4 (laneMap t w ftz vFnmaOp [p, q, r]).1)

/-- O22, tier 2. A legal bundle with SADD, SSUB, SMUL, SMOVI or SLUI completes with the 32-bit result on its way to Sd
after 1 tc (2 for SMUL); VCMP gives its 32-bit mask after 2 tc; VMAXI, VMINI, SMAXI and SMINI give value and index
in Sd and Sd+1, from the lanes indexed by Sb upward or from the two pairs; VTOPK gives the merged list of up to 64
candidates in Vd to Vd+3 after 6 tc. (R90, R95, R97, R107, R108.) -/
def Obligations.VtScalarsAndSearches : Prop :=
  ∀ (s : State) (e : Fin 64) (u : Bundle), s.executes e u →
    let b := (s.landed e).actBank e
    let ftz := ((s.landed e).vtIn e).ftz
    let i := u.alu
    let gives (o : VOp) (rs : List (Nat × VTarget)) : Prop := VOp.ofCode .alu i.op = some o →
      ∃ t, exec (vtRow o e) s = .next t ∧ ∀ r ∈ rs, s.inFlight t e r.1 r.2
    let one (lat v : Nat) : List (Nat × VTarget) := [(lat, .s i.d (BitVec.ofNat 32 v))]
    let two (lat : Nat) (v : Nat × Nat) : List (Nat × VTarget) :=
      [(lat, .s i.d (BitVec.ofNat 32 v.1)), (lat, .s (i.d + 1) (BitVec.ofNat 32 v.2))]
    let imm : Int := if i.x < 2 ^ 15 then i.x else (i.x : Int) - 2 ^ 16
    let carry : Option (Nat × Nat) := if i.x.testBit 0 then some (b.sr i.d, b.sr (i.d + 1)) else none
    let pairs : List (Nat × Nat) := [(b.sr i.d, b.sr (i.d + 1)), (b.sr i.a, b.sr (i.a + 1))]
    (i.x < 2 ^ 16 →
      gives .sadd (one 1 (b.sr i.a + b.sr i.b)) ∧
      gives .ssub [(1, .s i.d (BitVec.ofNat 32 (b.sr i.a) - BitVec.ofNat 32 (b.sr i.b)))] ∧
      gives .smul (one 2 (b.sr i.a * b.sr i.b)) ∧
      gives .smovi [(1, .s i.d (BitVec.ofInt 32 imm))] ∧
      gives .slui (one 1 (b.sr i.d % 2 ^ 16 + 2 ^ 16 * i.x)) ∧
      gives .vcmp (one 2 (vCmp (i.x % 4 == 3) ftz (i.x / 4 % 8) (b.vr i.a) (b.vr i.b))) ∧
      gives .vmaxi (two 4 (vSearch false (i.x.testBit 1) carry (b.vr i.a) (b.sr i.b)).1) ∧
      gives .vmini (two 4 (vSearch true (i.x.testBit 1) carry (b.vr i.a) (b.sr i.b)).1) ∧
      gives .smaxi (two 2 (searchPairs (i.x.testBit 1) false pairs).1) ∧
      gives .smini (two 2 (searchPairs (i.x.testBit 1) true pairs).1) ∧
      (let l := vTopk (i.x.testBit 7) (i.x % 2 ^ 7) (if i.x.testBit 8 then [] else b.topkList i.d) (b.vr i.a) (b.sr i.b)
       gives .vtopk [(6, .v i.d (Vec.ofLanes ((l.map Prod.fst).take 32))),
         (6, .v (i.d + 1) (Vec.ofLanes ((l.map Prod.fst).drop 32))),
         (6, .v (i.d + 2) (Vec.ofLanes ((l.map Prod.snd).take 32))),
         (6, .v (i.d + 3) (Vec.ofLanes ((l.map Prod.snd).drop 32)))]))

/-- O23, tier 2. A legal bundle with VLD, VLDS or SLD completes with the 32-bit elements at the circular addresses of
its address register on their way to Vd or Sd after 5, 5 and 4 tc; with VST, SST or VSTM the elements (those whose
mask bit is 1) are on their way to local memory after 2 tc; A of the register then moves on by the signed
immediate, inside AL where AL is not 0. AMOV loads A, AB or AL from Sb; AGET gives it to Sd after 1 tc. (R89, R90,
R95, R100.) -/
def Obligations.VtMemoryAccess : Prop :=
  ∀ (s : State) (e : Fin 64) (u : Bundle), s.executes e u →
    let n := s.landed e
    let b := n.actBank e
    let i := u.ls
    let k := i.a % 8
    let base := n.fld (rVtLmwin e b.slot) 0 7 * 4096
    let av := (tget (0 : W32) b.a k).toNat
    let ab := (tget (0 : W32) b.ab k).toNat
    let al := (tget (0 : W32) b.al k).toNat
    let word (c : Nat) (j : Nat) : Nat := (n.eng e).lmemWord (base + (circAddrs c av ab al).getD j 0)
    let moved (t : State) : Prop :=
      tget (0 : W32) ((t.eng e).bank (s.eng e).active).a k = BitVec.ofNat 32 (circNext av al i.simm)
    let gives (o : VOp) (rs : List (Nat × VTarget)) : Prop := VOp.ofCode .ls i.op = some o →
      ∃ t, exec (vtRow o e) s = .next t ∧ (∀ r ∈ rs, s.inFlight t e r.1 r.2) ∧ moved t
    let store (c j v : Nat) : Nat × VTarget := (2, .mem (base + (circAddrs c av ab al).getD j 0) (BitVec.ofNat 32 v))
    gives .vld [(5, .v i.d (Vec.ofLanes ((List.range 32).map (word 32))))] ∧
    gives .vlds [(5, .v i.d (Vec.ofLanes (List.replicate 32 (word 1 0))))] ∧
    gives .sld [(4, .s i.d (BitVec.ofNat 32 (word 1 0)))] ∧
    gives .vst ((List.range 32).map (fun j => store 32 j ((b.vr i.b).lanes.getD j 0))) ∧
    gives .vstm (((List.range 32).filter (fun j => (b.sr i.d).testBit j)).map (fun j =>
      store 32 j ((b.vr i.b).lanes.getD j 0))) ∧
    gives .sst [store 1 0 (b.sr i.b)] ∧
    (VOp.ofCode .ls i.op = some .amov → ∃ t, exec (.amov e) s = .next t ∧
      let c := (t.eng e).bank (s.eng e).active
      (tget (0 : W32) c.a k, tget (0 : W32) c.ab k, tget (0 : W32) c.al k) =
        (if i.d % 4 = 0 then BitVec.ofNat 32 (b.sr i.b) else tget (0 : W32) b.a k,
         if i.d % 4 = 1 then BitVec.ofNat 32 (b.sr i.b) else tget (0 : W32) b.ab k,
         if i.d % 4 = 2 then BitVec.ofNat 32 (b.sr i.b) else tget (0 : W32) b.al k)) ∧
    (VOp.ofCode .ls i.op = some .aget → ∃ t, exec (.aget e) s = .next t ∧
      s.inFlight t e 1 (.s i.d (BitVec.ofNat 32 ([av, ab, al].getD (i.x % 4) 0))))

/-- O24, tier 2. A legal bundle with VDOT2, VRSUM, VEXP2, VLOG2, VRCP, VRSQRT, VSILU, VGELU, VERF or VCVT completes
with the result of the lane procedures on its way to Vd (Sd for VRSUM) with the latency of Table 4.4: 4, 6, 8 for
the first four functions, 12 for the last three, and 4 for VCVT. VRSUM of INT32 is the wrapped sum of the lanes; a
VCVT with ROUND = SR takes 32 draws from SRV. (R90, R95, R97, R98, R99, R109, R113.) -/
def Obligations.VtSpecialAndConvert : Prop :=
  ∀ (s : State) (e : Fin 64) (u : Bundle), s.executes e u →
    let n := s.landed e
    let b := n.actBank e
    let ftz := (n.vtIn e).ftz
    let m := u.mac
    let x := b.vr m.a
    let c := u.alu
    let gives (o : VOp) (lat : Nat) (r : VTarget) : Prop := VOp.ofCode .mac m.op = some o →
      ∃ t, exec (vtRow o e) s = .next t ∧ s.inFlight t e lat r
    gives .vdot2 4 (.v m.d (vDot2 (m.x % 2 == 1) ftz x (b.vr m.b) (b.vr (m.x / 2 ^ 10 % 2 ^ 6))).1) ∧
    (m.x % 4 = 3 → gives .vrsum 6 (.s m.d (BitVec.ofInt 32 ((x.lanes.map (sextNat 32)).sum)))) ∧
    (m.x % 4 = 0 → gives .vrsum 6 (.s m.d (BitVec.ofNat 32 (vRsum false ftz x).code))) ∧
    gives .vexp2 8 (.v m.d (vSpecial .exp2 ftz x).1) ∧ gives .vlog2 8 (.v m.d (vSpecial .log2 ftz x).1) ∧
    gives .vrcp 8 (.v m.d (vSpecial .rcp ftz x).1) ∧ gives .vrsqrt 8 (.v m.d (vSpecial .rsqrt ftz x).1) ∧
    gives .vsilu 12 (.v m.d (vSpecial .silu ftz x).1) ∧ gives .vgelu 12 (.v m.d (vSpecial .gelu ftz x).1) ∧
    gives .verf 12 (.v m.d (vSpecial .erf ftz x).1) ∧
    (∀ (t f : Fmt), VOp.ofCode .alu c.op = some .vcvt → Fmt.ofCode (bitsOf c.x 12 4) = some t →
      Fmt.ofCode (bitsOf c.x 8 4) = some f → c.b < 32 →
      let ctl := Cvtc.ofByte (bitsOf c.x 0 8)
      let draws := drawsFrom 32 (n.reg (rVtSrv e b.slot)).toNat
      ∃ r, exec (.vcvt e) s = .next r ∧
        s.inFlight r e 4 (.v c.d (vCvt f t ctl (bitsOf c.b 4 1 == 1) (if ctl.round = 2 then draws.1 else []) (b.vr c.a)).1) ∧
        (ctl.round = 2 → r.reg (rVtSrv e b.slot) = BitVec.ofNat 64 draws.2))

/-- O25, tier 2. A legal bundle with BR leaves the branch waiting for its two delay bundles, to PC plus the immediate
where the condition holds and else to the bundle after them; a bundle in the second delay slot goes to the target.
VARM arms a gate with a handler at Sa, VDISARM takes it away, VSIG sends a signal of 1 to a gate of this engine
for the thread's context, VSRRD reads a generator state into Sd and Sd+1, VSRWR writes one from Sa and Sa+1,
VFLAGS gives the exception flags to Sd and clears them if asked, VRETI leaves the return waiting for its two delay
bundles. (R95, R96, R105, R113.) -/
def Obligations.VtControl : Prop :=
  ∀ (s : State) (e : Fin 64) (u : Bundle), s.executes e u →
    let n := s.landed e
    let b := n.actBank e
    let i := u.alu
    let x := n.slot e b.slot
    let op := VOp.ofCode .alu i.op
    let bank (t : State) : Bank := (t.eng e).bank (s.eng e).active
    b.slot < 8 →
    (op = some .br → ∃ t, exec (.br e) s = .next t ∧
      (bank t).br = some (2, if brHolds (i.d % 4) (b.sr i.a) then pcWrap (b.pc + i.simm) else pcWrap (b.pc + 3)) ∧
      (bank t).pc = (b.pc + 1) % 2 ^ 15) ∧
    (∀ (o : VOp) (p : Nat), u.has o = true → b.br = some (1, p) →
      ∃ t, exec (vtRow o e) s = .next t ∧ (bank t).pc = p ∧ (bank t).br = none) ∧
    (op = some .varm → ∃ t, exec (.varm e) s = .next t ∧
      ∃ a ∈ (t.slot e b.slot).arms, a.gate = i.x % 256 ∧ a.pc = b.sr i.a % 2 ^ 15) ∧
    (op = some .vdisarm → ∃ t, exec (.vdisarm e) s = .next t ∧
      (t.slot e b.slot).arms = x.arms.filter (fun a => a.gate != i.x % 256)) ∧
    (op = some .vsig → ∃ t, exec (.vsig e) s = .next t ∧
      (t.eng (n.hostOf e x.ctx)).sigs = (n.eng (n.hostOf e x.ctx)).sigs ++
        [{ gate := i.x % 256, value := 1, ctx := x.ctx, gen := x.gen, src := 8192 + 8 * e + b.slot }]) ∧
    (op = some .vsrrd → ∃ t, exec (.vsrrd e) s = .next t ∧
      let g := if i.x % 2 = 0 then n.reg (rVtSrm e b.slot) else n.reg (rVtSrv e b.slot)
      s.inFlight t e 1 (.s i.d (g.setWidth 32)) ∧ s.inFlight t e 1 (.s (i.d + 1) ((g >>> 32).setWidth 32))) ∧
    (op = some .vsrwr → ∃ t, exec (.vsrwr e) s = .next t ∧
      t.reg (if i.x % 2 = 0 then rVtSrm e b.slot else rVtSrv e b.slot) =
        BitVec.ofNat 64 (seedState (b.sr i.a + 2 ^ 32 * b.sr (i.a + 1)))) ∧
    (op = some .vflags → ∃ t, exec (.vflags e) s = .next t ∧
      s.inFlight t e 1 (.s i.d (BitVec.ofNat 32 (n.fld (rVtFlags e b.slot) 0 4))) ∧
      (i.x % 2 = 1 → VOp.ofCode .mac u.mac.op = some .nop → t.fld (rVtFlags e b.slot) 0 4 = 0)) ∧
    (op = some .vreti → ∃ t, exec (.vreti e) s = .next t ∧ (bank t).ret = some 2)

/-- O26, tier 2. RESULT_LAND moves tc to the next due time and lands what is due then. BANK_DRAINED, once the
latencies of the bank's results have passed or nothing else issues, frees a draining bank and saves a thread's
image in its slot. THREAD_END of a thread that issued END frees its bank and leaves its slot with no live thread,
no image and no armed gate. GATE_HANDLER_ENTRY, when one is due, parks the thread's bank and runs the handler of
the lowest pending armed gate in the other one, with the gate's number in S0. THREAD_SWITCH of an idle tile runs
the thread of the highest class and the earliest launch. (R90, R102, R104, R105, R148.) -/
def Obligations.VtThreadEvents : Prop :=
  ∀ (s : State) (e : Fin 64),
    let k := (s.eng e).active
    let b := (s.eng e).bank k
    (∀ d, (s.eng e).nextDue = some d → (s.vtReady e = false ∨ d ≤ (s.eng e).tc) →
      ∃ t, exec (.resultLand e) s = .next t ∧ (t.eng e).tc = max (s.eng e).tc d ∧
        (t.eng e).lmem = (((s.eng e).landDue 0 d).landDue 1 d).lmem ∧ t.mem = s.mem) ∧
    (∀ j : Fin 2, ((s.eng e).bank j).st = .draining →
      (s.vtReady e = false ∨ ((s.eng e).bank j).lastDue ≤ (s.eng e).tc) →
      ∃ t, exec (.bankDrained e j) s = .next t ∧ (t.eng e).bank j = {} ∧
        ((((s.eng e).drainBank j).bank j).handler = false →
          ∃ i, (t.slot e (((s.eng e).drainBank j).bank j).slot).image = some i ∧ i.st = .free)) ∧
    (b.st = .run → b.ended = true → ∃ t, exec (.threadEnd e) s = .next t ∧ (t.eng e).bank k = {} ∧
      (t.slot e b.slot).live = false ∧ (t.slot e b.slot).image = none ∧ (t.slot e b.slot).arms = []) ∧
    (∀ a, s.handlerDue e = true → (s.slot e b.slot).pendingGate = some a → k < 2 →
      ∃ t, exec (.gateHandlerEntry e) s = .next t ∧ (t.eng e).active = 1 - k ∧ ((t.eng e).bank k).st = .parked ∧
        ((t.eng e).bank (1 - k)).pc = a.pc ∧ ((t.eng e).bank (1 - k)).handler = true ∧
        ((t.eng e).bank (1 - k)).sr 0 = a.gate % 2 ^ 32) ∧
    (∀ j, s.runs = true → (s.eng e).retired = false → (s.eng e).hung = false → b.st = .free → k < 2 →
      ((s.eng e).bank (1 - k)).st = .free → s.wantThread e = some j → (s.slot e j).himage = none →
      ∃ t, exec (.threadSwitch e) s = .next t ∧ (t.eng e).active = 1 - k ∧ ((t.eng e).bank (1 - k)).st = .run ∧
        ((t.eng e).bank (1 - k)).slot = j ∧ (t.slot e j).image = none)

/-- O27, tier 2. When the pass whose turn it is has no image, the tile is open, its bank is free once the issue before
it has ended, no failed pass waits for the port, and none of its operands lies on a moving page, PASS_ISSUE
completes. With operands and prologue factors x read, the pass issues from step 0 with the next issue number, the
operands x, the tolerance of MT_CKTOL and DT as its start, its bank's exception record is cleared, and no byte of
memory changes. With a stream that faults, the pass is discarded, ES_SFAULTDT shows the time, and its context is
frozen. (R62, R66, R133, R137.) -/
def Obligations.PassIssues : Prop :=
  ∀ (s : State) (e : Fin 64) (p : Pass), s.nextPass e = some p → p.phase = .queued → s.tileOpen e = true →
    (s.endIssue e).bankFree e p.bank = true →
    (∀ q ∈ (s.eng e).passes, q.phase = .failed → s.frozenOn e q.ctx = true) →
    s.anyMoving p.ctx p.d.inAddrs = false →
    let no := (s.eng e).issued + 1
    (∀ x, (s.endIssue e).passIn e p = .ok x → ∃ t, exec (.passIssue e) s = .next t ∧
      (t.eng e).passes = ((s.endIssue e).eng e).passes.map (fun q =>
        if q.seq = p.seq then
          { q with phase := .issuing, issueNo := no, runNo := no, op := some x.op, grp := 0, acc := x.op.start,
                   foldr := x.foldr, proFl := x.fl, poison := x.poison, runs := q.runs + 1, startDt := s.dt,
                   tolsh := s.fld (rMtCktol e) 0 6 }
        else q) ∧ (t.eng e).issued = no ∧ t.reg (rMtExc e p.bank) = 0 ∧ t.mem = s.mem ∧ t.poison = s.poison) ∧
    (∀ x, (s.endIssue e).passIn e p = .error x → ∃ t, exec (.passIssue e) s = .next t ∧
      (∀ q ∈ (t.eng e).passes, q.seq ≠ p.seq) ∧ (t.ctx p.ctx).frozen.isSome = true ∧
      t.reg (rEsSfaultdt e) = s.dt ∧ t.mem = s.mem)

/-- O28, tier 2. DRAIN_START with room in the hold buffer and no side entry on a moving page drains the oldest run:
its outputs are held, its exception record is shown, and SRM moves on by the draws unless the run is a replay.
VERDICT of a first run: PASS and CKNE make the pass deliverable with that verdict where its output patterns do not
fault; FAIL discards the results and leaves the pass waiting for its replay. No verdict and no drain changes a
byte of memory, so no output of a pass that fails its check leaves the engine. RELEASE takes the pass that issued
first, a pre-empted replay among them while a successor waits for it. One that is judged, whose outputs lie on no
moving page and fault nowhere, which has no stot and whose command has no fix-up pass to run, leaves the tile:
memory is what writing the held bytes of its four output patterns in order gives, MT_PASSCNT of the engine that
ran it counts one, and its gate signal is sent for its context. With a single output pattern, every byte whose
place that pattern does not name is unchanged. One whose check is unresolved leaves with no byte of memory
changed. (R66, R69, R72, R74, R75, R77, R131, R134, R139.) -/
def Obligations.PassDrainVerdictRelease : Prop :=
  (∀ (s : State) (e : Fin 64) (p : Pass),
    (∀ (fs : List (Fin 129 × Fin 65 × W32)) (q : Pass), s.drainNext e = some p → p.bank < 2 → s.heldCount e < 3 →
      (s.eng e).retired = false → s.anyMoving p.ctx p.d.epiAddrs = false →
      let cur := (s.reg (rVtSrm e p.slot)).toNat
      let start := if p.replayOf = true then p.srm0.getD cur else cur
      s.drainRun e p (perturbs fs) start = .ok q →
      ∃ t, exec (.drainStart e fs) s = .next t ∧
        (t.eng e).passes = (s.eng e).passes.map (fun r =>
          if r.seq = p.seq then { q with phase := .drained, srm0 := some start } else r) ∧
        t.reg (rMtExc e p.bank) = BitVec.ofNat 64 q.acc.exc.word ∧ t.mem = s.mem ∧
        (p.replayOf = true → t.reg (rVtSrm e p.slot) = s.reg (rVtSrm e p.slot)) ∧
        (p.replayOf = false → t.reg (rVtSrm e p.slot) = BitVec.ofNat 64 (drawsFrom q.draws cur).2)) ∧
    (∀ o : PassOp, leastBy Pass.runNo ((s.eng e).passes.filter (fun q => q.phase == .drained)) = some p →
      p.op = some o → p.replayOf = false →
      let v := (o.tests p.acc p.faults p.tolsh).verdict
      (v ≠ .fail → s.outFault e p = none → ∃ t, exec (.verdict e) s = .next t ∧ t.mem = s.mem ∧
        (∀ q ∈ (t.eng e).passes, q.seq = p.seq → q.phase = .judged ∧ q.held = p.held ∧
          q.verdict = (if v = .ckne then 1 else 0) ∧ q.verdictDt = s.dt ∧ (v = .ckne → q.ckne = true))) ∧
      (v = .fail → ∃ t, exec (.verdict e) s = .next t ∧ t.mem = s.mem ∧ t.regs = s.regs ∧
        (∀ q ∈ (t.eng e).passes, q.seq = p.seq → q.phase = .failed ∧ q.held = {} ∧ q.failDt = s.dt)))) ∧
  (∀ (s : State) (e : Fin 64) (p : Pass),
    leastBy Pass.issueNo ((s.eng e).passes.filter (fun q => q.phase != .queued && (q.phase != .saved || s.keepsPlace e q))) = some p →
    (∀ c, s.cmd p.cmd = some c → c.fixes = []) →
    let out (u : State) (d : Option SDesc) (bs : List Byte) : State := match d with
      | none => u
      | some d => (u.scatter e p.slot p.ctx d.loc d.addrs bs p.poison).1
    let runner : Nat := if p.byPartner = true then p.partnerEng else e
    (p.phase = .judged → runner < 64 → p.d.stot = none → s.anyMoving p.ctx p.d.outAddrs = false → s.outFault e p = none →
      ∃ t, exec (.release e) s = .next t ∧ (∀ q ∈ (t.eng e).passes, q.seq ≠ p.seq) ∧
        t.mem = (out (out (out (out s p.d.out p.held.main) p.d.scout p.held.scales) p.d.side p.held.side)
          p.d.tkout p.held.cands).mem ∧
        t.reg (rMtPasscnt runner) = s.reg (rMtPasscnt runner) + 1 ∧
        (∀ d, p.d.outs = [d] → ∀ a,
          (∀ b, .dev b ∈ (s.placesOf e p.slot p.ctx d.loc true d.addrs).1 → s.memKey b ≠ s.memKey a) →
          t.byte a = s.byte a) ∧
        (p.d.sig = true →
          { gate := p.d.sigGate, ctx := p.ctx, gen := p.gen, src := passSrc e p.slot } ∈
            (t.eng (s.hostOf e p.ctx)).sigs)) ∧
    (p.phase = .dead → ∃ t, exec (.release e) s = .next t ∧ (∀ q ∈ (t.eng e).passes, q.seq ≠ p.seq) ∧ t.mem = s.mem))

/-- O29, tier 2. REPLAY runs the oldest failed pass of an open tile again from step 0 with cleared accumulators.
PARTNER_RUN runs a pass whose replay failed on the partner, where no page of it is moving; a partner that passes
leaves it deliverable, with a persistent fault counted, the partner's bank showing the run's exception record, and
a repair due behind those that are due already. LINE_REMAP on a quiet tile takes the first free spare of Table 3.5
whose built-in test passes, for the line at fault or the one that a faulty spare serves, shows it in MT_REMAP and
sends LINE_REMAP to partition 0, and the next repair is due; with no spare left or an unlocated fault the engine's
retirement is due. (R77, R78, R79.) -/
def Obligations.PassRecovery : Prop :=
  ∀ (s : State) (e : Fin 64) (p : Pass) (o : PassOp),
    (leastBy Pass.issueNo ((s.eng e).passes.filter (fun q => q.phase == .failed && !s.frozenOn e q.ctx)) = some p →
      p.op = some o → s.tileOpen e = true → (s.endIssue e).bankFree e p.bank = true →
      ∃ t, exec (.replay e) s = .next t ∧ t.reg (rMtExc e p.bank) = 0 ∧ t.mem = s.mem ∧
        (∀ q ∈ (t.eng e).passes, q.seq = p.seq →
          q.phase = .issuing ∧ q.grp = 0 ∧ q.acc = o.start ∧ q.replayOf = true ∧ q.runNo = (s.eng e).issued + 1)) ∧
    (∀ (fs : List (Fin 129 × Fin 65 × W32)) (m : Nat) (q : Pass),
      leastBy Pass.issueNo ((s.eng e).passes.filter (fun q => q.phase == .partner)) = some p → p.op = some o →
      s.partnerOf e = some m → s.anyMoving p.ctx (p.d.epiAddrs ++ p.d.outAddrs) = false →
      let b := (s.yieldTile m).partnerBank m
      let p' : Pass := { p with grp := 0, acc := o.start, runs := p.runs + 1, startDt := s.dt, byPartner := true,
                                partnerEng := m }
      ((s.yieldTile m).setReg (rMtExc m b) 0).drainRun e p' (perturbs fs) (p.srm0.getD 0) = .ok q →
      (o.tests q.acc q.faults (s.fld (rMtCktol m) 0 6)).verdict = .pass → s.outFault e q = none →
      ∃ t, exec (.partnerRun e fs) s = .next t ∧ t.mem = s.mem ∧
        t.fld (rMtCkstat e) 16 16 = min 0xFFFF (s.fld (rMtCkstat e) 16 16 + 1) ∧
        t.reg (rMtExc m b) = BitVec.ofNat 64 q.acc.exc.word ∧
        (t.eng e).repair = (match (s.eng e).repair with
          | none => some { loc := p.loc.1 }
          | some r => some { r with more := r.more ++ [p.loc.1] }) ∧
        (∀ r ∈ (t.eng e).passes, r.seq = p.seq → r.phase = .judged ∧ r.held = q.held)) ∧
    (∀ (r : Repair) (ts : List Bool), (s.eng e).repair = some r → s.tileQuiet e = true →
      let w := s.reg (rMtRemap e)
      let l := repairLine w r.loc
      let x := if l = .unlocated then (w, false) else spareTry l 3 ts (spareDoubt w l)
      ∃ t, exec (.lineRemap e ts) s = .next t ∧ t.reg (rMtRemap e) = x.1 ∧ t.mem = s.mem ∧
        (t.eng e).repair = (if x.2 then r.next l x.1 else none) ∧
        (x.2 = true → ∃ v ∈ (t.part 0).events, v.code = stLineRemap ∧ v.arg0 = BitVec.ofNat 64 e ∧ v.arg1 = x.1) ∧
        (x.2 = false → (t.eng e).retiring = some 0))

/-- O30, tier 2. A pass that must yield and has more groups left than those it still adds is saved at that boundary by
PASS_PREEMPT with its accumulators; PASS_RESUME takes a saved pass whose turn it is into a free bank of an open
tile that no failed pass waits for, at the group where it stopped, with a new place in the release order unless it
is a replay that a successor waits for. Adding g groups and then h more gives the same accumulators as adding g +
h at once, so a pre-empted pass gives the bits of one that was not. (R65, R80, R82.) -/
def Obligations.PassPreemptionIsExact : Prop :=
  (∀ (s : State) (e : Fin 64) (p : Pass) (o : PassOp) (g : Nat),
    (s.eng e).passes.find? (fun q => q.phase == .issuing) = some p → p.op = some o → s.preemptDue e p = true →
    p.grp + g < o.groups →
    ∃ t, exec (.passPreempt e g) s = .next t ∧ t.mem = s.mem ∧
      (∀ q ∈ (t.eng e).passes, q.seq = p.seq → q.phase = .saved ∧ q.grp = p.grp + g ∧
        q.acc = o.runGroups g p.grp p.acc)) ∧
  (∀ (s : State) (e : Fin 64) (b : Fin 2) (p : Pass), s.nextPass e = some p → p.phase = .saved →
    s.tileOpen e = true → (s.endIssue e).bankFree e b = true →
    s.replayWaits e = false →
    ∃ t, exec (.passResume e b) s = .next t ∧ t.reg (rMtExc e b) = BitVec.ofNat 64 p.acc.exc.word ∧ t.mem = s.mem ∧
      (t.eng e).passes = ((s.endIssue e).eng e).passes.map (fun q => if q.seq = p.seq then
        { q with phase := .issuing, bank := b, runNo := (s.eng e).issued + 1,
                 issueNo := if (s.endIssue e).keepsPlace e q = true then q.issueNo else (s.eng e).issued + 1 } else q)) ∧
  (∀ (o : PassOp) (g h i : Nat) (a : AccSt), o.runGroups (g + h) i a = o.runGroups h (i + g) (o.runGroups g i a))

/-- O31, tier 2. STREAM_DESCRIPTOR_START: the waiting descriptor of highest class of a stream engine, on no moving
page, starts when none runs there; one that will not fault moves nothing yet, a PEER_WRITE changes no memory.
While one of a lower class runs, it first yields at a whole number of 4 KiB pieces, and keeps running from there
in its turn; one in its last piece goes on alone. STREAM_DESCRIPTOR_COMPLETE: the running descriptor moves the
rest of its bytes; one without a fault is finished, its signal is sent, and every byte of memory whose place it
does not name as a target keeps its content; one with a fault stops, freezes its context and shows the time in
ES_SFAULTDT. A running PEER_WRITE completes once its operation has, and signals unless it was refused. Where only
descriptors of frozen contexts run, the first stops. (R128, R129, R133, R139, R151, R272.) -/
def Obligations.StreamDescriptorsRun : Prop :=
  ∀ (s : State) (e : Fin 64) (se : Fin 4) (t : Stream), s.streamMoving t = false →
    (∀ u ∈ (s.eng e).streams, u.seq = t.seq → u = t) →
    let heads := s.streamHeads e se
    let peer := t.d.mode == 5
    let scan := s.moveScan e t.slot t.ctx peer (t.d.ends.drop t.pos)
    (leastStream (heads.filter (fun u => !u.started)) = some t → (s.eng e).retired = false → (s.eng e).hung = false →
      s.runs = true → scan.2 = none →
      ((∀ u ∈ heads, u.started = false) →
        ∃ r, exec (.streamDescriptorStart e se) s = .next r ∧ r.mem = s.mem ∧
          (∃ u ∈ (r.eng e).streams, u.seq = t.seq ∧ u.started = true) ∧
          (t.d.mode ≠ 5 → (r.eng e).streams =
            (s.eng e).streams.map (fun u => if u.seq = t.seq then { u with started := true } else u))) ∧
      (∀ u, leastStream (heads.filter Stream.started) = some u → t.cls < u.cls → u.d.mode ≠ 5 → s.streamMoving u = false →
        (∀ v ∈ (s.eng e).streams, v.seq = u.seq → v = u) →
        (s.moveScan e u.slot u.ctx false (u.d.ends.drop u.pos)).2 = none →
        (u.pieces ≤ 1 → exec (.streamDescriptorStart e se) s = .next s) ∧
        (1 < u.pieces → ∃ r k v, exec (.streamDescriptorStart e se) s = .next r ∧ 0 < k ∧ k < u.pieces ∧
          v ∈ (r.eng e).streams ∧ v.seq = u.seq ∧ v.started = true ∧ v.pos = u.pos + 4096 * k))) ∧
    (leastStream (heads.filter Stream.started) = some t →
      (t.d.mode ≠ 5 → ∃ r, exec (.streamDescriptorComplete e se) s = .next r ∧
        (∀ a, (∀ b, .dev b ∈ scan.1.map Prod.snd → s.memKey b ≠ s.memKey a) →
          tget emptyByte r.mem (s.memKey a) = s.byte a ∧ (scan.2 = none → r.byte a = s.byte a)) ∧
        (scan.2 = none → (∀ u ∈ (r.eng e).streams, u.seq ≠ t.seq) ∧
          (t.d.sig = true → { gate := t.d.sigGate, ctx := t.ctx, gen := t.gen, src := streamSrc e t.slot t.se } ∈
            (r.eng (s.hostOf t.d.sigEng t.ctx)).sigs)) ∧
        (∀ f, scan.2 = some f → (r.ctx t.ctx).frozen.isSome = true ∧ r.reg (rEsSfaultdt e) = s.dt)) ∧
      (t.d.mode = 5 → (∀ o ∈ s.net.ops, t.op ≠ some o.id) →
        ∃ r, exec (.streamDescriptorComplete e se) s = .next r ∧ r.mem = s.mem ∧
          (∀ u ∈ (r.eng e).streams, u.seq ≠ t.seq) ∧
          (t.d.sig = true → t.op.isSome = true →
            { gate := t.d.sigGate, ctx := t.ctx, gen := t.gen, src := streamSrc e t.slot t.se } ∈
              (r.eng (s.hostOf t.d.sigEng t.ctx)).sigs)) ∧
      (t.d.mode = 5 → (∃ o ∈ s.net.ops, t.op = some o.id) → exec (.streamDescriptorComplete e se) s = .next s)) ∧
    (heads.filter Stream.started = [] → leastStream ((s.headsOf e se true).filter Stream.started) = some t →
      t.d.mode ≠ 5 → ∃ r, exec (.streamDescriptorComplete e se) s = .next r ∧
        (∀ u ∈ (r.eng e).streams, u.seq = t.seq → u.started = false))

/-- O32, tier 2. The rows of Table 9.3 have the opcodes, the management marks and the frozen-context exceptions that
it gives. When a queue may be served and its entry is of a row's opcode, HEAD passes the entry; an entry that
fails a check gets a record with that status, START and END at DT, and starts nothing, its queue being frozen too
for NOT_OWNER; one that must wait joins the held commands and starts nothing; one that need not wait begins its
row's work at once. (R239, R241, R243, R244, R245.) -/
def Obligations.QueueEntries : Prop :=
  queueRows.map (fun x => (x.1.op, x.1.mgmt, x.1.thaw)) =
    [(0x00, false, false), (0x01, true, false), (0x02, true, false), (0x03, true, false), (0x04, true, false),
     (0x05, true, false), (0x06, true, false), (0x07, true, false), (0x08, true, false), (0x09, true, false),
     (0x0A, true, false), (0x0B, true, false), (0x0C, true, false), (0x20, false, false), (0x21, false, false),
     (0x22, false, false), (0x23, false, true), (0x24, false, true), (0x25, false, false), (0x26, false, false),
     (0x27, false, false), (0x28, false, false), (0x29, false, false), (0x2A, false, false), (0x2B, false, false),
     (0x2C, false, false), (0x2D, false, false), (0x2E, false, false), (0x2F, false, true), (0x30, false, false),
     (0x31, false, true), (0x38, false, false), (0x39, false, false), (0x3A, false, false), (0x3B, false, false)] ∧
  ∀ x ∈ queueRows, ∀ (s : State) (q : Fin 16384), s.mayServe q = true → (s.readEntry q).opcode = x.1.op →
    let c := s.readEntry q
    let p := s.passEntry q
    let head (t : State) : Prop := t.fld (rQpQ q) 16 16 = ((s.fld (rQpQ q) 16 16 + 1) % s.qDepth q) % 2 ^ 16
    let refused (t : State) (st : Nat) (froze : Bool) : Prop := head t ∧ t.cmds = s.cmds ∧ t.mem = s.mem ∧
      (t.queue q).recs = (s.queue q).recs ++
        [{ c with st := .done, status := st, froze := froze, start := s.dt, fin := s.dt }]
    (∀ st, st ≠ 0 → p.entryStatus x.1 c (s.entryPoison q) = (st, false) →
      ∃ t, exec (x.2 q) s = .next t ∧ refused t st false ∧ t.fld (rQpQ q) 60 1 = s.fld (rQpQ q) 60 1) ∧
    (∀ st, st ≠ 0 → p.entryStatus x.1 c (s.entryPoison q) = (st, true) →
      ∃ t, exec (x.2 q) s = .next t ∧ refused t st true ∧ t.fld (rQpQ q) 60 1 = 1) ∧
    (p.entryStatus x.1 c (s.entryPoison q) = (0, false) → (s.queued x.1 q).mustHold x.1 (s.taken x.1 q) = true →
      ∃ t, exec (x.2 q) s = .next t ∧ head t ∧ t.cmds = s.cmds ++ [s.taken x.1 q] ∧ t.mem = s.mem ∧
        t.engs = s.engs ∧ t.ctxs = s.ctxs) ∧
    (s.starts x.1 q → exec (x.2 q) s = .next (x.1.start (s.running x.1 q) (s.runningCmd x.1 q)))

/-- O33, tier 2. When such a command starts at once it has the effect that its rule gives: QP_PART takes the ranges; a
grant joins the partition's grants, a revoke waits for the partition's commands that were accepted before it and
have not completed; QP_PREG takes the rates; a register's value goes to the host; a plain register takes the
merged value; a queue is enabled with its ring and class, or closed; a context exists with its root, seed and
controls, its tag going to the host; the settings that CTX_CONFIG names change, in its slots too. Each but a
revoke is then finished with SUCCESS. (R9, R186, R233, R236, R250, R251, R252, R452.) -/
def Obligations.CommandsOverPartitionsAndQueues : Prop :=
  ∀ (s : State) (q : Fin 16384),
    let row (r : CmdRow) (i : Instr) (p : Cmd → State → Prop) : Prop := s.starts r q →
      ∃ t, exec i s = .next t ∧ p (s.taken r q) t
    row nopRow (.nop q) (fun _ t => s.finishes t q 0 ∧ t.mem = s.mem) ∧
    row xlateInvalRow (.xlateInval q) (fun _ t => s.finishes t q 0 ∧ t.mem = s.mem) ∧
    row partConfigRow (.partConfig q) (fun c t => s.finishes t q 0 ∧
      t.fld (rQpPart (c.opf 0 0 3)) 63 1 = c.opf 0 3 1 ∧ t.fld (rQpPart (c.opf 0 0 3)) 0 14 = c.opf 0 16 14 ∧
      t.fld (rQpPart (c.opf 0 0 3)) 14 15 = c.opf 0 32 15 ∧ t.fld (rQpPart (c.opf 0 0 3)) 42 10 = c.opf 1 0 10 ∧
      t.fld (rQpPart (c.opf 0 0 3)) 52 11 = c.opf 1 16 11 ∧ (t.part (c.opf 0 0 3)).evAddr = (c.op 2).toNat) ∧
    row partGrantRow (.partGrant q) (fun c t =>
      if c.opf 0 3 1 = 1 then s.keepsRunning t q ∧ (t.part (c.opf 0 0 3)).grants = (s.part (c.opf 0 0 3)).grants ∧
        ∃ r ∈ (t.part (c.opf 0 0 3)).revoking, r.cmd = s.nextCmd ∧ r.grant = c.grant ∧
          r.waits = (s.cmds.filter (fun d => d.part == c.opf 0 0 3 && decide (d.id < s.nextCmd))).map Cmd.id
      else s.finishes t q 0 ∧ c.grant ∈ (t.part (c.opf 0 0 3)).grants) ∧
    row partRegulateRow (.partRegulate q) (fun c t => s.finishes t q 0 ∧ t.reg (rQpPreg (c.opf 0 0 3)) = c.op 1) ∧
    row regReadRow (.regRead q) (fun c t => s.entRefuses (hostEnt c.part) = none →
      s.finishes t q 0 ∧ t.toHost c.part (c.op 1).toNat
        (leBytes 8 ((s.running regReadRow q).regRead ((c.op 0).toNat - regBase)).toNat)) ∧
    row regWriteRow (.regWrite q) (fun c t => ∀ d, regDef ((c.op 0).toNat - regBase) = some d →
      regAct ((c.op 0).toNat - regBase) = .plain → s.finishes t q 0 ∧ t.reg ((c.op 0).toNat - regBase) =
        mergeWrite d ((s.running regWriteRow q).reg ((c.op 0).toNat - regBase)) (c.op 1)) ∧
    row queueCreateRow (.queueCreate q) (fun c t => s.finishes t q 0 ∧
      t.reg (rQpQ (c.opf 0 0 14)) = BitVec.ofNat 64 (fv 61 1 1 + fv 55 3 c.part + fv 53 2 (c.opf 0 21 2) +
        fv 48 5 (c.opf 0 16 5)) ∧
      (t.queue (c.opf 0 0 14)).ring = (c.op 1).toNat ∧ (t.queue (c.opf 0 0 14)).chost = (c.op 2).toNat) ∧
    row queueDeleteRow (.queueDelete q) (fun c t => s.finishes t q 0 ∧
      (c.opf 0 0 14 ≠ q → t.reg (rQpQ (c.opf 0 0 14)) = 0 ∧ t.queue (c.opf 0 0 14) = {})) ∧
    row ctxCreateRow (.ctxCreate q) (fun c t =>
      t.ctx c.ctx = { live := true, gen := (s.ctx c.ctx).gen, root := some (c.op 1).toNat, seed := c.op 2,
                      mtftz := c.opf 3 0 1 == 1, vtftz := c.opf 3 1 1 == 1, hcap := c.opf 3 16 12 } ∧
      (s.entRefuses (hostEnt c.part) = none →
        s.finishes t q 0 ∧ t.toHost c.part (c.op 4).toNat (leBytes 8 (s.ctx c.ctx).gen))) ∧
    row ctxConfigRow (.ctxConfig q) (fun c t => s.finishes t q 0 ∧
      (t.ctx c.ctx).root = (if c.opf 0 0 1 = 1 then some (c.op 1).toNat else (s.ctx c.ctx).root) ∧
      (t.ctx c.ctx).seed = (if c.opf 0 1 1 = 1 then c.op 2 else (s.ctx c.ctx).seed) ∧
      (t.ctx c.ctx).hcap = (if c.opf 0 2 1 = 1 then c.opf 3 16 12 else (s.ctx c.ctx).hcap) ∧
      (∀ n k, n < 64 → s.slotOf n c.ctx = some k → c.opf 0 1 1 = 1 →
        t.reg (rVtSrm n k) = BitVec.ofNat 64 (seedState (c.op 2).toNat)))

/-- O34, tier 2. When such a command starts at once: CTX_PLACE gives the context a PLACED slot on every engine of the
mask with its window sizes and gates; CTX_UNPLACE empties its slots; IMEM_WRITE writes the words into every
window; RUN gives every slot the program's first state; CHAIN puts every pass of its plan into the queue of its
slot; CONVERT writes the converted planes and no other memory; COPY submits its one COPY descriptor. (R123, R253,
R254, R255, R256.) -/
def Obligations.CommandsOnEngines : Prop :=
  ∀ (s : State) (q : Fin 16384),
    let row (r : CmdRow) (i : Instr) (p : Cmd → State → Prop) : Prop := s.starts r q →
      ∃ t, exec i s = .next t ∧ p (s.taken r q) t
    row ctxPlaceRow (.ctxPlace q) (fun c t => s.finishes t q 0 ∧ ∀ n ∈ maskEngines (c.op 0), ∃ k, k < 8 ∧
      (s.slot n k).st = .empty ∧ t.slot n k = { st := .placed, ctx := c.ctx, gen := (s.ctx c.ctx).gen } ∧
      t.fld (rEsImwin n k) 16 9 = c.opf 1 0 9 ∧ t.fld (rVtLmwin n k) 8 8 = c.opf 1 16 8 ∧
      (∀ g ∈ c.gates, t.fld (rEsGate n g) 63 1 = 1 ∧ t.fld (rEsGate n g) 40 10 = c.ctx ∧ t.gateCount n g = 0)) ∧
    row ctxUnplaceRow (.ctxUnplace q) (fun c t => s.finishes t q 0 ∧
      ∀ n ∈ maskEngines (c.op 0), ∀ h k, s.seat n c.ctx = some (h, k) → t.slot h k = {}) ∧
    row imemWriteRow (.imemWrite q) (fun c t => ∀ bs, s.cmdBytes c.ctx (c.op 1).toNat (c.op 2).toNat = .ok bs →
      s.finishes t q 0 ∧ ∀ n ∈ maskEngines (c.op 0), ∀ h k, s.seat n c.ctx = some (h, k) → h < 64 → ∀ i, i < bs.length / 4 →
        tget 0 (t.eng h).imem (s.fld (rEsImwin h k) 0 8 * 256 + (c.op 3).toNat / 4 + i) =
          BitVec.ofNat 32 (leNat ((bs.drop (4 * i)).take 4))) ∧
    row runRow (.run q) (fun c t => c.engines ≠ [] →
      ((maskEngines (c.op 0)).map (fun n => s.hostOf n c.ctx)).Nodup → s.keepsRunning t q ∧
      ∀ j n h k, (maskEngines (c.op 0))[j]? = some n → s.seat n c.ctx = some (h, k) →
        t.slot h k = (s.slot h k).program (s.queueClass q) s.nextCmd (c.opf 1 0 16) (c.op 2).toNat j
          (maskEngines (c.op 0)).length (s.ctx c.ctx).gen) ∧
    row chainRow (.chain q) (fun _ t => ∀ p, (s.running chainRow q).chainPlan (s.runningCmd chainRow q) = .ok p →
      s.keepsRunning t q ∧ t.mem = s.mem ∧ ∀ x ∈ p.links, ∃ y ∈ (t.eng x.2.eng).passes,
        y.d = x.2.d ∧ y.stage = x.2.stage ∧ y.slot = x.2.slot ∧ y.cmd = s.nextCmd ∧ y.phase = .queued) ∧
    row convertRow (.convert q) (fun c t =>
      let v := c.conv
      let src (i n k len : Nat) : Gath := if len = 0 then .ok [] false
        else s.gather n k c.ctx false (planeContent (c.op i).toNat v.rows len)
      ∀ n ns k f o els scs p1 p2, (s.runningCmd convertRow q).engines = n :: ns → n < 64 → s.slotOf n c.ctx = some k →
        n < 64 → Fmt.ofCode v.src = some f → Fmt.ofCode v.dst = some o →
        src 0 n k (convElems f v.k) = .ok els p1 → src 1 n k (convScales f v.sblk v.k) = .ok scs p2 →
        let tb := (Cvtc.ofByte v.cvtc).blk32
        let draws := drawsFrom (if (Cvtc.ofByte v.cvtc).round = 2 then v.rows * v.k else 0) (s.reg (rVtSrv n k)).toNat
        let out := convRows f o v els scs draws.1
        let dst := planeWhole (c.op 2).toNat v.rows (convElems o v.k) ++
          (if convBlock o tb = 0 then [] else planeWhole (c.op 3).toNat v.rows (convScales o tb v.k))
        (s.placesOf n k c.ctx false true dst).2 = none →
        t.mem = (s.scatter n k c.ctx false dst (out.1 ++ out.2.1) (p1 || p2)).1.mem ∧
          t.reg (rVtSrv n k) = BitVec.ofNat 64 draws.2 ∧ ∃ d ∈ (t.queue q).recs, d.id = s.nextCmd) ∧
    row copyRow (.copy q) (fun c t => ∀ n ns k, (s.runningCmd copyRow q).engines = n :: ns →
      s.slotOf n c.ctx = some k → s.keepsRunning t q ∧ t.mem = s.mem ∧
      (t.eng n).streams = (s.eng n).streams ++
        [{ seq := (s.eng n).seq, slot := k, ctx := c.ctx, gen := (s.ctx c.ctx).gen, cls := s.queueClass q,
           cmd := s.nextCmd, se := 0, d := { base := (c.op 0).toNat, n0 := (c.op 2).toNat, mode := 3,
                                             addr2 := (c.op 1).toNat } }])

/-- O35, tier 2. When such a command starts at once: GATE_SIGNAL adds its value to a gate that the context owns, and
freezes a context that does not own it; STOT_DISCARD removes the reductions it names; FREEZE and UNFREEZE set and
clear the freeze of the named master; HBM_REGION writes the region's mode, slice, key and EN; REKEY begins a re-
key of its region; RETIRE makes an engine's retirement due, or begins that of a pseudo-channel of a stack that has
retired none; PAGE_MOVE queues its list. (R142, R177, R189, R195, R200, R201, R259.) -/
def Obligations.CommandsOnMastersAndMemory : Prop :=
  ∀ (s : State) (q : Fin 16384),
    let row (r : CmdRow) (i : Instr) (p : Cmd → State → Prop) : Prop := s.starts r q →
      ∃ t, exec i s = .next t ∧ p (s.taken r q) t
    row gateSignalRow (.gateSignal q) (fun c t =>
      let n := s.hostOf (c.opf 0 0 6) c.ctx
      let g := c.opf 0 8 8
      (s.ownsGate n g c.ctx = true → n < 64 → s.gateCount n g + c.opf 1 0 32 < 2 ^ 32 →
        s.finishes t q 0 ∧ t.gateCount n g = s.gateCount n g + c.opf 1 0 32) ∧
      (s.ownsGate n g c.ctx = false → n < 64 → (t.ctx c.ctx).frozen.isSome = true)) ∧
    row stotDiscardRow (.stotDiscard q) (fun c t => s.finishes t q 0 ∧ t.reds = s.reds.filter (fun r => !c.discards r)) ∧
    row freezeRow (.freeze q) (fun c t => t.masterFrozen (c.opf 0 0 3) (c.opf 0 16 14) = true ∧ t.mem = s.mem) ∧
    row unfreezeRow (.unfreeze q) (fun c t => (∀ d ∈ s.cmds, d.isRom = false) →
      s.tornPort (c.opf 0 0 3) (c.opf 0 16 14) = false →
      s.finishes t q 0 ∧ t.masterFrozen (c.opf 0 0 3) (c.opf 0 16 14) = false ∧ t.mem = s.mem) ∧
    row hbmRegionRow (.hbmRegion q) (fun c t => s.finishes t q 0 ∧ t.fld (rHbmRgn (c.opf 0 0 9)) 14 1 = c.opf 0 9 1 ∧
      t.fld (rHbmRgn (c.opf 0 0 9)) 0 2 = c.opf 0 10 2 ∧ t.fld (rHbmRgn (c.opf 0 0 9)) 2 2 = c.opf 0 12 2 ∧
      t.fld (rHbmRgn (c.opf 0 0 9)) 4 9 = c.opf 0 14 9) ∧
    row rekeyRow (.rekey q) (fun c t => s.keepsRunning t q ∧ t.fld (rHbmRgn (c.opf 0 0 9)) 13 1 = 1 ∧ t.mem = s.mem ∧
      t.rekeys = s.rekeys ++ [{ r := c.opf 0 0 9, t := c.opf 0 9 9, key := c.opf 0 18 2, cmd := s.nextCmd }]) ∧
    row retireRow (.retire q) (fun c t => (s.keepsRunning t q ∨ s.finishes t q 0) ∧
      (c.opf 0 0 2 = 0 → (t.eng (c.opf 0 8 10)).retiring = some 3) ∧
      (c.opf 0 0 2 = 1 → (∀ r ∈ s.pcRets, r.pc / 64 ≠ c.opf 0 8 10 / 64) →
        t.pcRets = s.pcRets ++ [{ pc := c.opf 0 8 10, cmd := s.nextCmd }])) ∧
    row pageMoveRow (.pageMove q) (fun _ t => ∀ l,
      (s.running pageMoveRow q).pageList (s.runningCmd pageMoveRow q) = .ok l → t.mem = s.mem ∧
      (∃ d ∈ t.cmds, d.id = s.nextCmd ∧ d.todo = l.map (fun x => [x.1, x.2.1, x.2.2])) ∧
      ∃ w ∈ t.works, w.kind = .pages s.nextCmd)

/-- O36, tier 2. When such a command starts at once: PEER_SET sets the entry up with the block's port, remote index,
context, tag, epoch and keys, or the partition's endpoint, and memory changes only by the wiping of the block's
key bytes; PEER_CLEAR of a set entry leaves it clearing (a frozen one once it is unfrozen) or unset, and of an
endpoint removes it; FAB_LOAD and FAB_BLANK queue for their dies' write ports, and once these are free the regions
that are to be cleared become BLANKING. (R269, R270, R271, R363, R364, R365, R366.) -/
def Obligations.CommandsOnPeersAndFabric : Prop :=
  ∀ (s : State) (q : Fin 16384),
    let row (r : CmdRow) (i : Instr) (p : Cmd → State → Prop) : Prop := s.starts r q →
      ∃ t, exec i s = .next t ∧ p (s.taken r q) t
    let ports (l : FLoad) (t : State) : Prop := (∀ x ∈ s.fab.loads, x.st ≠ .ports) →
      let todo := if l.blank ∨ l.full then l.regions else l.mask.filter (fun f => s.regSt f != 0)
      if s.fab.loads.all (fun x => !x.dies.any l.dies.contains) then
        todo ≠ [] → t.fab.loads = s.fab.loads ++ [{ l with st := .blanking, todo := todo }] ∧ t.mem = s.mem ∧
          s.keepsRunning t q ∧ ∀ f ∈ todo, t.regSt f = 5
      else t.fab = { s.fab with loads := s.fab.loads ++ [l] } ∧ t.mem = s.mem ∧ s.keepsRunning t q
    row peerSetRow (.peerSet q) (fun c t => ∀ ws, (s.running peerSetRow q).peerBlock (s.runningCmd peerSetRow q) = .ok ws →
      s.finishes t q 0 ∧ t.mem = ((s.running peerSetRow q).wipeKeys (s.runningCmd peerSetRow q)).mem ∧
      (c.opf 0 14 2 = 2 → tget {} t.net.endpoints (c.opf 0 16 3) = { v4 := blockBe ws 0 4, v6 := blockBe ws 0x10 16 }) ∧
      (c.opf 0 14 2 ≠ 2 → t.entState c.entry = 1 ∧ t.entPart c.entry = c.opf 0 16 3 ∧
        let e := t.ent c.entry
        let bytes := ws.flatMap (fun x => leBytes 8 x.toNat)
        e.udp = bf (ws.getD 0 0) 0 16 ∧ e.rindex = bf (ws.getD 0 0) 16 14 ∧ e.tctx = bf (ws.getD 0 0) 40 10 ∧
          e.tgen = bf (ws.getD 0 0) 50 12 ∧ e.epoch = bf (ws.getD 1 0) 0 8 ∧ e.seq = 0 ∧ e.txn = 1 ∧
          e.txKey = leNat ((bytes.drop 0x20).take 32) ∧ e.rxKey = leNat ((bytes.drop 0x40).take 32))) ∧
    row peerClearRow (.peerClear q) (fun c t =>
      (c.opf 0 14 2 = 2 → s.finishes t q 0 ∧ tget {} t.net.endpoints (c.opf 0 16 3) = {}) ∧
      (c.opf 0 14 2 ≠ 2 → t.mem = s.mem ∧ (t.entState c.entry = 0 ∨ t.entLife c.entry = 4))) ∧
    row fabLoadRow (.fabLoad q) (fun c t => ∀ fl b n,
      (s.running fabLoadRow q).loadSource (s.runningCmd fabLoadRow q) = some (fl, b, n) →
      ports { cmd := s.nextCmd, ctx := c.ctx, gen := c.gen, part := c.part, full := c.opf 0 0 1 == 1, flash := fl,
              base := b, bytes := n, mask := maskRegions (c.op 3) } t) ∧
    row fabBlankRow (.fabBlank q) (fun c t =>
      ports { cmd := s.nextCmd, ctx := c.ctx, gen := c.gen, part := c.part, blank := true,
              mask := maskRegions (c.op 0) } t)

/-- O37, tier 2. When such a command starts at once: FW_IMAGE of an object that verifies programs its flash area, and
with WARM resets the device, or ends with DEVICE_FAULT where the flash takes neither write, and one that does not
verify ends with that status; FW_PATCH of a good bundle begins at queue processor 0; DUMP is queued with its
units; CTX_TEARDOWN moves the context's tag one on and marks it as tearing down, and with no descriptor of the
context running changes no memory; RESET of an engine discards its work, clears its freeze and moves its domain
tag one on, of an ACTIVE region brings it into HOLD, and of the whole device keeps DT, empties memory and removes
every command and every context, each tag one on. (R387, R388, R389, R424, R427, R430, R435.) -/
def Obligations.CommandsOnTheDevice : Prop :=
  ∀ (s : State) (q : Fin 16384),
    let row (r : CmdRow) (i : Instr) (p : Cmd → State → Prop) : Prop := s.starts r q →
      ∃ t, exec i s = .next t ∧ p (s.taken r q) t
    row fwImageRow (.fwImage q) (fun c t => ∀ ob, s.cmdBytes c.ctx (c.op 0).toNat (c.op 1).toNat = .ok ob →
      let prov := c.opf 2 0 1 == 1
      let v := (s.running fwImageRow q).verify (if prov then .record else .image) ob
      let flash := ((s.running fwImageRow q).programImage prov ob).fab.flash
      (v = 0 → if (s.running fwImageRow q).flashTakes then t.fab.flash = flash ∧
          (c.opf 2 1 1 = 0 → s.finishes t q 0 ∧ t.mem = s.mem) ∧
          (c.opf 2 1 1 = 1 → t.dt = s.dt ∧ t.mem = [] ∧ t.cmds = [])
        else s.finishes t q stDeviceFault ∧ t.mem = s.mem) ∧
      (v ≠ 0 → isError v = true → s.finishes t q v ∧ t.fab.flash = s.fab.flash ∧ t.mem = s.mem)) ∧
    row fwPatchRow (.fwPatch q) (fun c t => ∀ ob, s.cmdBytes c.ctx (c.op 0).toNat (c.op 1).toNat = .ok ob →
      (s.running fwPatchRow q).patchStatus ob (c.opf 2 0 1 == 1) = 0 → s.keepsRunning t q ∧
        t.sec.patch = some { cmd := s.nextCmd, bundle := ob, persist := c.opf 2 0 1 == 1 } ∧ t.fld rQpStatus 0 4 = 1) ∧
    row dumpRow (.dump q) (fun c t => s.keepsRunning t q ∧ t.fld rDmpStat 0 1 = 1 ∧ t.mem = s.mem ∧
      ∃ d, t.rst.dumps = s.rst.dumps ++ [d] ∧ d.kind = 0 ∧ d.cmd = s.nextCmd ∧ d.dt = s.dt ∧
        d.resend = (c.opf 0 1 1 == 1) ∧ (c.opf 0 1 1 = 0 → c.opf 0 0 1 = 0 → d.units = summaryUnits)) ∧
    row ctxTeardownRow (.ctxTeardown q) (fun c t => s.keepsRunning t q ∧
      ((∀ p ∈ s.seatsOf c.ctx, ∀ u ∈ (s.eng p.1).streams, u.slot = p.2 → u.started = false) → t.mem = s.mem) ∧
      (t.ctx c.ctx).gen = ((s.ctx c.ctx).gen + 1) % 4096 ∧ (t.ctx c.ctx).tearing = true ∧
      (t.ctx c.ctx).tearDt = s.dt ∧ (t.ctx c.ctx).frozen = none) ∧
    row resetRow (.reset q) (fun c t =>
      let u := c.opf 0 8 14
      (c.opf 0 0 4 = 1 → t.dt = s.dt ∧ t.mem = [] ∧ t.cmds = [] ∧
        (∀ x, x < 1024 → (t.ctx x).gen = ((s.ctx x).gen + 1) % 4096 ∧ (t.ctx x).live = false) ∧
        (s.health.now = [] → s.openRets = [] → t.fld rRstCause 0 3 = 2)) ∧
      (c.opf 0 0 4 = 2 → ∀ x ∈ s.partCtxs u, (t.ctx x).tearing = true ∨ (t.ctx x).live = false) ∧
      (c.opf 0 0 4 = 3 → s.finishes t q 0 ∧ t.mem = s.mem ∧ (t.eng u).frozen = none ∧ (t.eng u).passes = [] ∧
        (t.eng u).streams = [] ∧ tget 0 t.noc.dgenE u = (tget 0 s.noc.dgenE u + 1) % 4096) ∧
      (c.opf 0 0 4 = 4 → t.mem = s.mem ∧ (s.regSt u = 4 → s.keepsRunning t q ∧ t.regSt u = 2) ∧
        (s.regSt u ≠ 4 → s.finishes t q 0)) ∧
      (c.opf 0 0 4 = 5 → s.finishes t q 0 ∧ t.mem = s.mem ∧ ∀ k, k < 4 → t.subEnabled u k = false → t.subSt u k = 0) ∧
      (c.opf 0 0 4 = 6 → s.finishes t q 0 ∧ t.mem = s.mem ∧ t.reg (rCxlCap u) = 0) ∧
      (c.opf 0 0 4 = 7 → t.mem = s.mem ∧ (u ∈ s.chList → u ∈ t.ddr.initing ∧ t.fld rPwrReady 2 1 = 0)))

/-- O38, tier 2. COMMAND_START of a held command that nothing holds any more runs its row's work, or ends it with the
status of an operand check that no longer passes. COMPLETION_RECORD_WRITE with room in the ring sends the 32-byte
record of the command that completed first to the host and takes it off the queue's records; with no room, or
while the host entry takes no write, it waits. EVENT_RECORD sends the partition's oldest event; with the ring full
it drops it and counts it, and once there is room again EVENT_LOST goes first with the count. (R239, R243, R244,
R260.) -/
def Obligations.HeldCommandsAndRecords : Prop :=
  (∀ (s : State) (id : Nat) (c : Cmd) (r : CmdRow), s.cmd id = some c → rowOf c.opcode = some r → s.runs = true →
    c.st = .held → s.mustHold r c = false →
    (c.started = true ∨ r.check s c = 0 → exec (.commandStart id) s = .next (s.startCmd r c)) ∧
    (c.started = false → r.check s c ≠ 0 → exec (.commandStart id) s = .next (s.endCmd id (r.check s c)))) ∧
  (∀ (s : State) (q : Fin 16384) (c : Cmd), s.partResetting (s.fld (rQpQ q) 55 3) = false →
    nextRec s.recReady (s.queue q).recs = some c → (c.opcode ≠ 0x21 ∨ c.opf 0 0 14 ≠ q ∨ c.status ≠ 0) →
    (s.cqRoom q = true → s.entRefuses (hostEnt (s.fld (rQpQ q) 55 3)) = none →
      ∃ t, exec (.completionRecordWrite q) s = .next t ∧ t.mem = s.mem ∧
        (t.queue q).recs = (s.queue q).recs.filter (fun d => d.id != c.id) ∧
        (t.queue q).cqIdx = (s.queue q).cqIdx + 1 ∧
        t.toHost (s.fld (rQpQ q) 55 3) ((s.queue q).chost + 32 * ((s.queue q).cqIdx % s.qDepth q))
          (c.record (s.fld (rQpQ q) 16 16) (ringPhase (s.queue q).cqIdx (s.qDepth q)))) ∧
    (s.cqRoom q = true → (s.entRefuses (hostEnt (s.fld (rQpQ q) 55 3))).isSome = true →
      exec (.completionRecordWrite q) s = .next s) ∧
    (s.cqRoom q = false → exec (.completionRecordWrite q) s = .next (s.cqSync q))) ∧
  (∀ (s : State) (p : Fin 8), (s.entRefuses (hostEnt p)).isSome = true → exec (.eventRecord p) s = .next s) ∧
  (∀ (s : State) (p : Fin 8) (v : Event) (vs : List Event), s.entRefuses (hostEnt p) = none →
    let x := s.part p
    (s.fld (rQpPevt p) 0 32 = 0 → x.events = v :: vs →
      ∃ t, exec (.eventRecord p) s = .next t ∧ (t.part p).events = vs ∧ t.mem = s.mem ∧
        if s.evRoom p then (t.part p).evIdx = x.evIdx + 1 ∧
          t.toHost p (x.evAddr + 32 * (x.evIdx % 2 ^ x.evDlog)) (v.record (ringPhase x.evIdx (2 ^ x.evDlog)))
        else t.fld (rQpPevt p) 0 32 = 1) ∧
    (s.fld (rQpPevt p) 0 32 ≠ 0 → s.evRoom p = true →
      ∃ t, exec (.eventRecord p) s = .next t ∧ (t.part p).events = x.events ∧ t.fld (rQpPevt p) 0 32 = 0 ∧
        ∃ e : Event, e.code = stEventLost ∧ e.arg0 = BitVec.ofNat 64 (s.fld (rQpPevt p) 0 32) ∧
          t.toHost p (x.evAddr + 32 * (x.evIdx % 2 ^ x.evDlog)) (e.record (ringPhase x.evIdx (2 ^ x.evDlog)))))

/-- O39, tier 2. The next packet of an entry goes to the row of its kind, and delivery moves on by one SEQ, in the
EPOCH before the one in force while it has a packet that is next. On a frozen entry it is dropped, counted and
refused with PEER_FROZEN; one whose tag a notice names, or whose context has gone, is refused with CONTEXT_STALE;
neither changes memory. Else a WRITE or READ_RESP whose addresses are all allowed writes its bytes and no other
byte of memory, and one with a refused address freezes the entry (HP0's host entry refuses the packet alone).
(R272, R277, R281, R282, R396.) -/
def Obligations.PacketDelivery : Prop :=
  ∀ (s : State) (i : Fin 16392) (p : Pkt) (c : Instr), s.delivers i p → pktRow p i = some c →
    let next (t : State) : Prop :=
      (t.ent i).rxNext = (if (s.ent i).early.isSome then (s.ent i).rxNext else ((s.ent i).rxNext + 1) % seqMod) ∧
        (t.ent i).prior = (s.ent i).taken.prior
    (s.entState i = 2 → ∃ t, exec c s = .next t ∧ next t ∧ t.refusedWith i p stPeerFrozen ∧
      (t.ent i).dropped = (s.ent i).dropped + 1 ∧ t.mem = s.mem) ∧
    (s.entState i ≠ 2 → s.stalePkt i p = true →
      ∃ t, exec c s = .next t ∧ next t ∧ t.refusedWith i p stContextStale ∧ t.mem = s.mem) ∧
    (s.entState i ≠ 2 → s.stalePkt i p = false → p.kind = 1 ∨ p.kind = 3 →
      (∀ ds, s.pktAddrs i p p.arg p.body.length true = .inl ds → ∃ t, exec c s = .next t ∧ next t ∧
        (∀ a, (∀ d ∈ ds, s.memKey d ≠ s.memKey a) → t.byte a = s.byte a) ∧
        (∀ (k d : Nat) (b : Byte), ds[k]? = some d → p.body[k]? = some b → isFabric d = false → s.lost d = false →
          (∀ (j x : Nat), k < j → ds[j]? = some x → s.memKey x ≠ s.memKey d) → t.byte d = b)) ∧
      (∀ st, s.pktAddrs i p p.arg p.body.length true = .inr st →
        ∃ t, exec c s = .next t ∧ next t ∧ s.violated t i p st ∧ t.mem = s.mem))

/-- O40, tier 2. On an entry that is not frozen, for a packet that is not stale: a READ of allowed addresses queues
its response packets to the requester's address; a doorbell of an enabled queue of the entry's partition sets TAIL
and CQHEAD, and of any other queue sends NOT_OWNER; a gate signal to an owned gate sets out with its value, one to
a gate that is not owned freezes the entry, and so does a DEVADDR one on a peer entry; a plain stot's data is
written, and its last packet signals the gate it names, or freezes the entry where TCTX does not own it; the first
contribution of a reduction of several ranks is kept with its bytes written. (R142, R176, R177, R237, R272, R281.) -/
def Obligations.PacketEffects : Prop :=
  ∀ (s : State) (i : Fin 16392) (p : Pkt), s.delivers i p → s.entState i ≠ 2 → s.stalePkt i p = false →
    (∀ ds, p.kind = 2 → s.entState i = 1 →
      s.pktAddrs i p p.arg (leNat ((p.body.drop 8).take 4)) false = .inl ds →
      ∃ t, exec (.read i) s = .next t ∧ t.mem = s.mem ∧
        ((t.ent i).tx.drop (s.ent i).tx.length).map TxPkt.p =
          s.dataPkts i 3 { sctx := p.tctx, sgen := p.tgen, tctx := (s.ent i).tctx, tgen := (s.ent i).tgen,
                           poison := (s.getAt ds).2 } (leNat (p.body.take 8)) (s.getAt ds).1) ∧
    (p.kind = 4 → p.arg = 0 → p.devaddr = false →
      let w := leNat (p.body.take 8)
      let q := bitsOf w 0 14
      bitsOf w 48 16 = 0 → bitsOf w 14 1 = 0 → ∃ t, exec (.doorbell i) s = .next t ∧ t.mem = s.mem ∧
        if s.fld (rQpQ q) 61 1 = 1 ∧ s.partOfQueue q = some (s.entPart i) then
          t.fld (rQpQ q) 0 16 = bitsOf w 16 16 ∧ (t.queue q).cqHead = bitsOf w 32 16
        else t.told (s.entPart i) stNotOwner ∧ t.regs = s.regs ∧ t.queues = s.queues) ∧
    (p.kind = 4 → p.arg = 1 → p.body ≠ [] →
      let w := leNat (p.body.take 8)
      let n := s.hostOf (bitsOf w 0 6) p.tctx
      if p.devaddr = true ∧ (i : Nat) < 16384 then
        ∃ t, exec (.gateSignalMessage i) s = .next t ∧ t.mem = s.mem ∧ s.violated t i p stPermFault
      else if s.ownsGate n (bitsOf w 8 8) p.tctx then
        ∃ t, exec (.gateSignalMessage i) s = .next t ∧ t.mem = s.mem ∧ (t.eng n).sigs = (s.eng n).sigs ++
          [{ gate := bitsOf w 8 8, value := bitsOf w 32 32, ctx := p.tctx, gen := p.tgen, src := 65536 + i }]
      else ∃ t, exec (.gateSignalMessage i) s = .next t ∧ t.mem = s.mem ∧ s.violated t i p stGateNotOwned) ∧
    (∀ ds, p.kind = 5 → p.body ≠ [] →
      let h := StotHdr.ofNat (leNat (p.body.take 24))
      let bs := p.body.drop 24
      s.pktAddrs i p p.arg bs.length true = .inl ds →
      (h.red = false → h.sig = false → ∃ t, exec (.stot i) s = .next t ∧ t.mem = (s.putAt ds bs p.poison).mem ∧
        t.reds = s.reds) ∧
      (h.red = false → h.sig = true → p.last = true →
        ∃ t, exec (.stot i) s = .next t ∧
          if s.ownsGate (s.hostOf h.sigEng p.tctx) h.sigGate p.tctx then
            (t.eng (s.hostOf h.sigEng p.tctx)).sigs = (s.eng (s.hostOf h.sigEng p.tctx)).sigs ++
              [{ gate := h.sigGate, value := 1, ctx := p.tctx, gen := p.tgen, src := 65536 + i }]
          else t.mem = s.mem ∧ s.violated t i p stGateNotOwned) ∧
      (h.red = true → p.first = true → 1 < h.nr → (∀ r ∈ s.reds, r.is p.tctx p.tgen h = false) →
        s.redCount ((s.partOfCtx p.tctx).getD 0) < 512 →
        ∃ t, exec (.stot i) s = .next t ∧ t.mem = (s.putAt ds bs p.poison).mem ∧
          t.reds = s.reds ++ [{ ctx := p.tctx, gen := p.tgen, tag := h.tag, addr2 := h.addr2, nr := h.nr,
                                parts := [{ rank := h.rank, ent := i, ofmt := wireOfmt p, pieces := [(p.arg, bs)],
                                            whole := p.last, poison := p.poison }] }]))

/-- O41, tier 2. ACK removes the packets that CUMACK passes, and ends each operation whose last packet it passed.
ACK_TIMER, PROBE and a NOTICE with room in the drop list send an ACK at once, one more for each further refusal
that waits; while received PFC stops the priority the ACK stays owed. PACKET_TRANSMIT of an entry that is up,
whose path is on a sub-port that is up, inside its window and not paused, sends its next packet sealed under TXN,
which goes up by one, with SEQ given at the first transmission; a notice that waits leaves first.
RETRANSMISSION_TIMER lets a packet wait to be sent again, and after RETRY times takes the entry DOWN.
PEER_CLEAR_TIMEOUT unsets a clearing entry after 2 ms, frozen or not. (One ACK per refusal is the model's reading:
log 87.) (R271, R273, R274, R275, R276, R278, R279, R282.) -/
def Obligations.AcknowledgementAndLoss : Prop :=
  ∀ (s : State) (i : Fin 16392),
    let e := s.ent i
    let k := e.nextPath % max 1 e.paths.length
    let paused := s.paused (e.path k).sub e.dscp
    let answers (c : Instr) (f : Entry → Entry) : Prop := ∃ t, exec c s = .next t ∧ t.mem = s.mem ∧
      (e.refused.length ≤ 1 → paused = false → s.acks t i (f (t.ent i))) ∧
      (paused = false → (t.ent i).refused = [] ∧ (t.ent i).unacked = 0 ∧
        t.net.out.length = s.net.out.length + max 1 e.refused.length) ∧
      (paused = true → 0 < (t.ent i).unacked ∧ t.net.out = s.net.out)
    (∀ p, e.inbox.find? (fun p => p.kind == 8) = some p → ∃ t, exec (.ack i) s = .next t ∧ t.mem = s.mem ∧
      (∀ x ∈ (t.ent i).tx, ∃ y ∈ e.tx, y.p.seq = x.p.seq ∧ y.num = x.num ∧ (ackOf p.body).covers y = false) ∧
      (∀ y ∈ e.tx, (∀ x ∈ e.tx, x.op = y.op → (ackOf p.body).covers x = true) → ∀ o ∈ t.net.ops, o.id ≠ y.op)) ∧
    (0 < e.unacked → answers (.ackTimer i) (fun _ => e)) ∧
    (∀ j p, e.inbox.findIdx? (fun p => p.kind == 9) = some j → e.inbox[j]? = some p → e.drops.length < 8 →
      answers (.notice i) (fun x => { e with inbox := e.inbox.eraseIdx j, echoDt := p.txdt, echoPath := p.path,
                                             drops := x.drops }) ∧
      ∃ t, exec (.notice i) s = .next t ∧ (t.ent i).inbox = e.inbox.eraseIdx j ∧
        (passed (beAt p.body 0 4) e.rxNext = false → (t.ent i).drops = e.drops ++
          [{ ctx := bitsOf p.arg 0 10, gen := bitsOf p.arg 10 12, last := beAt p.body 0 4 }])) ∧
    (∀ j p, e.inbox.findIdx? (fun p => p.kind == 10) = some j → e.inbox[j]? = some p →
      answers (.probe i) (fun _ => { e with inbox := e.inbox.eraseIdx j, echoDt := p.txdt, echoPath := p.path }) ∧
      ∃ t, exec (.probe i) s = .next t ∧ (t.ent i).inbox = e.inbox.eraseIdx j) ∧
    (s.runs = true → e.paths ≠ [] → (e.path k).sub ∈ s.upSubs → s.entState i = 1 → paused = false →
      (∀ (j : Nat) x, e.notes.findIdx? (fun y => !y.sent) = some j → e.notes[j]? = some x →
        ∃ t, exec (.packetTransmit i) s = .next t ∧ t.mem = s.mem ∧ (t.ent i).txn = e.txn + 1 ∧ (t.ent i).tx = e.tx ∧
          s.sends t i e { kind := 9, arg := fv 0 10 x.ctx + fv 10 12 x.gen, body := beBytes 4 x.last,
                          epoch := e.epoch, path := k, txn := e.txn, txdt := s.egress ((e.path k).sub / 4) }) ∧
      (∀ n x, (∀ y ∈ e.notes, y.sent = true) → e.nextTx = some (n, x) →
        e.flight + x.p.body.length ≤ s.fld (entReg i) 0 32 → e.reach n ≤ e.rwnd →
        ∃ t, exec (.packetTransmit i) s = .next t ∧ t.mem = s.mem ∧
          s.sends t i e { x.p with seq := if x.num then x.p.seq else e.seq, epoch := e.epoch, path := k, txn := e.txn,
                                   txdt := s.egress ((e.path k).sub / 4) } ∧
          (t.ent i).txn = e.txn + 1 ∧ (t.ent i).seq = (if x.num then e.seq else (e.seq + 1) % seqMod) ∧
          ∃ y, (t.ent i).tx[n]? = some y ∧ y.sent = true ∧ y.num = true ∧ y.op = x.op ∧
            y.due = s.dt.toNat + s.rto e * 2 ^ x.tries)) ∧
    (∀ seq n x, seq < seqMod → e.tx.findIdx? (fun y => y.num && y.p.seq == seq) = some n → e.tx[n]? = some x →
      x.sent = true → x.due ≤ s.dt.toNat → ∃ t, exec (.retransmissionTimer i seq) s = .next t ∧ t.mem = s.mem ∧
        if s.retry ≤ x.tries then (t.ent i).tx = [] ∧ (s.entState i = 1 → t.entState i = 3)
        else ∃ y, (t.ent i).tx[n]? = some y ∧ y.sent = false ∧ y.tries = x.tries + 1 ∧ y.p = x.p) ∧
    (s.entLife i = 4 → e.clearDt + dtMs 2 ≤ s.dt.toNat →
      ∃ t, exec (.peerClearTimeout i) s = .next t ∧ t.entState i = 0 ∧ t.ent i = {} ∧ t.mem = s.mem)

/-- O42, tier 2. A sub-port that is up drops and counts a frame with a bad FCS or of a size outside 64 to 9,216 bytes,
and a frame that nothing takes; one that does not fit the receive buffer is dropped and changes no register. Of a
frame that fits and is for the sub-port's address, a Coroc packet that fails the entry check is dropped and
counted; one that passes and is new and in room joins the reorder buffer (after a handshake one of the EPOCH
before joins those of its EPOCH), and an acknowledgement, notice or probe the entry's inbox, with its receive DT;
a Sync of the chosen master gives its receive time. PTP_DELAY_REQUEST notes the departure time and sends the
request; PTP_HOLDOVER after 3 s without a Sync enters holdover. (R265, R266, R268, R284, R285, R286, R299, R300,
R396.) -/
def Obligations.FramesAndPtp : Prop :=
  ∀ (s : State) (p : Fin 2) (k : Fin 4),
    (∀ m : FrameMeta, s.runs = true → s.subSt p k = 4 →
      let sized := 64 ≤ m.size ∧ m.size ≤ 9216
      (∀ f, f = .bad ∨ ¬ sized → ∃ t, exec (.frameReceive p k ⟨f, m⟩) s = .next t ∧
        t.fld (rEthRxdrop p) 32 32 = min (2 ^ 32 - 1) (s.fld (rEthRxdrop p) 32 32 + 1) ∧ t.mem = s.mem ∧
        t.net = s.net) ∧
      (∀ f, f ≠ .bad → (∀ qs, f ≠ .pfc qs) → sized → rxBuffer < m.wait + m.size →
        ∃ t, exec (.frameReceive p k ⟨f, m⟩) s = .next t ∧ t.regs = s.regs ∧ t.mem = s.mem ∧ t.net.ents = s.net.ents) ∧
      (sized → m.wait + m.size ≤ rxBuffer →
        (∃ t, exec (.frameReceive p k ⟨.other, m⟩) s = .next t ∧
          t.fld (rEthRxdrop p) 0 32 = min (2 ^ 32 - 1) (s.fld (rEthRxdrop p) 0 32 + 1) ∧ t.mem = s.mem) ∧
        (∀ f, (∀ qs, f ≠ .pfc qs) → f ≠ .bad → s.frameMine (4 * p + k) m.dmac = false →
          ∃ t, exec (.frameReceive p k ⟨f, m⟩) s = .next t ∧
            t.fld (rEthRxdrop p) 0 32 = min (2 ^ 32 - 1) (s.fld (rEthRxdrop p) 0 32 + 1) ∧ t.mem = s.mem ∧
            t.net.ents = s.net.ents) ∧
        (s.frameMine (4 * p + k) m.dmac = true →
          (∀ v6 ce src dst sport bytes part, s.endpointOf v6 dst = some part →
            let f : Frame := .udp v6 true ce src dst sport (s.fld rCtCtl 0 16) bytes
            (s.entryCheck part src sport bytes = none → ∃ t, exec (.frameReceive p k ⟨f, m⟩) s = .next t ∧
              t.fld rCtRxerr 32 32 = min (2 ^ 32 - 1) (s.fld rCtRxerr 32 32 + 1) ∧ t.net.ents = s.net.ents ∧
              t.mem = s.mem) ∧
            (∀ i q, s.entryCheck part src sport bytes = some (i, q) → bootPkt (bytes.take 48) = false →
              let x : Pkt := { q with rxdt := s.ingress p }
              (∀ y, (s.ent i).isEarly x = true → (s.ent i).prior = some y → x.kind < 8 → seqGap y.next x.seq ≤ 2 ^ 30 →
                (∀ z ∈ y.rx, z.seq ≠ x.seq) → s.net.rbuf + x.body.length ≤ 0x4000000 →
                ∃ t, exec (.frameReceive p k ⟨f, m⟩) s = .next t ∧ (t.ent i).rx = (s.ent i).rx ∧ t.mem = s.mem ∧
                  (t.ent i).prior = some { y with rx := insertRx y.next x y.rx }) ∧
              ((s.ent i).isEarly x = false → (8 ≤ x.kind → ∃ t, exec (.frameReceive p k ⟨f, m⟩) s = .next t ∧
                (t.ent i).inbox = (s.ent i).inbox ++ [x] ∧ t.mem = s.mem) ∧
              (x.kind < 8 → seqGap (s.ent i).rxNext x.seq ≤ 2 ^ 30 → (∀ y ∈ (s.ent i).rx, y.seq ≠ x.seq) →
                s.net.rbuf + x.body.length ≤ 0x4000000 → ∃ t, exec (.frameReceive p k ⟨f, m⟩) s = .next t ∧
                  (t.ent i).rx = insertRx (s.ent i).rxNext x (s.ent i).rx ∧ t.mem = s.mem)))) ∧
          (∀ (tr : Fin 4) d snd og, s.ptpHears p tr = true → s.fromMaster d snd = true →
            s.dt.toNat < s.net.ptp.announced + announceLimit →
            ∃ t, exec (.frameReceive p k ⟨.ptp tr (.sync d snd og), m⟩) s = .next t ∧ t.net.ptp.t1 = og ∧
              t.net.ptp.t2 = some (s.ingress p) ∧ t.net.ptp.lastSync = s.dt.toNat)))) ∧
    (s.fld rCtPtpctl 0 1 = 1 → s.net.ptp.master.isSome = true → s.net.ptp.t2.isSome = true →
      s.net.ptp.sub ∈ s.upSubs → s.paused s.net.ptp.sub 0 = false → ∃ t, exec .ptpDelayRequest s = .next t ∧
        t.net.ptp.t3 = some (s.egress (s.net.ptp.sub / 4)) ∧ t.net.out = s.net.out ++
          [.reply s.net.ptp.sub 4 0 (s.macOf s.net.ptp.sub) (s.tagOf (s.net.ptp.sub / 4) 0)]) ∧
    (s.ptpSt = 1 ∨ s.ptpSt = 2 → s.net.ptp.lastSync + dtMs 3000 ≤ s.dt.toNat →
      ∃ t, exec .ptpHoldover s = .next t ∧ t.ptpSt = 3 ∧ t.net = s.net)

/-- O43, tier 2. A whole message that a row answers is taken from the partition's inbox; a malformed one is answered
by ERROR NOT_OWNER. A good HELLO of HP0 starts a handshake with the sender's nonce and key index; a FINISH that
verifies installs the keys on HP0's host entry under the next EPOCH and ends the handshake; ATTEST_REQ is answered
by the signed report, CERTS_REQ by the certificates; an UNLOCK that verifies sets DEBUG and ends the Alias keys.
(R390, R391, R393, R394.) -/
def Obligations.ManagementMessages : Prop :=
  ∀ (s u : State) (part : Fin 8) (m : Mgmt), s.runs = true →
    let p := s.pumpMsgs part
    (∀ c ∈ [(Instr.hello part, 1), (.finish part, 3), (.attestReq part, 4), (.certsReq part, 6), (.unlock part, 9)],
      p.takeMsg part c.2 = some (m, u) → msgOk m = false → exec c.1 s = .next (u.answerError m stNotOwner)) ∧
    (msgOk m = true →
      let b := msgBody m
      (p.takeMsg part 1 = some (m, u) → m.part = 0 → msgType m = 1 → b.length = 1249 →
        leAt b 1248 1 ≤ 3 ∨ leAt b 1248 1 = 0xFF → u.sec.aliasGone = false →
        ∃ t h, exec (.hello part) s = .next t ∧ t.sec.hand = some h ∧ h.nonces.take 32 = b.take 32 ∧
          h.keyIdx = leAt b 1248 1 ∧ h.ip = m.ip ∧ h.port = m.port ∧ t.mem = u.mem) ∧
      (∀ h, p.takeMsg part 3 = some (m, u) → m.part = 0 → u.sec.hand = some h → u.finishOk h b = true →
        ∃ t, exec (.finish part) s = .next t ∧ t.sec.hand = none ∧ t.mem = u.mem ∧
          (t.ent (hostEnt 0)).epoch = nextEpoch (u.ent (hostEnt 0)).epoch ∧
          t.fld rSecStat 16 8 = nextEpoch (u.ent (hostEnt 0)).epoch ∧ (t.ent (hostEnt 0)).txn = 1 ∧
          (t.ent (hostEnt 0)).seq = 0 ∧
          (let e := u.ent (hostEnt 0)
           (t.ent (hostEnt 0)).prior =
             some { epoch := e.epoch, key := e.rxKey, next := e.rxNext, rx := e.rx, drops := e.drops }) ∧ (t.ent (hostEnt 0)).txKey =
            leNat (hkdfExpand (hkdfExtract h.nonces h.ikm) (ascii "SRP1 d2h" ++ h.th) 32)) ∧
      (p.takeMsg part 4 = some (m, u) → b.length = 32 → u.sec.aliasGone = false →
        exec (.attestReq part) s = .next (u.answerMgmt m 5 (u.report m.part b ++ u.aliasSign (u.report m.part b)))) ∧
      (p.takeMsg part 6 = some (m, u) → b = [] →
        exec (.certsReq part) s = .next (u.answerMgmt m 7 (u.certs.flatMap certBytes))) ∧
      (p.takeMsg part 9 = some (m, u) → m.part = 0 → m.boot = false → u.unlockOk b = true →
        ∃ t, exec (.unlock part) s = .next t ∧ t.fld rSecStat 5 1 = 1 ∧ t.sec.aliasGone = true ∧ t.mem = u.mem))

/-- O44, tier 2. Of a sub-port that negotiates, a common ability takes it to training in that media type; training
completes to aligning; alignment puts it up, with its lanes in service, SPDT at DT and its bit of PORTS set;
training sets the lanes' transmitter taps. A timeout in training or aligning, and the end of a hold-off of 10 ms,
restart an enabled sub-port at the first step of its bring-up. Loss of link, and an FEC window of UCTH
uncorrectable codewords, take a sub-port that is up into hold-off and tell HP0; any other window only counts. A
scan started on a lane in service sets BUSY; one in progress completes with the smallest of each margin over the
lane's eyes (one of NRZ, three of PAM4) and an eye of the smallest opening; a pause whose quanta have passed ends.
(R283, R294, R295, R296, R297, R298, R300.) -/
def Obligations.EthernetLinks : Prop :=
  ∀ (s : State) (p : Fin 2) (k : Fin 4),
    let fresh := if s.fld (rEthPcfg p) (16 + (k : Nat)) 1 = 1 then 1
      else if s.fld (rEthPcfg p) (20 + 2 * (k : Nat)) 2 = 2 then 3 else 2
    let restarts (i : Instr) : Prop := s.pwr.steps.contains 8 = true → s.subEnabled p k = true →
      ∃ t, exec i s = .next t ∧ t.subSt p k = fresh ∧ t.mem = s.mem ∧ ∀ l ∈ s.subLanes p k, t.laneOn l = false
    let down (i : Instr) : Prop := ∃ t, exec i s = .next t ∧ t.subSt p k = 5 ∧ t.told 0 stPortDown ∧ t.mem = s.mem ∧
      t.fld rCtPorts (4 * (p : Nat) + (k : Nat)) 1 = 0 ∧ ∀ l ∈ s.subLanes p k, t.laneOn l = false
    (s.subSt p k = 1 → exec (.autoNegotiation p k none) s = .next s ∧
      ∀ m : Fin 2, ∃ t, exec (.autoNegotiation p k (some m)) s = .next t ∧ t.subSt p k = 2 ∧ t.mem = s.mem ∧
        t.fld (rEthPstat p) (14 + 2 * (k : Nat)) 2 = m) ∧
    (s.subSt p k = 2 → restarts (.maxWaitTimer p k) ∧
      ∃ t, exec (.linkTraining p k) s = .next t ∧ t.subSt p k = 3 ∧ t.mem = s.mem ∧ t.parts = s.parts ∧
        (∀ o, o ≠ rEthPstat p → t.reg o = s.reg o) ∧ ∀ l ∈ s.subLanes p k, (oget t.links.ffe l).isSome = true) ∧
    (s.subSt p k = 3 → restarts (.alignmentTimeout p k) ∧
      ∃ t, exec (.pcsAlignment p k) s = .next t ∧ t.subSt p k = 4 ∧ t.reg (rEthSpdt p k) = s.dt ∧ t.mem = s.mem ∧
        t.fld rCtPorts (4 * (p : Nat) + (k : Nat)) 1 = 1 ∧ t.fld rPwrReady 5 1 = 1 ∧
        ∀ l ∈ s.subLanes p k, t.laneOn l = true ∧ t.fld (rLstat l) 8 4 = 8) ∧
    (s.subSt p k = 4 → down (.lossOfLink p k) ∧ ∀ corr uc : Nat,
      if max 1 (s.fld (rEthFecth p) 0 16) ≤ uc then down (.fecWindow p k corr uc)
      else ∃ t, exec (.fecWindow p k corr uc) s = .next t ∧ s.onlyRegs t [rEthFec p k] ∧
        t.reg (rEthFec p k) = bsat (bsat (s.reg (rEthFec p k)) 0 40 corr) 40 23 uc) ∧
    (s.subSt p k = 5 → tget 0 s.links.downAt (4 * (p : Nat) + (k : Nat)) + dtMs 10 ≤ s.dt.toNat →
      restarts (.holdOffExpiry p k)) ∧
    (∀ (g : Fin 8) (u : Nat), oget s.links.pauses (8 * (4 * (p : Nat) + (k : Nat)) + (g : Nat)) = some u →
      u ≤ s.dt.toNat → ∃ t, exec (.pfcQuantaExpiry p k g) s = .next t ∧ t.regs = s.regs ∧ t.mem = s.mem ∧
        oget t.links.pauses (8 * (4 * (p : Nat) + (k : Nat)) + (g : Nat)) = none) ∧
    (∀ l : Fin 48, s.fld (rLeye l) 1 1 = 0 →
      ∃ t, exec (.eyeScanStart l) s = .next t ∧ t.fld (rLeye l) 0 1 = 0 ∧ t.fld (rLeye l) 2 1 = 0 ∧
        if s.laneOn l then s.onlyRegs { t with links := s.links } [rLctl l, rLstat l, rLeye l] ∧ t.fld (rLeye l) 1 1 = 1
        else s.onlyRegs t [rLctl l, rLeye l, rLeyedt l] ∧ t.reg (rLeyedt l) = s.dt) ∧
    (∀ (l : Fin 48) (hl hr : ByEye 33) (vu vd : ByEye 64) (eye : Fin 3), s.fld (rLeye l) 1 1 = 1 →
      let e0 : Eye := ⟨hl.lower, hr.lower, vu.lower, vd.lower⟩
      let es : List Eye := if 7 ≤ s.fld (rLstat l) 8 4 then
        [e0, ⟨hl.middle, hr.middle, vu.middle, vd.middle⟩, ⟨hl.upper, hr.upper, vu.upper, vd.upper⟩] else [e0]
      ∃ t, exec (.eyeScanDone l hl hr vu vd eye) s = .next t ∧ s.onlyRegs t [rLeye l, rLeyedt l] ∧
        t.reg (rLeyedt l) = s.dt ∧ t.fld (rLeye l) 0 3 = 1 ∧
        (∀ e ∈ es, t.fld (rLeye l) 16 8 ≤ e.hl ∧ t.fld (rLeye l) 24 8 ≤ e.hr ∧ t.fld (rLeye l) 32 8 ≤ 2 * (e.vu : Nat) ∧
          t.fld (rLeye l) 40 8 ≤ 2 * (e.vd : Nat)) ∧
        (∃ e ∈ es, t.fld (rLeye l) 16 8 = e.hl) ∧ (∃ e ∈ es, t.fld (rLeye l) 24 8 = e.hr) ∧
        (∃ e ∈ es, t.fld (rLeye l) 32 8 = 2 * (e.vu : Nat)) ∧ (∃ e ∈ es, t.fld (rLeye l) 40 8 = 2 * (e.vd : Nat)) ∧
        ∃ x, es[t.fld (rLeye l) 8 2]? = some x ∧ ∀ e ∈ es, (x.hl : Nat) + (x.hr : Nat) ≤ (e.hl : Nat) + (e.hr : Nat))

/-- O45, tier 2. A device found by a port that detects takes it to STATE 2, with its lanes and CXL_LINK at 2.5 GT/s;
none found in the first 100 ms is noted. Bring-up of a device that trains, and a hot attach, end in STATE 4 with
the width, rate, identity and capacity of the device and its lanes in service, or in STATE 5 with the CAUSE of the
first check of Table 11.6 that fails and an event for HP0; one that does not train leaves the port detecting. Loss
of a link leaves STATE 6, CAUSE 8, no readiness, no lane in service and no width or rate in use, tells HP0 and
gives the running commands that touched the port CXL_LINK_DOWN. A media event is told to HP0; Recovery stops scans
and counts replays; zeroing of a mapped expander lists nothing of its range and sets CXLPn. (R199, R295, R301,
R302, R303, R304, R409, R411.) -/
def Obligations.CxlPorts : Prop :=
  ∀ (s : State) (p : Fin 2),
    let brings (i : Instr) (d : CxlDev) : Prop := ∃ t, exec i s = .next t ∧ t.mem = s.mem ∧
      (d.trains = false → t.cxlSt p = 1 ∧ t.fld (rCxlPstat p) 8 8 = 10) ∧
      (d.trains = true → ∀ cause, s.cxlRefusal p d = some cause → t.cxlSt p = 5 ∧ t.fld (rCxlPstat p) 8 8 = cause ∧
        t.reg (rCxlEvdt p) = s.dt ∧ t.told 0 stCxlLinkDown ∧ ∀ l ∈ cxlLanes p, t.laneOn l = false) ∧
      (d.trains = true → s.cxlRefusal p d = none → t.cxlSt p = 4 ∧ t.reg (rCxlEvdt p) = s.dt ∧
        t.fld (rCxlLink p) 0 5 = cxlWidth d ∧ t.fld (rCxlLink p) 8 4 = min d.rate (s.cxlMax p) ∧
        t.fld (rCxlDevid p) 0 16 = d.vendor % 65536 ∧ t.fld (rCxlDevid p) 16 16 = d.device % 65536 ∧
        t.reg (rCxlCap p) = BitVec.ofNat 64 (min 4096 d.cap) ∧
        ∀ l ∈ cxlLanes p, t.laneOn l =
          decide (l ∈ if d.reversed then (cxlLanes p).drop (16 - cxlWidth d) else (cxlLanes p).take (cxlWidth d)))
    (s.cxlSt p = 1 →
      (∃ t, exec (.cxlDetect p true) s = .next t ∧ t.cxlSt p = 2 ∧ t.mem = s.mem ∧
        t.fld (rCxlLink p) 8 4 = 2 ∧ ∀ l ∈ cxlLanes p, t.laneOn l = false ∧ t.fld (rLstat l) 8 4 = 2) ∧
      (∀ u, oget s.links.detectAt p = some u → u + dtMs 100 ≤ s.dt.toNat → s.links.noDev.contains (p : Nat) = false →
        ∃ t, exec (.cxlDetect p false) s = .next t ∧ t.links.noDev = s.links.noDev ++ [(p : Nat)] ∧ t.cxlSt p = 1 ∧
          t.mem = s.mem) ∧
      ∀ d : CxlDev, brings (.cxlHotAttach p d) d) ∧
    (s.cxlSt p = 2 → ∀ d : CxlDev, brings (.cxlBringUp p d) d) ∧
    (s.cxlSt p = 4 →
      (∃ t, exec (.cxlLinkDown p) s = .next t ∧ t.cxlSt p = 6 ∧ t.fld (rCxlPstat p) 8 8 = 8 ∧
        t.reg (rCxlEvdt p) = s.dt ∧ t.fld rPwrReady (7 + (p : Nat)) 1 = 0 ∧ t.told 0 stCxlLinkDown ∧ t.mem = s.mem ∧
        t.fld (rCxlLink p) 0 5 = 0 ∧ t.fld (rCxlLink p) 8 4 = 0 ∧ t.fld (rCxlPstat p) 6 2 = 0 ∧
        t.cmds = s.cmds.map (fun c => if c.ports.contains (p : Nat) then c.meet stCxlLinkDown else c) ∧
        ∀ l ∈ cxlLanes p, t.laneOn l = false) ∧
      (∃ t, exec (.cxlMedia p) s = .next t ∧ t.told 0 stCxlMedia ∧ t.regs = s.regs ∧ t.mem = s.mem) ∧
      (∀ n : Nat, ∃ t, exec (.pcieRecovery p n) s = .next t ∧ t.mem = s.mem ∧ t.cxlSt p = 4 ∧
        t.reg (rCxlErr p) = bsat (s.reg (rCxlErr p)) 0 24 n ∧
        ∀ l ∈ cxlLanes p, s.fld (rLeye l) 1 1 = 1 → t.fld (rLeye l) 0 3 = 4 ∧ t.reg (rLeyedt l) = s.dt) ∧
      (s.fld rPwrReady (7 + (p : Nat)) 1 = 0 →
        ∃ t, exec (.cxlZeroing p) s = .next t ∧ s.zeroed t (cxlBase p) (s.cxlCap p) ∧ t.cmds = s.cmds ∧
          t.fld rPwrReady (7 + (p : Nat)) 1 = 1 ∧ t.cxlSt p = 4))

/-- O46, tier 2. A source of Table 12.5 that has neither a credit nor an ask for a target under way sends its ask; a
target with an entry free lends it to the source whose ask came first, under the ask's tags. A request of a master
that holds a credit, is not frozen, whose buckets are open and that waits behind no earlier one of its port is
injected with its STAMP and uses the credit; any other waits at its injection port, and shows HELD where only its
buckets or an earlier request hold it. A regulator's unused partition grant returns to the partition's bucket
after 10 µs, up to its burst. A router, an engine or a herd that something reaches wakes. (R310, R313, R316, R318,
R319, R320, R321, R322, R399.) -/
def Obligations.NetworkSources : Prop :=
  (∀ (s : State) (a : Fin 186) (d : Fin 2048), isSource a = true → s.credited a d = false →
    ∃ t, exec (.creditRequest a d) s = .next t ∧ (s.probing = false → { t with noc := s.noc } = s) ∧ t.mem = s.mem ∧
      t.cmds = s.cmds ∧ s.injects t (s.askPkt a d)) ∧
  (∀ (s : State) (d : Fin 2048) (k : NocPkt), s.noc.asks.find? (fun k => k.dst == (d : Nat)) = some k →
    (64 ≤ tget 0 s.noc.lent d → exec (.creditGrant d) s = .next s) ∧
    (tget 0 s.noc.lent d < 64 → ∃ t, exec (.creditGrant d) s = .next t ∧
      (s.probing = false → { t with noc := s.noc } = s) ∧ t.mem = s.mem ∧ t.cmds = s.cmds ∧
      t.noc.asks = s.noc.asks.erase k ∧ tget 0 t.noc.lent d = tget 0 s.noc.lent d + 1 ∧
      s.injects t { k with ty := 8, cls := 1, dst := sourcePoint k.src, org := d, status := 0, poison := false,
                           data := none })) ∧
  (∀ (s : State) (r : NocReq) (d kind : Nat), isSource r.src = true → (r.ty : Nat) ∈ [0, 1, 5, 6] →
    ((r.src : Nat) < 0x40 ∨ 0xA0 ≤ (r.src : Nat)) →
    (match r.peer with
      | some e => d = iodPoint (10 + (e : Nat)) ∧ kind = 4
      | none => s.targetPoint r.addr = some d ∧ kind = s.destKind r.addr) →
    let p : NocPkt := { ty := r.ty, cls := if r.peer.isSome ∨ (r.src : Nat) = 0xB0 ∨ (r.src : Nat) = 0xB1 then 2 else 0,
                        src := r.src, org := sourcePoint r.src,
                        dgen := s.dgenOf r.src, addr := r.addr, ctx := r.ctx, cgen := (s.ctx r.ctx).gen, len := r.len,
                        tid := r.tid, dst := d, kind := kind, poison := r.poison && r.ty == 1,
                        partner := r.partner && decide ((r.src : Nat) < 0x40) }
    let h := s.holdReq p
    p ∈ h.noc.held ∧
    (s.mayInject p = true → h.behind p = false → ∃ t, exec (.packetInject r) s = .next t ∧ s.injects t p ∧
      t.noc.creds = s.noc.creds.erase (d, (r.src : Nat)) ∧ t.fld (rNocRg r.src 5) 0 1 = 0 ∧ t.mem = s.mem ∧
      t.cmds = s.cmds ∧ t.noc.held = h.noc.held.erase p) ∧
    (s.mayInject p = false ∨ h.behind p = true → ∃ t, exec (.packetInject r) s = .next t ∧ t.noc = h.noc ∧
      s.onlyRegs { t with noc := s.noc } [rNocRg r.src 5] ∧
      (s.noc.creds.contains (d, (r.src : Nat)) = true → s.sourceFrozen r.src r.ctx = false →
        t.fld (rNocRg r.src 5) 0 1 = 1))) ∧
  (∀ (s : State) (a : Fin 186) (p : Fin 8) (k : Fin 4) (b : Bucket),
    oget s.noc.shares (shareKey a p ((k : Nat) + 1)) = some b → b.dt + dtUs 10 ≤ s.dt.toNat → 0 < b.lvl →
    ∃ t, exec (.partitionGrantReturn a p k) s = .next t ∧ { t with noc := s.noc } = s ∧
      oget t.noc.shares (shareKey a p ((k : Nat) + 1)) = none ∧
      t.partLevel p ((k : Nat) + 1) = min ((4000 * s.partRate p ((k : Nat) + 1) : Nat) : Int)
        (s.partLevel p ((k : Nat) + 1) + b.lvl)) ∧
  (∀ s : State,
    (∀ r : Fin 10, ∃ t, exec (.islandWake (.router r)) s = .next t ∧ s.onlyRegs t [rPwrRtr r] ∧
      t.fld (rPwrRtr r) 12 2 = 0) ∧
    (∀ n : Fin 64, s.fld (rPwrEng n) 12 2 < 3 → ∃ t, exec (.islandWake (.engine n)) s = .next t ∧
      { t with regs := s.regs } = s ∧ t.fld (rPwrEng n) 12 2 = 0) ∧
    (∀ h : Fin 8, ∃ t, exec (.islandWake (.herd h)) s = .next t ∧ { t with regs := s.regs } = s ∧
      ∀ i, i < 8 → t.fld (rPwrEng (8 * (h : Nat) + i)) 12 2 ≠ 2))

/-- O47, tier 2. A packet that no earlier one of its class, source and destination precedes leaves the network when
nothing holds it. A response with a stale tag is dropped and counted (a credit goes back), and one with current
tags is taken, a credit by its source, or kept while its master is frozen; an ask waits at its target; a request
to a fenced fabric region gets a NACK with REGION_FENCED, one to any other goes to the region's logic, a write to
a DDR5 channel is acknowledged from its write queue, and any other request waits at its target. A memory target
that is not a DDR5 channel answers its oldest request, an HBM stack with the data that memory holds, counting an
error that it corrects; a DDR5 channel answers the read that R213 chooses. A fabric port injects a request that
its checks pass, or holds it, and freezes with the status of the one that fails; a request that its region's logic
answers, or does not answer in time, is answered once. (R207, R213, R215, R313, R314, R323, R324, R340, R341,
R342, R343.) -/
def Obligations.NetworkTargets : Prop :=
  (∀ (s : State) (i : Nat) (p : NocPkt), s.noc.net[i]? = some p → ejectable s.noc.net i = true →
    s.ejectWaits p = false → ∃ t, exec (.packetEject i) s = .next t ∧
    let rest := s.noc.net.eraseIdx i
    let q : NocPkt := { p with stamp := s.dt.toNat }
    (p.cls = 1 → t.noc.net = rest ∧ t.mem = s.mem ∧
      if s.staleResp p then t.fld rNocStat 0 32 = min (2 ^ 32 - 1) (s.fld rNocStat 0 32 + 1) ∧ t.noc.creds = s.noc.creds ∧
          t.noc.kept = s.noc.kept ∧ tget 0 t.noc.lent p.org = tget 0 s.noc.lent p.org - (if p.ty = 8 then 1 else 0)
      else t.fld rNocStat 0 32 = s.fld rNocStat 0 32 ∧
        t.noc.creds = s.noc.creds ++ (if p.ty = 8 then [(p.org, p.src)] else []) ∧
        t.noc.kept = s.noc.kept ++ (if p.ty ≠ 8 ∧ s.sourceFrozen p.src p.ctx = true then [p] else [])) ∧
    (p.cls ≠ 1 → p.ty = 7 → t.noc.net = rest ∧ t.noc.asks = s.noc.asks ++ [p] ∧ t.mem = s.mem) ∧
    (p.cls ≠ 1 → p.ty ≠ 7 → p.ty ≠ 5 → isFabric p.addr = true → t.mem = s.mem ∧
      if s.fenced p.addr then t.answered p 4 stRegionFenced ∧ t.fab.asked = s.fab.asked ∧
        t.fld rNocStat 32 32 = min (2 ^ 32 - 1) (s.fld rNocStat 32 32 + 1)
      else t.noc.net = rest ∧ t.fab.asked = s.fab.asked ++ [q]) ∧
    (p.cls ≠ 1 → p.ty ≠ 7 → isFabric p.addr = false ∨ p.ty = 5 →
      if (channelAt p.dst).isSome = true ∧ p.ty = 1 then t.answered p 3 0 ∧ t.noc.queue = s.noc.queue
      else t.noc.net = rest ∧ t.noc.queue = s.noc.queue ++ [q] ∧ t.mem = s.mem)) ∧
  (∀ (s : State) (d : Fin 2048) (sub : Fin 2) (flaws : List (Fin 9 × Fin 33)) (p : NocPkt), channelAt d = none →
    (s.noc.queue.filter (fun p => p.dst == (d : Nat))).head? = some p →
    ∃ t, exec (.memoryTargetResponse d ⟨sub, flaws⟩) s = .next t ∧ t.answered p p.answerType 0 ∧
      t.noc.queue = s.noc.queue.erase p ∧ (p.ty ≠ 1 → flaws = [] → t.mem = s.mem ∧ t.poison = s.poison) ∧
      (p.ty = 0 → p.data.isSome = true → flaws = [] → ∃ k ∈ t.noc.net, k.ty = 2 ∧ k.tid = p.tid ∧ k.src = p.src ∧
        k.data = some ((List.range p.len).map (fun j => (s.rdPlace (.dev (p.addr + j))).1))) ∧
      (p.ty = 0 → linesOf p.addr p.len = [p.addr / 64 * 64] → (∃ r, s.region (p.addr / 64 * 64) = .hbm r) →
        flaws = [(0, 1)] → t.mem = s.mem ∧ t.fld rHbmEcc 0 32 = min (2 ^ 32 - 1) (s.fld rHbmEcc 0 32 + 1))) ∧
  (∀ (s : State) (d : Fin 2048) (sub : Fin 2) (ch : Nat) (p : NocPkt), channelAt d = some ch → s.chServes ch = true →
    s.noc.draining.contains ch = false →
    s.nextRead ch sub (s.noc.queue.filter (fun p => p.dst == (d : Nat))) = some p →
    p.ty = 0 → ∃ t, exec (.memoryTargetResponse d ⟨sub, []⟩) s = .next t ∧ t.answered p 2 0 ∧ t.mem = s.mem ∧
      t.noc.queue = s.noc.queue.erase p) ∧
  (∀ (s : State) (p : Fin 96) (r : FabReq) (tid : Fin 256), s.regSt ((p : Nat) / 2) = 4 →
    s.fld (rFabPort p) 32 1 = 0 → s.portOpen p < 64 → reqFits r = true →
    let part := s.fld (rFabRstat ((p : Nat) / 2)) 31 3
    let c := s.fld (rFabRstat ((p : Nat) / 2)) 34 10
    (∀ st, s.portCheck part c r = some st → ∃ t, exec (.fabricPortRequest p r tid) s = .next t ∧
      t.fld (rFabPort p) 32 1 = 1 ∧ t.fld (rFabPort p) 48 16 = st ∧ t.told part stFrozen ∧ t.noc = s.noc ∧
      t.mem = s.mem) ∧
    (∀ k, s.portCheck part c r = none → s.portPkt p r tid = some k →
      let h := s.holdReq k
      k ∈ h.noc.held ∧
      (s.mayInject k = true → h.behind k = false →
        ∃ t, exec (.fabricPortRequest p r tid) s = .next t ∧ s.injects t k ∧ t.mem = s.mem ∧
          t.fld (rFabPort p) 0 32 = min (2 ^ 32 - 1) (s.fld (rFabPort p) 0 32 + 1)) ∧
      (s.mayInject k = false ∨ h.behind k = true →
        ∃ t, exec (.fabricPortRequest p r tid) s = .next t ∧ t.noc = h.noc ∧ t.mem = s.mem ∧
          t.fld (rFabPort p) 0 32 = s.fld (rFabPort p) 0 32))) ∧
  (∀ (s : State) (i : Nat) (p : NocPkt), s.fab.asked[i]? = some p →
    (∀ (bs : List Byte) (po : Bool), ∃ t, exec (.fabricLogicResponse i bs po) s = .next t ∧
      t.answered p p.answerType 0 ∧ t.fab.asked = s.fab.asked.eraseIdx i ∧ t.mem = s.mem) ∧
    (∀ n, s.portLimit (regionOf p.addr) = some n → p.stamp + n ≤ s.dt.toNat → regionOf p.addr < 48 →
      ∃ t, exec (.fabricPortTimeout i) s = .next t ∧ t.answered p 4 stRegionFenced ∧
        t.fab.asked = s.fab.asked.eraseIdx i ∧ t.mem = s.mem))

/-- O48, tier 2. BOOT_FABRIC_LOAD after a good boot chain starts a full load of the lowest valid BOOT entry and blanks
every region, or, where the flash has none, ends at once with BOOT = 2 and FABRIC ready. A segment that
authenticates and whose records all check writes its frames and the load goes on to the next; one that does not is
logged with IMAGE_SIGNATURE. REGION_BLANKING leaves every frame of the region zero and no other frame changed, and
the region EMPTY. REGION_RELEASE, 8 configuration clocks after the stage before and for ACTIVE once every clock
domain that runs has left reset, takes every region of the group to its next stage, and after stage 3 to ACTIVE;
before that it changes nothing; before stage 3 every flip-flop of the group holds its INIT, and in a part that has
not passed stage 1 every boundary input from the other side reads 0. (R330, R348, R351, R365, R366, R367, R368,
R369, R370.) -/
def Obligations.FabricConfiguration : Prop :=
  (∀ s : State, s.fld rSecStat 0 2 = 1 → s.fld rCfgStat 10 2 = 0 → s.fab.loads.any FLoad.boot = false →
    let boots := (List.range 64).find? (fun d => (s.dirEntry d).2.2.1 && (s.dirEntry d).2.2.2)
    (boots = none → ∃ t, exec .bootFabricLoad s = .next t ∧ s.onlyRegs t [rCfgStat, rPwrReady] ∧
      t.fld rCfgStat 10 2 = 2 ∧ t.fld rPwrReady readyFabric 1 = 1) ∧
    (∀ d, boots = some d → s.fab.loads = [] → ∃ t, exec .bootFabricLoad s = .next t ∧
      t.fab.loads = [{ gen := (s.ctx 0).gen, boot := true, full := true, flash := true, base := (s.dirEntry d).1,
                       bytes := (s.dirEntry d).2.1, st := .blanking, todo := List.range 49 }] ∧
      t.mem = s.mem ∧ ∀ f, f < 49 → t.regSt f = 5)) ∧
  (∀ (s : State) (die : Fin 2) (l : FLoad) (bs : List Byte) (po : Bool),
    s.fab.loads.find? (fun l => l.st == .segs && l.dies.contains (die : Nat)) = some l →
    (∀ x ∈ s.fab.loads, x.st ≠ .ports) → l.seg < segments (hdrFrames l.seen) →
    s.loadBytes l l.seen.length (segBytes (hdrFrames l.seen) l.seg) = .ok (bs, po) →
    let opened := Config.gcmOpen l.key (leAt l.seen 0x20 8 * 2 ^ 32 + l.seg) (l.seen.take 512) bs
    ∃ t, exec (.loadSegment die) s = .next t ∧ t.mem = s.mem ∧
      (opened = none → t.fld rCfgLdlog 48 16 = stImageSignature ∧ t.reg rCfgLddt = s.dt ∧ t.fab.frames = s.fab.frames) ∧
      (∀ pt, opened = some pt →
        let r := (s.loadPoison l po).loadRecords l pt (min 64 (hdrFrames l.seen - 64 * l.seg))
        r.2 = none → t.fab.frames = r.1.fab.frames ∧ (l.seg + 1 < segments (hdrFrames l.seen) →
          t.fab.loads = s.fab.loads.map (fun y => if y = l then { l with seen := l.seen ++ bs, seg := l.seg + 1 } else y)))) ∧
  (∀ (s : State) (f : Fin 49) (l : FLoad),
    s.fab.loads.find? (fun l => l.todo.contains (f : Nat) && (l.st == .blanking || l.st == .failing)) = some l →
    ∃ t, exec (.regionBlanking f) s = .next t ∧ t.mem = s.mem ∧
      (∀ fa, ofRegion f fa = true → t.frame fa = 0) ∧ (∀ fa, ofRegion f fa = false → t.frame fa = s.frame fa) ∧
      (l.todo.erase (f : Nat) ≠ [] → t.regSt f = 0 ∧ t.reg (rFabClk f) = 0 ∧ t.cmds = s.cmds ∧
        t.fab.loads = s.fab.loads.map (fun y => if y = l then { l with todo := l.todo.erase (f : Nat) } else y))) ∧
  (∀ (s : State) (f : Fin 49) (g : List Nat), s.inGroup f = some g → (∀ r ∈ g, r < 49) →
    (∀ x ∈ s.fab.loads, x.st ≠ .ports) →
    let stage := s.fld (rFabRstat f) 4 2
    (s.releaseDue f stage g = false → exec (.regionRelease f) s = .next s) ∧
    (s.releaseDue f stage g = true → ∃ t, exec (.regionRelease f) s = .next t ∧ t.mem = s.mem ∧
      if stage = 3 then ∀ r ∈ g, t.regSt r = 4
      else t.cmds = s.cmds ∧ ∀ r ∈ g, t.regSt r = 3 ∧ t.fld (rFabRstat r) 4 2 = stage + 1 ∧
        (stage + 1 ≠ 3 → ∀ h ∈ halvesOf r, ∀ c k, c < clusters → k < 8 →
          t.netOf h (.ff c k) = (Config.fabCell (t.logicFrames h) c k).init))) ∧
  (∀ (s : State) (h i : Nat), h < 48 → s.partStage (fsHalf h) < 1 → s.netOf h (.inb i) = false) ∧
  (∀ (s : State) (h i : Nat), h = 48 ∨ h = 49 → s.partStage (i / 512) < 1 → s.netOf h (.inb i) = false)

/-- O49, tier 2. READBACK sets GO's frame and BUSY; it ends with the frame's data, check bits and syndrome in the RB
registers, or refused. BBRAM_COMMIT stores the staged key and its check and sets BBVALID; BBRAM_ERASE zeroes it; a
locked BBRAM takes neither. BROWSE_FRAME reads the next frame: it moves on, starts the correction of a single bit,
or counts, logs and tells a multi-bit error, and with UEFENCE holds an ACTIVE region. BROWSE_WRITEBACK counts a
correction that reads clean and tries once more where it does not. VOTEFIX counts; the watchdog restarts a unit
whose sweep has not moved on for 250 ms. (R362, R371, R372, R373, R374, R375.) -/
def Obligations.ReadbackKeysAndBrowse : Prop :=
  (∀ (s : State) (fa : W32), ∃ t, exec (.readback fa) s = .next t ∧ s.onlyRegs t [rCfgRbctl] ∧
    t.fld rCfgRbctl 0 32 = fa.toNat ∧ t.fld rCfgRbctl 34 2 = 1) ∧
  (∀ s : State, s.fld rCfgRbctl 34 2 = 1 →
    let fa := s.fld rCfgRbctl 0 32
    ∃ t, exec .readbackDone s = .next t ∧ { t with regs := s.regs } = s ∧
      if s.readable fa then t.fld rCfgRbctl 34 2 = 2 ∧ t.fld rCfgRbctl 36 14 = s.checkNow fa % 2 ^ 14 ∧
        t.fld rCfgRbctl 50 14 = syndrome (s.flips fa) % 2 ^ 14 ∧ t.reg rCfgRbdt = s.dt ∧
        ∀ w, w < 64 → t.reg (rCfgRbdata w) = BitVec.ofNat 64 (bitsOf (s.frameNow fa) (64 * w) 64)
      else s.onlyRegs t [rCfgRbctl] ∧ t.fld rCfgRbctl 34 2 = 3) ∧
  (∀ s : State,
    (s.sec.fuses.bbLock = true → exec .bbramCommit s = .next s ∧ exec .bbramErase s = .next s) ∧
    (s.sec.fuses.bbLock = false →
      (∃ t, exec .bbramCommit s = .next t ∧ t.fab.bbKey = s.bbStaged ∧
        t.fab.bbCrc = crc32c (keyBytes s.bbStaged) ∧ t.fab.bbIn = [] ∧ t.fab.frames = s.fab.frames ∧ t.fld rCfgKeystat 1 1 = 1 ∧ t.mem = s.mem) ∧
      (∃ t, exec .bbramErase s = .next t ∧ t.fab = { s.fab with bbIn := [], bbKey := 0, bbCrc := 0 } ∧
        t.fld rCfgKeystat 1 1 = 0 ∧ t.mem = s.mem))) ∧
  (∀ (s : State) (u : Fin 2) (ups : List (Fin 4110)), s.fld (rBrwCtl u) 0 1 = 1 → (s.browse u).fix = none →
    let pos := s.fld (rBrwStat u) 16 16
    let fa := browseFrame u pos
    let f := min (fa % 64) 48
    ∃ t, exec (.browseFrame u ups) s = .next t ∧ t.mem = s.mem ∧ t.fab.frames = s.fab.frames ∧
      t.fld (rBrwStat u) 16 16 = (if pos + 1 < 60000 then pos + 1 else 0) ∧
      (s.regSt f ∉ [1, 5] →
        let l := toggle (s.flips fa) (ups.map Fin.val)
        t.flips fa = l ∧
        (judgeFlips l = .clean → (t.browse u).fix = none ∧ t.regSt f = s.regSt f ∧ t.parts = s.parts) ∧
        (∀ b, judgeFlips l = .single b → t.fld (rBrwStat u) 0 2 = 2 ∧ (t.browse u).fix = some (fa, b, 0)) ∧
        (judgeFlips l = .multi →
          t.fld (rBrwCnt u) 24 16 = min 65535 (s.fld (rBrwCnt u) 24 16 + 1) ∧ t.reg (rBrwLogdt u) = s.dt ∧
          ((s.browse u).told.contains fa = false → t.told 0 stBrwUncorrectable) ∧
          (s.fld (rBrwCtl u) 1 1 = 1 → f < 48 → s.regSt f = 4 → t.regSt f = 2)))) ∧
  (∀ (s : State) (u : Fin 2) (ups : List (Fin 4110)) (fa b tries : Nat), (s.browse u).fix = some (fa, b, tries) →
    s.regSt (min (fa % 64) 48) ∉ [1, 5] →
    let l := toggle (toggle (s.flips fa) [b]) (ups.map Fin.val)
    ∃ t, exec (.browseWriteback u ups) s = .next t ∧ t.flips fa = l ∧ t.mem = s.mem ∧
      (judgeFlips l = .clean → (t.browse u).fix = none ∧
        t.fld (rBrwCnt u) 0 24 = min (2 ^ 24 - 1) (s.fld (rBrwCnt u) 0 24 + 1) ∧ t.reg (rBrwLogdt u) = s.dt) ∧
      (∀ x, judgeFlips l = .single x → tries = 0 → (t.browse u).fix = some (fa, x, 1)) ∧
      (judgeFlips l ≠ .clean → tries ≠ 0 →
        t.fld (rBrwCnt u) 24 16 = min 65535 (s.fld (rBrwCnt u) 24 16 + 1) ∧ (t.browse u).fix = none)) ∧
  (∀ (s : State) (u : Fin 2),
    (∃ t, exec (.votefix u) s = .next t ∧ s.onlyRegs t [rBrwCnt u, rBrwLog u, rBrwLogdt u] ∧
      t.fld (rBrwCnt u) 40 16 = min 65535 (s.fld (rBrwCnt u) 40 16 + 1) ∧ t.reg (rBrwLogdt u) = s.dt) ∧
    (s.fld (rBrwCtl u) 0 1 = 1 → (s.browse u).since + dtMs 250 ≤ s.dt.toNat →
      ∃ t, exec (.browseWatchdog u) s = .next t ∧ t.fld (rBrwStat u) 16 16 = 0 ∧ t.fld (rBrwStat u) 0 2 = 3 ∧
        t.fld (rBrwCnt u) 56 7 = min 127 (s.fld (rBrwCnt u) 56 7 + 1) ∧ t.browse u = { since := s.dt.toNat } ∧
        t.mem = s.mem))

/-- O50, tier 2. A hot run of a pseudo-channel's samples that has lasted SKWIN ms raises SKEW once, logged with the
pseudo-channel; a sample that is not hot ends the run. A pseudo-channel whose uncorrectable errors recur within 1
s, or a row that is due for repair and beyond it, starts the retirement of the pseudo-channel where its stack's
spare is unused, and else shows EXHAUSTED; a repair is recorded; without such errors neither does anything. A
chunk of a retirement copies 64 KiB to the spare and changes no other byte, the last one records the retirement;
the last chunk of a re-key exchanges the slices and gives the new key; a chunk of a page move goes on in its page
or to the next. (R192, R194, R195, R196, R197, R200, R201.) -/
def Obligations.HbmAndMigration : Prop :=
  (∀ (s : State) (pc : Fin 512) (occ : Fin 65) (sum : Nat) (counts : List (Fin 378 × Nat)),
    let th := max 4 (min 64 (s.fld rHbmSkctl 0 7))
    let hot : Prop := s.fld rHbmSkctl 16 1 = 1 ∧ th ≤ (occ : Nat) ∧ 4 * sum < th * 256
    ∃ t, exec (.hbmSkewSampleExpiry pc occ sum counts) s = .next t ∧ t.mem = s.mem ∧
      (¬ hot → t.regs = s.regs ∧ t.parts = s.parts ∧ oget t.hbmHot pc = none) ∧
      (hot → oget s.hbmHot pc = none → t.regs = s.regs ∧ t.parts = s.parts ∧
        oget t.hbmHot pc = some { since := s.dt.toNat }) ∧
      (hot → ∀ x, oget s.hbmHot pc = some x →
        if x.raised = false ∧ x.since + dtMs (max 1 (s.fld rHbmSkctl 8 8)) ≤ s.dt.toNat then
          t.told 0 stSkew ∧ t.reg rHbmSkdt = s.dt ∧ t.fld rHbmSklog 0 1 = 1 ∧ t.fld rHbmSklog 14 9 = pc ∧
            oget t.hbmHot pc = some { x with raised := true }
        else t.regs = s.regs ∧ t.parts = s.parts ∧ oget t.hbmHot pc = some x)) ∧
  (∀ (s : State) (pc : Fin 512) (bank row : Nat),
    let retires (i : Instr) : Prop := ∃ t, exec i s = .next t ∧ t.mem = s.mem ∧
      if s.pcRets.any (fun r => r.pc / 64 == (pc : Nat) / 64) then
        t.pcRets = s.pcRets ∧ t.fld rHbmStatus (16 + (pc : Nat) / 64) 1 = 1 ∧ t.told 0 stHbmExhausted
      else t.pcRets = s.pcRets ++ [{ pc := pc }] ∧ t.fld rHbmStatus (8 + (pc : Nat) / 64) 1 = 1 ∧
        t.told 0 stHbmPcRetire ∧ t.fld rHbmPcret 0 9 = pc ∧ t.fld rHbmPcret 10 1 = 1 ∧
        t.works = s.works ++ [{ kind := .pcRet pc }]
    (if s.ueRecurs pc then retires (.hbmPcRetire pc) else exec (.hbmPcRetire pc) s = .next s) ∧
    (∀ left, s.repairDue pc bank row = false → exec (.softRepair pc bank row left) s = .next s) ∧
    (s.repairDue pc bank row = true → retires (.softRepair pc bank row false) ∧
    ∃ t, exec (.softRepair pc bank row true) s = .next t ∧
      s.onlyRegs { t with health := s.health, hbmErrs := s.hbmErrs } [rRstHrec] ∧
      (∀ x ∈ t.hbmErrs, ¬ (x.pc = pc ∧ x.bank = bank ∧ x.row = row)) ∧
      t.health.now = s.health.now ++ [.repair pc bank row] ∧ t.health.queue = s.health.queue ++ [t.health.now])) ∧
  (∀ (s : State) (e : Fin 8) (w : Work) (flaws : List (Fin 1024 × Fin 33)), s.workOf e = some w →
    (∀ pc r, w.kind = .pcRet pc → s.pcRets.find? (fun r => r.pc == pc && !r.finished) = some r →
      let src := hbmCell (pc, r.cursor * 65536)
      let dst := hbmCell (spareCell pc (r.cursor * 65536))
      ∃ t, exec (.migrationChunk ⟨e, flaws⟩) s = .next t ∧
        (flaws = [] →
          (∀ i, i < 65536 → tget emptyByte t.mem (dst + i) = tget emptyByte s.mem (src + i)) ∧
          (∀ a, ¬ (dst ≤ a ∧ a < dst + 65536) → tget emptyByte t.mem a = tget emptyByte s.mem a)) ∧
        (r.cursor + 1 < 378 * 32 →
          t.pcRets = s.pcRets.map (fun x => if x = r then { r with cursor := r.cursor + 1 } else x)) ∧
        (378 * 32 ≤ r.cursor + 1 → t.health.now = s.health.now ++ [.pc pc s.dt])) ∧
    (∀ r k, w.kind = .rekey r → s.rekeys.find? (fun k => k.r == r) = some k → k.r < 378 → k.t < 378 → k.r ≠ k.t →
      ∃ t, exec (.migrationChunk ⟨e, flaws⟩) s = .next t ∧
        if k.cursor + 1 < 16384 then
          t.rekeys = s.rekeys.map (fun x => if x = k then { k with cursor := k.cursor + 1 } else x) ∧
          (flaws = [] → t.regs = s.regs)
        else t.rgnSlice k.r = s.rgnSlice k.t ∧ t.fld (rHbmRgn k.r) 2 2 = k.key % 4 ∧
          t.fld (rHbmRgn k.r) 13 1 = 0 ∧ t.rgnSlice k.t = s.rgnSlice k.r ∧
          t.fld (rHbmRgn k.t) 2 2 = s.fld (rHbmRgn k.r) 2 2) ∧
    (∀ id c va sh dst rest m, w.kind = .pages id → s.cmd id = some c → c.todo = [va, sh, dst] :: rest →
      c.isRom = false → s.pageMark c va sh dst = some m →
      let off := c.aux.getD 0 0
      let next := off + min (2 ^ sh) 65536
      s.changing (m.src + off) (min (2 ^ sh) 65536) = false → s.changing (dst + off) (min (2 ^ sh) 65536) = false →
      ∃ t, exec (.migrationChunk ⟨e, flaws⟩) s = .next t ∧
        (next < 2 ^ sh → ∃ d ∈ t.cmds, d.id = id ∧ d.todo = c.todo ∧ d.aux.getD 0 0 = next) ∧
        (2 ^ sh ≤ next → rest ≠ [] → ∃ d ∈ t.cmds, d.id = id ∧ d.todo = rest)))

/-- O51, tier 2. A refresh that is due closes its bank's row and notes its time, and changes no other bank; MR4,
polled every 16 ms, sets a rank's pace; a row whose count has reached ACTTH has its neighbours refreshed and
counts from 0; the window clears a channel's tables and ends the throttles of the window before. ACT_STORM is told
and throttles the source with the most ACTs, unless it is a migration engine; a bank hot for 1 ms raises DDR_SKEW
once; drift is tracked every 64 ms. A frequency change stops the channel, in STATE 3, and ends with the set that
DDR_TSEL asked for and its rate; an idle channel enters self-refresh with its banks refreshed and leaves it with
its row tables clear; with DDRLP a channel goes to TSET1 and returns to TSET0 unless it is too hot. A rank that
has returned a line that cannot be corrected, or fails parity, waits for its channel's retirement under way, is
marked failed where it is not mapped, or starts to move to the spare or the reserve, or finds neither; an error on
a copy's destination marks that failed. (R213, R217, R220, R221, R222, R223, R224, R225, R226, R227, R230, R419.) -/
def Obligations.Ddr5Channels : Prop :=
  ∀ (s : State) (ch : Fin 8) (rank : Fin 4) (sub : Fin 2) (bank : Fin 32),
    let b := bankNo ch rank sub bank
    let x := s.bank b
    let oneBank (t : State) : Prop := { t with ddr := s.ddr } = s ∧ ∀ j, j ≠ b → t.bank j = s.bank j
    (s.chServes ch = true → x.refreshed + s.trefi ch rank ≤ s.dt.toNat →
      ∃ t, exec (.refresh ch rank sub bank) s = .next t ∧ oneBank t ∧
        t.bank b = { x with openRow := none, refreshed := s.dt.toNat }) ∧
    (s.chServes ch = true → tget 0 s.ddr.mr4 (4 * (ch : Nat) + (rank : Nat)) + dtMs 16 ≤ s.dt.toNat →
      ∀ f : Bool, ∃ t, exec (.mr4Poll ch rank f) s = .next t ∧ { t with ddr := s.ddr } = s ∧
      t.ddr.fast.contains ((ch : Nat), (rank : Nat)) = f) ∧
    (∀ r, x.rows.find? (fun y => decide (s.actTh ch ≤ y.2)) = some r →
      ∃ t, exec (.targetedRefresh ch rank sub bank) s = .next t ∧ oneBank t ∧
        t.bank b = { x with openRow := none, rows := x.rows.map (fun y => if y = r then (y.1, 0) else y) }) ∧
    (∃ t, exec (.rowDisturbanceWindow ch) s = .next t ∧ { t with ddr := s.ddr } = s ∧
      (t.bank b).rows = [] ∧ (t.bank b).evict = 0 ∧ (t.bank b).acts = [] ∧ (t.bank b).stormed = false ∧
      (∀ j, j / 256 ≠ (ch : Nat) → t.bank j = s.bank j) ∧
      ∀ y ∈ t.ddr.throttles, y.ch = (ch : Nat) → y.stays = false ∧ { y with stays := true } ∈ s.ddr.throttles) ∧
    (s.evTh ch < x.evict → x.stormed = false →
      ∃ t, exec (.actStorm ch rank sub bank) s = .next t ∧ t.told 0 stActStorm ∧ t.reg (rDdrEvdt ch) = s.dt ∧
        t.mem = s.mem ∧ (t.bank b).stormed = true ∧ ∀ y, topSource x.acts = some y →
          (y.1 < 0xA8 ∨ 0xB0 ≤ y.1 → { ch := ch, src := y.1 } ∈ t.ddr.throttles) ∧
          (0xA8 ≤ y.1 → y.1 < 0xB0 → t.ddr.throttles = s.ddr.throttles)) ∧
    (x.sampled + dtUs 1 ≤ s.dt.toNat →
      let th := max 4 (min 16 (s.fld (rDdrSched ch) 48 5))
      let hot : Prop := th ≤ s.bankReads ch b ∧ 4 * (s.readLines ch).length < th * (s.ddrPr * 64)
      (¬ hot → ∃ t, exec (.ddrSkew ch rank sub bank (s.bankReads ch b) (s.readLines ch).length) s = .next t ∧ oneBank t ∧
        t.bank b = { x with hot := none, sampled := s.dt.toNat }) ∧
      (hot → ∀ h, x.hot = some h → h.raised = false → h.since + dtMs 1 ≤ s.dt.toNat →
        ∃ t, exec (.ddrSkew ch rank sub bank (s.bankReads ch b) (s.readLines ch).length) s = .next t ∧ t.told 0 stDdrSkew ∧
          t.bank b = { x with hot := some { h with raised := true }, sampled := s.dt.toNat } ∧ t.mem = s.mem)) ∧
    (s.chServes ch = true → tget 0 s.ddr.dqs ch + dtMs 64 ≤ s.dt.toNat →
      ∃ t, exec (.dqsTracking ch) s = .next t ∧ { t with ddr := s.ddr, free := s.free } = s ∧
        tget 0 t.ddr.dqs ch = s.dt.toNat) ∧
    (s.chState ch ≠ 3 → s.mayChange ch = true → s.ddr.change.contains (ch : Nat) = true →
      ∃ t, exec (.frequencyChange ch) s = .next t ∧ t.chState ch = 3 ∧ t.ddr.change.contains (ch : Nat) = false ∧
        tget 0 t.ddr.moving ch = s.fld (rDdrTsel ch) 0 1 ∧ (t.bank b).openRow = none ∧
        (t.bank b).refreshed = s.dt.toNat ∧ t.mem = s.mem) ∧
    (s.chState ch = 3 → tget 0 s.ddr.moving ch < 2 →
      ∃ t, exec (.frequencyChange ch) s = .next t ∧ t.chSet ch = tget 0 s.ddr.moving ch ∧
        t.fld (rDdrChstat ch) 8 8 = s.fld (rDdrTset ch (tget 0 s.ddr.moving ch)) 8 8 ∧
        t.chState ch = (if s.rankBusy ch then 6 else 2) ∧ (t.bank b).rows = [] ∧ t.mem = s.mem) ∧
    (s.chState ch = 2 → s.fld rPwrLpctl 32 16 ≠ 0 → s.rankBusy ch = false → s.fld rPwrReady 2 1 = 1 →
      s.chIdle ch (s.fld rPwrLpctl 32 16) = true →
      ∃ t, exec (.selfRefreshEntry ch) s = .next t ∧ t.chState ch = 4 ∧ (t.bank b).openRow = none ∧
        (t.bank b).refreshed = s.dt.toNat ∧ t.mem = s.mem) ∧
    (s.chState ch = 4 → ∃ t, exec (.selfRefreshExit ch) s = .next t ∧ t.chState ch = (if s.rankBusy ch then 6 else 2) ∧
      (t.bank b).rows = [] ∧ (t.bank b).evict = 0 ∧ (t.bank b).acts = x.acts ∧ t.mem = s.mem) ∧
    (s.chServes ch = true → s.fld rPwrLpctl 48 1 = 1 → s.chSet ch = 0 →
      ∃ t, exec (.lowTimingSetEntry ch) s = .next t ∧ t.chState ch = 3 ∧ tget 0 t.ddr.moving ch = 1 ∧ t.ddr.low.contains (ch : Nat) = true ∧
        t.mem = s.mem) ∧
    (s.chServes ch = true → s.ddr.low.contains (ch : Nat) = true →
      ∃ t, exec (.lowTimingSetExit ch) s = .next t ∧ t.ddr.low.contains (ch : Nat) = false ∧ t.mem = s.mem ∧
        if s.ddr.heat.contains (ch : Nat) then t.chState ch = s.chState ch ∧ t.chSet ch = s.chSet ch
        else t.chState ch = 3 ∧ tget 0 t.ddr.moving ch = 0) ∧
    (s.chList.contains (ch : Nat) = true → (rank : Nat) < s.ddrPr → ∀ parity : Bool,
      let due (copy : Bool) : Prop := parity = true ∨ ((ch : Nat), (rank : Nat), copy) ∈ s.ddr.due
      (∀ r, s.ddr.rets.find? (fun r => r.ch == (ch : Nat) && r.phys == (rank : Nat) && !r.finished) = some r →
        due true → ∃ t, exec (.rankRetire ch rank parity true) s = .next t ∧ t.mem = s.mem ∧
          (r.dest = 0 → t.ddr.failed.contains (r.ch, r.spare) = true) ∧ (r.dest = 1 → t.ddr.rsvFailed = true)) ∧
      (due false →
        (s.rankBusy ch = true → ∃ t, exec (.rankRetire ch rank parity false) s = .next t ∧ { t with ddr := s.ddr } = s ∧
          t.ddr.waiting = s.ddr.waiting ++ [{ ch := ch, phys := rank, parity := parity }] ∧ t.ddr.rets = s.ddr.rets) ∧
        (s.rankBusy ch = false → ∃ t, exec (.rankRetire ch rank parity false) s = .next t ∧ t.mem = s.mem ∧
          (s.logicalRank ch rank = none → t.ddr.failed = s.ddr.failed ++ [((ch : Nat), (rank : Nat))]) ∧
          (∀ q, s.logicalRank ch rank = some q →
            s.ddr.rets.any (fun r => r.ch == (ch : Nat) && r.phys == (rank : Nat)) = false →
            let d := s.rankDest ch rank
            (d = 2 → t.told 0 stDdrExhausted ∧ t.fld rDdrStatus (8 + (ch : Nat)) 1 = 1 ∧
              (parity = true → t.ddr.offline = s.ddr.offline ++ [((ch : Nat), (rank : Nat))])) ∧
            (d ≠ 2 → t.told 0 stRankRetire ∧ (s.chState ch ∈ [2, 4, 6] → t.chState ch = 6) ∧
              t.ddr.rets = s.ddr.rets ++
                [{ ch := ch, q := q, phys := rank, dest := d, spare := s.ddrPr - 1, parity := parity }])))) ∧
      (parity = false → (∀ copy, ((ch : Nat), (rank : Nat), copy) ∉ s.ddr.due →
        exec (.rankRetire ch rank parity copy) s = .next s)))

/-- O52, tier 2. POWER_ON_RESET leaves the device up at DT 0 with memory, commands and contexts gone, fuses and flash
as they were, and the BBRAM key only where VBATT has kept it whole; a rail droop or a power-down holds the device
in reset, and a power-down ends a trip. A warm reset, and a failure of the device controller, keep DT, empty
memory, drop every command and move every context tag one on, and RST_CAUSE tells the cause; a self-test that
passes is counted. JTAG's BYPASS and IDCODE end a boundary scan, an open part takes one up, and a closed part
ignores what only an open one may run; the instructions that the spec gives no effect are refused on an open part.
(R362, R386, R394, R400, R401, R417, R424, R427.) -/
def Obligations.DeviceResets : Prop :=
  ∀ s : State,
    (∀ v : Bool, ∃ t, exec (.powerOnReset v) s = .next t ∧ t.pwr.up = true ∧ t.pwr.tripped = false ∧ t.dt = 0 ∧
      t.mem = [] ∧ t.cmds = [] ∧ (∀ c, t.ctx c = {}) ∧ t.sec.fuses = s.sec.fuses ∧ t.fab.flash = s.fab.flash ∧
      t.fab.bbKey = if v = true ∧ crc32c (keyBytes s.fab.bbKey) = s.fab.bbCrc then s.fab.bbKey else 0) ∧
    (∃ t, exec .railDroop s = .next t ∧ t.pwr.up = false ∧ t.pwr.tripped = s.pwr.tripped ∧ t.dt = 0 ∧ t.mem = [] ∧
      t.cmds = [] ∧ t.sec.fuses = s.sec.fuses ∧ t.fab.flash = s.fab.flash) ∧
    (∃ t, exec .powerDown s = .next t ∧ t.pwr.up = false ∧ t.pwr.tripped = false ∧ t.dt = 0 ∧ t.mem = [] ∧
      t.cmds = [] ∧ t.sec.fuses = s.sec.fuses ∧ t.fab.flash = s.fab.flash) ∧
    (s.pwr.up = true → s.pwr.tripped = false →
      let warm (i : Instr) (cause : Nat) : Prop := ∃ t, exec i s = .next t ∧ t.dt = s.dt ∧ t.mem = [] ∧ t.cmds = [] ∧
        (∀ c, c < 1024 → (t.ctx c).gen = ((s.ctx c).gen + 1) % 4096 ∧ (t.ctx c).live = false) ∧
        t.sec.fuses = s.sec.fuses ∧ t.fab.flash = s.fab.flash ∧
        (s.health.now = [] → s.openRets = [] → t.fld rRstCause 0 3 = cause ∧ t.reg rRstCausedt = s.dt)
      warm .deviceWarmReset 1 ∧ warm .dcWatchdog 3 ∧ warm .dcMemoryError 4 ∧ warm (.dcSelfTest false) 5) ∧
    (s.runs = true → ∃ t, exec (.dcSelfTest true) s = .next t ∧ s.onlyRegs t [rSecDcstat] ∧
      t.fld rSecDcstat 32 24 = min (2 ^ 24 - 1) (s.fld rSecDcstat 32 24 + 1)) ∧
    (∀ i : Jtag, i = .bypass ∨ i = .idcode →
      exec (.jtagInstruction i) s = .next { s with sec := { s.sec with scanning := false } }) ∧
    (s.jtagOpen = true → exec (.jtagInstruction .other) s = .refused .jtagPrivate ∧
      exec (.jtagInstruction .boundary) s = .next { s with sec := { s.sec with scanning := true } }) ∧
    (s.jtagOpen = false → exec (.jtagInstruction .other) s = .next s ∧ exec (.jtagInstruction .boundary) s = .next s)

/-- O53, tier 2. Each step of start-up completes once those before it are done: the boot chain ends in fawn mode with
its cause where flash does not answer or the provisioning record does not verify, and else with that record in
force; BIST gives each fault a spare line or retires its engine; HBM training leaves no soft repair in the health
record; HBM zeroing leaves HBM empty under fresh keys and HBM ready; the engines go into service; enabled sub-
ports begin their bring-up; DDR5 training leaves each channel absent, left out or in service; DDR5 zeroing leaves
the tier empty and ready. A patch quiesces, drains, loads and restarts one queue processor after the other, and
then the controller. (R191, R384, R385, R388, R408, R409, R410, R411.) -/
def Obligations.StartUp : Prop :=
  ∀ s : State,
    (s.pwr.up = true → s.did 0 = true → s.did 1 = false →
      (∃ t, exec (.bootChain none) s = .next t ∧ t.did 1 = true ∧ t.pwr.fawn = true ∧ t.fld rSecStat 0 2 = 2 ∧
        t.fld rSecStat 2 3 = 4 ∧ t.mem = s.mem) ∧
      ∀ f : FlashId, ∃ t, exec (.bootChain (some f)) s = .next t ∧ t.did 1 = true ∧ t.mem = s.mem ∧
        let record := s.flashObj recordArea 0x10000
        (s.verify .record record ≠ 0 → t.pwr.fawn = true ∧ t.fld rSecStat 0 2 = 2 ∧ t.fld rSecStat 2 3 = 1) ∧
        (s.verify .record record = 0 → t.sec.record = some record ∧
          (t.fld rSecStat 0 2 = 1 ∧ t.sec.image.isSome = true ∨ t.fld rSecStat 0 2 = 2 ∧ t.pwr.fawn = true))) ∧
    (s.stepOpen 2 [0] = true → ∀ faults : List (Fin 64 × BistFault), ∃ t, exec (.bist faults) s = .next t ∧
      t.did 2 = true ∧ t.mem = s.mem ∧ ∀ f ∈ faults, (t.eng f.1).retired = true ∨ t.told 0 stLineRemap) ∧
    (s.stepOpen 3 [0] = true → ∃ t, exec .laneCalibration s = .next t ∧ t.did 3 = true ∧ t.mem = s.mem ∧
      (s.did 6 = true → t.did 11 = true)) ∧
    (s.stepOpen 4 [0] = true → ∃ t, exec .hbmTraining s = .next t ∧ t.did 4 = true ∧ t.mem = s.mem ∧
      ∀ r ∈ t.health.now, isRepair r = false) ∧
    (s.stepOpen 5 [4] = true → s.rst.kept = [] → ∃ t, exec .hbmZeroing s = .next t ∧ t.did 5 = true ∧
      s.zeroed t 0 (2 ^ 39) ∧ t.fld rPwrReady readyHbm 1 = 1 ∧
      ∀ k, k < 4 → ∃ i, s.free ≤ i ∧ tget 0 t.hbmKeys k = BitVec.ofNat 64 (Config.freeNat i % 2 ^ 64)) ∧
    (s.stepOpen 6 [1, 2] = true → s.fld rSecStat 0 2 = 1 → ∃ t, exec .enginesIntoService s = .next t ∧
      t.did 6 = true ∧ t.fld rPwrReady 0 1 = 1 ∧ t.mem = s.mem ∧
      t.readyReleased = (s.fld rPwrReady readyHbm 1 == 1 && s.fld rPwrReady readyFabric 1 == 1)) ∧
    (s.stepOpen 8 (if s.pwr.fawn then [1, 3] else [3, 6]) = true → ∃ t, exec .ethernetBringUp s = .next t ∧
      t.did 8 = true ∧ t.mem = s.mem ∧
      ∀ (p : Fin 2) (k : Fin 4), s.subEnabled p k = true → t.subSt p k = 1 ∨ t.subSt p k = 2 ∨ t.subSt p k = 3) ∧
    (s.stepOpen 9 [0] = true → s.pwr.fawn = false → ∀ (ds : List (List Spd)) (bad : List (Fin 8)),
      ∃ t, exec (.ddr5Training ds bad) s = .next t ∧ t.did 9 = true ∧ t.mem = s.mem ∧
        (t.chList = [] → t.fld rPwrReady 2 1 = 1) ∧
        ∀ c : Fin 8, tget [] t.ddr.dimms c = ds.getD c [] ∧ (ds.getD c [] = [] → t.chState c = 0) ∧
          (t.chState c = 0 ∨ t.chState c = 2 ∨ t.chState c = 5)) ∧
    (s.runs = true → s.did 9 = true → s.did 10 = false → s.chList ≠ [] →
      s.ddr.initing.any (fun c => s.chState c == 1) = false → ∃ t, exec .ddr5Zeroing s = .next t ∧ t.did 10 = true ∧
        s.zeroed t ddrBase (2 ^ 42) ∧ t.fld rPwrReady 2 1 = 1) ∧
    (∀ x, s.sec.patch = some x →
      (4 ≤ x.qp → s.health.queue = [] → ∃ t, exec .queueProcessorPatch s = .next t ∧ t.sec.patch = none ∧
        t.mem = s.mem) ∧
      (x.qp < 4 →
        let goes (y : Patch) (st : Nat) : Prop := ∃ t, exec .queueProcessorPatch s = .next t ∧ t.mem = s.mem ∧
          t.sec.patch = some y ∧ t.fld rQpStatus (4 * x.qp) 4 = st
        (x.step = 1 → s.tearsOn x.qp = false → goes { x with step := 2 } (s.fld rQpStatus (4 * x.qp) 4)) ∧
        (x.step = 2 → s.drains x.qp x.cmd = false → goes { x with step := 4 } 2) ∧
        (x.step = 4 → goes { x with step := 5 } 3) ∧
        (x.step = 5 → goes { x with qp := x.qp + 1, step := 1 } 0)))

/-- O54, tier 2. An engine without work is clock-gated; a herd whose engines are all gated or retired goes into
retention; an idle router island is gated. A governor update moves each island that does not droop by at most 16
and shows the draw; a calibration holds the estimate against the regulators' readings; a missed cap that has
lasted 1 ms sets CAPMISS. A sensor at 105 °C sets TEMP; at 115 °C the device trips, with the DDR5 channels in
self-refresh and every lane off. A DIMM above its limit holds its channel in TSET1 until all are 5 °C below.
Telemetry and PMBUS alerts fill PWR_RAIL. A droop stretches an island within its longest period, and its recovery
restores the factor. (R402, R407, R413, R414, R415, R416, R417, R419, R420.) -/
def Obligations.PowerAndTemperature : Prop :=
  ∀ s : State,
    (s.runs = true →
      (∀ e : Fin 64, s.engPower e = 0 → s.fld rPwrLpctl 0 16 ≠ 0 → s.engineWork e = false →
        ∃ t, exec (.engineClockGate e) s = .next t ∧ s.onlyRegs t [rPwrEng e] ∧ t.engPower e = 1) ∧
      (∀ h : Fin 8, s.fld rPwrLpctl 28 1 = 1 →
        (∀ i, i < 8 → s.engPower (8 * (h : Nat) + i) = 1 ∨ s.engPower (8 * (h : Nat) + i) = 3) →
        ∃ t, exec (.herdRetention h) s = .next t ∧ { t with regs := s.regs } = s ∧
          ∀ i, i < 8 → t.engPower (8 * (h : Nat) + i) = if s.engPower (8 * (h : Nat) + i) = 1 then 2 else 3) ∧
      (∀ r : Fin 8, ∃ t, exec (.routerClockGate r) s = .next t ∧ s.onlyRegs t [rPwrRtr r] ∧
        t.fld (rPwrRtr r) 12 2 = 1) ∧
      (∀ g : Sensors, ∃ t, exec (.governorUpdate g) s = .next t ∧ t.mem = s.mem ∧ t.cmds = s.cmds ∧
        t.fld rPwrStat 0 16 = s.watts g.avg1000 % 2 ^ 16 ∧
        ∀ i, i < 124 → oget s.pwr.droops i = none → s.stretch i ≤ 4079 →
          t.stretch i ≤ s.stretch i + 16 ∧ s.stretch i ≤ t.stretch i + 16) ∧
      (∀ est : Nat, ∃ t, exec (.governorCalibration est) s = .next t ∧ { t with pwr := s.pwr } = s ∧
        let mw := ((List.range 9).map (fun k => if s.fld (rPwrRail k) 63 1 = 1 then 0
          else s.fld (rPwrRail k) 0 12 * s.fld (rPwrRail k) 12 12)).sum
        t.pwr.corr = ((mw / 10000 : Nat) : Int) - est) ∧
      (∃ t, exec .temperatureAlert s = .next t ∧ s.onlyRegs t [rPwrAlert, rPwrAlertdt] ∧ t.fld rPwrAlert 0 1 = 1 ∧
        t.reg rPwrAlertdt = s.dt) ∧
      (∀ temps : List (List Nat), ∃ t, exec (.dimmTemperatureRead temps) s = .next t ∧ t.mem = s.mem ∧
        ∀ c ∈ s.chList, ((temps.getD c []).any (fun v => decide (s.fld rPwrGov 24 8 < v)) = true →
            t.fld rPwrAlert 3 1 = 1 ∧ t.ddr.heat.contains c = true) ∧
          ((temps.getD c []).all (fun v => decide (v + 5 ≤ s.fld rPwrGov 24 8)) = true →
            t.ddr.heat.contains c = false)) ∧
      (∀ (rails : List Rail) (k : Fin 9),
        (∃ t, exec (.pmbusTelemetry rails) s = .next t ∧ { t with regs := s.regs } = s ∧
          let r := railOf rails k
          if r.answers then t.fld (rPwrRail k) 0 12 = r.vout % 2 ^ 12 ∧ t.fld (rPwrRail k) 12 12 = r.iout % 2 ^ 12 ∧
            t.fld (rPwrRail k) 24 8 = r.temp % 2 ^ 8 ∧ t.fld (rPwrRail k) 63 1 = 0
          else t.fld (rPwrRail k) 63 1 = 1) ∧
        (∃ t, exec (.pmbusAlert rails) s = .next t ∧ { t with regs := s.regs } = s ∧ t.fld rPwrAlert 2 1 = 1 ∧
          if (railOf rails k).answers then t.fld (rPwrRail k) 32 16 = (railOf rails k).status % 2 ^ 16
          else t.fld (rPwrRail k) 63 1 = 1))) ∧
    (∀ u, s.pwr.missFrom = some u → u + dtMs 1 ≤ s.dt.toNat → ∃ t, exec .capmiss s = .next t ∧
      s.onlyRegs t [rPwrAlert, rPwrAlertdt, rPwrStat] ∧ t.fld rPwrAlert 1 1 = 1 ∧ t.fld rPwrStat 16 1 = 1) ∧
    (s.pwr.up = true → s.pwr.tripped = false → ∃ t, exec .thermalTrip s = .next t ∧ t.pwr.tripped = true ∧
      t.thermtripAsserted = true ∧ t.alertAsserted = true ∧ t.fld rPwrAlert 5 1 = 1 ∧ t.mem = s.mem ∧ (∀ c ∈ s.chList, t.chState c = 4) ∧
      ∀ l, l < 48 → t.laneOn l = false) ∧
    (∀ i : Fin 124,
      (oget s.pwr.droops i = none → s.stretch i < islandMax i → ∃ t, exec (.localSupplyDroop i) s = .next t ∧
        s.stretch i < t.stretch i ∧ t.stretch i ≤ islandMax i ∧ oget t.pwr.droops i = some (s.stretch i) ∧
        t.mem = s.mem) ∧
      (∀ v, oget s.pwr.droops i = some v → v < 4096 → ∃ t, exec (.localSupplyRecovery i) s = .next t ∧
        t.stretch i = v ∧ oget t.pwr.droops i = none ∧ t.mem = s.mem))

/-- O55, tier 2. A watchdog of an engine whose time counts as work opens a hang procedure: the engine hangs, HP0 is
told, and a hang dump is due; one that expires during a replay shows that context guilty, frozen and told. Once
the dump is collected the engine is tested: a failed test makes its retirement due; suspects whose commands are
open are replayed in turn, and after the last the procedure ends in RST_HLOG. The queue watchdog leaves no command
of its queue processor held that had not started, and logs outcome 3. The quiesce fence, or 2 ms without it,
releases a context's number and keeps its tag. (R430, R431, R432, R433, R434, R440.) -/
def Obligations.HangsAndTeardown : Prop :=
  ∀ s : State, s.runs = true →
    (∀ e : Fin 64, (s.eng e).retired = false →
      let expires (i : Instr) : Prop :=
        (s.rst.hangs.find? (fun h => h.eng == (e : Nat)) = none → ∃ t, exec i s = .next t ∧ (t.eng e).hung = true ∧
          t.told 0 stFrozen ∧ t.mem = s.mem ∧
          t.rst.hangs = s.rst.hangs ++ [{ eng := e, suspects := s.suspects e, dt := s.dt }] ∧
          ∃ d, t.rst.dumps = s.rst.dumps ++ [d] ∧ d.kind = 1 ∧ d.eng = (e : Nat) ∧ d.dt = s.dt) ∧
        (∀ h c id, s.rst.hangs.find? (fun h => h.eng == (e : Nat)) = some h → h.st = .replay c id →
          ∃ t, exec i s = .next t ∧ (t.ctx c).frozen.isSome = true ∧ t.told 0 stEngineHang ∧ t.mem = s.mem ∧
            ∃ g ∈ t.rst.hangs, g.eng = (e : Nat) ∧ g.st = .ready ∧ g.guilty = some (c, (s.ctx c).gen))
      (s.engineCounts e = true → expires (.engineWatchdog e)) ∧
      (∀ k : Fin 4, (s.streamHeads e k).any (fun x => x.started && !s.streamHeld x) = true → expires (.streamWatchdog e k))) ∧
    (∀ (e : Fin 64) (h : Hang), s.rst.hangs.find? (fun h => h.eng == (e : Nat)) = some h →
      (h.st = .dump → s.hangDumpOpen e = false →
        ∃ t, exec (.suspectReplay e false) s = .next t ∧ (t.eng e).retiring = some 1 ∧ (t.eng e).hung = false) ∧
      (h.st = .ready → (s.eng e).retiring = none → ∀ pass : Bool,
        (h.suspects.all (fun x => (s.cmd x.2).isNone) = true → (∀ d ∈ s.cmds, d.fixes = []) →
          ∃ t, exec (.suspectReplay e pass) s = .next t ∧
          t.rst.hangs = s.rst.hangs.erase h ∧ t.reg rRstHlogdt = h.dt ∧ t.fld rRstHlog 14 6 = e) ∧
        (∀ x rest c, h.suspects = x :: rest → s.cmd x.2 = some c → ∃ t, exec (.suspectReplay e pass) s = .next t ∧
          ∃ g ∈ t.rst.hangs, g.eng = (e : Nat) ∧ g.st = .replay x.1 x.2 ∧ g.suspects = rest ∧ g.done = h.done + 1))) ∧
    (∀ p : Fin 4, s.procWork p = true → ∃ t, exec (.queueWatchdog p) s = .next t ∧ t.mem = s.mem ∧
      t.fld rRstHlog 20 2 = 3 ∧ t.fld rRstHlog 14 6 = p ∧ t.reg rRstHlogdt = s.dt ∧
      ∀ d ∈ t.cmds, d.qp = (p : Nat) → d.st = .held → d.started = true) ∧
    (∀ c : Fin 1024, (s.ctx c).tearing = true →
      (s.fence c = true → ∃ t, exec (.quiesceFence c) s = .next t ∧ t.ctx c = { gen := (s.ctx c).gen } ∧
        t.mem = s.mem ∧ ∀ r ∈ t.reds, r.ctx ≠ c) ∧
      (s.fence c = false → (s.ctx c).tearDt.toNat + dtMs 2 ≤ s.dt.toNat →
        ∃ t, exec (.teardownTimeout c) s = .next t ∧ t.ctx c = { gen := (s.ctx c).gen } ∧
          ∀ r ∈ t.reds, r.ctx ≠ c))

/-- O56, tier 2. DUMP_COLLECT reads the next unit into an entry of the dump under way, which is stored unsent after
its last; a unit that does not answer is entered as unread and not accessed again. DUMP_SEND takes a collected
dump off the queue. A retirement that is due leaves the engine retired and power-gated, recorded in the health
record and told to HP0. HEALTH_RECORD_WRITE makes the oldest waiting change the best copy, one SEQ higher.
REVOKE_ZEROING leaves no grant of the partition that meets what is taken, and zeroes the memory or the engine
store that it held of it. (R395, R437, R438, R439, R442, R444, R452.) -/
def Obligations.DumpsRetirementsAndRevokes : Prop :=
  (∀ (s : State) (d : Dump) (rest : List Dump) (u : DumpUnit) (us : List DumpUnit), s.rst.dumps = d :: rest →
    d.units = u :: us →
    (256 + d.bytes.length + (dumpEntry u false s.dt.toNat (s.unitData u)).length ≤ dumpArea →
      ∃ t, exec .dumpCollect s = .next t ∧ (us = [] → t.fld rDmpStat 1 1 = 1 ∧ t.reg rDmpDt = d.dt) ∧
        ∃ x, t.rst.dumps = x :: rest ∧ x.units = us ∧ x.entries = d.entries + 1 ∧ x.bad = d.bad ∧ x.cmd = d.cmd) ∧
    (256 + d.bytes.length + 32 ≤ dumpArea → ∃ t, exec .dumpAccessTimeout s = .next t ∧
      ∃ x, t.rst.dumps = x :: rest ∧ x.units = us.filter (fun v => !(v.cls == u.cls && v.idx == u.idx)) ∧
        x.entries = d.entries + 1 ∧ x.bad = d.bad + 1)) ∧
  (∀ (s : State) (d : Dump) (rest : List Dump), s.rst.dumps = d :: rest → d.units = [] →
    ∃ t, exec .dumpSend s = .next t ∧ t.rst.dumps = rest ∧ t.mem = s.mem ∧
      t.fld rDmpStat 0 1 = if rest = [] then 0 else 1) ∧
  (∀ (s : State) (e : Fin 64) (lost : List (Fin 1024)) (cause : Nat), s.runs = true → (s.eng e).retiring = some cause →
    (s.eng e).movable = true → s.hangHolds e = false →
    ∃ t, exec (.engineRetirement e lost) s = .next t ∧ (t.eng e).retired = true ∧ (t.eng e).retiring = none ∧
      t.fld (rPwrEng e) 12 2 = 3 ∧ t.told 0 stEngineRetire ∧ t.mem = s.mem ∧
      t.health.now = s.health.now ++ [.engine e cause s.dt]) ∧
  (∀ (s : State) (h : List HRec) (rest : List (List HRec)), s.health.queue = h :: rest →
    let a := copySeq s.health.copyA
    let b := copySeq s.health.copyB
    ∃ t, exec .healthRecordWrite s = .next t ∧ t.health.queue = rest ∧ t.health.now = s.health.now ∧
      t.health.best = some (max a b, decide (b < a), h) ∧ t.fld rRstHrec 33 1 = (if rest = [] then 0 else 1) ∧
      t.mem = s.mem) ∧
  (∀ (s : State) (p : Fin 8) (r : Revoke), s.runs = true → s.requested r.grant = false →
    (s.part p).revoking.find? (fun r => s.revoked r) = some r →
    ∃ t, exec (.revokeZeroing p) s = .next t ∧ (t.part p).revoking = (s.part p).revoking.erase r ∧
      (∀ g ∈ (t.part p).grants, g.meets r.grant = false) ∧
      ∀ g ∈ (s.part p).grants, g.meets r.grant = true →
        (r.grant.kind = 0 → (g.common r.grant).size % 4096 = 0 → ∀ a, (g.common r.grant).lo ≤ a →
          a < (g.common r.grant).lo + (g.common r.grant).size → t.byte a = 0) ∧
        (r.grant.kind = 1 → ∀ c ∈ t.mem, ¬ (storeBase r.grant.lo ≤ c.1 ∧ c.1 < storeBase r.grant.lo + storeOpen)))

/-- O57, tier 2. A naturally aligned write of a register without side effects gives its RW bits the value, clears the
W1C bits written as 1, and changes nothing else (one of ETH_MAC may also let answers leave that PFC held); a write
that is not aligned, at a reserved offset, or of a register that only other commands write, changes nothing. The
CLEAR writes zero the counts of their register and change nothing else; that of a probe zeroes its packet and byte
counts, and that of a trace buffer empties it, with its index, WRAPPED and LOST at 0 and its stop mode kept. (R8,
R9, R87, R207, R232, R298, R306, R325, R326, R377, R450.) -/
def Obligations.RegisterWrites : Prop :=
  ∀ s : State,
    (∀ (off : Nat) (v : W64),
      (off % 8 ≠ 0 ∨ 2 ^ 24 ≤ off ∨ regReserved off = true ∨ regDef off = none →
        exec (.registerWrite off v) s = .next s) ∧
      (∀ d, off % 8 = 0 → off < 2 ^ 24 → regReserved off = false → regAct off = .plain ∨ regAct off = .mac →
        regDef off = some d →
        ∃ t, exec (.registerWrite off v) s = .next t ∧ (regAct off = .plain → s.onlyRegs t [off]) ∧ t.mem = s.mem ∧
          (∀ x, x ≠ off → t.reg x = s.reg x) ∧ ∀ i, i < 64 → (t.reg off).getLsbD i =
            if d.rw.testBit i then v.getLsbD i
            else if d.w1c.testBit i then (s.reg off).getLsbD i && !v.getLsbD i
            else (s.reg off).getLsbD i)) ∧
    let clears (i : Instr) (off : Nat) : Prop := ∃ t, exec i s = .next t ∧ s.onlyRegs t [off] ∧ t.reg off = 0
    (∀ e : Fin 64, clears (.mtCkstatClear e) (rMtCkstat e)) ∧ clears .hbmEccClear rHbmEcc ∧
    (∀ c : Fin 8, clears (.ddrEccClear c) (rDdrEcc c)) ∧
    (∀ (p : Fin 2) (k : Fin 4), clears (.ethFecClear p k) (rEthFec p k)) ∧
    (∀ p : Fin 2, clears (.cxlErrClear p) (rCxlErr p)) ∧ (∀ u : Fin 2, clears (.brwCntClear u) (rBrwCnt u)) ∧
    (∀ p : Fin 40, ∃ t, exec (.nocPrbctlClear p) s = .next t ∧
      s.onlyRegs t [rNocPrbctl p, rNocPrbpkt p, rNocPrbbyte p] ∧ t.reg (rNocPrbpkt p) = 0 ∧ t.reg (rNocPrbbyte p) = 0) ∧
    (∀ b : Fin 3, ∃ t, exec (.nocTrctlClear b) s = .next t ∧ t.fld (rNocTrctl b) 0 16 = 0 ∧
      t.fld (rNocTrctl b) 48 16 = 0 ∧ t.fld (rNocTrctl b) 16 1 = s.fld (rNocTrctl b) 16 1 ∧ t.mem = s.mem ∧
      (∀ i, i < 16384 → oget t.noc.trace ((b : Nat) * 16384 + i) = none) ∧
      ∀ off, off ≠ rNocTrctl b → t.reg off = s.reg off)

/-- O58, tier 1. In the MT_, VT_ and ES_ block of every engine, every offset that Tables 3.8 to 3.17, 4.10 to 4.18 and
5.12 to 5.23 do not list reads zero, and a write of it changes nothing. (R87, R117, R156.) -/
def Obligations.ReservedEngineOffsets : Prop :=
  ∀ (s : State) (n : Fin 64) (o : Fin 4096) (v : W64),
    let reserved (off : Nat) : Prop := s.regRead off = 0 ∧ exec (.registerWrite off v) s = .next s
    let listed (single : List Nat) (arrays : List (Nat × Nat)) : Prop := (o : Nat) ∈ single ∨
      ∃ a ∈ arrays, ∃ i, i < a.2 ∧ (o : Nat) = a.1 + 8 * i
    (¬ listed [0, 8, 0x10, 0x18, 0x20, 0x28, 0x30, 0x80, 0x88, 0x90] [(0x40, 8)] → reserved ((n : Nat) * 0x1000 + (o : Nat))) ∧
    (¬ listed [0, 8, 0x10, 0x18, 0x20] [(0x40, 8), (0x80, 8), (0xC0, 8), (0x100, 8), (0x140, 8)] →
      reserved (0x40000 + (n : Nat) * 0x1000 + (o : Nat))) ∧
    (¬ listed [0, 8, 0x10, 0x18, 0x20, 0x28, 0x30, 0x38] [(0x40, 8), (0x80, 8), (0x800, 256)] →
      reserved (0x80000 + (n : Nat) * 0x1000 + (o : Nat)))

/-- O59, tier 1. DMP_BASE is 0x005E_3C00_0000 at reset, the top 64 MiB of region 376. A well-formed PART_GRANT of a
range of the tiers that overlaps the area is refused with IN_USE. A write of DMP_BASE that is not 64 MiB-aligned,
does not lie in HBM or names granted memory is ignored; any other takes effect. (R435.) -/
def Obligations.DumpAreaRule : Prop :=
  State.reset.reg rDmpBase = 0x005E3C000000 ∧ 0x005E3C000000 + 64 * 2 ^ 20 = 377 * 2 ^ 30 ∧
  (∀ (s : State) (c : Cmd), c.opf 0 3 1 = 0 → c.opf 0 4 4 = 0 →
    let lo := (c.op 1).toNat
    let n := (c.op 2).toNat * 2 ^ 21
    n ≠ 0 → lo % 2 ^ 21 = 0 → lo + n ≤ 2 ^ 48 → c.grant.probes.all (fun a => isTier (s.region a)) = true →
    lo < (s.reg rDmpBase).toNat + 64 * 2 ^ 20 → (s.reg rDmpBase).toNat < lo + n → partGrantRow.check s c = stInUse) ∧
  (∀ (s : State) (v : W64),
    let a := bf v 0 48
    let granted : Prop := ∃ p, p < 8 ∧ ∃ g ∈ (s.part p).grants, g.kind = 0 ∧ a < g.lo + g.size ∧ g.lo < a + 64 * 2 ^ 20
    if a % (64 * 2 ^ 20) = 0 ∧ (∀ i, i < 64 * 2 ^ 20 → s.inHbm (a + i) = true) ∧ ¬ granted then
      ∃ t, exec (.registerWrite rDmpBase v) s = .next t ∧ s.onlyRegs t [rDmpBase] ∧ t.fld rDmpBase 0 48 = a
    else exec (.registerWrite rDmpBase v) s = .next s)

/-- O60, tier 3. While nothing is re-keyed or retired, an HBM address A in an enabled region whose slices are data
slices lies in pseudo-channel pc at offset off as the procedure of R190 computes them; for any fixed hi the
pseudo-channel runs over every one of the region's span exactly once, and no two addresses of the region share a
byte. (R190.) -/
def Obligations.HbmPlacement : Prop :=
  ∀ (s : State) (A : Nat), A < 378 * 2 ^ 30 → s.rekeys = [] → s.pcRets = [] →
    let r := A / 2 ^ 30
    let mode := s.rgnMode r
    s.rgnOn r = true → mode < 3 → s.rgnSlice r + (if mode = 0 then 0 else 1) < 378 →
    let w := if mode = 0 then 9 else 8
    let first := if mode = 2 then 256 else 0
    let key := (tget (0 : W64) s.hbmKeys (s.fld (rHbmRgn r) 2 2)).toNat
    let g (a : Nat) : Nat := a / 256 % 2 ^ 22
    let lo (a : Nat) : Nat := g a % 2 ^ w
    let hi (a : Nat) : Nat := g a / 2 ^ w
    let z (a : Nat) : Nat := (key ^^^ hi a ^^^ (hi a * 2 ^ 11) ^^^ (hi a * 2 ^ 23) ^^^ (r * 2 ^ 50)) % 2 ^ 64
    let p (a c : Nat) : Nat := z a / 2 ^ (w * c) % 2 ^ w
    let h (a : Nat) : Nat := p a 0 ^^^ p a 1 ^^^ p a 2 ^^^ p a 3 ^^^ p a 4 ^^^ p a 5 ^^^ p a 6 ^^^ p a 7
    let pc := first + (lo A ^^^ h A)
    let off := s.rgnSlice r * 2 ^ 21 + hi A * 256 + A % 256
    s.memKey A = pc * 2 ^ 30 + off ∧ first ≤ pc ∧ pc < first + 2 ^ w ∧ off < 378 * 2 ^ 21 ∧
    (∀ c, first ≤ c → c < first + 2 ^ w →
      ∃ B, B / 2 ^ 30 = r ∧ hi B = hi A ∧ s.memKey B = c * 2 ^ 30 + off ∧
        ∀ C, C / 2 ^ 30 = r → hi C = hi A → C % 256 = A % 256 → s.memKey C = c * 2 ^ 30 + off → C = B) ∧
    (∀ B, B / 2 ^ 30 = r → s.memKey B = s.memKey A → B = A)
end

