-- ==== Sys2Proof/Laws/Tab.lean ====
section
/-! SUPPORT. Laws of the sparse tables: a read after a write, and the canonical form, which every write keeps. -/

namespace Sys2Proof.Machine

variable {α : Type}

theorem tget_tput (d : α) (t : Tab α) (k j : Nat) (v : α) :
    tget d (tput k v t) j = if j = k then v else tget d t j := by
  induction t with
  | nil => simp only [tput, tget]; split_ifs <;> first | rfl | omega
  | cons x t ih =>
    unfold tput
    split_ifs with h1 h2 h3 h3 <;> simp only [tget, ih] <;> split_ifs <;> first | rfl | omega

theorem tget_tdel (d : α) (t : Tab α) (k j : Nat) : tget d (tdel k t) j = if j = k then d else tget d t j := by
  induction t with
  | nil => simp [tdel, tget]
  | cons x t ih =>
    unfold tdel
    split_ifs with h1 h2 h2 <;> simp only [tget, ih] <;> split_ifs <;> first | rfl | omega

theorem oget_tput (t : Tab α) (k j : Nat) (v : α) : oget (tput k v t) j = if j = k then some v else oget t j := by
  induction t with
  | nil => simp only [tput, oget]; split_ifs <;> first | rfl | omega
  | cons x t ih =>
    unfold tput
    split_ifs with h1 h2 h3 h3 <;> simp only [oget, ih] <;> split_ifs <;> first | rfl | omega

theorem oget_tdel (t : Tab α) (k j : Nat) : oget (tdel k t) j = if j = k then none else oget t j := by
  induction t with
  | nil => simp [tdel, oget]
  | cons x t ih =>
    unfold tdel
    split_ifs with h1 h2 h2 <;> simp only [oget, ih] <;> split_ifs <;> first | rfl | omega

section
variable [DecidableEq α] {d : α}

theorem twfFrom_mono {t : Tab α} {a b : Nat} (h : twfFrom d b t = true) (hab : a ≤ b) : twfFrom d a t = true := by
  cases t with
  | nil => rfl
  | cons x t =>
    simp only [twfFrom, Bool.and_eq_true, decide_eq_true_eq] at *
    exact ⟨⟨hab.trans h.1.1, h.1.2⟩, h.2⟩

theorem twfFrom_tput {t : Tab α} {lo k : Nat} {v : α} (h : twfFrom d lo t = true) (hv : v ≠ d) (hk : lo ≤ k) :
    twfFrom d lo (tput k v t) = true := by
  induction t generalizing lo with
  | nil => simp [tput, twfFrom, hv, hk]
  | cons x t ih =>
    simp only [twfFrom, Bool.and_eq_true, decide_eq_true_eq] at h
    unfold tput
    split
    · simp only [twfFrom, Bool.and_eq_true, decide_eq_true_eq]
      exact ⟨⟨hk, hv⟩, ⟨by omega, h.1.2⟩, h.2⟩
    · split
      · simp only [twfFrom, Bool.and_eq_true, decide_eq_true_eq]
        exact ⟨⟨hk, hv⟩, by simp_all⟩
      · simp only [twfFrom, Bool.and_eq_true, decide_eq_true_eq]
        exact ⟨h.1, ih h.2 (by omega)⟩

theorem twfFrom_tdel {t : Tab α} {lo k : Nat} (h : twfFrom d lo t = true) : twfFrom d lo (tdel k t) = true := by
  induction t generalizing lo with
  | nil => rfl
  | cons x t ih =>
    simp only [twfFrom, Bool.and_eq_true, decide_eq_true_eq] at h
    unfold tdel
    split
    · exact twfFrom_mono (ih h.2) (by omega)
    · simp only [twfFrom, Bool.and_eq_true, decide_eq_true_eq]
      exact ⟨h.1, ih h.2⟩

/-- A write keeps the canonical form. -/
theorem twf_tset {t : Tab α} (h : twf d t = true) (k : Nat) (v : α) : twf d (tset d t k v) = true := by
  unfold tset twf
  split
  · exact twfFrom_tdel h
  · exact twfFrom_tput h ‹_› (Nat.zero_le _)

/-- A run of writes keeps the canonical form. -/
theorem twf_foldl_tset {β : Type} (l : List β) (key : β → Nat) (val : β → α) {t : Tab α} (h : twf d t = true) :
    twf d (l.foldl (fun t x => tset d t (key x) (val x)) t) = true := by
  induction l generalizing t with
  | nil => exact h
  | cons x l ih => exact ih (twf_tset h _ _)

theorem twfFrom_filter {t : Tab α} {lo : Nat} (f : Nat × α → Bool) (h : twfFrom d lo t = true) :
    twfFrom d lo (t.filter f) = true := by
  induction t generalizing lo with
  | nil => rfl
  | cons x t ih =>
    simp only [twfFrom, Bool.and_eq_true, decide_eq_true_eq] at h
    rw [List.filter_cons]
    split
    · simp only [twfFrom, Bool.and_eq_true, decide_eq_true_eq]
      exact ⟨h.1, ih h.2⟩
    · exact twfFrom_mono (ih h.2) (by omega)

/-- A table that loses entries keeps the canonical form. -/
theorem twf_filter {t : Tab α} (f : Nat × α → Bool) (h : twf d t = true) : twf d (t.filter f) = true :=
  twfFrom_filter f h

/-- A read after a write gives the value written, and every other key reads as before. -/
theorem tget_tset (t : Tab α) (k j : Nat) (v : α) :
    tget d (tset d t k v) j = if j = k then v else tget d t j := by
  unfold tset
  split
  · rw [tget_tdel]; split_ifs <;> simp_all
  · exact tget_tput d t k j v

end

/-- An option table reads what was written, and every other key as before. -/
theorem oget_oset (t : Tab α) (k j : Nat) (v : Option α) :
    oget (oset t k v) j = if j = k then v else oget t j := by
  cases v with
  | none => exact oget_tdel t k j
  | some v => exact oget_tput t k j v

end Sys2Proof.Machine
end

