-- ==== Sys2Proof/Laws/Keeps.lean ====
section
/-! SUPPORT. What no command does to the state: it leaves the queue as it is, takes no device time, never
takes a free value twice, and keeps memory and the poison marks in their canonical form. `Keeps z t` says so of the way from `z` to `t`; every
operation of the model keeps it (the files Keeps1 to Keeps7), which is proved once here for the shapes that
operations are built from. -/

namespace Sys2Proof.Machine

/-- From `z` to `t` the queue stays, device time stays or begins anew, the count of free values does not fall, and
memory and the poison marks stay in canonical form. -/
structure Keeps (z t : State) : Prop where
  pending : t.pending = z.pending
  dt : t.dt = z.dt ∨ t.dt = 0
  free : z.free ≤ t.free
  mem : Memory.wf z.mem = true → Memory.wf t.mem = true
  poison : twf false z.poison = true → twf false t.poison = true

/-- The same of an outcome that is a next state. -/
def KeepsO (z : State) (o : Host.Outcome State Fault Refusal) : Prop :=
  match o with
  | .next t => Keeps z t
  | _ => True

theorem Keeps.rfl {z : State} : Keeps z z := ⟨by rfl, .inl (by rfl), Nat.le_refl _, id, id⟩

theorem Keeps.trans {z s t : State} (h : Keeps z s) (h' : Keeps s t) : Keeps z t :=
  ⟨h'.pending.trans h.pending, h'.dt.elim (fun e => h.dt.imp e.trans e.trans) .inr, h.free.trans h'.free, h'.mem ∘ h.mem, h'.poison ∘ h.poison⟩

/-- The same of an effect that an instruction may have. -/
def KeepsF (z : State) (o : Option (State → State)) : Prop := ∀ f, o = some f → ∀ t, Keeps z t → Keeps z (f t)

/-- The same of what starts a command. -/
def CmdRow.Keeps (z : State) (r : CmdRow) : Prop := ∀ t c, Machine.Keeps z t → Machine.Keeps z (r.start t c)

theorem keepsF_none {z : State} : KeepsF z none := nofun

theorem keepsF_some {z : State} {f : State → State} (h : ∀ t, Keeps z t → Keeps z (f t)) : KeepsF z (some f) := by
  intro g hg; cases hg; exact h

theorem keepsF_ite {z : State} {c : Prop} [Decidable c] {a b : Option (State → State)} (ha : KeepsF z a)
    (hb : KeepsF z b) : KeepsF z (if c then a else b) := by
  split <;> assumption

theorem keepsO_next {z t : State} (h : Keeps z t) : KeepsO z (.next t) := h

theorem keepsO_ite {z : State} {c : Prop} [Decidable c] {a b : Host.Outcome State Fault Refusal} (ha : KeepsO z a)
    (hb : KeepsO z b) : KeepsO z (if c then a else b) := by
  split <;> assumption

theorem keeps_ite {z : State} {c : Prop} [Decidable c] {a b : State} (ha : Keeps z a) (hb : Keeps z b) :
    Keeps z (if c then a else b) := by
  split <;> assumption

theorem keeps_ite_fst {β : Type} {z : State} {c : Prop} [Decidable c] {a b : State × β} (ha : Keeps z a.1)
    (hb : Keeps z b.1) : Keeps z (if c then a else b).1 := by
  split <;> assumption

theorem keeps_ite_snd {β : Type} {z : State} {c : Prop} [Decidable c] {a b : β × State} (ha : Keeps z a.2)
    (hb : Keeps z b.2) : Keeps z (if c then a else b).2 := by
  split <;> assumption

theorem keeps_foldl {α : Type} {z : State} {f : State → α → State} {i : State} {l : List α} (hi : Keeps z i)
    (hf : ∀ s a, Keeps z s → Keeps z (f s a)) : Keeps z (l.foldl f i) := by
  induction l generalizing i with
  | nil => exact hi
  | cons x l ih => exact ih (hf i x hi)

theorem keeps_foldl_fst {α β : Type} {z : State} {f : State × β → α → State × β} {i : State × β} {l : List α}
    (hi : Keeps z i.1) (hf : ∀ p a, Keeps z p.1 → Keeps z (f p a).1) : Keeps z (l.foldl f i).1 := by
  induction l generalizing i with
  | nil => exact hi
  | cons x l ih => exact ih (hf i x hi)

theorem keeps_foldl_snd {α β : Type} {z : State} {f : β × State → α → β × State} {i : β × State} {l : List α}
    (hi : Keeps z i.2) (hf : ∀ p a, Keeps z p.2 → Keeps z (f p a).2) : Keeps z (l.foldl f i).2 := by
  induction l generalizing i with
  | nil => exact hi
  | cons x l ih => exact ih (hf i x hi)

theorem keeps_fst_of_eq {β : Type} {z : State} {p : State × β} {a : State} {b : β} (e : p = (a, b))
    (h : Keeps z p.1) : Keeps z a := by
  subst e; exact h

theorem keeps_snd_of_eq {β : Type} {z : State} {p : β × State} {a : β} {b : State} (e : p = (a, b))
    (h : Keeps z p.2) : Keeps z b := by
  subst e; exact h

/-- A record update of any other fields. -/
theorem keeps_mk {z s : State} {regs hbmKeys engs ctxs parts queues cmds nextCmd reds moves rekeys works pcRets
    hbmHot hbmErrs ddr health net noc fab links sec pwr rst} (h : Keeps z s) :
    Keeps z ⟨s.pending, s.free, s.dt, regs, s.mem, s.poison, hbmKeys, engs, ctxs, parts, queues, cmds, nextCmd, reds,
      moves, rekeys, works, pcRets, hbmHot, hbmErrs, ddr, health, net, noc, fab, links, sec, pwr, rst⟩ :=
  ⟨h.pending, h.dt, h.free, h.mem, h.poison⟩

/-- A record update that takes device time over from another state. -/
theorem keeps_mk_dt {z s r : State} {regs hbmKeys engs ctxs parts queues cmds nextCmd reds moves rekeys works pcRets
    hbmHot hbmErrs ddr health net noc fab links sec pwr rst} (h : Keeps z s) (h' : Keeps z r) :
    Keeps z ⟨s.pending, s.free, r.dt, regs, s.mem, s.poison, hbmKeys, engs, ctxs, parts, queues, cmds, nextCmd, reds,
      moves, rekeys, works, pcRets, hbmHot, hbmErrs, ddr, health, net, noc, fab, links, sec, pwr, rst⟩ :=
  ⟨h.pending, h'.dt, h.free, h.mem, h.poison⟩

theorem keeps_free {z s : State} {k : Nat} (h : Keeps z s) : Keeps z { s with free := s.free + k } :=
  ⟨h.pending, h.dt, h.free.trans (Nat.le_add_right _ _), h.mem, h.poison⟩

/-! ### The operations that write memory and its poison marks -/

theorem State.setByte_keeps {z s : State} {a : Nat} {b : Byte} (h : Keeps z s) : Keeps z (s.setByte a b) :=
  ⟨h.pending, h.dt, h.free, fun w => twf_tset (h.mem w) _ _, h.poison⟩

theorem State.setPoison_keeps {z s : State} {a : Nat} {v : Bool} (h : Keeps z s) : Keeps z (s.setPoison a v) :=
  ⟨h.pending, h.dt, h.free, h.mem, fun w => twf_tset (h.poison w) _ _⟩

theorem State.setBytes_keeps {z s : State} {a : Nat} {bs : List Byte} (h : Keeps z s) :
    Keeps z (s.setBytes a bs) := by
  induction bs generalizing s a with
  | nil => exact h
  | cons b bs ih => exact ih (State.setByte_keeps h)

theorem State.copyCells_keeps {z s : State} {src dst n : Nat} (h : Keeps z s) :
    Keeps z (s.copyCells src dst n) :=
  ⟨h.pending, h.dt, h.free, fun w => twf_foldl_tset _ _ _ (h.mem w), fun w => twf_foldl_tset _ _ _ (h.poison w)⟩

theorem State.putKeys_keeps {z s : State} {k : Nat} {js : List Nat} {f : Nat → Byte} (h : Keeps z s) :
    Keeps z (s.putKeys k js f) :=
  ⟨h.pending, h.dt, h.free, fun w => twf_foldl_tset _ _ _ (h.mem w), h.poison⟩

theorem State.markKey_keeps {z s : State} {key : Nat} {v : Bool} (h : Keeps z s) : Keeps z (s.markKey key v) :=
  ⟨h.pending, h.dt, h.free, h.mem, fun w => twf_tset (h.poison w) _ _⟩

theorem State.zeroKeys_keeps {z s : State} {lo n : Nat} (h : Keeps z s) : Keeps z (s.zeroKeys lo n) :=
  ⟨h.pending, h.dt, h.free, fun w => twf_filter _ (h.mem w), fun w => twf_filter _ (h.poison w)⟩

/-- A reset of the whole device empties memory. -/
theorem State.rebirth_keeps {z s : State} {up : Bool} (h : Keeps z s) : Keeps z (s.rebirth up) :=
  ⟨h.pending, .inr (by rfl), h.free, fun _ => by rfl, fun _ => by rfl⟩

end Sys2Proof.Machine
end

