-- ==== Sys2Proof/Laws/Keeps1.lean ====
section
/-! SUPPORT. Every operation and meaning of the files Ops, RegAcc, DdrBank, Streams, Gates, Paths, EthLink, RegWrite
of Machine keeps the queue, the count of free values and the canonical form of memory (Keeps). -/

namespace Sys2Proof.Machine

/-! ### Ops -/

theorem State.setReg_keeps {z : State} {s : State} {a1 : ℕ} {a2 : W64} (h : Keeps z s) :
    Keeps z (State.setReg s a1 a2) := by
  unfold State.setReg
  exact keeps_mk h

theorem State.updReg_keeps {z : State} {s : State} {a1 : ℕ} {a2 : W64 → W64} (h : Keeps z s) :
    Keeps z (State.updReg s a1 a2) := by
  unfold State.updReg
  exact State.setReg_keeps h

theorem State.setFld_keeps {z : State} {s : State} {a1 : ℕ} {a2 : ℕ} {a3 : ℕ} {a4 : ℕ} (h : Keeps z s) :
    Keeps z (State.setFld s a1 a2 a3 a4) := by
  unfold State.setFld
  exact State.updReg_keeps h

theorem State.takeFree_keeps {z : State} {s : State} (h : Keeps z s) :
    Keeps z (State.takeFree s).2 := by
  unfold State.takeFree
  dsimp only
  exact keeps_free h

theorem State.takeBits_keeps {z : State} {s : State} {a1 : ℕ} (h : Keeps z s) :
    Keeps z (State.takeBits s a1).2 := by
  unfold State.takeBits
  dsimp only
  exact keeps_free h

theorem State.setEng_keeps {z : State} {s : State} {a1 : ℕ} {a2 : Engine} (h : Keeps z s) :
    Keeps z (State.setEng s a1 a2) := by
  unfold State.setEng
  exact keeps_mk h

theorem State.updEng_keeps {z : State} {s : State} {a1 : ℕ} {a2 : Engine → Engine} (h : Keeps z s) :
    Keeps z (State.updEng s a1 a2) := by
  unfold State.updEng
  exact State.setEng_keeps h

theorem State.setSlot_keeps {z : State} {s : State} {a1 : ℕ} {a2 : ℕ} {a3 : Slot} (h : Keeps z s) :
    Keeps z (State.setSlot s a1 a2 a3) := by
  unfold State.setSlot
  exact State.setEng_keeps h

theorem State.updSlot_keeps {z : State} {s : State} {a1 : ℕ} {a2 : ℕ} {a3 : Slot → Slot} (h : Keeps z s) :
    Keeps z (State.updSlot s a1 a2 a3) := by
  unfold State.updSlot
  exact State.setSlot_keeps h

theorem State.setCtx_keeps {z : State} {s : State} {a1 : ℕ} {a2 : Ctx} (h : Keeps z s) :
    Keeps z (State.setCtx s a1 a2) := by
  unfold State.setCtx
  exact keeps_mk h

theorem State.updCtx_keeps {z : State} {s : State} {a1 : ℕ} {a2 : Ctx → Ctx} (h : Keeps z s) :
    Keeps z (State.updCtx s a1 a2) := by
  unfold State.updCtx
  exact State.setCtx_keeps h

theorem State.setPart_keeps {z : State} {s : State} {a1 : ℕ} {a2 : Part} (h : Keeps z s) :
    Keeps z (State.setPart s a1 a2) := by
  unfold State.setPart
  exact keeps_mk h

theorem State.updPart_keeps {z : State} {s : State} {a1 : ℕ} {a2 : Part → Part} (h : Keeps z s) :
    Keeps z (State.updPart s a1 a2) := by
  unfold State.updPart
  exact State.setPart_keeps h

theorem State.setQueue_keeps {z : State} {s : State} {a1 : ℕ} {a2 : Queue} (h : Keeps z s) :
    Keeps z (State.setQueue s a1 a2) := by
  unfold State.setQueue
  exact keeps_mk h

theorem State.updQueue_keeps {z : State} {s : State} {a1 : ℕ} {a2 : Queue → Queue} (h : Keeps z s) :
    Keeps z (State.updQueue s a1 a2) := by
  unfold State.updQueue
  exact State.setQueue_keeps h

theorem State.event_keeps {z : State} {s : State} {a1 : ℕ} {a2 : ℕ} {a3 : Option ℕ} {a4 : ℕ} {a5 : ℕ} (h : Keeps z
    s) :
    Keeps z (State.event s a1 a2 a3 a4 a5) := by
  unfold State.event
  extract_lets +onlyGivenNames t0
  clear_value t0
  extract_lets +onlyGivenNames t1
  clear_value t1
  exact State.updPart_keeps h

theorem State.frozenEvent_keeps {z : State} {s : State} {a1 : ℕ} {a2 : ℕ} {a3 : ℕ} {a4 : ℕ} {a5 : Option ℕ} (h :
    Keeps z s) :
    Keeps z (State.frozenEvent s a1 a2 a3 a4 a5) := by
  unfold State.frozenEvent
  exact State.event_keeps h

theorem State.updCmd_keeps {z : State} {s : State} {a1 : ℕ} {a2 : Cmd → Cmd} (h : Keeps z s) :
    Keeps z (State.updCmd s a1 a2) := by
  unfold State.updCmd
  exact keeps_mk h

theorem State.beginCmd_keeps {z : State} {s : State} {a1 : ℕ} (h : Keeps z s) :
    Keeps z (State.beginCmd s a1) := by
  unfold State.beginCmd
  exact State.updCmd_keeps h

theorem State.finishCmd_keeps {z : State} {s : State} {a1 : ℕ} (h : Keeps z s) :
    Keeps z (State.finishCmd s a1) := by
  unfold State.finishCmd
  split
  · exact h
  · extract_lets +onlyGivenNames t0
    clear_value t0
    exact State.updQueue_keeps (keeps_mk h)

theorem State.endCmd_keeps {z : State} {s : State} {a1 : ℕ} {a2 : ℕ} (h : Keeps z s) :
    Keeps z (State.endCmd s a1 a2) := by
  unfold State.endCmd
  exact State.finishCmd_keeps (State.updCmd_keeps h)

theorem State.updLogic_keeps {z : State} {s : State} {a1 : ℕ} {a2 : Logic → Logic} (h : Keeps z s) :
    Keeps z (State.updLogic s a1 a2) := by
  unfold State.updLogic
  exact keeps_mk h

theorem State.setRegSt_keeps {z : State} {s : State} {a1 : ℕ} {a2 : ℕ} {a3 : ℕ} (h : Keeps z s) :
    Keeps z (State.setRegSt s a1 a2 a3) := by
  unfold State.setRegSt
  extract_lets +onlyGivenNames t0
  have h1 : Keeps z t0 := by
    unfold t0
    exact State.setFld_keeps (State.setFld_keeps h)
  clear_value t0
  extract_lets +onlyGivenNames t2
  have h3 : Keeps z t2 := by
    unfold t2
    refine keeps_ite ?_ ?_
    · exact h1
    · exact State.updLogic_keeps h1
  clear_value t2
  refine keeps_ite ?_ ?_
  · exact h3
  · exact State.setReg_keeps h3

theorem State.toBlank_keeps {z : State} {s : State} {a1 : List ℕ} (h : Keeps z s) :
    Keeps z (State.toBlank s a1) := by
  unfold State.toBlank
  refine keeps_foldl ?_ (fun s0 a1 h2 => ?_)
  · exact h
  · refine keeps_ite ?_ ?_
    · exact h2
    · exact State.setRegSt_keeps h2

theorem State.stopLoad_keeps {z : State} {s : State} {a1 : FLoad} (h : Keeps z s) :
    Keeps z (State.stopLoad s a1) := by
  unfold State.stopLoad
  extract_lets +onlyGivenNames t0
  clear_value t0
  extract_lets +onlyGivenNames t1
  clear_value t1
  extract_lets +onlyGivenNames t2
  clear_value t2
  extract_lets +onlyGivenNames t3
  clear_value t3
  extract_lets +onlyGivenNames t4
  have h5 : Keeps z t4 := by
    unfold t4
    exact State.toBlank_keeps h
  clear_value t4
  exact keeps_mk h5

theorem State.stopLoads_keeps {z : State} {s : State} {a1 : ℕ} (h : Keeps z s) :
    Keeps z (State.stopLoads s a1) := by
  unfold State.stopLoads
  refine keeps_foldl ?_ (fun s0 a1 h2 => ?_)
  · exact h
  · exact State.finishCmd_keeps (State.stopLoad_keeps h2)

theorem State.freezeArg_keeps {z : State} {s : State} {a1 : ℕ} {a2 : ℕ} {a3 : ℕ} (h : Keeps z s) :
    Keeps z (State.freezeArg s a1 a2 a3) := by
  unfold State.freezeArg
  refine keeps_ite ?_ ?_
  · exact h
  · extract_lets +onlyGivenNames t0
    have h1 : Keeps z t0 := by
      unfold t0
      exact State.stopLoads_keeps (State.updCtx_keeps h)
    clear_value t0
    split
    · exact h1
    · exact State.event_keeps h1

theorem State.freezeCtx_keeps {z : State} {s : State} {a1 : ℕ} {a2 : ℕ} (h : Keeps z s) :
    Keeps z (State.freezeCtx s a1 a2) := by
  unfold State.freezeCtx
  exact State.freezeArg_keeps h

theorem State.faultCtx_keeps {z : State} {s : State} {a1 : ℕ} {a2 : ℕ} {a3 : ℕ} (h : Keeps z s) :
    Keeps z (State.faultCtx s a1 a2 a3) := by
  unfold State.faultCtx
  extract_lets +onlyGivenNames t0
  clear_value t0
  extract_lets +onlyGivenNames t1
  have h2 : Keeps z t1 := by
    unfold t1
    exact State.freezeCtx_keeps h
  clear_value t1
  refine keeps_ite ?_ ?_
  · exact h2
  · exact State.updCmd_keeps h2

theorem State.clearWhole_keeps {z : State} {s : State} {a1 : ℕ} {a2 : ℕ} (h : Keeps z s) :
    Keeps z (State.clearWhole s a1 a2) := by
  unfold State.clearWhole
  extract_lets +onlyGivenNames t0
  clear_value t0
  extract_lets +onlyGivenNames t1
  clear_value t1
  refine keeps_foldl ?_ (fun s2 a3 h4 => ?_)
  · exact h
  · exact State.setPoison_keeps h4

theorem State.markLines_keeps {z : State} {s : State} {a1 : ℕ} {a2 : ℕ} (h : Keeps z s) :
    Keeps z (State.markLines s a1 a2) := by
  unfold State.markLines
  refine keeps_ite ?_ ?_
  · exact h
  · refine keeps_foldl ?_ (fun s0 a1 h2 => ?_)
    · exact h
    · exact State.setPoison_keeps h2

theorem State.putBytes_keeps {z : State} {s : State} {a1 : ℕ} {a2 : List Byte} {a3 : Bool} (h : Keeps z s) :
    Keeps z (State.putBytes s a1 a2 a3) := by
  unfold State.putBytes
  extract_lets +onlyGivenNames t0
  have h1 : Keeps z t0 := by
    unfold t0
    exact State.setBytes_keeps h
  clear_value t0
  refine keeps_ite ?_ ?_
  · exact State.markLines_keeps h1
  · exact State.clearWhole_keeps h1

/-! ### RegAcc -/

theorem State.regStore_keeps {z : State} {s : State} {a1 : ℕ} {a2 : W64} (h : Keeps z s) :
    Keeps z (State.regStore s a1 a2) := by
  unfold State.regStore
  split
  · exact h
  · exact State.setReg_keeps h

/-! ### DdrBank -/

theorem State.updDdr_keeps {z : State} {s : State} {a1 : Ddr → Ddr} (h : Keeps z s) :
    Keeps z (State.updDdr s a1) := by
  unfold State.updDdr
  exact keeps_mk h

theorem State.updBank_keeps {z : State} {s : State} {a1 : ℕ} {a2 : DdrBank → DdrBank} (h : Keeps z s) :
    Keeps z (State.updBank s a1 a2) := by
  unfold State.updBank
  exact State.updDdr_keeps h

theorem State.updChanBanks_keeps {z : State} {s : State} {a1 : ℕ} {a2 : DdrBank → DdrBank} (h : Keeps z s) :
    Keeps z (State.updChanBanks s a1 a2) := by
  unfold State.updChanBanks
  refine keeps_foldl ?_ (fun s0 a1 h2 => ?_)
  · exact h
  · exact State.updBank_keeps h2

theorem State.chBack_keeps {z : State} {s : State} {a1 : ℕ} (h : Keeps z s) :
    Keeps z (State.chBack s a1) := by
  unfold State.chBack
  exact State.setFld_keeps h

theorem State.quiet_keeps {z : State} {s : State} (h : Keeps z s) :
    Keeps z (State.quiet s) := by
  unfold State.quiet
  exact State.updDdr_keeps h

theorem State.issue_keeps {z : State} {s : State} {a1 : ℕ} {a2 : List DdrCmd} (h : Keeps z s) :
    Keeps z (State.issue s a1 a2) := by
  unfold State.issue
  exact State.updDdr_keeps h

theorem State.preBank_keeps {z : State} {s : State} {a1 : ℕ} {a2 : ℕ} (h : Keeps z s) :
    Keeps z (State.preBank s a1 a2) := by
  unfold State.preBank
  split
  · exact h
  · exact State.issue_keeps (State.updBank_keeps h)

theorem State.refreshBank_keeps {z : State} {s : State} {a1 : ℕ} {a2 : ℕ} (h : Keeps z s) :
    Keeps z (State.refreshBank s a1 a2) := by
  unfold State.refreshBank
  exact State.issue_keeps (State.updBank_keeps (State.preBank_keeps h))

theorem State.targetRefresh_keeps {z : State} {s : State} {a1 : ℕ} {a2 : ℕ} {a3 : ℕ × ℕ} (h : Keeps z s) :
    Keeps z (State.targetRefresh s a1 a2 a3) := by
  unfold State.targetRefresh
  exact State.issue_keeps (State.updBank_keeps (State.preBank_keeps h))

theorem State.openRow_keeps {z : State} {s : State} {a1 : DdrLine} {a2 : ℕ} (h : Keeps z s) :
    Keeps z (State.openRow s a1 a2) := by
  unfold State.openRow
  extract_lets +onlyGivenNames t0
  clear_value t0
  extract_lets +onlyGivenNames t1
  have h2 : Keeps z t1 := by
    unfold t1
    exact State.preBank_keeps h
  clear_value t1
  extract_lets +onlyGivenNames t3
  have h4 : Keeps z t3 := by
    unfold t3
    refine keeps_ite ?_ ?_
    · exact State.refreshBank_keeps h2
    · exact h2
  clear_value t3
  extract_lets +onlyGivenNames t5
  have h6 : Keeps z t5 := by
    unfold t5
    refine keeps_foldl ?_ (fun s7 a8 h9 => ?_)
    · exact h4
    · exact State.targetRefresh_keeps h9
  clear_value t5
  exact State.issue_keeps (State.updBank_keeps h6)

theorem State.ddrAccess_keeps {z : State} {s : State} {a1 : DdrLine} {a2 : ℕ} {a3 : Bool} (h : Keeps z s) :
    Keeps z (State.ddrAccess s a1 a2 a3) := by
  unfold State.ddrAccess
  extract_lets +onlyGivenNames t0
  clear_value t0
  extract_lets +onlyGivenNames t1
  clear_value t1
  extract_lets +onlyGivenNames t2
  have h3 : Keeps z t2 := by
    unfold t2
    refine keeps_ite ?_ ?_
    · exact h
    · exact State.openRow_keeps h
  clear_value t2
  exact State.issue_keeps (State.updBank_keeps h3)

theorem State.sre_keeps {z : State} {s : State} {a1 : ℕ} (h : Keeps z s) :
    Keeps z (State.sre s a1) := by
  unfold State.sre
  exact State.issue_keeps (State.updChanBanks_keeps h)

theorem State.srx_keeps {z : State} {s : State} {a1 : ℕ} (h : Keeps z s) :
    Keeps z (State.srx s a1) := by
  unfold State.srx
  exact State.issue_keeps (State.updChanBanks_keeps h)

theorem State.wakeChannel_keeps {z : State} {s : State} {a1 : ℕ} (h : Keeps z s) :
    Keeps z (State.wakeChannel s a1) := by
  unfold State.wakeChannel
  refine keeps_ite ?_ ?_
  · exact State.srx_keeps (State.chBack_keeps h)
  · exact h

theorem State.wakeAt_keeps {z : State} {s : State} {a1 : ℕ} (h : Keeps z s) :
    Keeps z (State.wakeAt s a1) := by
  unfold State.wakeAt
  split
  · exact State.wakeChannel_keeps h
  · exact h

theorem State.scramble_keeps {z : State} {s : State} {a1 : ℕ} (h : Keeps z s) :
    Keeps z (State.scramble s a1) := by
  unfold State.scramble
  extract_lets +onlyGivenNames t0
  clear_value t0
  exact State.putKeys_keeps (keeps_free h)

theorem State.meetLine_keeps {z : State} {s : State} {a1 : Bool} {a2 : ℕ} {a3 : ℕ} (h : Keeps z s) :
    Keeps z (State.meetLine s a1 a2 a3).1 := by
  unfold State.meetLine
  extract_lets +onlyGivenNames t0
  clear_value t0
  split
  · dsimp only
    exact h
  · dsimp only
    exact h
  · dsimp only
    exact State.markKey_keeps (keeps_free h)
  · dsimp only
    exact State.scramble_keeps h

theorem State.eccCount_keeps {z : State} {s : State} {a1 : ℕ} {a2 : Judge} (h : Keeps z s) :
    Keeps z (State.eccCount s a1 a2) := by
  unfold State.eccCount
  split
  · exact h
  · exact State.updReg_keeps h
  · exact State.updReg_keeps h
  · exact State.updReg_keeps h

theorem State.rankDue_keeps {z : State} {s : State} {a1 : DdrLine} (h : Keeps z s) :
    Keeps z (State.rankDue s a1) := by
  unfold State.rankDue
  extract_lets +onlyGivenNames t0
  clear_value t0
  exact State.updDdr_keeps h

theorem State.ddrMeets_keeps {z : State} {s : State} {a1 : DdrLine} {a2 : ℕ} {a3 : ℕ} (h : Keeps z s) :
    Keeps z (State.ddrMeets s a1 a2 a3).1 := by
  unfold State.ddrMeets
  extract_lets +onlyGivenNames t0
  have h1 : Keeps z t0.1 := by
    unfold t0
    exact State.meetLine_keeps h
  clear_value t0
  extract_lets +onlyGivenNames t2
  clear_value t2
  extract_lets +onlyGivenNames t3
  have h4 : Keeps z t3 := by
    unfold t3
    exact State.eccCount_keeps (State.putKeys_keeps h1)
  clear_value t3
  refine keeps_ite_fst ?_ ?_
  · dsimp only
    exact State.rankDue_keeps h4
  · dsimp only
    exact h4

theorem State.hbmErr_keeps {z : State} {s : State} {a1 : ℕ} {a2 : Bool} (h : Keeps z s) :
    Keeps z (State.hbmErr s a1 a2) := by
  unfold State.hbmErr
  extract_lets +onlyGivenNames t0
  clear_value t0
  extract_lets +onlyGivenNames t1
  clear_value t1
  exact keeps_mk h

theorem State.hbmMeets_keeps {z : State} {s : State} {a1 : ℕ} {a2 : ℕ} (h : Keeps z s) :
    Keeps z (State.hbmMeets s a1 a2).1 := by
  unfold State.hbmMeets
  extract_lets +onlyGivenNames t0
  have h1 : Keeps z t0.1 := by
    unfold t0
    exact State.meetLine_keeps h
  clear_value t0
  extract_lets +onlyGivenNames t2
  have h3 : Keeps z t2 := by
    unfold t2
    exact State.eccCount_keeps h1
  clear_value t2
  split
  · dsimp only
    exact h3
  · dsimp only
    exact State.hbmErr_keeps h3
  · dsimp only
    exact State.hbmErr_keeps h3
  · dsimp only
    exact State.hbmErr_keeps h3

theorem State.lineMeets_keeps {z : State} {s : State} {a1 : ℕ} {a2 : ℕ} (h : Keeps z s) :
    Keeps z (State.lineMeets s a1 a2).1 := by
  unfold State.lineMeets
  split
  · exact State.hbmMeets_keeps h
  · exact State.ddrMeets_keeps h
  · extract_lets +onlyGivenNames t0
    have h1 : Keeps z t0.1 := by
      unfold t0
      exact State.meetLine_keeps h
    clear_value t0
    dsimp only
    exact h1
  · extract_lets +onlyGivenNames t2
    have h3 : Keeps z t2.1 := by
      unfold t2
      exact State.meetLine_keeps h
    clear_value t2
    dsimp only
    exact h3
  · dsimp only
    exact h

theorem State.spanMeets_keeps {z : State} {s : State} {a1 : ℕ} {a2 : List (ℕ × ℕ)} (h : Keeps z s) :
    Keeps z (State.spanMeets s a1 a2) := by
  unfold State.spanMeets
  refine keeps_foldl ?_ (fun s0 a1 h2 => ?_)
  · exact h
  · exact State.lineMeets_keeps h2

/-! ### Streams -/

theorem State.wrPlace_keeps {z : State} {s : State} {a1 : Place} {a2 : Byte} (h : Keeps z s) :
    Keeps z (State.wrPlace s a1 a2) := by
  unfold State.wrPlace
  split
  · exact State.updEng_keeps h
  · refine keeps_ite ?_ ?_
    · exact h
    · exact State.setByte_keeps h

theorem State.setMark_keeps {z : State} {s : State} {a1 : Place} {a2 : Bool} (h : Keeps z s) :
    Keeps z (State.setMark s a1 a2) := by
  unfold State.setMark
  split
  · exact State.updEng_keeps h
  · refine keeps_ite ?_ ?_
    · exact h
    · exact State.setPoison_keeps h

theorem State.wrAll_keeps {z : State} {s : State} {a1 : List (Place × Byte × Bool)} (h : Keeps z s) :
    Keeps z (State.wrAll s a1) := by
  unfold State.wrAll
  extract_lets +onlyGivenNames t0
  have h1 : Keeps z t0 := by
    unfold t0
    refine keeps_foldl ?_ (fun s2 a3 h4 => ?_)
    · exact h
    · exact State.wrPlace_keeps h4
  clear_value t0
  extract_lets +onlyGivenNames t5
  clear_value t5
  extract_lets +onlyGivenNames t6
  clear_value t6
  refine keeps_foldl ?_ (fun s7 a8 h9 => ?_)
  · exact h1
  · refine keeps_ite ?_ ?_
    · exact State.setMark_keeps h9
    · refine keeps_ite ?_ ?_
      · exact State.setMark_keeps h9
      · exact h9

theorem State.touchDev_keeps {z : State} {s : State} {a1 : ℕ} {a2 : ℕ} (h : Keeps z s) :
    Keeps z (State.touchDev s a1 a2) := by
  unfold State.touchDev
  extract_lets +onlyGivenNames t0
  have h1 : Keeps z t0 := by
    unfold t0
    exact State.wakeAt_keeps h
  clear_value t0
  split
  · refine keeps_ite ?_ ?_
    · exact State.updCmd_keeps h1
    · exact h1
  · extract_lets +onlyGivenNames t2
    clear_value t2
    exact State.updCmd_keeps h1

theorem State.touchVa_keeps {z : State} {s : State} {a1 : ℕ} {a2 : ℕ} {a3 : ℤ} (h : Keeps z s) :
    Keeps z (State.touchVa s a1 a2 a3) := by
  unfold State.touchVa
  split
  · exact State.touchDev_keeps h
  · split
    · exact State.touchDev_keeps h
    · exact h

theorem State.touchVas_keeps {z : State} {s : State} {a1 : ℕ} {a2 : ℕ} {a3 : List ℤ} (h : Keeps z s) :
    Keeps z (State.touchVas s a1 a2 a3) := by
  unfold State.touchVas
  refine keeps_foldl ?_ (fun s0 a1 h2 => ?_)
  · exact h
  · exact State.touchVa_keeps h2

theorem State.scatter_keeps {z : State} {s : State} {a1 : ℕ} {a2 : ℕ} {a3 : ℕ} {a4 : Bool} {a5 : List ℤ} {a6 : List
    Byte} {a7 : Bool} (h : Keeps z s) :
    Keeps z (State.scatter s a1 a2 a3 a4 a5 a6 a7).1 := by
  unfold State.scatter
  extract_lets +onlyGivenNames t0
  clear_value t0
  dsimp only
  exact State.wrAll_keeps h

theorem State.streamFault_keeps {z : State} {s : State} {a1 : ℕ} {a2 : ℕ} {a3 : ℕ} {a4 : ℕ} {a5 : ℕ} {a6 : Bool}
    {a7 : ℤ} {a8 : ℕ} (h : Keeps z s) :
    Keeps z (State.streamFault s a1 a2 a3 a4 a5 a6 a7 a8) := by
  unfold State.streamFault
  extract_lets +onlyGivenNames t0
  clear_value t0
  extract_lets +onlyGivenNames t1
  have h2 : Keeps z t1 := by
    unfold t1
    exact State.setReg_keeps (State.setReg_keeps (State.setReg_keeps h))
  clear_value t1
  exact State.faultCtx_keeps h2

/-! ### Gates -/

theorem State.setGateCount_keeps {z : State} {s : State} {a1 : ℕ} {a2 : ℕ} {a3 : ℕ} (h : Keeps z s) :
    Keeps z (State.setGateCount s a1 a2 a3) := by
  unfold State.setGateCount
  exact State.setFld_keeps h

theorem State.sendSig_keeps {z : State} {s : State} {a1 : ℕ} {a2 : Sig} (h : Keeps z s) :
    Keeps z (State.sendSig s a1 a2) := by
  unfold State.sendSig
  exact State.updEng_keeps h

theorem State.raiseArmed_keeps {z : State} {s : State} {a1 : ℕ} {a2 : ℕ} {a3 : ℕ} (h : Keeps z s) :
    Keeps z (State.raiseArmed s a1 a2 a3) := by
  unfold State.raiseArmed
  split
  · exact h
  · exact State.updSlot_keeps h

theorem State.wakeEngine_keeps {z : State} {s : State} {a1 : ℕ} (h : Keeps z s) :
    Keeps z (State.wakeEngine s a1) := by
  unfold State.wakeEngine
  extract_lets +onlyGivenNames t0
  clear_value t0
  refine keeps_ite ?_ ?_
  · exact State.setFld_keeps h
  · refine keeps_ite ?_ ?_
    · refine keeps_foldl ?_ (fun s1 a2 h3 => ?_)
      · exact h
      · refine keeps_ite ?_ ?_
        · exact State.setFld_keeps h3
        · exact h3
    · exact h

theorem State.addGate_keeps {z : State} {s : State} {a1 : ℕ} {a2 : ℕ} {a3 : ℕ} {a4 : ℕ} (h : Keeps z s) :
    Keeps z (State.addGate s a1 a2 a3 a4) := by
  unfold State.addGate
  extract_lets +onlyGivenNames t0
  clear_value t0
  refine keeps_ite ?_ ?_
  · exact State.freezeCtx_keeps (State.raiseArmed_keeps (State.setFld_keeps (State.setGateCount_keeps h)))
  · exact State.wakeEngine_keeps (State.raiseArmed_keeps (State.setGateCount_keeps h))

/-! ### Paths -/

theorem State.setEntState_keeps {z : State} {s : State} {a1 : ℕ} {a2 : ℕ} (h : Keeps z s) :
    Keeps z (State.setEntState s a1 a2) := by
  unfold State.setEntState
  exact State.setFld_keeps h

theorem State.fallEnt_keeps {z : State} {s : State} {a1 : ℕ} {a2 : ℕ} (h : Keeps z s) :
    Keeps z (State.fallEnt s a1 a2) := by
  unfold State.fallEnt
  refine keeps_ite ?_ ?_
  · extract_lets +onlyGivenNames t0
    clear_value t0
    exact keeps_mk h
  · exact State.setEntState_keeps h

theorem State.setEnt_keeps {z : State} {s : State} {a1 : ℕ} {a2 : Entry} (h : Keeps z s) :
    Keeps z (State.setEnt s a1 a2) := by
  unfold State.setEnt
  exact keeps_mk h

theorem State.updEnt_keeps {z : State} {s : State} {a1 : ℕ} {a2 : Entry → Entry} (h : Keeps z s) :
    Keeps z (State.updEnt s a1 a2) := by
  unfold State.updEnt
  exact State.setEnt_keeps h

theorem State.iceEnt_keeps {z : State} {s : State} {a1 : ℕ} (h : Keeps z s) :
    Keeps z (State.iceEnt s a1) := by
  unfold State.iceEnt
  refine keeps_ite ?_ ?_
  · exact h
  · exact State.setEntState_keeps (State.updEnt_keeps h)

theorem State.emit_keeps {z : State} {s : State} {a1 : Out} (h : Keeps z s) :
    Keeps z (State.emit s a1) := by
  unfold State.emit
  exact keeps_mk h

theorem State.newPath_keeps {z : State} {s : State} (h : Keeps z s) :
    Keeps z (State.newPath s).2 := by
  unfold State.newPath
  extract_lets +onlyGivenNames t0
  have h1 : Keeps z t0.2 := by
    unfold t0
    exact State.takeBits_keeps h
  clear_value t0
  extract_lets +onlyGivenNames t2
  clear_value t2
  extract_lets +onlyGivenNames t3
  clear_value t3
  dsimp only
  exact keeps_mk h1

theorem State.newPaths_keeps {z : State} {s : State} {a1 : ℕ} (h : Keeps z s) :
    Keeps z (State.newPaths s a1).2 := by
  induction a1 generalizing s with
  | zero => exact h
  | succ n ih => exact ih (State.newPath_keeps h)

theorem State.reroll_keeps {z : State} {s : State} {a1 : ℕ} {a2 : ℕ} (h : Keeps z s) :
    Keeps z (State.reroll s a1 a2) := by
  unfold State.reroll
  extract_lets +onlyGivenNames t0
  have h1 : Keeps z t0.2 := by
    unfold t0
    exact State.newPath_keeps h
  clear_value t0
  exact State.updReg_keeps (State.updEnt_keeps h1)

/-! ### EthLink -/

theorem State.startScan_keeps {z : State} {s : State} {a1 : ℕ} (h : Keeps z s) :
    Keeps z (State.startScan s a1) := by
  unfold State.startScan
  refine keeps_ite ?_ ?_
  · exact h
  · refine keeps_ite ?_ ?_
    · exact State.setReg_keeps h
    · exact State.setReg_keeps (State.setFld_keeps (State.setFld_keeps h))

theorem State.abortScan_keeps {z : State} {s : State} {a1 : ℕ} (h : Keeps z s) :
    Keeps z (State.abortScan s a1) := by
  unfold State.abortScan
  refine keeps_ite ?_ ?_
  · exact State.setReg_keeps (State.setReg_keeps h)
  · exact h

theorem State.holdEq_keeps {z : State} {s : State} {a1 : ℕ} {a2 : Bool} (h : Keeps z s) :
    Keeps z (State.holdEq s a1 a2) := by
  unfold State.holdEq
  exact keeps_mk h

theorem State.laneUp_keeps {z : State} {s : State} {a1 : ℕ} {a2 : ℕ} (h : Keeps z s) :
    Keeps z (State.laneUp s a1 a2) := by
  unfold State.laneUp
  extract_lets +onlyGivenNames t0
  clear_value t0
  exact State.setReg_keeps (State.holdEq_keeps h)

theorem State.setFfe_keeps {z : State} {s : State} {a1 : ℕ} (h : Keeps z s) :
    Keeps z (State.setFfe s a1) := by
  unfold State.setFfe
  extract_lets +onlyGivenNames t0
  have h1 : Keeps z t0.2 := by
    unfold t0
    exact State.takeFree_keeps h
  clear_value t0
  extract_lets +onlyGivenNames t2
  have h3 : Keeps z t2 := by
    unfold t2
    exact h1
  clear_value t2
  exact keeps_mk h3

theorem State.laneTrain_keeps {z : State} {s : State} {a1 : ℕ} {a2 : ℕ} (h : Keeps z s) :
    Keeps z (State.laneTrain s a1 a2) := by
  unfold State.laneTrain
  exact State.setReg_keeps (State.abortScan_keeps h)

theorem State.laneOff_keeps {z : State} {s : State} {a1 : ℕ} (h : Keeps z s) :
    Keeps z (State.laneOff s a1) := by
  unfold State.laneOff
  exact State.setReg_keeps (State.abortScan_keeps h)

theorem execEyeScanDone_keeps {z : State} {a0 : Fin 48} {a1 : ByEye 33} {a2 : ByEye 33} {a3 : ByEye 64} {a4 : ByEye
    64} {a5 : Fin 3} {s : State} (h : Keeps z s) :
    KeepsO z (execEyeScanDone a0 a1 a2 a3 a4 a5 s) := by
  unfold execEyeScanDone
  refine keepsO_ite ?_ ?_
  · exact keepsO_next h
  · extract_lets +onlyGivenNames t0
    clear_value t0
    exact keepsO_next (State.setReg_keeps (State.setReg_keeps h))

theorem State.setSubSt_keeps {z : State} {s : State} {a1 : ℕ} {a2 : ℕ} {a3 : ℕ} (h : Keeps z s) :
    Keeps z (State.setSubSt s a1 a2 a3) := by
  unfold State.setSubSt
  exact State.setFld_keeps h

theorem State.syncLinks_keeps {z : State} {s : State} (h : Keeps z s) :
    Keeps z (State.syncLinks s) := by
  unfold State.syncLinks
  exact State.setFld_keeps h

theorem State.leaveSub_keeps {z : State} {s : State} {a1 : ℕ} {a2 : ℕ} (h : Keeps z s) :
    Keeps z (State.leaveSub s a1 a2) := by
  unfold State.leaveSub
  extract_lets +onlyGivenNames t0
  clear_value t0
  extract_lets +onlyGivenNames t1
  clear_value t1
  extract_lets +onlyGivenNames t2
  have h3 : Keeps z t2 := by
    unfold t2
    refine keeps_ite ?_ ?_
    · exact h
    · exact State.updEnt_keeps h
  clear_value t2
  refine keeps_foldl ?_ (fun s4 a5 h6 => ?_)
  · exact h3
  · exact State.reroll_keeps h6

theorem State.leaveAll_keeps {z : State} {s : State} {a1 : ℕ} (h : Keeps z s) :
    Keeps z (State.leaveAll s a1) := by
  unfold State.leaveAll
  refine keeps_foldl ?_ (fun s0 a1 h2 => ?_)
  · exact h
  · exact State.leaveSub_keeps h2

theorem State.joinAll_keeps {z : State} {s : State} {a1 : ℕ} (h : Keeps z s) :
    Keeps z (State.joinAll s a1) := by
  unfold State.joinAll
  extract_lets +onlyGivenNames t0
  clear_value t0
  refine keeps_foldl ?_ (fun s1 a2 h3 => ?_)
  · exact h
  · exact State.updEnt_keeps h3

theorem State.subOut_keeps {z : State} {s : State} {a1 : ℕ} {a2 : ℕ} {a3 : ℕ} (h : Keeps z s) :
    Keeps z (State.subOut s a1 a2 a3) := by
  unfold State.subOut
  extract_lets +onlyGivenNames t0
  clear_value t0
  extract_lets +onlyGivenNames t1
  have h2 : Keeps z t1 := by
    unfold t1
    refine keeps_foldl ?_ (fun s3 a4 h5 => ?_)
    · exact State.setSubSt_keeps h
    · exact State.laneOff_keeps h5
  clear_value t1
  extract_lets +onlyGivenNames t6
  clear_value t6
  extract_lets +onlyGivenNames t7
  clear_value t7
  extract_lets +onlyGivenNames t8
  have h9 : Keeps z t8 := by
    unfold t8
    exact keeps_mk h2
  clear_value t8
  refine keeps_ite ?_ ?_
  · extract_lets +onlyGivenNames t10
    have h11 : Keeps z t10 := by
      unfold t10
      exact State.setFld_keeps (State.setReg_keeps h9)
    clear_value t10
    exact State.syncLinks_keeps (State.leaveAll_keeps h11)
  · exact h9

theorem State.startSub_keeps {z : State} {s : State} {a1 : ℕ} {a2 : ℕ} (h : Keeps z s) :
    Keeps z (State.startSub s a1 a2) := by
  unfold State.startSub
  extract_lets +onlyGivenNames t0
  have h1 : Keeps z t0 := by
    unfold t0
    exact State.subOut_keeps h
  clear_value t0
  refine keeps_ite ?_ ?_
  · exact h1
  · extract_lets +onlyGivenNames t2
    clear_value t2
    refine keeps_ite ?_ ?_
    · refine keeps_foldl ?_ (fun s3 a4 h5 => ?_)
      · exact State.setSubSt_keeps h1
      · exact State.laneTrain_keeps h5
    · extract_lets +onlyGivenNames t6
      clear_value t6
      extract_lets +onlyGivenNames t7
      clear_value t7
      extract_lets +onlyGivenNames t8
      have h9 : Keeps z t8 := by
        unfold t8
        exact State.setSubSt_keeps (State.setFld_keeps h1)
      clear_value t8
      refine keeps_foldl ?_ (fun s10 a11 h12 => ?_)
      · exact h9
      · exact State.laneTrain_keeps h12

theorem execAutoNegotiation_keeps {z : State} {a0 : Fin 2} {a1 : Fin 4} {a2 : Option (Fin 2)} {s : State} (h :
    Keeps z s) :
    KeepsO z (execAutoNegotiation a0 a1 a2 s) := by
  unfold execAutoNegotiation
  refine keepsO_ite ?_ ?_
  · exact keepsO_next h
  · split
    · exact keepsO_next h
    · extract_lets +onlyGivenNames t0
      have h1 : Keeps z t0 := by
        unfold t0
        exact State.setSubSt_keeps (State.setFld_keeps h)
      clear_value t0
      refine keepsO_next ?_
      refine keeps_foldl ?_ (fun s2 a3 h4 => ?_)
      · exact h1
      · exact State.laneTrain_keeps h4

theorem execLinkTraining_keeps {z : State} {a0 : Fin 2} {a1 : Fin 4} {s : State} (h : Keeps z s) :
    KeepsO z (execLinkTraining a0 a1 s) := by
  unfold execLinkTraining
  refine keepsO_ite ?_ ?_
  · refine keepsO_next ?_
    refine keeps_foldl ?_ (fun s0 a1 h2 => ?_)
    · exact State.setSubSt_keeps h
    · exact State.setFfe_keeps h2
  · exact keepsO_next h

theorem execMaxWaitTimer_keeps {z : State} {a0 : Fin 2} {a1 : Fin 4} {s : State} (h : Keeps z s) :
    KeepsO z (execMaxWaitTimer a0 a1 s) := by
  unfold execMaxWaitTimer
  refine keepsO_ite ?_ ?_
  · exact keepsO_next (State.startSub_keeps h)
  · exact keepsO_next h

theorem execPcsAlignment_keeps {z : State} {a0 : Fin 2} {a1 : Fin 4} {s : State} (h : Keeps z s) :
    KeepsO z (execPcsAlignment a0 a1 s) := by
  unfold execPcsAlignment
  refine keepsO_ite ?_ ?_
  · exact keepsO_next h
  · extract_lets +onlyGivenNames t0
    clear_value t0
    extract_lets +onlyGivenNames t1
    have h2 : Keeps z t1 := by
      unfold t1
      refine keeps_foldl ?_ (fun s3 a4 h5 => ?_)
      · exact State.setSubSt_keeps h
      · exact State.laneUp_keeps h5
    clear_value t1
    extract_lets +onlyGivenNames t6
    have h7 : Keeps z t6 := by
      unfold t6
      exact State.setFld_keeps (State.setReg_keeps h2)
    clear_value t6
    exact keepsO_next (State.syncLinks_keeps (State.joinAll_keeps h7))

theorem execAlignmentTimeout_keeps {z : State} {a0 : Fin 2} {a1 : Fin 4} {s : State} (h : Keeps z s) :
    KeepsO z (execAlignmentTimeout a0 a1 s) := by
  unfold execAlignmentTimeout
  refine keepsO_ite ?_ ?_
  · exact keepsO_next (State.startSub_keeps h)
  · exact keepsO_next h

theorem State.subDown_keeps {z : State} {s : State} {a1 : ℕ} {a2 : ℕ} (h : Keeps z s) :
    Keeps z (State.subDown s a1 a2) := by
  unfold State.subDown
  refine keeps_ite ?_ ?_
  · extract_lets +onlyGivenNames t0
    have h1 : Keeps z t0 := by
      unfold t0
      exact State.subOut_keeps h
    clear_value t0
    extract_lets +onlyGivenNames t2
    clear_value t2
    extract_lets +onlyGivenNames t3
    have h4 : Keeps z t3 := by
      unfold t3
      exact keeps_mk h1
    clear_value t3
    exact State.event_keeps h4
  · exact h

theorem execLossOfLink_keeps {z : State} {a0 : Fin 2} {a1 : Fin 4} {s : State} (h : Keeps z s) :
    KeepsO z (execLossOfLink a0 a1 s) := by
  unfold execLossOfLink
  exact keepsO_next (State.subDown_keeps h)

theorem execFecWindow_keeps {z : State} {a0 : Fin 2} {a1 : Fin 4} {a2 : ℕ} {a3 : ℕ} {s : State} (h : Keeps z s) :
    KeepsO z (execFecWindow a0 a1 a2 a3 s) := by
  unfold execFecWindow
  refine keepsO_ite ?_ ?_
  · exact keepsO_next h
  · extract_lets +onlyGivenNames t0
    have h1 : Keeps z t0 := by
      unfold t0
      exact State.updReg_keeps h
    clear_value t0
    refine keepsO_ite ?_ ?_
    · exact keepsO_next (State.subDown_keeps h1)
    · exact keepsO_next h1

theorem execHoldOffExpiry_keeps {z : State} {a0 : Fin 2} {a1 : Fin 4} {s : State} (h : Keeps z s) :
    KeepsO z (execHoldOffExpiry a0 a1 s) := by
  unfold execHoldOffExpiry
  refine keepsO_ite ?_ ?_
  · exact keepsO_next (State.startSub_keeps h)
  · exact keepsO_next h

theorem State.resetPort_keeps {z : State} {s : State} {a1 : ℕ} (h : Keeps z s) :
    Keeps z (State.resetPort s a1) := by
  unfold State.resetPort
  extract_lets +onlyGivenNames t0
  have h1 : Keeps z t0 := by
    unfold t0
    refine keeps_foldl ?_ (fun s2 a3 h4 => ?_)
    · exact h
    · exact State.subOut_keeps h4
  clear_value t0
  extract_lets +onlyGivenNames t5
  have h6 : Keeps z t5 := by
    unfold t5
    refine keeps_foldl ?_ (fun s7 a8 h9 => ?_)
    · exact h1
    · exact State.setReg_keeps (State.setReg_keeps (State.laneOff_keeps h9))
  clear_value t5
  extract_lets +onlyGivenNames t10
  have h11 : Keeps z t10 := by
    unfold t10
    refine keeps_foldl ?_ (fun s12 a13 h14 => ?_)
    · exact h6
    · exact State.setReg_keeps (State.setReg_keeps h14)
  clear_value t10
  extract_lets +onlyGivenNames t15
  have h16 : Keeps z t15 := by
    unfold t15
    exact State.setReg_keeps (State.setReg_keeps h11)
  clear_value t15
  refine keeps_foldl ?_ (fun s17 a18 h19 => ?_)
  · exact h16
  · exact State.startSub_keeps h19

theorem State.answerOn_keeps {z : State} {s : State} {a1 : ℕ} {a2 : ℕ} {a3 : ℕ} (h : Keeps z s) :
    Keeps z (State.answerOn s a1 a2 a3) := by
  unfold State.answerOn
  extract_lets +onlyGivenNames t0
  clear_value t0
  refine keeps_ite ?_ ?_
  · exact keeps_mk h
  · exact State.emit_keeps h

theorem State.releaseHeld_keeps {z : State} {s : State} (h : Keeps z s) :
    Keeps z (State.releaseHeld s) := by
  unfold State.releaseHeld
  extract_lets +onlyGivenNames t0
  clear_value t0
  extract_lets +onlyGivenNames t1
  clear_value t1
  refine keeps_foldl ?_ (fun s2 a3 h4 => ?_)
  · exact keeps_mk h
  · exact State.emit_keeps h4

theorem State.takePfc_keeps {z : State} {s : State} {a1 : ℕ} {a2 : ℕ} {a3 : List (ℕ × ℕ)} (h : Keeps z s) :
    Keeps z (State.takePfc s a1 a2 a3) := by
  unfold State.takePfc
  refine State.releaseHeld_keeps ?_
  refine keeps_foldl ?_ (fun s0 a1 h2 => ?_)
  · exact h
  · refine keeps_ite ?_ ?_
    · exact h2
    · extract_lets +onlyGivenNames t3
      clear_value t3
      extract_lets +onlyGivenNames t4
      clear_value t4
      exact keeps_mk h2

theorem execPfcQuantaExpiry_keeps {z : State} {a0 : Fin 2} {a1 : Fin 4} {a2 : Fin 8} {s : State} (h : Keeps z s) :
    KeepsO z (execPfcQuantaExpiry a0 a1 a2 s) := by
  unfold execPfcQuantaExpiry
  extract_lets +onlyGivenNames t0
  clear_value t0
  split
  · exact keepsO_next h
  · refine keepsO_ite ?_ ?_
    · exact keepsO_next (State.releaseHeld_keeps (keeps_mk h))
    · exact keepsO_next h

theorem State.rxShare_keeps {z : State} {s : State} {a1 : ℕ} {a2 : ℕ} {a3 : ℕ} {a4 : ℕ} (h : Keeps z s) :
    Keeps z (State.rxShare s a1 a2 a3 a4) := by
  unfold State.rxShare
  generalize rxBuffer = n
  extract_lets +onlyGivenNames t1 t2 t3
  extract_lets +onlyGivenNames t4 t5
  have h1 : Keeps z t4 := keeps_mk h
  exact keeps_ite h1 (keeps_ite (State.emit_keeps (keeps_mk h1)) (keeps_ite (State.emit_keeps (keeps_mk h1)) h1))

/-! ### RegWrite -/

theorem State.writeLctl_keeps {z : State} {s : State} {a1 : ℕ} {a2 : W64} (h : Keeps z s) :
    Keeps z (State.writeLctl s a1 a2) := by
  unfold State.writeLctl
  extract_lets +onlyGivenNames t0
  have h1 : Keeps z t0 := by
    unfold t0
    exact State.regStore_keeps h
  clear_value t0
  extract_lets +onlyGivenNames t2
  clear_value t2
  extract_lets +onlyGivenNames t3
  have h4 : Keeps z t3 := by
    unfold t3
    refine keeps_ite ?_ ?_
    · exact State.setFld_keeps h1
    · exact h1
  clear_value t3
  extract_lets +onlyGivenNames t5
  have h6 : Keeps z t5 := by
    unfold t5
    refine keeps_ite ?_ ?_
    · exact State.holdEq_keeps h4
    · exact h4
  clear_value t5
  refine keeps_ite ?_ ?_
  · exact State.startScan_keeps h6
  · exact h6

theorem State.writePcfg_keeps {z : State} {s : State} {a1 : ℕ} {a2 : W64} (h : Keeps z s) :
    Keeps z (State.writePcfg s a1 a2) := by
  unfold State.writePcfg
  extract_lets +onlyGivenNames t0
  clear_value t0
  extract_lets +onlyGivenNames t1
  have h2 : Keeps z t1 := by
    unfold t1
    exact State.regStore_keeps h
  clear_value t1
  refine keeps_foldl ?_ (fun s3 a4 h5 => ?_)
  · exact h2
  · refine keeps_ite ?_ ?_
    · exact h5
    · exact State.startSub_keeps h5

theorem State.writeBbctl_keeps {z : State} {s : State} {a1 : W64} (h : Keeps z s) :
    Keeps z (State.writeBbctl s a1) := by
  unfold State.writeBbctl
  refine keeps_ite ?_ ?_
  · exact h
  · extract_lets +onlyGivenNames t0
    clear_value t0
    extract_lets +onlyGivenNames t1
    clear_value t1
    extract_lets +onlyGivenNames t2
    have h3 : Keeps z t2 := by
      unfold t2
      exact keeps_mk h
    clear_value t2
    refine keeps_ite ?_ ?_
    · exact State.setFld_keeps (keeps_mk h3)
    · exact State.setFld_keeps (keeps_mk h3)

theorem State.writePrbctl_keeps {z : State} {s : State} {a1 : ℕ} {a2 : W64} (h : Keeps z s) :
    Keeps z (State.writePrbctl s a1 a2) := by
  unfold State.writePrbctl
  extract_lets +onlyGivenNames t0
  have h1 : Keeps z t0 := by
    unfold t0
    exact State.regStore_keeps h
  clear_value t0
  refine keeps_ite ?_ ?_
  · exact State.setReg_keeps (State.setReg_keeps h1)
  · exact h1

theorem State.writeTrctl_keeps {z : State} {s : State} {a1 : ℕ} {a2 : W64} (h : Keeps z s) :
    Keeps z (State.writeTrctl s a1 a2) := by
  unfold State.writeTrctl
  extract_lets +onlyGivenNames t0
  have h1 : Keeps z t0 := by
    unfold t0
    exact State.regStore_keeps h
  clear_value t0
  refine keeps_ite ?_ ?_
  · extract_lets +onlyGivenNames t2
    clear_value t2
    extract_lets +onlyGivenNames t3
    have h4 : Keeps z t3 := by
      unfold t3
      exact keeps_mk h1
    clear_value t3
    exact State.setReg_keeps h4
  · exact h1

theorem State.writeRg_keeps {z : State} {s : State} {a1 : ℕ} {a2 : ℕ} {a3 : W64} (h : Keeps z s) :
    Keeps z (State.writeRg s a1 a2 a3) := by
  unfold State.writeRg
  extract_lets +onlyGivenNames t0
  clear_value t0
  extract_lets +onlyGivenNames t1
  clear_value t1
  extract_lets +onlyGivenNames t2
  have h3 : Keeps z t2 := by
    unfold t2
    exact keeps_mk h
  clear_value t2
  exact State.regStore_keeps h3

theorem State.writeDmpBase_keeps {z : State} {s : State} {a1 : W64} (h : Keeps z s) :
    Keeps z (State.writeDmpBase s a1) := by
  unfold State.writeDmpBase
  extract_lets +onlyGivenNames t0
  clear_value t0
  refine keeps_ite ?_ ?_
  · exact State.regStore_keeps h
  · exact h

theorem State.writeTsel_keeps {z : State} {s : State} {a1 : ℕ} {a2 : W64} (h : Keeps z s) :
    Keeps z (State.writeTsel s a1 a2) := by
  unfold State.writeTsel
  extract_lets +onlyGivenNames t0
  have h1 : Keeps z t0 := by
    unfold t0
    exact State.regStore_keeps h
  clear_value t0
  extract_lets +onlyGivenNames t2
  clear_value t2
  extract_lets +onlyGivenNames t3
  clear_value t3
  exact keeps_mk h1

theorem State.writeBrwctl_keeps {z : State} {s : State} {a1 : ℕ} {a2 : W64} (h : Keeps z s) :
    Keeps z (State.writeBrwctl s a1 a2) := by
  unfold State.writeBrwctl
  extract_lets +onlyGivenNames t0
  clear_value t0
  extract_lets +onlyGivenNames t1
  have h2 : Keeps z t1 := by
    unfold t1
    exact State.regStore_keeps h
  clear_value t1
  refine keeps_ite ?_ ?_
  · exact keeps_mk h2
  · exact h2

theorem State.regWrite_keeps {z : State} {s : State} {a1 : ℕ} {a2 : W64} (h : Keeps z s) :
    Keeps z (State.regWrite s a1 a2) := by
  unfold State.regWrite
  refine keeps_ite ?_ ?_
  · exact h
  · split
    · exact State.writeLctl_keeps h
    · exact State.writePcfg_keeps h
    · exact State.releaseHeld_keeps (State.regStore_keeps h)
    · exact keeps_mk h
    · exact State.writeBbctl_keeps h
    · extract_lets +onlyGivenNames t0
      have h1 : Keeps z t0 := by
        unfold t0
        exact State.regStore_keeps h
      clear_value t0
      refine keeps_ite ?_ ?_
      · exact State.setFld_keeps h1
      · exact h1
    · exact State.writePrbctl_keeps h
    · exact State.writeTrctl_keeps h
    · exact State.writeRg_keeps h
    · exact State.writeDmpBase_keeps h
    · exact State.writeTsel_keeps h
    · exact State.writeBrwctl_keeps h
    · refine keeps_ite ?_ ?_
      · exact State.setReg_keeps h
      · exact h
    · exact State.regStore_keeps h

theorem State.regPoke_keeps {z : State} {s : State} {a1 : ℕ} {a2 : W64} (h : Keeps z s) :
    Keeps z (State.regPoke s a1 a2) := by
  unfold State.regPoke
  refine keeps_ite ?_ ?_
  · split
    · refine keeps_ite ?_ ?_
      · exact State.setReg_keeps h
      · exact h
    · exact h
  · exact State.regWrite_keeps h

theorem execMtCkstatClear_keeps {z : State} {a0 : Fin 64} {s : State} (h : Keeps z s) :
    KeepsO z (execMtCkstatClear a0 s) := by
  unfold execMtCkstatClear
  exact keepsO_next (State.regWrite_keeps h)

theorem execHbmEccClear_keeps {z : State} {s : State} (h : Keeps z s) :
    KeepsO z (execHbmEccClear s) := by
  unfold execHbmEccClear
  exact keepsO_next (State.regWrite_keeps h)

theorem execDdrEccClear_keeps {z : State} {a0 : Fin 8} {s : State} (h : Keeps z s) :
    KeepsO z (execDdrEccClear a0 s) := by
  unfold execDdrEccClear
  exact keepsO_next (State.regWrite_keeps h)

theorem execEthFecClear_keeps {z : State} {a0 : Fin 2} {a1 : Fin 4} {s : State} (h : Keeps z s) :
    KeepsO z (execEthFecClear a0 a1 s) := by
  unfold execEthFecClear
  exact keepsO_next (State.regWrite_keeps h)

theorem execCxlErrClear_keeps {z : State} {a0 : Fin 2} {s : State} (h : Keeps z s) :
    KeepsO z (execCxlErrClear a0 s) := by
  unfold execCxlErrClear
  exact keepsO_next (State.regWrite_keeps h)

theorem execNocPrbctlClear_keeps {z : State} {a0 : Fin 40} {s : State} (h : Keeps z s) :
    KeepsO z (execNocPrbctlClear a0 s) := by
  unfold execNocPrbctlClear
  exact keepsO_next (State.regWrite_keeps h)

theorem execNocTrctlClear_keeps {z : State} {a0 : Fin 3} {s : State} (h : Keeps z s) :
    KeepsO z (execNocTrctlClear a0 s) := by
  unfold execNocTrctlClear
  exact keepsO_next (State.regWrite_keeps h)

theorem execBrwCntClear_keeps {z : State} {a0 : Fin 2} {s : State} (h : Keeps z s) :
    KeepsO z (execBrwCntClear a0 s) := by
  unfold execBrwCntClear
  exact keepsO_next (State.regWrite_keeps h)

theorem execEyeScanStart_keeps {z : State} {a0 : Fin 48} {s : State} (h : Keeps z s) :
    KeepsO z (execEyeScanStart a0 s) := by
  unfold execEyeScanStart
  exact keepsO_next (State.regWrite_keeps h)

theorem execRegisterWrite_keeps {z : State} {a0 : ℕ} {a1 : W64} {s : State} (h : Keeps z s) :
    KeepsO z (execRegisterWrite a0 a1 s) := by
  unfold execRegisterWrite
  refine keepsO_ite ?_ ?_
  · exact keepsO_next (State.regWrite_keeps h)
  · exact keepsO_next h

end Sys2Proof.Machine
end

