-- ==== Sys2Proof/Laws/Keeps2.lean ====
section
/-! SUPPORT. Every operation and meaning of the files Seq, Net, Deliver of Machine keeps the queue, the count of
free values and the canonical form of memory (Keeps). -/

namespace Sys2Proof.Machine

/-! ### Seq -/

theorem State.esFault_keeps {z : State} {s : State} {a1 : ℕ} {a2 : ℕ} {a3 : ℕ} (h : Keeps z s) :
    Keeps z (State.esFault s a1 a2 a3) := by
  unfold State.esFault
  extract_lets +onlyGivenNames t0
  clear_value t0
  extract_lets +onlyGivenNames t1
  clear_value t1
  exact State.faultCtx_keeps (State.setReg_keeps (State.setReg_keeps h))

theorem State.issueBooks_keeps {z : State} {s : State} {a1 : ℕ} {a2 : ℕ} (h : Keeps z s) :
    Keeps z (State.issueBooks s a1 a2) := by
  unfold State.issueBooks
  extract_lets +onlyGivenNames t0
  clear_value t0
  extract_lets +onlyGivenNames t1
  clear_value t1
  extract_lets +onlyGivenNames t2
  clear_value t2
  extract_lets +onlyGivenNames t3
  have h4 : Keeps z t3 := by
    unfold t3
    exact State.updEng_keeps h
  clear_value t3
  exact State.updReg_keeps h4

theorem State.passTurn_keeps {z : State} {s : State} {a1 : ℕ} {a2 : ℕ} (h : Keeps z s) :
    Keeps z (State.passTurn s a1 a2) := by
  unfold State.passTurn
  extract_lets +onlyGivenNames t0
  clear_value t0
  exact State.updEng_keeps h

theorem esRun_keeps {z s : State} {n k : Nat} {body : EsInsn → Option (State → State)} (h : Keeps z s)
    (hb : ∀ i, KeepsF z (body i)) : KeepsO z (esRun n k body s) := by
  unfold esRun
  refine keepsO_ite ?_ (keepsO_next h)
  split
  · exact keepsO_next (State.esFault_keeps h)
  · exact keepsO_next (State.esFault_keeps h)
  · split
    · exact keepsO_next h
    · exact keepsO_next (hb _ _ ‹_› _ h)

theorem State.retire_keeps {z : State} {s : State} {a1 : ℕ} {a2 : ℕ} {a3 : Slot → Slot} (h : Keeps z s) :
    Keeps z (State.retire s a1 a2 a3) := by
  unfold State.retire
  exact State.updSlot_keeps (State.issueBooks_keeps h)

theorem State.retireX_keeps {z : State} {s : State} {a1 : ℕ} {a2 : ℕ} {a3 : BitVec 5} {a4 : W64} (h : Keeps z s) :
    Keeps z (State.retireX s a1 a2 a3 a4) := by
  unfold State.retireX
  exact State.retire_keeps h

theorem State.block_keeps {z : State} {s : State} {a1 : ℕ} {a2 : ℕ} {a3 : Wait} (h : Keeps z s) :
    Keeps z (State.block s a1 a2 a3) := by
  unfold State.block
  exact State.updSlot_keeps (State.passTurn_keeps (State.issueBooks_keeps h))

theorem State.blockRetry_keeps {z : State} {s : State} {a1 : ℕ} {a2 : ℕ} (h : Keeps z s) :
    Keeps z (State.blockRetry s a1 a2) := by
  unfold State.blockRetry
  exact State.updSlot_keeps (State.passTurn_keeps h)

theorem esAlu_keeps {z : State} {a0 : ℕ} {a1 : ℕ} {a2 : Alu} {s : State} (h : Keeps z s) :
    KeepsO z (esAlu a0 a1 a2 s) := by
  unfold esAlu
  refine esRun_keeps ?_ ?_
  · exact h
  · intro x0
    split
    · refine keepsF_ite ?_ ?_
      · refine keepsF_some (fun s1 h2 => ?_)
        extract_lets +onlyGivenNames t3
        clear_value t3
        exact State.retireX_keeps h2
      · exact keepsF_none
    · exact keepsF_none

theorem esImm_keeps {z : State} {a0 : ℕ} {a1 : ℕ} {a2 : ImmOp} {s : State} (h : Keeps z s) :
    KeepsO z (esImm a0 a1 a2 s) := by
  unfold esImm
  refine esRun_keeps ?_ ?_
  · exact h
  · intro x0
    split
    · refine keepsF_ite ?_ ?_
      · refine keepsF_some (fun s1 h2 => ?_)
        exact State.retireX_keeps h2
      · exact keepsF_none
    · exact keepsF_none

theorem esShi_keeps {z : State} {a0 : ℕ} {a1 : ℕ} {a2 : Bool} {s : State} (h : Keeps z s) :
    KeepsO z (esShi a0 a1 a2 s) := by
  unfold esShi
  refine esRun_keeps ?_ ?_
  · exact h
  · intro x0
    split
    · refine keepsF_ite ?_ ?_
      · refine keepsF_some (fun s1 h2 => ?_)
        extract_lets +onlyGivenNames t3
        clear_value t3
        exact State.retireX_keeps h2
      · exact keepsF_none
    · exact keepsF_none

theorem execEsNop_keeps {z : State} {a0 : Fin 64} {a1 : Fin 8} {s : State} (h : Keeps z s) :
    KeepsO z (execEsNop a0 a1 s) := by
  unfold execEsNop
  refine esRun_keeps ?_ ?_
  · exact h
  · intro x0
    split
    · refine keepsF_some (fun s1 h2 => ?_)
      exact State.retire_keeps h2
    · exact keepsF_none

theorem execAdd_keeps {z : State} {a0 : Fin 64} {a1 : Fin 8} {s : State} (h : Keeps z s) :
    KeepsO z (execAdd a0 a1 s) := by
  unfold execAdd
  exact esAlu_keeps h

theorem execSub_keeps {z : State} {a0 : Fin 64} {a1 : Fin 8} {s : State} (h : Keeps z s) :
    KeepsO z (execSub a0 a1 s) := by
  unfold execSub
  exact esAlu_keeps h

theorem execAnd_keeps {z : State} {a0 : Fin 64} {a1 : Fin 8} {s : State} (h : Keeps z s) :
    KeepsO z (execAnd a0 a1 s) := by
  unfold execAnd
  exact esAlu_keeps h

theorem execOr_keeps {z : State} {a0 : Fin 64} {a1 : Fin 8} {s : State} (h : Keeps z s) :
    KeepsO z (execOr a0 a1 s) := by
  unfold execOr
  exact esAlu_keeps h

theorem execXor_keeps {z : State} {a0 : Fin 64} {a1 : Fin 8} {s : State} (h : Keeps z s) :
    KeepsO z (execXor a0 a1 s) := by
  unfold execXor
  exact esAlu_keeps h

theorem execShl_keeps {z : State} {a0 : Fin 64} {a1 : Fin 8} {s : State} (h : Keeps z s) :
    KeepsO z (execShl a0 a1 s) := by
  unfold execShl
  exact esAlu_keeps h

theorem execShr_keeps {z : State} {a0 : Fin 64} {a1 : Fin 8} {s : State} (h : Keeps z s) :
    KeepsO z (execShr a0 a1 s) := by
  unfold execShr
  exact esAlu_keeps h

theorem execSra_keeps {z : State} {a0 : Fin 64} {a1 : Fin 8} {s : State} (h : Keeps z s) :
    KeepsO z (execSra a0 a1 s) := by
  unfold execSra
  exact esAlu_keeps h

theorem execSlt_keeps {z : State} {a0 : Fin 64} {a1 : Fin 8} {s : State} (h : Keeps z s) :
    KeepsO z (execSlt a0 a1 s) := by
  unfold execSlt
  exact esAlu_keeps h

theorem execSltu_keeps {z : State} {a0 : Fin 64} {a1 : Fin 8} {s : State} (h : Keeps z s) :
    KeepsO z (execSltu a0 a1 s) := by
  unfold execSltu
  exact esAlu_keeps h

theorem execMul_keeps {z : State} {a0 : Fin 64} {a1 : Fin 8} {s : State} (h : Keeps z s) :
    KeepsO z (execMul a0 a1 s) := by
  unfold execMul
  exact esAlu_keeps h

theorem execAddi_keeps {z : State} {a0 : Fin 64} {a1 : Fin 8} {s : State} (h : Keeps z s) :
    KeepsO z (execAddi a0 a1 s) := by
  unfold execAddi
  exact esImm_keeps h

theorem execAndi_keeps {z : State} {a0 : Fin 64} {a1 : Fin 8} {s : State} (h : Keeps z s) :
    KeepsO z (execAndi a0 a1 s) := by
  unfold execAndi
  exact esImm_keeps h

theorem execOri_keeps {z : State} {a0 : Fin 64} {a1 : Fin 8} {s : State} (h : Keeps z s) :
    KeepsO z (execOri a0 a1 s) := by
  unfold execOri
  exact esImm_keeps h

theorem execXori_keeps {z : State} {a0 : Fin 64} {a1 : Fin 8} {s : State} (h : Keeps z s) :
    KeepsO z (execXori a0 a1 s) := by
  unfold execXori
  exact esImm_keeps h

theorem execShli_keeps {z : State} {a0 : Fin 64} {a1 : Fin 8} {s : State} (h : Keeps z s) :
    KeepsO z (execShli a0 a1 s) := by
  unfold execShli
  exact esShi_keeps h

theorem execShri_keeps {z : State} {a0 : Fin 64} {a1 : Fin 8} {s : State} (h : Keeps z s) :
    KeepsO z (execShri a0 a1 s) := by
  unfold execShri
  exact esShi_keeps h

theorem execMovi_keeps {z : State} {a0 : Fin 64} {a1 : Fin 8} {s : State} (h : Keeps z s) :
    KeepsO z (execMovi a0 a1 s) := by
  unfold execMovi
  refine esRun_keeps ?_ ?_
  · exact h
  · intro x0
    split
    · refine keepsF_some (fun s1 h2 => ?_)
      exact State.retireX_keeps h2
    · exact keepsF_none

theorem execMovk_keeps {z : State} {a0 : Fin 64} {a1 : Fin 8} {s : State} (h : Keeps z s) :
    KeepsO z (execMovk a0 a1 s) := by
  unfold execMovk
  refine esRun_keeps ?_ ?_
  · exact h
  · intro x0
    split
    · refine keepsF_some (fun s1 h2 => ?_)
      exact State.retireX_keeps h2
    · exact keepsF_none

theorem State.goTo_keeps {z : State} {s : State} {a1 : ℕ} {a2 : ℕ} {a3 : ℤ} {a4 : BitVec 5} (h : Keeps z s) :
    Keeps z (State.goTo s a1 a2 a3 a4) := by
  unfold State.goTo
  refine keeps_ite ?_ ?_
  · exact State.updSlot_keeps (State.issueBooks_keeps h)
  · exact State.esFault_keeps h

theorem esBranch_keeps {z : State} {a0 : ℕ} {a1 : ℕ} {a2 : BrOp} {s : State} (h : Keeps z s) :
    KeepsO z (esBranch a0 a1 a2 s) := by
  unfold esBranch
  refine esRun_keeps ?_ ?_
  · exact h
  · intro x0
    split
    · refine keepsF_ite ?_ ?_
      · refine keepsF_some (fun s1 h2 => ?_)
        extract_lets +onlyGivenNames t3
        clear_value t3
        extract_lets +onlyGivenNames t4
        clear_value t4
        refine keeps_ite ?_ ?_
        · exact State.goTo_keeps h2
        · exact State.retire_keeps h2
      · exact keepsF_none
    · exact keepsF_none

theorem execBeq_keeps {z : State} {a0 : Fin 64} {a1 : Fin 8} {s : State} (h : Keeps z s) :
    KeepsO z (execBeq a0 a1 s) := by
  unfold execBeq
  exact esBranch_keeps h

theorem execBne_keeps {z : State} {a0 : Fin 64} {a1 : Fin 8} {s : State} (h : Keeps z s) :
    KeepsO z (execBne a0 a1 s) := by
  unfold execBne
  exact esBranch_keeps h

theorem execBlt_keeps {z : State} {a0 : Fin 64} {a1 : Fin 8} {s : State} (h : Keeps z s) :
    KeepsO z (execBlt a0 a1 s) := by
  unfold execBlt
  exact esBranch_keeps h

theorem execBge_keeps {z : State} {a0 : Fin 64} {a1 : Fin 8} {s : State} (h : Keeps z s) :
    KeepsO z (execBge a0 a1 s) := by
  unfold execBge
  exact esBranch_keeps h

theorem execBltu_keeps {z : State} {a0 : Fin 64} {a1 : Fin 8} {s : State} (h : Keeps z s) :
    KeepsO z (execBltu a0 a1 s) := by
  unfold execBltu
  exact esBranch_keeps h

theorem execJmp_keeps {z : State} {a0 : Fin 64} {a1 : Fin 8} {s : State} (h : Keeps z s) :
    KeepsO z (execJmp a0 a1 s) := by
  unfold execJmp
  refine esRun_keeps ?_ ?_
  · exact h
  · intro x0
    split
    · refine keepsF_some (fun s1 h2 => ?_)
      exact State.goTo_keeps h2
    · exact keepsF_none

theorem execJr_keeps {z : State} {a0 : Fin 64} {a1 : Fin 8} {s : State} (h : Keeps z s) :
    KeepsO z (execJr a0 a1 s) := by
  unfold execJr
  refine esRun_keeps ?_ ?_
  · exact h
  · intro x0
    split
    · refine keepsF_some (fun s1 h2 => ?_)
      exact State.goTo_keeps h2
    · exact keepsF_none

theorem State.dataWrite_keeps {z : State} {s : State} {a1 : ℕ} {a2 : ℕ} {a3 : ℕ} (h : Keeps z s) :
    Keeps z (State.dataWrite s a1 a2 a3) := by
  unfold State.dataWrite
  refine keeps_ite ?_ ?_
  · exact State.regPoke_keeps h
  · exact State.wrAll_keeps h

theorem esLoad_keeps {z : State} {a0 : ℕ} {a1 : ℕ} {a2 : ℕ} {a3 : MemOp} {s : State} (h : Keeps z s) :
    KeepsO z (esLoad a0 a1 a2 a3 s) := by
  unfold esLoad
  refine esRun_keeps ?_ ?_
  · exact h
  · intro x0
    split
    · refine keepsF_ite ?_ ?_
      · refine keepsF_some (fun s1 h2 => ?_)
        extract_lets +onlyGivenNames t3
        clear_value t3
        extract_lets +onlyGivenNames t4
        clear_value t4
        refine keeps_ite ?_ ?_
        · exact h2
        · split
          · exact State.esFault_keeps h2
          · extract_lets +onlyGivenNames t5
            clear_value t5
            extract_lets +onlyGivenNames t6
            clear_value t6
            extract_lets +onlyGivenNames t7
            have h8 : Keeps z t7 := by
              unfold t7
              exact State.touchDev_keeps (keeps_free h2)
            clear_value t7
            exact State.retire_keeps h8
      · exact keepsF_none
    · exact keepsF_none

theorem esStore_keeps {z : State} {a0 : ℕ} {a1 : ℕ} {a2 : ℕ} {a3 : MemOp} {s : State} (h : Keeps z s) :
    KeepsO z (esStore a0 a1 a2 a3 s) := by
  unfold esStore
  refine esRun_keeps ?_ ?_
  · exact h
  · intro x0
    split
    · refine keepsF_ite ?_ ?_
      · refine keepsF_some (fun s1 h2 => ?_)
        extract_lets +onlyGivenNames t3
        clear_value t3
        extract_lets +onlyGivenNames t4
        clear_value t4
        refine keeps_ite ?_ ?_
        · exact h2
        · split
          · exact State.esFault_keeps h2
          · exact State.retire_keeps (State.touchDev_keeps (State.dataWrite_keeps h2))
      · exact keepsF_none
    · exact keepsF_none

theorem execLd_keeps {z : State} {a0 : Fin 64} {a1 : Fin 8} {s : State} (h : Keeps z s) :
    KeepsO z (execLd a0 a1 s) := by
  unfold execLd
  exact esLoad_keeps h

theorem execLdw_keeps {z : State} {a0 : Fin 64} {a1 : Fin 8} {s : State} (h : Keeps z s) :
    KeepsO z (execLdw a0 a1 s) := by
  unfold execLdw
  exact esLoad_keeps h

theorem execSt_keeps {z : State} {a0 : Fin 64} {a1 : Fin 8} {s : State} (h : Keeps z s) :
    KeepsO z (execSt a0 a1 s) := by
  unfold execSt
  exact esStore_keeps h

theorem execStw_keeps {z : State} {a0 : Fin 64} {a1 : Fin 8} {s : State} (h : Keeps z s) :
    KeepsO z (execStw a0 a1 s) := by
  unfold execStw
  exact esStore_keeps h

theorem execLoadDataReturn_keeps {z : State} {a0 : Fin 64} {a1 : Fin 8} {a2 : ℕ} {s : State} (h : Keeps z s) :
    KeepsO z (execLoadDataReturn a0 a1 a2 s) := by
  unfold execLoadDataReturn
  extract_lets +onlyGivenNames t0
  clear_value t0
  split
  · exact keepsO_next h
  · refine keepsO_ite ?_ ?_
    · exact keepsO_next h
    · refine keepsO_ite ?_ ?_
      · exact keepsO_next (State.faultCtx_keeps h)
      · exact keepsO_next (State.setSlot_keeps h)

theorem execStrm_keeps {z : State} {a0 : Fin 64} {a1 : Fin 8} {s : State} (h : Keeps z s) :
    KeepsO z (execStrm a0 a1 s) := by
  unfold execStrm
  refine esRun_keeps ?_ ?_
  · exact h
  · intro x0
    split
    · refine keepsF_some (fun s1 h2 => ?_)
      extract_lets +onlyGivenNames t3
      clear_value t3
      extract_lets +onlyGivenNames t4
      clear_value t4
      refine keeps_ite ?_ ?_
      · exact State.blockRetry_keeps h2
      · refine keeps_ite ?_ ?_
        · exact h2
        · refine keeps_ite ?_ ?_
          · exact State.esFault_keeps h2
          · split
            · exact State.esFault_keeps h2
            · refine keeps_ite ?_ ?_
              · exact State.faultCtx_keeps h2
              · split
                · exact State.esFault_keeps h2
                · refine keeps_ite ?_ ?_
                  · extract_lets +onlyGivenNames t5
                    have h6 : Keeps z t5 := by
                      unfold t5
                      exact State.updEng_keeps h2
                    clear_value t5
                    exact State.retire_keeps h6
                  · exact State.esFault_keeps h2
    · exact keepsF_none

theorem execSwait_keeps {z : State} {a0 : Fin 64} {a1 : Fin 8} {s : State} (h : Keeps z s) :
    KeepsO z (execSwait a0 a1 s) := by
  unfold execSwait
  refine esRun_keeps ?_ ?_
  · exact h
  · intro x0
    split
    · refine keepsF_some (fun s1 h2 => ?_)
      refine keeps_ite ?_ ?_
      · exact State.retire_keeps h2
      · exact State.block_keeps h2
    · exact keepsF_none

theorem execFence_keeps {z : State} {a0 : Fin 64} {a1 : Fin 8} {s : State} (h : Keeps z s) :
    KeepsO z (execFence a0 a1 s) := by
  unfold execFence
  refine esRun_keeps ?_ ?_
  · exact h
  · intro x0
    split
    · refine keepsF_some (fun s1 h2 => ?_)
      refine keeps_ite ?_ ?_
      · exact State.retire_keeps h2
      · exact State.block_keeps h2
    · exact keepsF_none

theorem execVwait_keeps {z : State} {a0 : Fin 64} {a1 : Fin 8} {s : State} (h : Keeps z s) :
    KeepsO z (execVwait a0 a1 s) := by
  unfold execVwait
  refine esRun_keeps ?_ ?_
  · exact h
  · intro x0
    split
    · refine keepsF_some (fun s1 h2 => ?_)
      refine keeps_ite ?_ ?_
      · exact State.block_keeps h2
      · exact State.retire_keeps h2
    · exact keepsF_none

theorem State.wake_keeps {z : State} {s : State} {a1 : ℕ} (h : Keeps z s) :
    Keeps z (State.wake s a1) := by
  unfold State.wake
  refine keeps_foldl ?_ (fun s0 a1 h2 => ?_)
  · exact h
  · extract_lets +onlyGivenNames t3
    clear_value t3
    refine keeps_ite ?_ ?_
    · refine keeps_ite ?_ ?_
      · exact State.setSlot_keeps h2
      · refine keeps_ite ?_ ?_
        · exact State.setSlot_keeps h2
        · exact h2
    · exact h2

theorem execGsig_keeps {z : State} {a0 : Fin 64} {a1 : Fin 8} {s : State} (h : Keeps z s) :
    KeepsO z (execGsig a0 a1 s) := by
  unfold execGsig
  refine esRun_keeps ?_ ?_
  · exact h
  · intro x0
    split
    · refine keepsF_some (fun s1 h2 => ?_)
      extract_lets +onlyGivenNames t3
      clear_value t3
      extract_lets +onlyGivenNames t4
      clear_value t4
      refine keeps_ite ?_ ?_
      · exact State.esFault_keeps h2
      · extract_lets +onlyGivenNames t5
        clear_value t5
        exact State.retire_keeps (State.sendSig_keeps h2)
    · exact keepsF_none

theorem execGwait_keeps {z : State} {a0 : Fin 64} {a1 : Fin 8} {s : State} (h : Keeps z s) :
    KeepsO z (execGwait a0 a1 s) := by
  unfold execGwait
  refine esRun_keeps ?_ ?_
  · exact h
  · intro x0
    split
    · refine keepsF_some (fun s1 h2 => ?_)
      extract_lets +onlyGivenNames t3
      clear_value t3
      extract_lets +onlyGivenNames t4
      clear_value t4
      extract_lets +onlyGivenNames t5
      clear_value t5
      refine keeps_ite ?_ ?_
      · exact State.faultCtx_keeps h2
      · refine keeps_ite ?_ ?_
        · refine State.retire_keeps ?_
          refine keeps_ite ?_ ?_
          · exact State.setGateCount_keeps h2
          · exact h2
        · exact State.block_keeps h2
    · exact keepsF_none

theorem execGwaitReturn_keeps {z : State} {a0 : Fin 64} {a1 : Fin 8} {s : State} (h : Keeps z s) :
    KeepsO z (execGwaitReturn a0 a1 s) := by
  unfold execGwaitReturn
  extract_lets +onlyGivenNames t0
  clear_value t0
  split
  · extract_lets +onlyGivenNames t1
    clear_value t1
    refine keepsO_ite ?_ ?_
    · refine keepsO_next ?_
      refine State.setSlot_keeps ?_
      refine keeps_ite ?_ ?_
      · exact State.setGateCount_keeps h
      · exact h
    · exact keepsO_next h
  · exact keepsO_next h

theorem execGset_keeps {z : State} {a0 : Fin 64} {a1 : Fin 8} {s : State} (h : Keeps z s) :
    KeepsO z (execGset a0 a1 s) := by
  unfold execGset
  refine esRun_keeps ?_ ?_
  · exact h
  · intro x0
    split
    · refine keepsF_some (fun s1 h2 => ?_)
      extract_lets +onlyGivenNames t3
      clear_value t3
      refine keeps_ite ?_ ?_
      · exact State.retire_keeps (State.setGateCount_keeps h2)
      · exact State.faultCtx_keeps h2
    · exact keepsF_none

theorem execGrd_keeps {z : State} {a0 : Fin 64} {a1 : Fin 8} {s : State} (h : Keeps z s) :
    KeepsO z (execGrd a0 a1 s) := by
  unfold execGrd
  refine esRun_keeps ?_ ?_
  · exact h
  · intro x0
    split
    · refine keepsF_some (fun s1 h2 => ?_)
      extract_lets +onlyGivenNames t3
      clear_value t3
      refine keeps_ite ?_ ?_
      · exact State.retireX_keeps h2
      · exact State.faultCtx_keeps h2
    · exact keepsF_none

theorem execRddt_keeps {z : State} {a0 : Fin 64} {a1 : Fin 8} {s : State} (h : Keeps z s) :
    KeepsO z (execRddt a0 a1 s) := by
  unfold execRddt
  refine esRun_keeps ?_ ?_
  · exact h
  · intro x0
    split
    · refine keepsF_some (fun s1 h2 => ?_)
      exact State.retireX_keeps h2
    · exact keepsF_none

theorem execRdsr_keeps {z : State} {a0 : Fin 64} {a1 : Fin 8} {s : State} (h : Keeps z s) :
    KeepsO z (execRdsr a0 a1 s) := by
  unfold execRdsr
  refine esRun_keeps ?_ ?_
  · exact h
  · intro x0
    split
    · refine keepsF_some (fun s1 h2 => ?_)
      exact State.retireX_keeps h2
    · exact keepsF_none

theorem execPlrd_keeps {z : State} {a0 : Fin 64} {a1 : Fin 8} {s : State} (h : Keeps z s) :
    KeepsO z (execPlrd a0 a1 s) := by
  unfold execPlrd
  refine esRun_keeps ?_ ?_
  · exact h
  · intro x0
    split
    · refine keepsF_some (fun s1 h2 => ?_)
      extract_lets +onlyGivenNames t3
      clear_value t3
      exact State.retireX_keeps h2
    · exact keepsF_none

theorem execYield_keeps {z : State} {a0 : Fin 64} {a1 : Fin 8} {s : State} (h : Keeps z s) :
    KeepsO z (execYield a0 a1 s) := by
  unfold execYield
  refine esRun_keeps ?_ ?_
  · exact h
  · intro x0
    split
    · refine keepsF_some (fun s1 h2 => ?_)
      refine keeps_ite ?_ ?_
      · exact State.passTurn_keeps (State.retire_keeps h2)
      · exact State.retire_keeps h2
    · exact keepsF_none

theorem execHalt_keeps {z : State} {a0 : Fin 64} {a1 : Fin 8} {s : State} (h : Keeps z s) :
    KeepsO z (execHalt a0 a1 s) := by
  unfold execHalt
  refine esRun_keeps ?_ ?_
  · exact h
  · intro x0
    split
    · refine keepsF_some (fun s1 h2 => ?_)
      exact State.block_keeps h2
    · exact keepsF_none

/-! ### Net -/

theorem State.opDone_keeps {z : State} {s : State} {a1 : ℕ} {a2 : ℕ} (h : Keeps z s) :
    Keeps z (State.opDone s a1 a2) := by
  unfold State.opDone
  extract_lets +onlyGivenNames t0
  have h1 : Keeps z t0 := by
    unfold t0
    refine keeps_ite ?_ ?_
    · exact h
    · exact keeps_mk h
  clear_value t0
  extract_lets +onlyGivenNames t2
  clear_value t2
  exact keeps_mk h1

theorem State.opsFail_keeps {z : State} {s : State} {a1 : ℕ} {a2 : ℕ} (h : Keeps z s) :
    Keeps z (State.opsFail s a1 a2) := by
  unfold State.opsFail
  refine keeps_foldl ?_ (fun s0 a1 h2 => ?_)
  · exact h
  · exact State.opDone_keeps h2

theorem State.post_keeps {z : State} {s : State} {a1 : ℕ} {a2 : ℕ} {a3 : ℕ} {a4 : List Pkt} (h : Keeps z s) :
    Keeps z (State.post s a1 a2 a3 a4).1 := by
  unfold State.post
  split
  · dsimp only
    exact h
  · extract_lets +onlyGivenNames t0
    clear_value t0
    extract_lets +onlyGivenNames t1
    have h2 : Keeps z t1 := by
      unfold t1
      exact State.updEnt_keeps h
    clear_value t1
    extract_lets +onlyGivenNames t3
    clear_value t3
    extract_lets +onlyGivenNames t4
    have h5 : Keeps z t4 := by
      unfold t4
      exact keeps_mk h2
    clear_value t4
    dsimp only
    exact State.updCmd_keeps h5

theorem State.postHost_keeps {z : State} {s : State} {a1 : ℕ} {a2 : ℕ} {a3 : ℕ} {a4 : List Byte} (h : Keeps z s) :
    Keeps z (State.postHost s a1 a2 a3 a4).1 := by
  unfold State.postHost
  exact State.post_keeps h

theorem State.sendPkt_keeps {z : State} {s : State} {a1 : ℕ} {a2 : ℕ} {a3 : Pkt} (h : Keeps z s) :
    Keeps z (State.sendPkt s a1 a2 a3) := by
  unfold State.sendPkt
  extract_lets +onlyGivenNames t0
  clear_value t0
  extract_lets +onlyGivenNames t1
  clear_value t1
  extract_lets +onlyGivenNames t2
  clear_value t2
  extract_lets +onlyGivenNames t3
  clear_value t3
  extract_lets +onlyGivenNames t4
  clear_value t4
  exact State.emit_keeps (State.setEnt_keeps h)

theorem State.sendAck1_keeps {z : State} {s : State} {a1 : ℕ} (h : Keeps z s) :
    Keeps z (State.sendAck1 s a1) := by
  unfold State.sendAck1
  extract_lets +onlyGivenNames t0
  clear_value t0
  extract_lets +onlyGivenNames t1
  clear_value t1
  refine keeps_ite ?_ ?_
  · exact State.updEnt_keeps h
  · exact State.updEnt_keeps (State.sendPkt_keeps h)

theorem State.sendAck_keeps {z : State} {s : State} {a1 : ℕ} (h : Keeps z s) :
    Keeps z (State.sendAck s a1) := by
  unfold State.sendAck
  refine keeps_foldl ?_ (fun s0 a1 h2 => ?_)
  · exact h
  · refine State.sendAck1_keeps ?_
    exact h2

theorem State.arriveEarly_keeps {z : State} {s : State} {a1 : ℕ} {a2 : Pkt} (h : Keeps z s) :
    Keeps z (State.arriveEarly s a1 a2) := by
  unfold State.arriveEarly
  split
  · exact h
  · refine keeps_ite ?_ ?_
    · exact State.updEnt_keeps h
    · refine keeps_ite ?_ ?_
      · exact State.updReg_keeps h
      · exact State.updEnt_keeps (keeps_mk h)

theorem State.arrive_keeps {z : State} {s : State} {a1 : ℕ} {a2 : Bool} {a3 : Pkt} (h : Keeps z s) :
    Keeps z (State.arrive s a1 a2 a3) := by
  unfold State.arrive
  extract_lets +onlyGivenNames t0
  refine keeps_ite ?_ ?_
  · refine keeps_ite ?_ ?_
    · exact h
    · exact State.arriveEarly_keeps h
  · refine keeps_ite ?_ ?_
    · exact State.updEnt_keeps h
    · extract_lets +onlyGivenNames t1
      clear_value t1
      extract_lets +onlyGivenNames t2
      clear_value t2
      extract_lets +onlyGivenNames t3
      clear_value t3
      refine keeps_ite ?_ ?_
      · refine State.sendAck_keeps ?_
        dsimp only [t0]
        exact State.updEnt_keeps h
      · refine keeps_ite ?_ ?_
        · exact State.updReg_keeps h
        · extract_lets +onlyGivenNames t4
          clear_value t4
          extract_lets +onlyGivenNames t5
          have h6 : Keeps z t5 := by
            unfold t5
            dsimp only [t0]
            exact State.updEnt_keeps (keeps_mk h)
          clear_value t5
          extract_lets +onlyGivenNames t7
          clear_value t7
          extract_lets +onlyGivenNames t8
          have h9 : Keeps z t8 := by
            unfold t8
            exact State.updEnt_keeps h6
          clear_value t8
          refine keeps_ite ?_ ?_
          · exact State.sendAck_keeps h9
          · exact h9

theorem State.settleResets_keeps {z : State} {s : State} (h : Keeps z s) :
    Keeps z (State.settleResets s) := by
  unfold State.settleResets
  extract_lets +onlyGivenNames t0
  clear_value t0
  extract_lets +onlyGivenNames t1
  clear_value t1
  extract_lets +onlyGivenNames t2
  have h3 : Keeps z t2 := by
    unfold t2
    exact keeps_mk h
  clear_value t2
  refine keeps_foldl ?_ (fun s4 a5 h6 => ?_)
  · exact h3
  · exact State.finishCmd_keeps h6

theorem State.unsetEnt_keeps {z : State} {s : State} {a1 : ℕ} (h : Keeps z s) :
    Keeps z (State.unsetEnt s a1) := by
  unfold State.unsetEnt
  extract_lets +onlyGivenNames t0
  clear_value t0
  extract_lets +onlyGivenNames t1
  clear_value t1
  extract_lets +onlyGivenNames t2
  have h3 : Keeps z t2 := by
    unfold t2
    exact keeps_mk h
  clear_value t2
  extract_lets +onlyGivenNames t4
  have h5 : Keeps z t4 := by
    unfold t4
    exact State.setReg_keeps (State.setEnt_keeps h3)
  clear_value t4
  refine State.settleResets_keeps ?_
  refine keeps_foldl ?_ (fun s6 a7 h8 => ?_)
  · exact h5
  · exact State.finishCmd_keeps h8

theorem State.entDown_keeps {z : State} {s : State} {a1 : ℕ} (h : Keeps z s) :
    Keeps z (State.entDown s a1) := by
  unfold State.entDown
  refine keeps_ite ?_ ?_
  · exact State.unsetEnt_keeps (State.opsFail_keeps h)
  · exact State.opsFail_keeps (State.updEnt_keeps (State.fallEnt_keeps h))

theorem State.losePkt_keeps {z : State} {s : State} {a1 : ℕ} {a2 : ℕ} (h : Keeps z s) :
    Keeps z (State.losePkt s a1 a2) := by
  unfold State.losePkt
  split
  · exact h
  · refine keeps_ite ?_ ?_
    · exact State.entDown_keeps h
    · extract_lets +onlyGivenNames t0
      clear_value t0
      exact State.reroll_keeps (State.updEnt_keeps h)

theorem State.loseNote_keeps {z : State} {s : State} {a1 : ℕ} {a2 : ℕ} (h : Keeps z s) :
    Keeps z (State.loseNote s a1 a2) := by
  unfold State.loseNote
  split
  · exact h
  · refine keeps_ite ?_ ?_
    · exact State.entDown_keeps h
    · extract_lets +onlyGivenNames t0
      clear_value t0
      exact State.reroll_keeps (State.updEnt_keeps h)

theorem State.countRetx_keeps {z : State} {s : State} {a1 : ℕ} (h : Keeps z s) :
    Keeps z (State.countRetx s a1) := by
  unfold State.countRetx
  refine keeps_ite ?_ ?_
  · exact h
  · exact State.updReg_keeps h

theorem State.sendNote_keeps {z : State} {s : State} {a1 : ℕ} {a2 : ℕ} {a3 : ℕ} {a4 : Note} (h : Keeps z s) :
    Keeps z (State.sendNote s a1 a2 a3 a4) := by
  unfold State.sendNote
  extract_lets +onlyGivenNames t0
  clear_value t0
  extract_lets +onlyGivenNames t1
  clear_value t1
  extract_lets +onlyGivenNames t2
  clear_value t2
  extract_lets +onlyGivenNames t3
  have h4 : Keeps z t3 := by
    unfold t3
    exact State.sendPkt_keeps h
  clear_value t3
  exact State.countRetx_keeps (State.updEnt_keeps h4)

theorem State.sendData_keeps {z : State} {s : State} {a1 : ℕ} {a2 : ℕ} {a3 : ℕ} {a4 : TxPkt} (h : Keeps z s) :
    Keeps z (State.sendData s a1 a2 a3 a4) := by
  unfold State.sendData
  extract_lets +onlyGivenNames t0
  clear_value t0
  extract_lets +onlyGivenNames t1
  clear_value t1
  extract_lets +onlyGivenNames t2
  clear_value t2
  extract_lets +onlyGivenNames t3
  clear_value t3
  extract_lets +onlyGivenNames t4
  have h5 : Keeps z t4 := by
    unfold t4
    exact State.updEnt_keeps (State.sendPkt_keeps h)
  clear_value t4
  exact State.countRetx_keeps h5

theorem execPacketTransmit_keeps {z : State} {a0 : Fin 16392} {s : State} (h : Keeps z s) :
    KeepsO z (execPacketTransmit a0 s) := by
  unfold execPacketTransmit
  extract_lets +onlyGivenNames t0
  clear_value t0
  extract_lets +onlyGivenNames t1
  clear_value t1
  extract_lets +onlyGivenNames t2
  clear_value t2
  refine keepsO_ite ?_ ?_
  · exact keepsO_next h
  · split
    · split
      · exact keepsO_next h
      · exact keepsO_next (State.sendNote_keeps h)
    · split
      · exact keepsO_next h
      · extract_lets +onlyGivenNames t3
        clear_value t3
        refine keepsO_ite ?_ ?_
        · exact keepsO_next h
        · exact keepsO_next (State.sendData_keeps h)

theorem execRetransmissionTimer_keeps {z : State} {a0 : Fin 16392} {a1 : ℕ} {s : State} (h : Keeps z s) :
    KeepsO z (execRetransmissionTimer a0 a1 s) := by
  unfold execRetransmissionTimer
  extract_lets +onlyGivenNames t0
  clear_value t0
  refine keepsO_ite ?_ ?_
  · split
    · exact keepsO_next h
    · refine keepsO_ite ?_ ?_
      · exact keepsO_next (State.loseNote_keeps h)
      · exact keepsO_next h
  · split
    · exact keepsO_next h
    · split
      · exact keepsO_next h
      · refine keepsO_ite ?_ ?_
        · exact keepsO_next (State.losePkt_keeps h)
        · exact keepsO_next h

theorem State.pathSample_keeps {z : State} {s : State} {a1 : ℕ} {a2 : ℕ} {a3 : ℕ} (h : Keeps z s) :
    Keeps z (State.pathSample s a1 a2 a3) := by
  unfold State.pathSample
  extract_lets +onlyGivenNames t0
  clear_value t0
  extract_lets +onlyGivenNames t1
  have h2 : Keeps z t1 := by
    unfold t1
    exact State.updEnt_keeps h
  clear_value t1
  extract_lets +onlyGivenNames t3
  clear_value t3
  extract_lets +onlyGivenNames t4
  clear_value t4
  extract_lets +onlyGivenNames t5
  have h6 : Keeps z t5 := by
    unfold t5
    exact State.updEnt_keeps h2
  clear_value t5
  split
  · refine keeps_ite ?_ ?_
    · exact State.reroll_keeps h6
    · exact h6
  · exact h6

theorem State.entStats_keeps {z : State} {s : State} {a1 : ℕ} {a2 : ℕ} (h : Keeps z s) :
    Keeps z (State.entStats s a1 a2) := by
  unfold State.entStats
  exact State.setFld_keeps (State.setFld_keeps h)

theorem State.ackOps_keeps {z : State} {s : State} {a1 : ℕ} {a2 : AckInfo} {a3 : List TxPkt} (h : Keeps z s) :
    Keeps z (State.ackOps s a1 a2 a3) := by
  unfold State.ackOps
  extract_lets +onlyGivenNames t0
  have h1 : Keeps z t0 := by
    unfold t0
    split
    · refine keeps_ite ?_ ?_
      · exact h
      · exact State.opDone_keeps h
    · assumption
  clear_value t0
  refine keeps_foldl ?_ (fun s2 a3 h4 => ?_)
  · exact h1
  · refine keeps_ite ?_ ?_
    · exact h4
    · exact State.opDone_keeps h4

theorem State.ackLosses_keeps {z : State} {s : State} {a1 : ℕ} (h : Keeps z s) :
    Keeps z (State.ackLosses s a1) := by
  unfold State.ackLosses
  extract_lets +onlyGivenNames t0
  clear_value t0
  extract_lets +onlyGivenNames t1
  clear_value t1
  refine keeps_foldl ?_ (fun s2 a3 h4 => ?_)
  · refine keeps_foldl ?_ (fun s5 a6 h7 => ?_)
    · exact h
    · exact State.losePkt_keeps h7
  · exact State.loseNote_keeps h4

theorem State.ackRound_keeps {z : State} {s : State} {a1 : ℕ} (h : Keeps z s) :
    Keeps z (State.ackRound s a1) := by
  unfold State.ackRound
  extract_lets +onlyGivenNames t0
  clear_value t0
  extract_lets +onlyGivenNames t1
  clear_value t1
  refine keeps_ite ?_ ?_
  · exact State.updEnt_keeps (State.entStats_keeps h)
  · exact State.entStats_keeps h

theorem State.ackClear_keeps {z : State} {s : State} {a1 : ℕ} (h : Keeps z s) :
    Keeps z (State.ackClear s a1) := by
  unfold State.ackClear
  refine keeps_ite ?_ ?_
  · exact State.unsetEnt_keeps (State.opsFail_keeps h)
  · exact h

theorem execAck_keeps {z : State} {a0 : Fin 16392} {s : State} (h : Keeps z s) :
    KeepsO z (execAck a0 s) := by
  unfold execAck
  split
  · exact keepsO_next h
  · extract_lets +onlyGivenNames t0
    clear_value t0
    extract_lets +onlyGivenNames t1
    clear_value t1
    extract_lets +onlyGivenNames t2
    have h3 : Keeps z t2 := by
      unfold t2
      exact State.updEnt_keeps h
    clear_value t2
    extract_lets +onlyGivenNames t4
    have h5 : Keeps z t4 := by
      unfold t4
      exact State.pathSample_keeps h3
    clear_value t4
    exact keepsO_next (State.ackClear_keeps (State.ackRound_keeps (State.ackLosses_keeps (State.ackOps_keeps h5))))

theorem execAckTimer_keeps {z : State} {a0 : Fin 16392} {s : State} (h : Keeps z s) :
    KeepsO z (execAckTimer a0 s) := by
  unfold execAckTimer
  refine keepsO_ite ?_ ?_
  · exact keepsO_next (State.sendAck_keeps h)
  · exact keepsO_next h

theorem execNotice_keeps {z : State} {a0 : Fin 16392} {s : State} (h : Keeps z s) :
    KeepsO z (execNotice a0 s) := by
  unfold execNotice
  split
  · exact keepsO_next h
  · split
    · exact keepsO_next h
    · extract_lets +onlyGivenNames t0
      have h1 : Keeps z t0 := by
        unfold t0
        exact State.updEnt_keeps h
      clear_value t0
      extract_lets +onlyGivenNames t2
      clear_value t2
      refine keepsO_ite ?_ ?_
      · exact keepsO_next h1
      · extract_lets +onlyGivenNames t3
        clear_value t3
        extract_lets +onlyGivenNames t4
        clear_value t4
        extract_lets +onlyGivenNames t5
        have h6 : Keeps z t5 := by
          unfold t5
          exact State.updEnt_keeps h1
        clear_value t5
        exact keepsO_next (State.sendAck_keeps h6)

theorem execProbe_keeps {z : State} {a0 : Fin 16392} {s : State} (h : Keeps z s) :
    KeepsO z (execProbe a0 s) := by
  unfold execProbe
  split
  · exact keepsO_next h
  · split
    · exact keepsO_next h
    · exact keepsO_next (State.sendAck_keeps (State.updEnt_keeps h))

theorem execPeerClearTimeout_keeps {z : State} {a0 : Fin 16392} {s : State} (h : Keeps z s) :
    KeepsO z (execPeerClearTimeout a0 s) := by
  unfold execPeerClearTimeout
  refine keepsO_ite ?_ ?_
  · exact keepsO_next (State.unsetEnt_keeps (State.opsFail_keeps h))
  · exact keepsO_next h

/-! ### Deliver -/

theorem State.putAt_keeps {z : State} {s : State} {a1 : List ℕ} {a2 : List Byte} {a3 : Bool} (h : Keeps z s) :
    Keeps z (State.putAt s a1 a2 a3) := by
  unfold State.putAt
  exact State.wrAll_keeps h

theorem State.refusePkt_keeps {z : State} {s : State} {a1 : ℕ} {a2 : Pkt} {a3 : ℕ} (h : Keeps z s) :
    Keeps z (State.refusePkt s a1 a2 a3) := by
  unfold State.refusePkt
  exact State.updEnt_keeps h

theorem State.freezeEnt_keeps {z : State} {s : State} {a1 : ℕ} {a2 : ℕ} (h : Keeps z s) :
    Keeps z (State.freezeEnt s a1 a2) := by
  unfold State.freezeEnt
  extract_lets +onlyGivenNames t0
  have h1 : Keeps z t0 := by
    unfold t0
    exact State.frozenEvent_keeps (State.iceEnt_keeps h)
  clear_value t0
  refine keeps_ite ?_ ?_
  · exact State.opsFail_keeps h1
  · exact h1

theorem State.violate_keeps {z : State} {s : State} {a1 : ℕ} {a2 : Pkt} {a3 : ℕ} (h : Keeps z s) :
    Keeps z (State.violate s a1 a2 a3) := by
  unfold State.violate
  refine keeps_ite ?_ ?_
  · exact State.refusePkt_keeps h
  · exact State.refusePkt_keeps (State.freezeEnt_keeps h)

theorem State.takeRx_keeps {z : State} {s : State} {a1 : ℕ} {a2 : Pkt} (h : Keeps z s) :
    Keeps z (State.takeRx s a1 a2) := by
  unfold State.takeRx
  exact State.updEnt_keeps (keeps_mk h)

theorem State.noteOp_keeps {z : State} {s : State} {a1 : ℕ} {a2 : Pkt} {a3 : Bool} (h : Keeps z s) :
    Keeps z (State.noteOp s a1 a2 a3) := by
  unfold State.noteOp
  refine keeps_ite ?_ ?_
  · exact h
  · extract_lets +onlyGivenNames t0
    clear_value t0
    extract_lets +onlyGivenNames t1
    clear_value t1
    exact State.updEnt_keeps h

theorem State.deliverOne_keeps {z s : State} {i : Nat} {mine : Pkt → Bool} {act : State → Pkt → State}
    (h : Keeps z s) (hf : ∀ t p, Keeps z t → Keeps z (act t p)) : Keeps z (s.deliverOne i mine act) := by
  unfold State.deliverOne
  split
  · exact h
  · refine keeps_ite ?_ ?_
    · exact h
    · refine keeps_ite ?_ ?_
      · exact h
      · extract_lets +onlyGivenNames t0
        clear_value t0
        extract_lets +onlyGivenNames t1
        have h2 : Keeps z t1 := by
          unfold t1
          exact State.takeRx_keeps h
        clear_value t1
        refine keeps_ite ?_ ?_
        · exact State.refusePkt_keeps (State.updEnt_keeps (State.noteOp_keeps h2))
        · refine keeps_ite ?_ ?_
          · exact State.refusePkt_keeps (State.noteOp_keeps h2)
          · refine keeps_ite ?_ ?_
            · exact State.refusePkt_keeps (State.noteOp_keeps h2)
            · refine hf _ _ ?_
              exact State.noteOp_keeps h2

theorem deliver_keeps {z s : State} {i : Nat} {mine : Pkt → Bool} {act : State → Pkt → State}
    (h : Keeps z s) (hf : ∀ t p, Keeps z t → Keeps z (act t p)) : KeepsO z (deliver i mine act s) := by
  unfold deliver
  refine keepsO_next ?_
  refine State.deliverOne_keeps ?_ ?_
  · exact h
  · intro x0 x1 h2
    refine hf _ _ ?_
    exact h2

theorem State.dlvWrite_keeps {z : State} {s : State} {a1 : ℕ} {a2 : Pkt} (h : Keeps z s) :
    Keeps z (State.dlvWrite s a1 a2) := by
  unfold State.dlvWrite
  split
  · exact State.violate_keeps h
  · exact State.putAt_keeps h

theorem execWrite_keeps {z : State} {a0 : Fin 16392} {s : State} (h : Keeps z s) :
    KeepsO z (execWrite a0 s) := by
  unfold execWrite
  refine deliver_keeps ?_ ?_
  · exact h
  · intro x0 x1 h2
    exact State.dlvWrite_keeps h2

theorem execReadResp_keeps {z : State} {a0 : Fin 16392} {s : State} (h : Keeps z s) :
    KeepsO z (execReadResp a0 s) := by
  unfold execReadResp
  refine deliver_keeps ?_ ?_
  · exact h
  · intro x0 x1 h2
    exact State.dlvWrite_keeps h2

theorem State.postFree_keeps {z : State} {s : State} {a1 : ℕ} {a2 : ℕ} {a3 : List Pkt} (h : Keeps z s) :
    Keeps z (State.postFree s a1 a2 a3) := by
  unfold State.postFree
  exact State.post_keeps h

theorem State.dlvRead_keeps {z : State} {s : State} {a1 : ℕ} {a2 : Pkt} (h : Keeps z s) :
    Keeps z (State.dlvRead s a1 a2) := by
  unfold State.dlvRead
  extract_lets +onlyGivenNames t0
  clear_value t0
  extract_lets +onlyGivenNames t1
  clear_value t1
  split
  · exact State.violate_keeps h
  · extract_lets +onlyGivenNames t2
    clear_value t2
    extract_lets +onlyGivenNames t3
    clear_value t3
    extract_lets +onlyGivenNames t4
    have h5 : Keeps z t4 := by
      unfold t4
      exact keeps_free h
    clear_value t4
    extract_lets +onlyGivenNames t6
    clear_value t6
    exact State.postFree_keeps h5

theorem execRead_keeps {z : State} {a0 : Fin 16392} {s : State} (h : Keeps z s) :
    KeepsO z (execRead a0 s) := by
  unfold execRead
  refine deliver_keeps ?_ ?_
  · exact h
  · intro x0 x1 h2
    exact State.dlvRead_keeps h2

theorem State.cqSync_keeps {z : State} {s : State} {a1 : ℕ} (h : Keeps z s) :
    Keeps z (State.cqSync s a1) := by
  unfold State.cqSync
  exact State.setFld_keeps h

theorem State.doorbell_keeps {z : State} {s : State} {a1 : ℕ} {a2 : ℕ} (h : Keeps z s) :
    Keeps z (State.doorbell s a1 a2) := by
  unfold State.doorbell
  extract_lets +onlyGivenNames t0
  clear_value t0
  extract_lets +onlyGivenNames t1
  clear_value t1
  refine keeps_ite ?_ ?_
  · exact State.event_keeps h
  · refine keeps_ite ?_ ?_
    · refine keeps_ite ?_ ?_
      · exact State.event_keeps h
      · exact State.updPart_keeps h
    · refine keeps_ite ?_ ?_
      · extract_lets +onlyGivenNames t2
        have h3 : Keeps z t2 := by
          unfold t2
          refine keeps_ite ?_ ?_
          · exact State.setFld_keeps h
          · exact h
        clear_value t2
        exact State.cqSync_keeps (State.updQueue_keeps (State.setFld_keeps h3))
      · exact State.event_keeps h

theorem execDoorbell_keeps {z : State} {a0 : Fin 16392} {s : State} (h : Keeps z s) :
    KeepsO z (execDoorbell a0 s) := by
  unfold execDoorbell
  refine deliver_keeps ?_ ?_
  · exact h
  · intro x0 x1 h2
    refine keeps_ite ?_ ?_
    · exact State.refusePkt_keeps h2
    · refine keeps_ite ?_ ?_
      · exact State.violate_keeps h2
      · exact State.doorbell_keeps h2

theorem State.dlvGate_keeps {z : State} {s : State} {a1 : ℕ} {a2 : Pkt} (h : Keeps z s) :
    Keeps z (State.dlvGate s a1 a2) := by
  unfold State.dlvGate
  extract_lets +onlyGivenNames t0
  clear_value t0
  extract_lets +onlyGivenNames t1
  clear_value t1
  extract_lets +onlyGivenNames t2
  clear_value t2
  refine keeps_ite ?_ ?_
  · exact State.violate_keeps h
  · refine keeps_ite ?_ ?_
    · exact h
    · refine keeps_ite ?_ ?_
      · exact State.sendSig_keeps h
      · exact State.violate_keeps h

theorem execGateSignalMessage_keeps {z : State} {a0 : Fin 16392} {s : State} (h : Keeps z s) :
    KeepsO z (execGateSignalMessage a0 s) := by
  unfold execGateSignalMessage
  refine deliver_keeps ?_ ?_
  · exact h
  · intro x0 x1 h2
    exact State.dlvGate_keeps h2

theorem State.stotSig_keeps {z : State} {s : State} {a1 : ℕ} {a2 : StotHdr} {a3 : Pkt} (h : Keeps z s) :
    Keeps z (State.stotSig s a1 a2 a3) := by
  unfold State.stotSig
  refine keeps_ite ?_ ?_
  · exact State.sendSig_keeps h
  · exact h

theorem State.reduce_keeps {z : State} {s : State} {a1 : ℕ} {a2 : StotHdr} {a3 : Pkt} {a4 : Reduction} (h : Keeps z
    s) :
    Keeps z (State.reduce s a1 a2 a3 a4) := by
  unfold State.reduce
  split
  · extract_lets +onlyGivenNames t0
    clear_value t0
    extract_lets +onlyGivenNames t1
    clear_value t1
    extract_lets +onlyGivenNames t2
    have h3 : Keeps z t2 := by
      unfold t2
      refine keeps_ite ?_ ?_
      · exact keeps_free h
      · exact h
    clear_value t2
    extract_lets +onlyGivenNames t4
    have h5 : Keeps z t4 := by
      unfold t4
      exact State.putAt_keeps h3
    clear_value t4
    exact State.stotSig_keeps (keeps_mk h5)
  · exact h

theorem State.contribute_keeps {z : State} {s : State} {a1 : ℕ} {a2 : StotHdr} {a3 : Pkt} {a4 : ℕ} {a5 : List Byte}
    {a6 : List ℕ} (h : Keeps z s) :
    Keeps z (State.contribute s a1 a2 a3 a4 a5 a6) := by
  unfold State.contribute
  split
  · exact h
  · exact State.freezeCtx_keeps h
  · refine keeps_ite ?_ ?_
    · exact State.event_keeps h
    · exact h
  · extract_lets +onlyGivenNames t0
    have h1 : Keeps z t0 := by
      unfold t0
      exact State.putAt_keeps h
    clear_value t0
    extract_lets +onlyGivenNames t2
    have h3 : Keeps z t2 := by
      unfold t2
      exact keeps_mk h1
    clear_value t2
    refine keeps_ite ?_ ?_
    · exact State.reduce_keeps h3
    · exact h3

theorem State.takeStot_keeps {z : State} {s : State} {a1 : ℕ} {a2 : Pkt} {a3 : ℕ} (h : Keeps z s) :
    Keeps z (State.takeStot s a1 a2 a3) := by
  unfold State.takeStot
  extract_lets +onlyGivenNames t0
  clear_value t0
  extract_lets +onlyGivenNames t1
  clear_value t1
  split
  · exact h
  · refine keeps_ite ?_ ?_
    · exact State.contribute_keeps h
    · extract_lets +onlyGivenNames t2
      have h3 : Keeps z t2 := by
        unfold t2
        exact State.putAt_keeps h
      clear_value t2
      refine keeps_ite ?_ ?_
      · exact State.stotSig_keeps h3
      · exact h3

theorem State.dlvStot_keeps {z : State} {s : State} {a1 : ℕ} {a2 : Pkt} (h : Keeps z s) :
    Keeps z (State.dlvStot s a1 a2) := by
  unfold State.dlvStot
  refine keeps_ite ?_ ?_
  · exact h
  · split
    · exact State.violate_keeps h
    · exact State.takeStot_keeps h

theorem execStot_keeps {z : State} {a0 : Fin 16392} {s : State} (h : Keeps z s) :
    KeepsO z (execStot a0 s) := by
  unfold execStot
  refine keepsO_ite ?_ ?_
  · exact keepsO_next h
  · refine deliver_keeps ?_ ?_
    · exact h
    · intro x0 x1 h2
      exact State.dlvStot_keeps h2

theorem State.selfStot_keeps {z : State} {s : State} {a1 : ℕ} {a2 : ℕ} {a3 : List Pkt} (h : Keeps z s) :
    Keeps z (State.selfStot s a1 a2 a3).1 := by
  induction a3 generalizing s with
  | nil => exact h
  | cons p ps ih =>
    unfold State.selfStot
    refine keeps_ite_fst h ?_
    split
    · exact State.freezeEnt_keeps h
    · exact ih (State.takeStot_keeps h)

theorem State.sendStot_keeps {z : State} {s : State} {a1 : ℕ} {a2 : ℕ} {a3 : ℕ} {a4 : ℕ} {a5 : ℕ} {a6 : Bool} {a7 :
    StotHdr} {a8 : List ℤ} {a9 : List Byte} (h : Keeps z s) :
    Keeps z (State.sendStot s a1 a2 a3 a4 a5 a6 a7 a8 a9) := by
  unfold State.sendStot
  split
  · exact State.updCmd_keeps h
  · extract_lets +onlyGivenNames t0
    clear_value t0
    refine keeps_ite ?_ ?_
    · extract_lets +onlyGivenNames t1
      have h2 : Keeps z t1.1 := by
        unfold t1
        exact State.selfStot_keeps h
      clear_value t1
      refine keeps_ite ?_ ?_
      · exact h2
      · exact State.updCmd_keeps h2
    · exact State.post_keeps h

theorem State.netTeardown_keeps {z : State} {s : State} {a1 : ℕ} {a2 : ℕ} {a3 : ℕ} (h : Keeps z s) :
    Keeps z (State.netTeardown s a1 a2 a3) := by
  unfold State.netTeardown
  extract_lets +onlyGivenNames t0
  clear_value t0
  refine keeps_foldl ?_ (fun s1 a2 h3 => ?_)
  · exact h
  · exact State.updEnt_keeps h3

end Sys2Proof.Machine
end

