-- ==== Sys2Proof/Laws/Keeps3.lean ====
section
/-! SUPPORT. Every operation and meaning of the files PassDesc, Health, Pass, CmdCore, StreamRun, CmdAdmin, Noc of
Machine keeps the queue, the count of free values and the canonical form of memory (Keeps). -/

namespace Sys2Proof.Machine

/-! ### PassDesc -/

theorem State.enqueuePass_keeps {z : State} {s : State} {a1 : ℕ} {a2 : ℕ} {a3 : MDesc} {a4 : ℕ} {a5 : ℕ} (h : Keeps
    z s) :
    Keeps z (State.enqueuePass s a1 a2 a3 a4 a5) := by
  unfold State.enqueuePass
  extract_lets +onlyGivenNames t0
  clear_value t0
  exact State.updEng_keeps h

theorem execMpass_keeps {z : State} {a0 : Fin 64} {a1 : Fin 8} {s : State} (h : Keeps z s) :
    KeepsO z (execMpass a0 a1 s) := by
  unfold execMpass
  refine esRun_keeps ?_ ?_
  · exact h
  · intro x0
    split
    · refine keepsF_some (fun s1 h2 => ?_)
      extract_lets +onlyGivenNames t3
      clear_value t3
      extract_lets +onlyGivenNames t4
      clear_value t4
      refine keeps_ite ?_ ?_
      · exact State.blockRetry_keeps h2
      · refine keeps_ite ?_ ?_
        · exact h2
        · split
          · refine keeps_ite ?_ ?_
            · exact State.faultCtx_keeps h2
            · exact State.esFault_keeps h2
          · exact State.retire_keeps (State.enqueuePass_keeps h2)
    · exact keepsF_none

/-! ### Health -/

theorem State.healthChange_keeps {z : State} {s : State} {a1 : List HRec → List HRec} (h : Keeps z s) :
    Keeps z (State.healthChange s a1) := by
  unfold State.healthChange
  extract_lets +onlyGivenNames t0
  clear_value t0
  exact State.setFld_keeps (keeps_mk h)

theorem State.healthRemap_keeps {z : State} {s : State} {a1 : ℕ} {a2 : W64} (h : Keeps z s) :
    Keeps z (State.healthRemap s a1 a2) := by
  unfold State.healthRemap
  extract_lets +onlyGivenNames t0
  clear_value t0
  exact State.healthChange_keeps h

theorem execHealthRecordWrite_keeps {z : State} {s : State} (h : Keeps z s) :
    KeepsO z (execHealthRecordWrite s) := by
  unfold execHealthRecordWrite
  split
  · exact keepsO_next h
  · extract_lets +onlyGivenNames t0
    clear_value t0
    extract_lets +onlyGivenNames t1
    clear_value t1
    extract_lets +onlyGivenNames t2
    clear_value t2
    extract_lets +onlyGivenNames t3
    clear_value t3
    extract_lets +onlyGivenNames t4
    clear_value t4
    extract_lets +onlyGivenNames t5
    clear_value t5
    exact keepsO_next (State.setReg_keeps (keeps_mk h))

/-! ### Pass -/

theorem State.updPass_keeps {z : State} {s : State} {a1 : ℕ} {a2 : ℕ} {a3 : Pass → Pass} (h : Keeps z s) :
    Keeps z (State.updPass s a1 a2 a3) := by
  unfold State.updPass
  exact State.updEng_keeps h

theorem State.dropPass_keeps {z : State} {s : State} {a1 : ℕ} {a2 : ℕ} (h : Keeps z s) :
    Keeps z (State.dropPass s a1 a2) := by
  unfold State.dropPass
  exact State.updEng_keeps h

theorem State.endIssue_keeps {z : State} {s : State} {a1 : ℕ} (h : Keeps z s) :
    Keeps z (State.endIssue s a1) := by
  unfold State.endIssue
  exact State.updEng_keeps h

theorem execPassIssue_keeps {z : State} {a0 : Fin 64} {s : State} (h : Keeps z s) :
    KeepsO z (execPassIssue a0 s) := by
  unfold execPassIssue
  extract_lets +onlyGivenNames t0
  clear_value t0
  split
  · exact keepsO_next h
  · refine keepsO_ite ?_ ?_
    · exact keepsO_next h
    · extract_lets +onlyGivenNames t1
      have h2 : Keeps z t1 := by
        unfold t1
        exact State.endIssue_keeps h
      clear_value t1
      split
      · exact keepsO_next (State.streamFault_keeps (State.dropPass_keeps h2))
      · extract_lets +onlyGivenNames t3
        clear_value t3
        extract_lets +onlyGivenNames t4
        have h5 : Keeps z t4 := by
          unfold t4
          exact State.updEng_keeps h2
        clear_value t4
        extract_lets +onlyGivenNames t6
        have h7 : Keeps z t6 := by
          unfold t6
          exact State.updPass_keeps h5
        clear_value t6
        extract_lets +onlyGivenNames t8
        have h9 : Keeps z t8 := by
          unfold t8
          exact State.beginCmd_keeps (State.setReg_keeps h7)
        clear_value t8
        exact keepsO_next (State.wake_keeps (State.touchVas_keeps (keeps_free h9)))

theorem execPassPreempt_keeps {z : State} {a0 : Fin 64} {a1 : ℕ} {s : State} (h : Keeps z s) :
    KeepsO z (execPassPreempt a0 a1 s) := by
  unfold execPassPreempt
  extract_lets +onlyGivenNames t0
  clear_value t0
  split
  · exact keepsO_next h
  · split
    · exact keepsO_next h
    · refine keepsO_ite ?_ ?_
      · extract_lets +onlyGivenNames t1
        clear_value t1
        extract_lets +onlyGivenNames t2
        clear_value t2
        exact keepsO_next (State.setReg_keeps (State.updPass_keeps h))
      · exact keepsO_next h

theorem execPassResume_keeps {z : State} {a0 : Fin 64} {a1 : Fin 2} {s : State} (h : Keeps z s) :
    KeepsO z (execPassResume a0 a1 s) := by
  unfold execPassResume
  extract_lets +onlyGivenNames t0
  clear_value t0
  split
  · exact keepsO_next h
  · refine keepsO_ite ?_ ?_
    · exact keepsO_next h
    · extract_lets +onlyGivenNames t1
      have h2 : Keeps z t1 := by
        unfold t1
        exact State.endIssue_keeps h
      clear_value t1
      extract_lets +onlyGivenNames t3
      clear_value t3
      extract_lets +onlyGivenNames t4
      have h5 : Keeps z t4 := by
        unfold t4
        exact State.updEng_keeps h2
      clear_value t4
      extract_lets +onlyGivenNames t6
      have h7 : Keeps z t6 := by
        unfold t6
        exact State.updPass_keeps h5
      clear_value t6
      exact keepsO_next (State.setReg_keeps h7)

theorem execDrainStart_keeps {z : State} {a0 : Fin 64} {a1 : List (Fin 129 × Fin 65 × W32)} {s : State} (h : Keeps
    z s) :
    KeepsO z (execDrainStart a0 a1 s) := by
  unfold execDrainStart
  extract_lets +onlyGivenNames t0
  clear_value t0
  split
  · exact keepsO_next h
  · refine keepsO_ite ?_ ?_
    · exact keepsO_next h
    · extract_lets +onlyGivenNames t1
      clear_value t1
      extract_lets +onlyGivenNames t2
      clear_value t2
      split
      · exact keepsO_next (State.streamFault_keeps (State.dropPass_keeps h))
      · extract_lets +onlyGivenNames t3
        have h4 : Keeps z t3 := by
          unfold t3
          exact State.updPass_keeps h
        clear_value t3
        extract_lets +onlyGivenNames t5
        have h6 : Keeps z t5 := by
          unfold t5
          exact State.setReg_keeps h4
        clear_value t5
        refine keepsO_next ?_
        refine keeps_ite ?_ ?_
        · exact h6
        · exact State.setReg_keeps h6

theorem State.ckCount_keeps {z : State} {s : State} {a1 : ℕ} {a2 : ℕ} (h : Keeps z s) :
    Keeps z (State.ckCount s a1 a2) := by
  unfold State.ckCount
  exact State.updReg_keeps h

theorem State.ckLog_keeps {z : State} {s : State} {a1 : ℕ} {a2 : Loc × ℕ × ℕ} {a3 : ℕ} {a4 : Bool} {a5 : W64} (h :
    Keeps z s) :
    Keeps z (State.ckLog s a1 a2 a3 a4 a5) := by
  unfold State.ckLog
  exact State.setReg_keeps (State.setReg_keeps h)

theorem State.passLog_keeps {z : State} {s : State} {a1 : ℕ} {a2 : Pass} {a3 : ℕ} (h : Keeps z s) :
    Keeps z (State.passLog s a1 a2 a3) := by
  unfold State.passLog
  extract_lets +onlyGivenNames t0
  clear_value t0
  extract_lets +onlyGivenNames t1
  clear_value t1
  exact State.updSlot_keeps h

theorem State.judge_keeps {z : State} {s : State} {a1 : ℕ} {a2 : Pass} {a3 : ℕ} (h : Keeps z s) :
    Keeps z (State.judge s a1 a2 a3) := by
  unfold State.judge
  split
  · exact State.streamFault_keeps (State.dropPass_keeps h)
  · exact State.passLog_keeps (State.updPass_keeps h)

theorem State.unresolved_keeps {z : State} {s : State} {a1 : ℕ} {a2 : Pass} {a3 : Loc × ℕ × ℕ} {a4 : Bool} (h :
    Keeps z s) :
    Keeps z (State.unresolved s a1 a2 a3 a4) := by
  unfold State.unresolved
  extract_lets +onlyGivenNames t0
  have h1 : Keeps z t0 := by
    unfold t0
    exact State.ckLog_keeps (State.ckCount_keeps h)
  clear_value t0
  extract_lets +onlyGivenNames t2
  have h3 : Keeps z t2 := by
    unfold t2
    exact State.updCmd_keeps h1
  clear_value t2
  exact State.passLog_keeps (State.updPass_keeps h3)

theorem execVerdict_keeps {z : State} {a0 : Fin 64} {s : State} (h : Keeps z s) :
    KeepsO z (execVerdict a0 s) := by
  unfold execVerdict
  extract_lets +onlyGivenNames t0
  clear_value t0
  split
  · exact keepsO_next h
  · split
    · exact keepsO_next h
    · extract_lets +onlyGivenNames t1
      clear_value t1
      split
      · exact keepsO_next (State.judge_keeps h)
      · exact keepsO_next (State.judge_keeps h)
      · exact keepsO_next (State.judge_keeps (State.ckLog_keeps (State.ckCount_keeps h)))
      · exact keepsO_next (State.updPass_keeps h)
      · extract_lets +onlyGivenNames t2
        clear_value t2
        exact keepsO_next (State.updPass_keeps h)

theorem execReplay_keeps {z : State} {a0 : Fin 64} {s : State} (h : Keeps z s) :
    KeepsO z (execReplay a0 s) := by
  unfold execReplay
  extract_lets +onlyGivenNames t0
  clear_value t0
  split
  · exact keepsO_next h
  · split
    · exact keepsO_next h
    · refine keepsO_ite ?_ ?_
      · exact keepsO_next h
      · extract_lets +onlyGivenNames t1
        have h2 : Keeps z t1 := by
          unfold t1
          exact State.endIssue_keeps h
        clear_value t1
        extract_lets +onlyGivenNames t3
        clear_value t3
        extract_lets +onlyGivenNames t4
        have h5 : Keeps z t4 := by
          unfold t4
          exact State.updEng_keeps h2
        clear_value t4
        extract_lets +onlyGivenNames t6
        have h7 : Keeps z t6 := by
          unfold t6
          exact State.updPass_keeps h5
        clear_value t6
        exact keepsO_next (State.setReg_keeps h7)

theorem State.yieldTile_keeps {z : State} {s : State} {a1 : ℕ} (h : Keeps z s) :
    Keeps z (State.yieldTile s a1) := by
  unfold State.yieldTile
  exact State.updEng_keeps h

theorem State.startRepair_keeps {z : State} {s : State} {a1 : ℕ} {a2 : Loc} (h : Keeps z s) :
    Keeps z (State.startRepair s a1 a2) := by
  unfold State.startRepair
  exact State.updEng_keeps h

theorem State.partnerOutcome_keeps {z : State} {s : State} {a1 : ℕ} {a2 : ℕ} {a3 : PassOp} {a4 : Pass} {a5 : Pass}
    {a6 : Verdict} {a7 : Loc × ℕ × ℕ} (h : Keeps z s) :
    Keeps z (State.partnerOutcome s a1 a2 a3 a4 a5 a6 a7) := by
  unfold State.partnerOutcome
  split
  · exact State.judge_keeps (State.startRepair_keeps (State.ckLog_keeps (State.ckCount_keeps h)))
  · exact State.judge_keeps (State.ckLog_keeps (State.ckCount_keeps h))
  · refine keeps_ite ?_ ?_
    · refine keeps_ite ?_ ?_
      · exact State.unresolved_keeps h
      · exact State.judge_keeps (State.ckLog_keeps (State.ckCount_keeps h))
    · exact State.ckLog_keeps (State.unresolved_keeps h)

theorem execPartnerRun_keeps {z : State} {a0 : Fin 64} {a1 : List (Fin 129 × Fin 65 × W32)} {s : State} (h : Keeps
    z s) :
    KeepsO z (execPartnerRun a0 a1 s) := by
  unfold execPartnerRun
  extract_lets +onlyGivenNames t0
  clear_value t0
  split
  · exact keepsO_next h
  · split
    · exact keepsO_next h
    · exact keepsO_next (State.unresolved_keeps h)
    · refine keepsO_ite ?_ ?_
      · exact keepsO_next h
      · extract_lets +onlyGivenNames t1
        have h2 : Keeps z t1 := by
          unfold t1
          exact State.yieldTile_keeps h
        clear_value t1
        extract_lets +onlyGivenNames t3
        clear_value t3
        extract_lets +onlyGivenNames t4
        have h5 : Keeps z t4 := by
          unfold t4
          exact State.setReg_keeps h2
        clear_value t4
        extract_lets +onlyGivenNames t6
        clear_value t6
        split
        · exact keepsO_next (State.streamFault_keeps (State.dropPass_keeps h5))
        · extract_lets +onlyGivenNames t7
          have h8 : Keeps z t7 := by
            unfold t7
            exact State.setReg_keeps h5
          clear_value t7
          extract_lets +onlyGivenNames t9
          clear_value t9
          exact keepsO_next (State.partnerOutcome_keeps h8)

theorem execLineRemap_keeps {z : State} {a0 : Fin 64} {a1 : List Bool} {s : State} (h : Keeps z s) :
    KeepsO z (execLineRemap a0 a1 s) := by
  unfold execLineRemap
  extract_lets +onlyGivenNames t0
  clear_value t0
  split
  · exact keepsO_next h
  · refine keepsO_ite ?_ ?_
    · exact keepsO_next h
    · extract_lets +onlyGivenNames t1
      clear_value t1
      extract_lets +onlyGivenNames t2
      clear_value t2
      extract_lets +onlyGivenNames t3
      clear_value t3
      extract_lets +onlyGivenNames t4
      have h5 : Keeps z t4 := by
        unfold t4
        exact State.updEng_keeps (State.setReg_keeps h)
      clear_value t4
      refine keepsO_next ?_
      refine keeps_ite ?_ ?_
      · exact State.event_keeps (State.healthRemap_keeps h5)
      · exact h5

/-! ### CmdCore -/

theorem State.passEntry_keeps {z : State} {s : State} {a1 : ℕ} (h : Keeps z s) :
    Keeps z (State.passEntry s a1) := by
  unfold State.passEntry
  extract_lets +onlyGivenNames t0
  clear_value t0
  extract_lets +onlyGivenNames t1
  clear_value t1
  extract_lets +onlyGivenNames t2
  have h3 : Keeps z t2 := by
    unfold t2
    refine keeps_ite ?_ ?_
    · refine keeps_foldl ?_ (fun s4 a5 h6 => ?_)
      · exact h
      · exact State.updQueue_keeps h6
    · exact h
  clear_value t2
  extract_lets +onlyGivenNames t7
  have h8 : Keeps z t7 := by
    unfold t7
    exact State.setFld_keeps h3
  clear_value t7
  exact State.updQueue_keeps (keeps_free h8)

theorem State.refuseCmd_keeps {z : State} {s : State} {a1 : Cmd} {a2 : ℕ} {a3 : Bool} (h : Keeps z s) :
    Keeps z (State.refuseCmd s a1 a2 a3) := by
  unfold State.refuseCmd
  extract_lets +onlyGivenNames t0
  clear_value t0
  exact State.updQueue_keeps (keeps_mk h)

theorem State.freezeQueue_keeps {z : State} {s : State} {a1 : ℕ} {a2 : ℕ} (h : Keeps z s) :
    Keeps z (State.freezeQueue s a1 a2) := by
  unfold State.freezeQueue
  exact State.frozenEvent_keeps (State.setFld_keeps h)

theorem State.startCmd_keeps {z s : State} {r : CmdRow} {c : Cmd} (h : Keeps z s) (hr : r.Keeps z) :
    Keeps z (s.startCmd r c) := by
  unfold State.startCmd
  extract_lets +onlyGivenNames t0
  clear_value t0
  refine hr _ _ ?_
  exact State.updCmd_keeps h

theorem State.letIn_keeps {z s : State} {r : CmdRow} {c : Cmd} (h : Keeps z s) (hr : r.Keeps z) :
    Keeps z (s.letIn r c) := by
  unfold State.letIn
  extract_lets +onlyGivenNames t0
  clear_value t0
  extract_lets +onlyGivenNames t1
  have h2 : Keeps z t1 := by
    unfold t1
    exact keeps_mk h
  clear_value t1
  refine keeps_ite ?_ ?_
  · exact h2
  · refine State.startCmd_keeps ?_ ?_
    · exact h2
    · exact hr

theorem State.acceptEntry_keeps {z s : State} {r : CmdRow} {q : Nat} {c : Cmd} {po : Bool} (h : Keeps z s)
    (hr : r.Keeps z) : Keeps z (s.acceptEntry r q c po) := by
  unfold State.acceptEntry
  extract_lets +onlyGivenNames t0
  have h1 : Keeps z t0 := by
    unfold t0
    exact State.passEntry_keeps h
  clear_value t0
  split
  · refine State.letIn_keeps ?_ ?_
    · exact h1
    · exact hr
  · exact State.refuseCmd_keeps h1
  · exact State.refuseCmd_keeps (State.freezeQueue_keeps h1)

theorem acceptCmd_keeps {z s : State} {r : CmdRow} {q : Nat} (h : Keeps z s) (hr : r.Keeps z) :
    KeepsO z (acceptCmd r q s) := by
  unfold acceptCmd
  extract_lets +onlyGivenNames t0
  clear_value t0
  refine keepsO_ite ?_ ?_
  · refine keepsO_next ?_
    refine State.acceptEntry_keeps ?_ ?_
    · exact h
    · exact hr
  · exact keepsO_next h

theorem State.lateStart_keeps {z s : State} {r : CmdRow} {c : Cmd} (h : Keeps z s) (hr : r.Keeps z) :
    Keeps z (s.lateStart r c) := by
  unfold State.lateStart
  refine keeps_ite ?_ ?_
  · exact h
  · split
    · refine State.startCmd_keeps ?_ ?_
      · exact h
      · exact hr
    · exact State.endCmd_keeps h

theorem State.hostResult_keeps {z : State} {s : State} {a1 : Cmd} {a2 : ℕ} {a3 : ℕ} (h : Keeps z s) :
    Keeps z (State.hostResult s a1 a2 a3) := by
  unfold State.hostResult
  extract_lets +onlyGivenNames t0
  have h1 : Keeps z t0.1 := by
    unfold t0
    exact State.postHost_keeps h
  clear_value t0
  split
  · exact h1
  · exact State.updCmd_keeps h1

theorem State.closeQueue_keeps {z : State} {s : State} {a1 : ℕ} (h : Keeps z s) :
    Keeps z (State.closeQueue s a1) := by
  unfold State.closeQueue
  exact State.setQueue_keeps (State.setReg_keeps (State.setReg_keeps h))

theorem State.settleQueue_keeps {z : State} {s : State} {a1 : ℕ} (h : Keeps z s) :
    Keeps z (State.settleQueue s a1) := by
  unfold State.settleQueue
  extract_lets +onlyGivenNames t0
  clear_value t0
  refine keeps_ite ?_ ?_
  · exact h
  · refine keeps_ite ?_ ?_
    · exact State.settleResets_keeps (State.closeQueue_keeps h)
    · exact h

theorem execCompletionRecordWrite_keeps {z : State} {a0 : Fin 16384} {s : State} (h : Keeps z s) :
    KeepsO z (execCompletionRecordWrite a0 s) := by
  unfold execCompletionRecordWrite
  extract_lets +onlyGivenNames t0
  have h1 : Keeps z t0 := by
    unfold t0
    exact State.settleQueue_keeps h
  clear_value t0
  split
  · exact keepsO_next h1
  · refine keepsO_ite ?_ ?_
    · exact keepsO_next (State.cqSync_keeps h1)
    · refine keepsO_ite ?_ ?_
      · exact keepsO_next h1
      · extract_lets +onlyGivenNames t2
        clear_value t2
        extract_lets +onlyGivenNames t3
        clear_value t3
        extract_lets +onlyGivenNames t4
        clear_value t4
        extract_lets +onlyGivenNames t5
        have h6 : Keeps z t5 := by
          unfold t5
          exact State.postHost_keeps h1
        clear_value t5
        extract_lets +onlyGivenNames t7
        have h8 : Keeps z t7 := by
          unfold t7
          exact State.cqSync_keeps (State.setQueue_keeps h6)
        clear_value t7
        refine keepsO_ite ?_ ?_
        · exact keepsO_next (State.closeQueue_keeps h8)
        · exact keepsO_next (State.settleQueue_keeps h8)

theorem State.writeEvent_keeps {z : State} {s : State} {a1 : ℕ} {a2 : Event} (h : Keeps z s) :
    Keeps z (State.writeEvent s a1 a2) := by
  unfold State.writeEvent
  extract_lets +onlyGivenNames t0
  clear_value t0
  extract_lets +onlyGivenNames t1
  clear_value t1
  extract_lets +onlyGivenNames t2
  have h3 : Keeps z t2 := by
    unfold t2
    exact State.postHost_keeps h
  clear_value t2
  exact State.updPart_keeps h3

theorem execEventRecord_keeps {z : State} {a0 : Fin 8} {s : State} (h : Keeps z s) :
    KeepsO z (execEventRecord a0 s) := by
  unfold execEventRecord
  extract_lets +onlyGivenNames t0
  clear_value t0
  refine keepsO_ite ?_ ?_
  · exact keepsO_next h
  · refine keepsO_ite ?_ ?_
    · extract_lets +onlyGivenNames t1
      clear_value t1
      exact keepsO_next (State.setFld_keeps (State.writeEvent_keeps h))
    · split
      · exact keepsO_next h
      · extract_lets +onlyGivenNames t2
        have h3 : Keeps z t2 := by
          unfold t2
          exact State.updPart_keeps h
        clear_value t2
        refine keepsO_ite ?_ ?_
        · exact keepsO_next (State.writeEvent_keeps h3)
        · exact keepsO_next (State.updReg_keeps h3)

/-! ### StreamRun -/

theorem State.placeSlots_keeps {z : State} {s : State} {a1 : ℕ} (h : Keeps z s) :
    Keeps z (State.placeSlots s a1) := by
  unfold State.placeSlots
  exact keeps_mk h

theorem State.finishRom_keeps {z : State} {s : State} {a1 : ℕ} (h : Keeps z s) :
    Keeps z (State.finishRom s a1) := by
  unfold State.finishRom
  split
  · exact h
  · refine keeps_ite ?_ ?_
    · exact State.finishCmd_keeps (State.placeSlots_keeps h)
    · exact h

theorem execSlotHalted_keeps {z : State} {a0 : Fin 64} {a1 : Fin 8} {s : State} (h : Keeps z s) :
    KeepsO z (execSlotHalted a0 a1 s) := by
  unfold execSlotHalted
  extract_lets +onlyGivenNames t0
  clear_value t0
  refine keepsO_ite ?_ ?_
  · split
    · exact keepsO_next (State.setSlot_keeps h)
    · extract_lets +onlyGivenNames t1
      clear_value t1
      refine keepsO_ite ?_ ?_
      · exact keepsO_next h
      · extract_lets +onlyGivenNames t2
        have h3 : Keeps z t2 := by
          unfold t2
          exact State.updCmd_keeps (State.setSlot_keeps h)
        clear_value t2
        refine keepsO_next ?_
        refine keeps_ite ?_ ?_
        · exact State.finishCmd_keeps (State.placeSlots_keeps h3)
        · exact h3
  · exact keepsO_next h

theorem State.moveBytes_keeps {z : State} {s : State} {a1 : List (Place × Place)} (h : Keeps z s) :
    Keeps z (State.moveBytes s a1).1 := by
  unfold State.moveBytes
  extract_lets +onlyGivenNames t0
  clear_value t0
  extract_lets +onlyGivenNames t1
  have h2 : Keeps z t1 := by
    unfold t1
    exact State.wrAll_keeps h
  clear_value t1
  dsimp only
  exact keeps_free h2

theorem State.updStream_keeps {z : State} {s : State} {a1 : ℕ} {a2 : ℕ} {a3 : Stream → Stream} (h : Keeps z s) :
    Keeps z (State.updStream s a1 a2 a3) := by
  unfold State.updStream
  exact State.updEng_keeps h

theorem State.postPeer_keeps {z : State} {s : State} {a1 : ℕ} {a2 : Stream} {a3 : List (Place × Place)} (h : Keeps
    z s) :
    Keeps z (State.postPeer s a1 a2 a3) := by
  unfold State.postPeer
  extract_lets +onlyGivenNames t0
  clear_value t0
  extract_lets +onlyGivenNames t1
  clear_value t1
  extract_lets +onlyGivenNames t2
  clear_value t2
  extract_lets +onlyGivenNames t3
  have h4 : Keeps z t3 := by
    unfold t3
    exact keeps_free h
  clear_value t3
  split
  · exact State.updCmd_keeps h4
  · extract_lets +onlyGivenNames t5
    have h6 : Keeps z t5.1 := by
      unfold t5
      exact State.post_keeps h4
    clear_value t5
    split
    · exact State.updStream_keeps h6
    · exact State.updCmd_keeps h6

theorem State.runStream_keeps {z : State} {s : State} {a1 : ℕ} {a2 : ℕ} {a3 : Stream} (h : Keeps z s) :
    Keeps z (State.runStream s a1 a2 a3).1 := by
  unfold State.runStream
  extract_lets +onlyGivenNames t0
  clear_value t0
  extract_lets +onlyGivenNames t1
  have h2 : Keeps z t1.1 := by
    unfold t1
    exact State.moveBytes_keeps h
  clear_value t1
  extract_lets +onlyGivenNames t3
  have h4 : Keeps z t3 := by
    unfold t3
    refine keeps_ite ?_ ?_
    · exact State.postPeer_keeps h
    · exact State.updStream_keeps h2
  clear_value t3
  extract_lets +onlyGivenNames t5
  extract_lets +onlyGivenNames t6
  have h7 : Keeps z t6 := by
    unfold t6
    refine keeps_foldl ?_ (fun s8 a9 h10 => ?_)
    · exact h4
    · dsimp only [t5]
      split
      · refine State.touchDev_keeps ?_
        split
        · exact State.touchDev_keeps h10
        · exact h10
      · split
        · exact State.touchDev_keeps h10
        · exact h10
  clear_value t6
  dsimp only
  exact State.updStream_keeps h7

theorem State.stopStream_keeps {z : State} {s : State} {a1 : ℕ} {a2 : Stream} {a3 : ℤ × ℕ} (h : Keeps z s) :
    Keeps z (State.stopStream s a1 a2 a3) := by
  unfold State.stopStream
  exact State.streamFault_keeps (State.updStream_keeps h)

theorem State.toBoundary_keeps {z : State} {s : State} {a1 : ℕ} {a2 : ℕ} {a3 : Bool} {a4 : Stream} (h : Keeps z s) :
    Keeps z (State.toBoundary s a1 a2 a3 a4).1 := by
  unfold State.toBoundary
  extract_lets +onlyGivenNames t0
  have h1 : Keeps z t0.1 := by
    unfold t0
    exact State.runStream_keeps h
  clear_value t0
  split
  · dsimp only
    exact State.stopStream_keeps h1
  · dsimp only
    exact State.updStream_keeps h1

theorem State.startStream_keeps {z : State} {s : State} {a1 : ℕ} {a2 : Stream} (h : Keeps z s) :
    Keeps z (State.startStream s a1 a2) := by
  unfold State.startStream
  extract_lets +onlyGivenNames t0
  have h1 : Keeps z t0 := by
    unfold t0
    exact State.beginCmd_keeps (State.updStream_keeps h)
  clear_value t0
  extract_lets +onlyGivenNames t2
  clear_value t2
  split
  · extract_lets +onlyGivenNames t3
    have h4 : Keeps z t3.1 := by
      unfold t3
      exact State.runStream_keeps h1
    clear_value t3
    split
    · exact State.stopStream_keeps h4
    · exact h4
  · refine keeps_ite ?_ ?_
    · exact State.runStream_keeps h1
    · exact h1

theorem State.yieldStream_keeps {z s t : State} {n : Nat} {u : Stream} {ok : Bool} (h : Keeps z s)
    (e : s.yieldStream n u = some (t, ok)) : Keeps z t := by
  unfold State.yieldStream at e
  split at e
  · cases e; exact h
  · split at e
    · cases e
    · have h1 := State.toBoundary_keeps (a1 := n) (a2 := Config.freeNat s.free % (u.pieces - 1) + 1) (a3 := true)
        (a4 := u) (keeps_free (k := 1) h)
      rw [Option.some.inj e] at h1
      exact h1

theorem execStreamDescriptorStart_keeps {z s : State} {e : Fin 64} {se : Fin 4} (h : Keeps z s) :
    KeepsO z (execStreamDescriptorStart e se s) := by
  unfold execStreamDescriptorStart
  extract_lets n heads
  split
  · exact keepsO_next h
  · refine keepsO_ite (keepsO_next h) ?_
    split
    · exact keepsO_next (State.startStream_keeps h)
    · split
      · exact keepsO_next h
      · have h1 := State.yieldStream_keeps h ‹_›
        exact keepsO_next (keeps_ite (State.startStream_keeps h1) h1)

theorem State.endStream_keeps {z : State} {s : State} {a1 : ℕ} {a2 : Stream} (h : Keeps z s) :
    Keeps z (State.endStream s a1 a2) := by
  unfold State.endStream
  extract_lets +onlyGivenNames t0
  have h1 : Keeps z t0 := by
    unfold t0
    exact State.updEng_keeps h
  clear_value t0
  extract_lets +onlyGivenNames t2
  have h3 : Keeps z t2 := by
    unfold t2
    refine keeps_ite ?_ ?_
    · exact State.updCmd_keeps h1
    · exact h1
  clear_value t2
  extract_lets +onlyGivenNames t4
  have h5 : Keeps z t4 := by
    unfold t4
    refine keeps_ite ?_ ?_
    · exact State.sendSig_keeps h3
    · exact h3
  clear_value t4
  exact State.finishRom_keeps (State.wake_keeps h5)

theorem State.completeStream_keeps {z : State} {s : State} {a1 : ℕ} {a2 : Stream} (h : Keeps z s) :
    Keeps z (State.completeStream s a1 a2) := by
  unfold State.completeStream
  refine keeps_ite ?_ ?_
  · exact h
  · refine keeps_ite ?_ ?_
    · split
      · refine keeps_ite ?_ ?_
        · exact h
        · exact State.endStream_keeps h
      · exact State.endStream_keeps h
    · extract_lets +onlyGivenNames t0
      have h1 : Keeps z t0.1 := by
        unfold t0
        exact State.runStream_keeps h
      clear_value t0
      split
      · exact State.stopStream_keeps h1
      · split
        · exact h1
        · exact State.endStream_keeps h1

theorem State.haltStream_keeps {z : State} {s : State} {a1 : ℕ} {a2 : Stream} (h : Keeps z s) :
    Keeps z (State.haltStream s a1 a2) := by
  unfold State.haltStream
  extract_lets +onlyGivenNames t0
  clear_value t0
  refine keeps_ite ?_ ?_
  · exact State.completeStream_keeps h
  · refine keeps_ite ?_ ?_
    · exact State.updStream_keeps h
    · refine keeps_ite ?_ ?_
      · exact State.completeStream_keeps (keeps_free h)
      · exact State.toBoundary_keeps (keeps_free h)

theorem execStreamDescriptorComplete_keeps {z : State} {a0 : Fin 64} {a1 : Fin 4} {s : State} (h : Keeps z s) :
    KeepsO z (execStreamDescriptorComplete a0 a1 s) := by
  unfold execStreamDescriptorComplete
  extract_lets +onlyGivenNames t0
  clear_value t0
  split
  · exact keepsO_next (State.completeStream_keeps h)
  · split
    · exact keepsO_next h
    · exact keepsO_next (State.haltStream_keeps h)

/-! ### CmdAdmin -/

theorem nopRow_keeps {z : State} : CmdRow.Keeps z nopRow := by
  intro s0 c1 h2
  dsimp only [nopRow]
  exact State.finishCmd_keeps h2

theorem execNop_keeps {z : State} {a0 : Fin 16384} {s : State} (h : Keeps z s) :
    KeepsO z (execNop a0 s) := by
  unfold execNop
  refine acceptCmd_keeps ?_ ?_
  · exact h
  · exact nopRow_keeps

theorem partConfigStart_keeps {z : State} {s : State} {a1 : Cmd} (h : Keeps z s) :
    Keeps z (partConfigStart s a1) := by
  unfold partConfigStart
  extract_lets +onlyGivenNames t0
  clear_value t0
  extract_lets +onlyGivenNames t1
  clear_value t1
  extract_lets +onlyGivenNames t2
  have h3 : Keeps z t2 := by
    unfold t2
    exact State.setFld_keeps (State.setReg_keeps h)
  clear_value t2
  extract_lets +onlyGivenNames t4
  have h5 : Keeps z t4 := by
    unfold t4
    exact State.updPart_keeps h3
  clear_value t4
  exact State.finishCmd_keeps h5

theorem partConfigRow_keeps {z : State} : CmdRow.Keeps z partConfigRow := by
  intro s0 c1 h2
  dsimp only [partConfigRow]
  exact partConfigStart_keeps h2

theorem execPartConfig_keeps {z : State} {a0 : Fin 16384} {s : State} (h : Keeps z s) :
    KeepsO z (execPartConfig a0 s) := by
  unfold execPartConfig
  refine acceptCmd_keeps ?_ ?_
  · exact h
  · exact partConfigRow_keeps

theorem State.showGrant_keeps {z : State} {s : State} {a1 : Grant} {a2 : ℕ} {a3 : Bool} (h : Keeps z s) :
    Keeps z (State.showGrant s a1 a2 a3) := by
  unfold State.showGrant
  refine keeps_ite ?_ ?_
  · exact State.setFld_keeps (State.setFld_keeps h)
  · exact h

theorem partGrantStart_keeps {z : State} {s : State} {a1 : Cmd} (h : Keeps z s) :
    Keeps z (partGrantStart s a1) := by
  unfold partGrantStart
  extract_lets +onlyGivenNames t0
  clear_value t0
  extract_lets +onlyGivenNames t1
  clear_value t1
  refine keeps_ite ?_ ?_
  · extract_lets +onlyGivenNames t2
    clear_value t2
    exact State.updPart_keeps h
  · extract_lets +onlyGivenNames t3
    have h4 : Keeps z t3 := by
      unfold t3
      exact State.updPart_keeps h
    clear_value t3
    exact State.finishCmd_keeps (State.showGrant_keeps h4)

theorem partGrantRow_keeps {z : State} : CmdRow.Keeps z partGrantRow := by
  intro s0 c1 h2
  dsimp only [partGrantRow]
  exact partGrantStart_keeps h2

theorem execPartGrant_keeps {z : State} {a0 : Fin 16384} {s : State} (h : Keeps z s) :
    KeepsO z (execPartGrant a0 s) := by
  unfold execPartGrant
  refine acceptCmd_keeps ?_ ?_
  · exact h
  · exact partGrantRow_keeps

theorem partRegulateRow_keeps {z : State} : CmdRow.Keeps z partRegulateRow := by
  intro s0 c1 h2
  dsimp only [partRegulateRow]
  exact State.finishCmd_keeps (State.setReg_keeps h2)

theorem execPartRegulate_keeps {z : State} {a0 : Fin 16384} {s : State} (h : Keeps z s) :
    KeepsO z (execPartRegulate a0 s) := by
  unfold execPartRegulate
  refine acceptCmd_keeps ?_ ?_
  · exact h
  · exact partRegulateRow_keeps

theorem regReadRow_keeps {z : State} : CmdRow.Keeps z regReadRow := by
  intro s0 c1 h2
  dsimp only [regReadRow]
  exact State.finishCmd_keeps (State.hostResult_keeps h2)

theorem execRegRead_keeps {z : State} {a0 : Fin 16384} {s : State} (h : Keeps z s) :
    KeepsO z (execRegRead a0 s) := by
  unfold execRegRead
  refine acceptCmd_keeps ?_ ?_
  · exact h
  · exact regReadRow_keeps

theorem regWriteRow_keeps {z : State} : CmdRow.Keeps z regWriteRow := by
  intro s0 c1 h2
  dsimp only [regWriteRow]
  exact State.finishCmd_keeps (State.regWrite_keeps h2)

theorem execRegWrite_keeps {z : State} {a0 : Fin 16384} {s : State} (h : Keeps z s) :
    KeepsO z (execRegWrite a0 s) := by
  unfold execRegWrite
  refine acceptCmd_keeps ?_ ?_
  · exact h
  · exact regWriteRow_keeps

theorem queueCreateStart_keeps {z : State} {s : State} {a1 : Cmd} (h : Keeps z s) :
    Keeps z (queueCreateStart s a1) := by
  unfold queueCreateStart
  extract_lets +onlyGivenNames t0
  clear_value t0
  extract_lets +onlyGivenNames t1
  clear_value t1
  extract_lets +onlyGivenNames t2
  clear_value t2
  extract_lets +onlyGivenNames t3
  have h4 : Keeps z t3 := by
    unfold t3
    exact State.setReg_keeps (State.setReg_keeps h)
  clear_value t3
  exact State.finishCmd_keeps (State.setQueue_keeps h4)

theorem queueCreateRow_keeps {z : State} : CmdRow.Keeps z queueCreateRow := by
  intro s0 c1 h2
  dsimp only [queueCreateRow]
  exact queueCreateStart_keeps h2

theorem execQueueCreate_keeps {z : State} {a0 : Fin 16384} {s : State} (h : Keeps z s) :
    KeepsO z (execQueueCreate a0 s) := by
  unfold execQueueCreate
  refine acceptCmd_keeps ?_ ?_
  · exact h
  · exact queueCreateRow_keeps

theorem queueDeleteStart_keeps {z : State} {s : State} {a1 : Cmd} (h : Keeps z s) :
    Keeps z (queueDeleteStart s a1) := by
  unfold queueDeleteStart
  extract_lets +onlyGivenNames t0
  clear_value t0
  extract_lets +onlyGivenNames t1
  have h2 : Keeps z t1 := by
    unfold t1
    refine keeps_ite ?_ ?_
    · exact h
    · exact State.closeQueue_keeps h
  clear_value t1
  exact State.finishCmd_keeps h2

theorem queueDeleteRow_keeps {z : State} : CmdRow.Keeps z queueDeleteRow := by
  intro s0 c1 h2
  dsimp only [queueDeleteRow]
  exact queueDeleteStart_keeps h2

theorem execQueueDelete_keeps {z : State} {a0 : Fin 16384} {s : State} (h : Keeps z s) :
    KeepsO z (execQueueDelete a0 s) := by
  unfold execQueueDelete
  refine acceptCmd_keeps ?_ ?_
  · exact h
  · exact queueDeleteRow_keeps

theorem ctxCreateStart_keeps {z : State} {s : State} {a1 : Cmd} (h : Keeps z s) :
    Keeps z (ctxCreateStart s a1) := by
  unfold ctxCreateStart
  extract_lets +onlyGivenNames t0
  clear_value t0
  extract_lets +onlyGivenNames t1
  have h2 : Keeps z t1 := by
    unfold t1
    exact State.setCtx_keeps h
  clear_value t1
  exact State.finishCmd_keeps (State.hostResult_keeps h2)

theorem ctxCreateRow_keeps {z : State} : CmdRow.Keeps z ctxCreateRow := by
  intro s0 c1 h2
  dsimp only [ctxCreateRow]
  exact ctxCreateStart_keeps h2

theorem execCtxCreate_keeps {z : State} {a0 : Fin 16384} {s : State} (h : Keeps z s) :
    KeepsO z (execCtxCreate a0 s) := by
  unfold execCtxCreate
  refine acceptCmd_keeps ?_ ?_
  · exact h
  · exact ctxCreateRow_keeps

theorem State.setControls_keeps {z : State} {s : State} {a1 : ℕ} {a2 : ℕ} {a3 : ℕ} (h : Keeps z s) :
    Keeps z (State.setControls s a1 a2 a3) := by
  unfold State.setControls
  extract_lets +onlyGivenNames t0
  clear_value t0
  extract_lets +onlyGivenNames t1
  clear_value t1
  exact State.setReg_keeps (State.setReg_keeps h)

theorem State.setSeeds_keeps {z : State} {s : State} {a1 : ℕ} {a2 : ℕ} {a3 : ℕ} (h : Keeps z s) :
    Keeps z (State.setSeeds s a1 a2 a3) := by
  unfold State.setSeeds
  extract_lets +onlyGivenNames t0
  clear_value t0
  exact State.setReg_keeps (State.setReg_keeps h)

theorem ctxConfigStart_keeps {z : State} {s : State} {a1 : Cmd} (h : Keeps z s) :
    Keeps z (ctxConfigStart s a1) := by
  unfold ctxConfigStart
  extract_lets +onlyGivenNames t0
  clear_value t0
  extract_lets +onlyGivenNames t1
  have h2 : Keeps z t1 := by
    unfold t1
    refine keeps_ite ?_ ?_
    · exact State.updCtx_keeps h
    · exact h
  clear_value t1
  extract_lets +onlyGivenNames t3
  have h4 : Keeps z t3 := by
    unfold t3
    refine keeps_ite ?_ ?_
    · refine keeps_foldl ?_ (fun s5 a6 h7 => ?_)
      · exact State.updCtx_keeps h2
      · exact State.setSeeds_keeps h7
    · exact h2
  clear_value t3
  extract_lets +onlyGivenNames t8
  have h9 : Keeps z t8 := by
    unfold t8
    refine keeps_ite ?_ ?_
    · refine keeps_foldl ?_ (fun s10 a11 h12 => ?_)
      · exact State.updCtx_keeps h4
      · exact State.setControls_keeps h12
    · exact h4
  clear_value t8
  exact State.finishCmd_keeps h9

theorem ctxConfigRow_keeps {z : State} : CmdRow.Keeps z ctxConfigRow := by
  intro s0 c1 h2
  dsimp only [ctxConfigRow]
  exact ctxConfigStart_keeps h2

theorem execCtxConfig_keeps {z : State} {a0 : Fin 16384} {s : State} (h : Keeps z s) :
    KeepsO z (execCtxConfig a0 s) := by
  unfold execCtxConfig
  refine acceptCmd_keeps ?_ ?_
  · exact h
  · exact ctxConfigRow_keeps

theorem xlateInvalRow_keeps {z : State} : CmdRow.Keeps z xlateInvalRow := by
  intro s0 c1 h2
  dsimp only [xlateInvalRow]
  exact State.finishCmd_keeps h2

theorem execXlateInval_keeps {z : State} {a0 : Fin 16384} {s : State} (h : Keeps z s) :
    KeepsO z (execXlateInval a0 s) := by
  unfold execXlateInval
  refine acceptCmd_keeps ?_ ?_
  · exact h
  · exact xlateInvalRow_keeps

/-! ### Noc -/

theorem State.updNoc_keeps {z : State} {s : State} {a1 : Noc → Noc} (h : Keeps z s) :
    Keeps z (State.updNoc s a1) := by
  unfold State.updNoc
  exact keeps_mk h

theorem State.traceRecord_keeps {z : State} {s : State} {a1 : ℕ} {a2 : ℕ} {a3 : NocPkt} (h : Keeps z s) :
    Keeps z (State.traceRecord s a1 a2 a3) := by
  unfold State.traceRecord
  extract_lets +onlyGivenNames t0
  clear_value t0
  extract_lets +onlyGivenNames t1
  clear_value t1
  extract_lets +onlyGivenNames t2
  clear_value t2
  refine keeps_ite ?_ ?_
  · exact State.updReg_keeps h
  · extract_lets +onlyGivenNames t3
    clear_value t3
    extract_lets +onlyGivenNames t4
    have h5 : Keeps z t4 := by
      unfold t4
      exact State.updNoc_keeps h
    clear_value t4
    extract_lets +onlyGivenNames t6
    have h7 : Keeps z t6 := by
      unfold t6
      refine keeps_ite ?_ ?_
      · exact State.setFld_keeps h5
      · exact h5
    clear_value t6
    exact State.setFld_keeps h7

theorem State.probeOne_keeps {z : State} {s : State} {a1 : ℕ} {a2 : NocPkt} {a3 : ℕ × ℕ} {a4 : ℕ} (h : Keeps z s) :
    Keeps z (State.probeOne s a1 a2 a3 a4) := by
  unfold State.probeOne
  extract_lets +onlyGivenNames t0
  clear_value t0
  refine keeps_ite ?_ ?_
  · exact h
  · extract_lets +onlyGivenNames t1
    have h2 : Keeps z t1 := by
      unfold t1
      exact State.updReg_keeps h
    clear_value t1
    extract_lets +onlyGivenNames t3
    have h4 : Keeps z t3 := by
      unfold t3
      exact State.updReg_keeps h2
    clear_value t3
    refine keeps_ite ?_ ?_
    · exact State.traceRecord_keeps h4
    · exact h4

theorem State.probeStep_keeps {z : State} {s : State} {a1 : NocPkt} {a2 : ℕ × ℕ} {a3 : ℕ} (h : Keeps z s) :
    Keeps z (State.probeStep s a1 a2 a3) := by
  unfold State.probeStep
  refine keeps_foldl ?_ (fun s0 a1 h2 => ?_)
  · exact h
  · exact State.probeOne_keeps h2

theorem State.probeEntry_keeps {z : State} {s : State} {a1 : NocPkt} (h : Keeps z s) :
    Keeps z (State.probeEntry s a1) := by
  unfold State.probeEntry
  refine keeps_ite ?_ ?_
  · refine keeps_foldl ?_ (fun s0 a1 h2 => ?_)
    · exact h
    · exact State.probeStep_keeps h2
  · exact h

theorem State.probeRest_keeps {z : State} {s : State} {a1 : NocPkt} (h : Keeps z s) :
    Keeps z (State.probeRest s a1) := by
  unfold State.probeRest
  refine keeps_ite ?_ ?_
  · extract_lets +onlyGivenNames t0
    clear_value t0
    extract_lets +onlyGivenNames t1
    clear_value t1
    extract_lets +onlyGivenNames t2
    clear_value t2
    extract_lets +onlyGivenNames t3
    clear_value t3
    extract_lets +onlyGivenNames t4
    have h5 : Keeps z t4 := by
      unfold t4
      refine keeps_foldl ?_ (fun s6 a7 h8 => ?_)
      · exact h
      · exact State.probeStep_keeps h8
    clear_value t4
    extract_lets +onlyGivenNames t9
    have h10 : Keeps z t9 := by
      unfold t9
      exact keeps_free h5
    clear_value t9
    refine keeps_foldl ?_ (fun s11 a12 h13 => ?_)
    · exact h10
    · exact State.probeStep_keeps h13
  · exact h

theorem State.inject_keeps {z : State} {s : State} {a1 : NocPkt} (h : Keeps z s) :
    Keeps z (State.inject s a1) := by
  unfold State.inject
  extract_lets +onlyGivenNames t0
  clear_value t0
  exact State.probeEntry_keeps (State.updNoc_keeps h)

theorem State.respond_keeps {z : State} {s : State} {a1 : NocPkt} {a2 : ℕ} {a3 : ℕ} {a4 : Bool} {a5 : Option (List
    Byte)} (h : Keeps z s) :
    Keeps z (State.respond s a1 a2 a3 a4 a5) := by
  unfold State.respond
  exact State.inject_keeps h

theorem execIslandWake_keeps {z : State} {a0 : Island} {s : State} (h : Keeps z s) :
    KeepsO z (execIslandWake a0 s) := by
  unfold execIslandWake
  split
  · exact keepsO_next (State.setFld_keeps h)
  · exact keepsO_next (State.wakeEngine_keeps h)
  · refine keepsO_next ?_
    refine keeps_foldl ?_ (fun s0 a1 h2 => ?_)
    · exact h
    · refine keeps_ite ?_ ?_
      · exact State.setFld_keeps h2
      · exact h2

theorem execCreditRequest_keeps {z : State} {a0 : Fin 186} {a1 : Fin 2048} {s : State} (h : Keeps z s) :
    KeepsO z (execCreditRequest a0 a1 s) := by
  unfold execCreditRequest
  refine keepsO_ite ?_ ?_
  · exact keepsO_next h
  · exact keepsO_next (State.inject_keeps h)

theorem execCreditGrant_keeps {z : State} {a0 : Fin 2048} {s : State} (h : Keeps z s) :
    KeepsO z (execCreditGrant a0 s) := by
  unfold execCreditGrant
  split
  · exact keepsO_next h
  · refine keepsO_ite ?_ ?_
    · exact keepsO_next h
    · exact keepsO_next (State.respond_keeps (State.updNoc_keeps h))

theorem State.creditBack_keeps {z : State} {s : State} {a1 : ℕ} (h : Keeps z s) :
    Keeps z (State.creditBack s a1) := by
  unfold State.creditBack
  exact State.updNoc_keeps h

theorem State.dropHeld_keeps {z : State} {s : State} {a1 : NocPkt → Bool} (h : Keeps z s) :
    Keeps z (State.dropHeld s a1) := by
  unfold State.dropHeld
  exact State.updNoc_keeps h

theorem State.returnCredits_keeps {z : State} {s : State} {a1 : ℕ} (h : Keeps z s) :
    Keeps z (State.returnCredits s a1) := by
  unfold State.returnCredits
  extract_lets +onlyGivenNames t0
  clear_value t0
  extract_lets +onlyGivenNames t1
  have h2 : Keeps z t1 := by
    unfold t1
    refine keeps_foldl ?_ (fun s3 a4 h5 => ?_)
    · exact h
    · exact State.creditBack_keeps h5
  clear_value t1
  exact State.updNoc_keeps h2

theorem State.draw_keeps {z : State} {s : State} {a1 : ℕ} {a2 : ℕ} {a3 : ℕ} {a4 : ℕ} (h : Keeps z s) :
    Keeps z (State.draw s a1 a2 a3 a4) := by
  unfold State.draw
  refine keeps_ite ?_ ?_
  · exact h
  · extract_lets +onlyGivenNames t0
    clear_value t0
    extract_lets +onlyGivenNames t1
    clear_value t1
    extract_lets +onlyGivenNames t2
    have h3 : Keeps z t2 := by
      unfold t2
      refine keeps_ite ?_ ?_
      · exact h
      · exact State.updNoc_keeps h
    clear_value t2
    refine keeps_ite ?_ ?_
    · exact h3
    · extract_lets +onlyGivenNames t4
      clear_value t4
      extract_lets +onlyGivenNames t5
      clear_value t5
      extract_lets +onlyGivenNames t6
      clear_value t6
      extract_lets +onlyGivenNames t7
      clear_value t7
      extract_lets +onlyGivenNames t8
      clear_value t8
      exact State.updNoc_keeps h3

theorem execPartitionGrantReturn_keeps {z : State} {a0 : Fin 186} {a1 : Fin 8} {a2 : Fin 4} {s : State} (h : Keeps
    z s) :
    KeepsO z (execPartitionGrantReturn a0 a1 a2 s) := by
  unfold execPartitionGrantReturn
  extract_lets +onlyGivenNames t0
  clear_value t0
  extract_lets +onlyGivenNames t1
  clear_value t1
  split
  · exact keepsO_next h
  · refine keepsO_ite ?_ ?_
    · exact keepsO_next h
    · extract_lets +onlyGivenNames t2
      clear_value t2
      extract_lets +onlyGivenNames t3
      clear_value t3
      exact keepsO_next (State.updNoc_keeps h)

theorem State.holdReq_keeps {z : State} {s : State} {a1 : NocPkt} (h : Keeps z s) :
    Keeps z (State.holdReq s a1) := by
  unfold State.holdReq
  refine keeps_ite ?_ ?_
  · exact h
  · exact State.updNoc_keeps h

theorem State.tryInject_keeps {z : State} {s : State} {a1 : NocPkt} (h : Keeps z s) :
    Keeps z (State.tryInject s a1) := by
  unfold State.tryInject
  refine keeps_ite ?_ ?_
  · extract_lets +onlyGivenNames t0
    have h1 : Keeps z t0 := by
      unfold t0
      refine keeps_ite ?_ ?_
      · exact h
      · exact State.draw_keeps h
    clear_value t0
    extract_lets +onlyGivenNames t2
    have h3 : Keeps z t2 := by
      unfold t2
      refine keeps_ite ?_ ?_
      · exact State.updReg_keeps h1
      · exact h1
    clear_value t2
    exact State.inject_keeps (State.updNoc_keeps (State.setFld_keeps h3))
  · refine keeps_ite ?_ ?_
    · exact State.setFld_keeps h
    · exact h

theorem State.portsTick_keeps {z : State} {s : State} (h : Keeps z s) :
    Keeps z (State.portsTick s) := by
  unfold State.portsTick
  refine keeps_ite ?_ ?_
  · exact h
  · extract_lets +onlyGivenNames t0
    have h1 : Keeps z t0 := by
      unfold t0
      refine keeps_foldl ?_ (fun s2 a3 h4 => ?_)
      · exact h
      · exact State.tryInject_keeps h4
    clear_value t0
    exact State.updNoc_keeps h1

theorem execPacketInject_keeps {z : State} {a0 : NocReq} {s : State} (h : Keeps z s) :
    KeepsO z (execPacketInject a0 s) := by
  unfold execPacketInject
  extract_lets +onlyGivenNames t0
  clear_value t0
  extract_lets +onlyGivenNames t1
  refine keepsO_ite ?_ ?_
  · exact keepsO_next h
  · extract_lets +onlyGivenNames t2
    split
    · dsimp only [t2]
      exact keepsO_next (State.tryInject_keeps (State.holdReq_keeps h))
    · split
      · exact keepsO_next h
      · dsimp only [t2]
        exact keepsO_next (State.tryInject_keeps (State.holdReq_keeps h))

end Sys2Proof.Machine
end

