-- ==== Sys2Proof/Laws/Keeps4.lean ====
section
/-! SUPPORT. Every operation and meaning of the files DdrRank, Ddr, NocServe, Clocks, Fabric, Browse of Machine
keeps the queue, the count of free values and the canonical form of memory (Keeps). -/

namespace Sys2Proof.Machine

/-! ### DdrRank -/

theorem State.addWork_keeps {z : State} {s : State} {a1 : WorkKind} {a2 : ℕ} (h : Keeps z s) :
    Keeps z (State.addWork s a1 a2) := by
  unfold State.addWork
  exact keeps_mk h

theorem State.dropWork_keeps {z : State} {s : State} {a1 : WorkKind} (h : Keeps z s) :
    Keeps z (State.dropWork s a1) := by
  unfold State.dropWork
  exact keeps_mk h

theorem State.rankExhausted_keeps {z : State} {s : State} {a1 : RankWait} (h : Keeps z s) :
    Keeps z (State.rankExhausted s a1) := by
  unfold State.rankExhausted
  extract_lets +onlyGivenNames t0
  have h1 : Keeps z t0 := by
    unfold t0
    exact State.setReg_keeps h
  clear_value t0
  extract_lets +onlyGivenNames t2
  have h3 : Keeps z t2 := by
    unfold t2
    exact State.event_keeps (State.setFld_keeps h1)
  clear_value t2
  extract_lets +onlyGivenNames t4
  have h5 : Keeps z t4 := by
    unfold t4
    refine keeps_ite ?_ ?_
    · exact State.updDdr_keeps (State.setFld_keeps h3)
    · exact h3
  clear_value t4
  exact State.finishCmd_keeps h5

theorem State.rankCopy_keeps {z : State} {s : State} {a1 : RankWait} {a2 : ℕ} {a3 : ℕ} (h : Keeps z s) :
    Keeps z (State.rankCopy s a1 a2 a3) := by
  unfold State.rankCopy
  extract_lets +onlyGivenNames t0
  clear_value t0
  extract_lets +onlyGivenNames t1
  have h2 : Keeps z t1 := by
    unfold t1
    exact State.setReg_keeps (State.wakeChannel_keeps h)
  clear_value t1
  extract_lets +onlyGivenNames t3
  have h4 : Keeps z t3 := by
    unfold t3
    exact State.setFld_keeps h2
  clear_value t3
  extract_lets +onlyGivenNames t5
  have h6 : Keeps z t5 := by
    unfold t5
    exact State.updDdr_keeps h4
  clear_value t5
  extract_lets +onlyGivenNames t7
  have h8 : Keeps z t7 := by
    unfold t7
    refine keeps_ite ?_ ?_
    · exact State.chBack_keeps h6
    · exact h6
  clear_value t7
  exact State.addWork_keeps (State.event_keeps h8)

theorem State.retireRank_keeps {z : State} {s : State} {a1 : RankWait} (h : Keeps z s) :
    Keeps z (State.retireRank s a1) := by
  unfold State.retireRank
  refine keeps_ite ?_ ?_
  · exact State.updDdr_keeps h
  · split
    · exact State.finishCmd_keeps (State.updDdr_keeps h)
    · refine keeps_ite ?_ ?_
      · exact State.finishCmd_keeps h
      · split
        · exact State.rankExhausted_keeps h
        · exact State.rankCopy_keeps h

theorem State.nextRank_keeps {z : State} {s : State} {a1 : ℕ} {a2 : ℕ} (h : Keeps z s) :
    Keeps z (State.nextRank s a1 a2) := by
  induction a2 generalizing s with
  | zero => exact h
  | succ n ih =>
    unfold State.nextRank
    split
    · exact h
    · exact keeps_ite h (ih (State.retireRank_keeps (State.updDdr_keeps h)))

theorem State.rankNext_keeps {z : State} {s : State} {a1 : ℕ} (h : Keeps z s) :
    Keeps z (State.rankNext s a1) := by
  unfold State.rankNext
  extract_lets +onlyGivenNames t0
  have h1 : Keeps z t0 := by
    unfold t0
    refine keeps_ite ?_ ?_
    · exact State.chBack_keeps h
    · exact h
  clear_value t0
  exact State.nextRank_keeps h1

theorem State.rankRestart_keeps {z : State} {s : State} {a1 : RankRet} (h : Keeps z s) :
    Keeps z (State.rankRestart s a1) := by
  unfold State.rankRestart
  extract_lets +onlyGivenNames t0
  have h1 : Keeps z t0 := by
    unfold t0
    exact State.updDdr_keeps h
  clear_value t0
  extract_lets +onlyGivenNames t2
  have h3 : Keeps z t2 := by
    unfold t2
    exact State.setFld_keeps h1
  clear_value t2
  exact State.rankNext_keeps (State.retireRank_keeps (State.dropWork_keeps h3))

theorem execRankRetire_keeps {z : State} {a0 : Fin 8} {a1 : Fin 4} {a2 : Bool} {a3 : Bool} {s : State} (h : Keeps z
    s) :
    KeepsO z (execRankRetire a0 a1 a2 a3 s) := by
  unfold execRankRetire
  extract_lets +onlyGivenNames t0
  clear_value t0
  refine keepsO_ite ?_ ?_
  · exact keepsO_next h
  · extract_lets +onlyGivenNames t1
    have h2 : Keeps z t1 := by
      unfold t1
      exact State.updDdr_keeps h
    clear_value t1
    refine keepsO_ite ?_ ?_
    · split
      · exact keepsO_next h2
      · exact keepsO_next (State.rankRestart_keeps h2)
    · exact keepsO_next (State.retireRank_keeps h2)

theorem State.rankDone_keeps {z : State} {s : State} {a1 : RankRet} (h : Keeps z s) :
    Keeps z (State.rankDone s a1) := by
  unfold State.rankDone
  extract_lets +onlyGivenNames t0
  have h1 : Keeps z t0 := by
    unfold t0
    exact State.updDdr_keeps h
  clear_value t0
  extract_lets +onlyGivenNames t2
  have h3 : Keeps z t2 := by
    unfold t2
    refine keeps_ite ?_ ?_
    · exact State.setFld_keeps h1
    · exact h1
  clear_value t2
  extract_lets +onlyGivenNames t4
  have h5 : Keeps z t4 := by
    unfold t4
    exact State.healthChange_keeps h3
  clear_value t4
  extract_lets +onlyGivenNames t6
  have h7 : Keeps z t6 := by
    unfold t6
    exact State.dropWork_keeps (State.setFld_keeps h5)
  clear_value t6
  exact State.rankNext_keeps (State.finishCmd_keeps h7)

theorem State.rankChunk_keeps {z : State} {s : State} {a1 : RankRet} {a2 : ℕ} {a3 : List (ℕ × ℕ)} (h : Keeps z s) :
    Keeps z (State.rankChunk s a1 a2 a3) := by
  unfold State.rankChunk
  refine keeps_ite ?_ ?_
  · exact h
  · extract_lets +onlyGivenNames t0
    have h1 : Keeps z t0 := by
      unfold t0
      refine keeps_foldl ?_ (fun s2 a3 h4 => ?_)
      · exact State.quiet_keeps h
      · exact State.wakeChannel_keeps h4
    clear_value t0
    extract_lets +onlyGivenNames t5
    have h6 : Keeps z t5 := by
      unfold t5
      refine keeps_foldl ?_ (fun s7 a8 h9 => ?_)
      · exact h1
      · extract_lets +onlyGivenNames t10
        clear_value t10
        extract_lets +onlyGivenNames t11
        clear_value t11
        extract_lets +onlyGivenNames t12
        have h13 : Keeps z t12 := by
          unfold t12
          refine keeps_foldl ?_ (fun s14 a15 h16 => ?_)
          · exact h9
          · exact State.ddrMeets_keeps h16
        clear_value t12
        exact State.copyCells_keeps (State.ddrAccess_keeps (State.ddrAccess_keeps h13))
    clear_value t5
    extract_lets +onlyGivenNames t17
    clear_value t17
    extract_lets +onlyGivenNames t18
    have h19 : Keeps z t18 := by
      unfold t18
      exact State.setFld_keeps (State.updDdr_keeps h6)
    clear_value t18
    refine keeps_ite ?_ ?_
    · exact State.rankDone_keeps h19
    · exact h19

/-! ### Ddr -/

theorem execTargetedRefresh_keeps {z : State} {a0 : Fin 8} {a1 : Fin 4} {a2 : Fin 2} {a3 : Fin 32} {s : State} (h :
    Keeps z s) :
    KeepsO z (execTargetedRefresh a0 a1 a2 a3 s) := by
  unfold execTargetedRefresh
  extract_lets +onlyGivenNames t0
  clear_value t0
  split
  · exact keepsO_next h
  · exact keepsO_next (State.targetRefresh_keeps (State.quiet_keeps h))

theorem execRowDisturbanceWindow_keeps {z : State} {a0 : Fin 8} {s : State} (h : Keeps z s) :
    KeepsO z (execRowDisturbanceWindow a0 s) := by
  unfold execRowDisturbanceWindow
  extract_lets +onlyGivenNames t0
  have h1 : Keeps z t0 := by
    unfold t0
    exact State.updChanBanks_keeps h
  clear_value t0
  exact keepsO_next (State.updDdr_keeps h1)

theorem State.ddrLog_keeps {z : State} {s : State} {a1 : ℕ} {a2 : ℕ} {a3 : ℕ} (h : Keeps z s) :
    Keeps z (State.ddrLog s a1 a2 a3) := by
  unfold State.ddrLog
  extract_lets +onlyGivenNames t0
  have h1 : Keeps z t0 := by
    unfold t0
    exact State.setReg_keeps (State.setReg_keeps h)
  clear_value t0
  exact State.event_keeps h1

theorem execActStorm_keeps {z : State} {a0 : Fin 8} {a1 : Fin 4} {a2 : Fin 2} {a3 : Fin 32} {s : State} (h : Keeps
    z s) :
    KeepsO z (execActStorm a0 a1 a2 a3 s) := by
  unfold execActStorm
  extract_lets +onlyGivenNames t0
  clear_value t0
  refine keepsO_ite ?_ ?_
  · exact keepsO_next h
  · extract_lets +onlyGivenNames t1
    clear_value t1
    extract_lets +onlyGivenNames t2
    clear_value t2
    extract_lets +onlyGivenNames t3
    have h4 : Keeps z t3 := by
      unfold t3
      exact State.updBank_keeps (State.ddrLog_keeps h)
    clear_value t3
    refine keepsO_ite ?_ ?_
    · exact keepsO_next h4
    · exact keepsO_next (State.updDdr_keeps h4)

theorem execDdrSkew_keeps {z : State} {a0 : Fin 8} {a1 : Fin 4} {a2 : Fin 2} {a3 : Fin 32} {a4 : ℕ} {a5 : ℕ} {s :
    State} (h : Keeps z s) :
    KeepsO z (execDdrSkew a0 a1 a2 a3 a4 a5 s) := by
  unfold execDdrSkew
  extract_lets +onlyGivenNames t0
  clear_value t0
  refine keepsO_ite ?_ ?_
  · exact keepsO_next h
  · extract_lets +onlyGivenNames t1
    clear_value t1
    refine keepsO_ite ?_ ?_
    · extract_lets +onlyGivenNames t2
      have h3 : Keeps z t2 := by
        unfold t2
        exact State.ddrLog_keeps h
      clear_value t2
      exact keepsO_next (State.updBank_keeps h3)
    · exact keepsO_next (State.updBank_keeps h)

theorem execRefresh_keeps {z : State} {a0 : Fin 8} {a1 : Fin 4} {a2 : Fin 2} {a3 : Fin 32} {s : State} (h : Keeps z
    s) :
    KeepsO z (execRefresh a0 a1 a2 a3 s) := by
  unfold execRefresh
  extract_lets +onlyGivenNames t0
  clear_value t0
  refine keepsO_ite ?_ ?_
  · exact keepsO_next h
  · exact keepsO_next (State.refreshBank_keeps (State.quiet_keeps h))

theorem execMr4Poll_keeps {z : State} {a0 : Fin 8} {a1 : Fin 4} {a2 : Bool} {s : State} (h : Keeps z s) :
    KeepsO z (execMr4Poll a0 a1 a2 s) := by
  unfold execMr4Poll
  extract_lets +onlyGivenNames t0
  clear_value t0
  extract_lets +onlyGivenNames t1
  clear_value t1
  refine keepsO_ite ?_ ?_
  · exact keepsO_next h
  · exact keepsO_next (State.issue_keeps (State.updDdr_keeps (State.quiet_keeps h)))

theorem execDqsTracking_keeps {z : State} {a0 : Fin 8} {s : State} (h : Keeps z s) :
    KeepsO z (execDqsTracking a0 s) := by
  unfold execDqsTracking
  refine keepsO_ite ?_ ?_
  · exact keepsO_next h
  · extract_lets +onlyGivenNames t0
    have h1 : Keeps z t0 := by
      unfold t0
      exact State.updDdr_keeps (State.quiet_keeps h)
    clear_value t0
    refine keepsO_next ?_
    refine keeps_foldl ?_ (fun s2 a3 h4 => ?_)
    · exact h1
    · exact State.issue_keeps (State.updDdr_keeps (keeps_free h4))

theorem State.changeSet_keeps {z : State} {s : State} {a1 : ℕ} {a2 : ℕ} (h : Keeps z s) :
    Keeps z (State.changeSet s a1 a2) := by
  unfold State.changeSet
  exact State.updDdr_keeps (State.setFld_keeps (State.sre_keeps (State.wakeChannel_keeps h)))

theorem State.endChange_keeps {z : State} {s : State} {a1 : ℕ} (h : Keeps z s) :
    Keeps z (State.endChange s a1) := by
  unfold State.endChange
  extract_lets +onlyGivenNames t0
  clear_value t0
  extract_lets +onlyGivenNames t1
  clear_value t1
  exact State.updDdr_keeps (State.chBack_keeps (State.issue_keeps (State.srx_keeps (State.setFld_keeps
    (State.setFld_keeps h)))))

theorem execFrequencyChange_keeps {z : State} {a0 : Fin 8} {s : State} (h : Keeps z s) :
    KeepsO z (execFrequencyChange a0 s) := by
  unfold execFrequencyChange
  refine keepsO_ite ?_ ?_
  · exact keepsO_next (State.endChange_keeps (State.quiet_keeps h))
  · refine keepsO_ite ?_ ?_
    · exact keepsO_next h
    · extract_lets +onlyGivenNames t0
      have h1 : Keeps z t0 := by
        unfold t0
        exact State.updDdr_keeps (State.quiet_keeps h)
      clear_value t0
      exact keepsO_next (State.changeSet_keeps h1)

theorem execSelfRefreshEntry_keeps {z : State} {a0 : Fin 8} {s : State} (h : Keeps z s) :
    KeepsO z (execSelfRefreshEntry a0 s) := by
  unfold execSelfRefreshEntry
  extract_lets +onlyGivenNames t0
  clear_value t0
  refine keepsO_ite ?_ ?_
  · exact keepsO_next h
  · exact keepsO_next (State.setFld_keeps (State.sre_keeps (State.quiet_keeps h)))

theorem execSelfRefreshExit_keeps {z : State} {a0 : Fin 8} {s : State} (h : Keeps z s) :
    KeepsO z (execSelfRefreshExit a0 s) := by
  unfold execSelfRefreshExit
  exact keepsO_next (State.wakeChannel_keeps (State.quiet_keeps h))

theorem execLowTimingSetEntry_keeps {z : State} {a0 : Fin 8} {s : State} (h : Keeps z s) :
    KeepsO z (execLowTimingSetEntry a0 s) := by
  unfold execLowTimingSetEntry
  refine keepsO_ite ?_ ?_
  · exact keepsO_next h
  · exact keepsO_next (State.changeSet_keeps (State.updDdr_keeps (State.quiet_keeps h)))

theorem execLowTimingSetExit_keeps {z : State} {a0 : Fin 8} {s : State} (h : Keeps z s) :
    KeepsO z (execLowTimingSetExit a0 s) := by
  unfold execLowTimingSetExit
  refine keepsO_ite ?_ ?_
  · exact keepsO_next h
  · extract_lets +onlyGivenNames t0
    have h1 : Keeps z t0 := by
      unfold t0
      exact State.updDdr_keeps (State.quiet_keeps h)
    clear_value t0
    refine keepsO_next ?_
    refine keeps_ite ?_ ?_
    · exact h1
    · exact State.changeSet_keeps h1

/-! ### NocServe -/

theorem State.answer_keeps {z : State} {s : State} {a1 : NocPkt} {a2 : ℕ} {a3 : ℕ} {a4 : Bool} {a5 : Option (List
    Byte)} (h : Keeps z s) :
    Keeps z (State.answer s a1 a2 a3 a4 a5) := by
  unfold State.answer
  exact State.creditBack_keeps (State.respond_keeps h)

theorem State.nack_keeps {z : State} {s : State} {a1 : NocPkt} (h : Keeps z s) :
    Keeps z (State.nack s a1) := by
  unfold State.nack
  exact State.updReg_keeps (State.answer_keeps h)

theorem State.wqMark_keeps {z : State} {s : State} {a1 : ℕ} (h : Keeps z s) :
    Keeps z (State.wqMark s a1) := by
  unfold State.wqMark
  extract_lets +onlyGivenNames t0
  clear_value t0
  refine keeps_ite ?_ ?_
  · exact State.updNoc_keeps h
  · refine keeps_ite ?_ ?_
    · exact State.updNoc_keeps h
    · exact h

theorem State.wqTake_keeps {z : State} {s : State} {a1 : ℕ} {a2 : NocPkt} (h : Keeps z s) :
    Keeps z (State.wqTake s a1 a2) := by
  unfold State.wqTake
  extract_lets +onlyGivenNames t0
  clear_value t0
  exact State.wqMark_keeps (State.updNoc_keeps h)

theorem State.putDev_keeps {z : State} {s : State} {a1 : ℕ} {a2 : List Byte} {a3 : Bool} (h : Keeps z s) :
    Keeps z (State.putDev s a1 a2 a3) := by
  unfold State.putDev
  exact State.wrAll_keeps h

theorem State.pktWrite_keeps {z : State} {s : State} {a1 : NocPkt} (h : Keeps z s) :
    Keeps z (State.pktWrite s a1) := by
  unfold State.pktWrite
  split
  · exact h
  · exact State.putDev_keeps h

theorem State.serve_keeps {z : State} {s : State} {a1 : NocPkt} {a2 : Bool} (h : Keeps z s) :
    Keeps z (State.serve s a1 a2) := by
  unfold State.serve
  split
  · extract_lets +onlyGivenNames t0
    clear_value t0
    exact State.answer_keeps h
  · exact State.answer_keeps (State.pktWrite_keeps h)
  · extract_lets +onlyGivenNames t1
    clear_value t1
    exact State.answer_keeps (State.sendSig_keeps h)
  · exact State.answer_keeps h

theorem State.freezePort_keeps {z : State} {s : State} {a1 : ℕ} {a2 : ℕ} (h : Keeps z s) :
    Keeps z (State.freezePort s a1 a2) := by
  unfold State.freezePort
  extract_lets +onlyGivenNames t0
  clear_value t0
  exact State.frozenEvent_keeps (State.setFld_keeps (State.setFld_keeps h))

theorem State.freezeSource_keeps {z : State} {s : State} {a1 : Sig} (h : Keeps z s) :
    Keeps z (State.freezeSource s a1) := by
  unfold State.freezeSource
  refine keeps_ite ?_ ?_
  · refine keeps_ite ?_ ?_
    · exact h
    · exact State.freezeEnt_keeps h
  · refine keeps_ite ?_ ?_
    · exact State.freezePort_keeps h
    · exact State.freezeCtx_keeps h

theorem execGateSignalArrival_keeps {z : State} {a0 : Fin 64} {a1 : ℕ} {s : State} (h : Keeps z s) :
    KeepsO z (execGateSignalArrival a0 a1 s) := by
  unfold execGateSignalArrival
  extract_lets +onlyGivenNames t0
  clear_value t0
  refine keepsO_ite ?_ ?_
  · split
    · exact keepsO_next h
    · extract_lets +onlyGivenNames t1
      have h2 : Keeps z t1 := by
        unfold t1
        exact State.updEng_keeps h
      clear_value t1
      extract_lets +onlyGivenNames t3
      clear_value t3
      refine keepsO_ite ?_ ?_
      · exact keepsO_next h2
      · refine keepsO_ite ?_ ?_
        · exact keepsO_next (State.addGate_keeps h2)
        · exact keepsO_next (State.freezeSource_keeps h2)
  · exact keepsO_next h

theorem State.takePkt_keeps {z : State} {s : State} {a1 : ℕ} {a2 : NocPkt} (h : Keeps z s) :
    Keeps z (State.takePkt s a1 a2) := by
  unfold State.takePkt
  exact State.probeRest_keeps (State.updNoc_keeps h)

theorem State.ejectRequest_keeps {z : State} {s : State} {a1 : NocPkt} (h : Keeps z s) :
    Keeps z (State.ejectRequest s a1) := by
  unfold State.ejectRequest
  refine keeps_ite ?_ ?_
  · refine keeps_ite ?_ ?_
    · exact State.nack_keeps h
    · extract_lets +onlyGivenNames t0
      clear_value t0
      exact keeps_mk h
  · split
    · refine keeps_ite ?_ ?_
      · exact State.serve_keeps (State.wqTake_keeps h)
      · exact State.updNoc_keeps h
    · exact State.updNoc_keeps h

theorem State.ejectResponse_keeps {z : State} {s : State} {a1 : NocPkt} (h : Keeps z s) :
    Keeps z (State.ejectResponse s a1) := by
  unfold State.ejectResponse
  refine keeps_ite ?_ ?_
  · extract_lets +onlyGivenNames t0
    have h1 : Keeps z t0 := by
      unfold t0
      exact State.updReg_keeps h
    clear_value t0
    refine keeps_ite ?_ ?_
    · exact State.creditBack_keeps h1
    · exact h1
  · refine keeps_ite ?_ ?_
    · exact State.updNoc_keeps h
    · refine keeps_ite ?_ ?_
      · exact State.updNoc_keeps h
      · exact h

theorem execPacketEject_keeps {z : State} {a0 : ℕ} {s : State} (h : Keeps z s) :
    KeepsO z (execPacketEject a0 s) := by
  unfold execPacketEject
  split
  · exact keepsO_next h
  · refine keepsO_ite ?_ ?_
    · exact keepsO_next h
    · extract_lets +onlyGivenNames t0
      have h1 : Keeps z t0 := by
        unfold t0
        exact State.takePkt_keeps h
      clear_value t0
      refine keepsO_ite ?_ ?_
      · exact keepsO_next (State.ejectResponse_keeps h1)
      · refine keepsO_ite ?_ ?_
        · exact keepsO_next (State.updNoc_keeps h1)
        · exact keepsO_next (State.ejectRequest_keeps h1)

theorem State.wqDrain_keeps {z : State} {s : State} {a1 : ℕ} {a2 : WEntry} {a3 : ℕ} (h : Keeps z s) :
    Keeps z (State.wqDrain s a1 a2 a3) := by
  unfold State.wqDrain
  extract_lets +onlyGivenNames t0
  clear_value t0
  extract_lets +onlyGivenNames t1
  have h2 : Keeps z t1 := by
    unfold t1
    exact State.updNoc_keeps h
  clear_value t1
  extract_lets +onlyGivenNames t3
  have h4 : Keeps z t3 := by
    unfold t3
    refine keeps_ite ?_ ?_
    · exact h2
    · exact State.ddrMeets_keeps (State.ddrAccess_keeps h2)
  clear_value t3
  exact State.wqMark_keeps (State.ddrAccess_keeps h4)

theorem State.cxlCount_keeps {z : State} {s : State} {a1 : ℕ} {a2 : ℕ} (h : Keeps z s) :
    Keeps z (State.cxlCount s a1 a2) := by
  unfold State.cxlCount
  split
  · exact h
  · exact State.updReg_keeps h
  · exact State.updReg_keeps h

theorem State.dequeue_keeps {z : State} {s : State} {a1 : NocPkt} (h : Keeps z s) :
    Keeps z (State.dequeue s a1) := by
  unfold State.dequeue
  exact State.updNoc_keeps h

theorem State.readLinesOf_keeps {z s : State} {p : NocPkt} {fl : List (Fin 9 × Fin 33)}
    {one : State → Nat → Nat → State × Bool} (h : Keeps z s) (hf : ∀ t a n, Keeps z t → Keeps z (one t a n).1) :
    Keeps z (s.readLinesOf p fl one).1 := by
  unfold State.readLinesOf
  exact keeps_foldl_fst h fun p a hp => hf _ _ _ hp

theorem State.ddrLineRead_keeps {z : State} {s : State} {a1 : ℕ} {a2 : ℕ} {a3 : ℕ} (h : Keeps z s) :
    Keeps z (State.ddrLineRead s a1 a2 a3).1 := by
  unfold State.ddrLineRead
  refine keeps_ite_fst ?_ ?_
  · dsimp only
    exact h
  · exact State.ddrMeets_keeps (State.ddrAccess_keeps h)

theorem State.ddrRead_keeps {z : State} {s : State} {a1 : NocPkt} {a2 : List (Fin 9 × Fin 33)} (h : Keeps z s) :
    Keeps z (State.ddrRead s a1 a2) := by
  unfold State.ddrRead
  extract_lets +onlyGivenNames t0
  have h1 : Keeps z t0.1 := by
    unfold t0
    refine State.readLinesOf_keeps ?_ ?_
    · exact State.dequeue_keeps h
    · intro x2 x3 x4 h5
      exact State.ddrLineRead_keeps h5
  clear_value t0
  exact State.serve_keeps h1

theorem State.ddrServe_keeps {z : State} {s : State} {a1 : ℕ} {a2 : ℕ} {a3 : List NocPkt} {a4 : List (Fin 9 × Fin
    33)} (h : Keeps z s) :
    Keeps z (State.ddrServe s a1 a2 a3 a4) := by
  unfold State.ddrServe
  refine keeps_ite ?_ ?_
  · split
    · exact h
    · exact State.ddrRead_keeps h
  · refine keeps_ite ?_ ?_
    · exact h
    · split
      · exact State.wqDrain_keeps h
      · refine keeps_ite ?_ ?_
        · exact State.wqDrain_keeps h
        · exact State.ddrRead_keeps h
      · exact State.ddrRead_keeps h
      · exact h

theorem execMemoryTargetResponse_keeps {z : State} {a0 : Fin 2048} {a1 : TargetTurn} {s : State} (h : Keeps z s) :
    KeepsO z (execMemoryTargetResponse a0 a1 s) := by
  unfold execMemoryTargetResponse
  extract_lets +onlyGivenNames t0
  clear_value t0
  split
  · extract_lets +onlyGivenNames t1
    have h2 : Keeps z t1 := by
      unfold t1
      refine keeps_ite ?_ ?_
      · exact h
      · exact State.wakeChannel_keeps (State.quiet_keeps h)
    clear_value t1
    exact keepsO_next (State.ddrServe_keeps h2)
  · split
    · exact keepsO_next h
    · extract_lets +onlyGivenNames t3
      have h4 : Keeps z t3 := by
        unfold t3
        exact State.dequeue_keeps h
      clear_value t3
      split
      · extract_lets +onlyGivenNames t5
        clear_value t5
        extract_lets +onlyGivenNames t6
        have h7 : Keeps z t6 := by
          unfold t6
          exact State.cxlCount_keeps h4
        clear_value t6
        extract_lets +onlyGivenNames t8
        have h9 : Keeps z t8 := by
          unfold t8
          refine keeps_ite ?_ ?_
          · exact State.markLines_keeps h7
          · exact h7
        clear_value t8
        exact keepsO_next (State.serve_keeps h9)
      · refine keepsO_ite ?_ ?_
        · extract_lets +onlyGivenNames t10
          have h11 : Keeps z t10.1 := by
            unfold t10
            refine State.readLinesOf_keeps ?_ ?_
            · exact h4
            · intro x12 x13 x14 h15
              exact State.lineMeets_keeps h15
          clear_value t10
          exact keepsO_next (State.serve_keeps h11)
        · exact keepsO_next (State.serve_keeps h4)

theorem execFabricPortRequest_keeps {z : State} {a0 : Fin 96} {a1 : FabReq} {a2 : Fin 256} {s : State} (h : Keeps z
    s) :
    KeepsO z (execFabricPortRequest a0 a1 a2 s) := by
  unfold execFabricPortRequest
  extract_lets +onlyGivenNames t0
  clear_value t0
  extract_lets +onlyGivenNames t1
  clear_value t1
  refine keepsO_ite ?_ ?_
  · exact keepsO_next h
  · split
    · exact keepsO_next (State.freezePort_keeps h)
    · split
      · exact keepsO_next h
      · exact keepsO_next (State.tryInject_keeps (State.holdReq_keeps h))

theorem State.takeAsked_keeps {z : State} {s : State} {a1 : ℕ} (h : Keeps z s) :
    Keeps z (State.takeAsked s a1) := by
  unfold State.takeAsked
  exact keeps_mk h

theorem execFabricLogicResponse_keeps {z : State} {a0 : ℕ} {a1 : List Byte} {a2 : Bool} {s : State} (h : Keeps z s) :
    KeepsO z (execFabricLogicResponse a0 a1 a2 s) := by
  unfold execFabricLogicResponse
  split
  · exact keepsO_next h
  · extract_lets +onlyGivenNames t0
    clear_value t0
    exact keepsO_next (State.answer_keeps (State.takeAsked_keeps h))

theorem execFabricPortTimeout_keeps {z : State} {a0 : ℕ} {s : State} (h : Keeps z s) :
    KeepsO z (execFabricPortTimeout a0 s) := by
  unfold execFabricPortTimeout
  split
  · exact keepsO_next h
  · split
    · exact keepsO_next h
    · refine keepsO_ite ?_ ?_
      · exact keepsO_next h
      · exact keepsO_next (State.answer_keeps (State.takeAsked_keeps h))

/-! ### Clocks -/

theorem State.fabTick_keeps {z : State} {s : State} (h : Keeps z s) :
    Keeps z (State.fabTick s) := by
  exact keeps_ite h (keeps_mk (keeps_free (k := 1) h))

/-! ### Fabric -/

theorem State.updFab_keeps {z : State} {s : State} {a1 : Fab → Fab} (h : Keeps z s) :
    Keeps z (State.updFab s a1) := by
  unfold State.updFab
  exact keeps_mk h

theorem State.putFrame_keeps {z : State} {s : State} {a1 : ℕ} {a2 : ℕ} (h : Keeps z s) :
    Keeps z (State.putFrame s a1 a2) := by
  unfold State.putFrame
  exact State.updFab_keeps h

theorem State.zeroFrames_keeps {z : State} {s : State} {a1 : ℕ} (h : Keeps z s) :
    Keeps z (State.zeroFrames s a1) := by
  unfold State.zeroFrames
  exact State.updFab_keeps h

theorem State.endLoad_keeps {z : State} {s : State} {a1 : FLoad} (h : Keeps z s) :
    Keeps z (State.endLoad s a1) := by
  unfold State.endLoad
  extract_lets +onlyGivenNames t0
  have h1 : Keeps z t0 := by
    unfold t0
    exact State.updFab_keeps h
  clear_value t0
  extract_lets +onlyGivenNames t2
  have h3 : Keeps z t2 := by
    unfold t2
    refine keeps_ite ?_ ?_
    · exact State.setFld_keeps (State.setFld_keeps h1)
    · exact h1
  clear_value t2
  exact State.endCmd_keeps h3

theorem State.setLoad_keeps {z : State} {s : State} {a1 : FLoad} {a2 : FLoad} (h : Keeps z s) :
    Keeps z (State.setLoad s a1 a2) := by
  unfold State.setLoad
  exact State.updFab_keeps h

theorem State.loadLog_keeps {z : State} {s : State} {a1 : FLoad} {a2 : ℕ} {a3 : ℕ} (h : Keeps z s) :
    Keeps z (State.loadLog s a1 a2 a3) := by
  unfold State.loadLog
  exact State.setReg_keeps (State.setReg_keeps h)

theorem State.failLoad_keeps {z : State} {s : State} {a1 : FLoad} {a2 : ℕ} (h : Keeps z s) :
    Keeps z (State.failLoad s a1 a2) := by
  unfold State.failLoad
  extract_lets +onlyGivenNames t0
  clear_value t0
  extract_lets +onlyGivenNames t1
  clear_value t1
  extract_lets +onlyGivenNames t2
  have h3 : Keeps z t2 := by
    unfold t2
    exact State.setLoad_keeps (State.toBlank_keeps h)
  clear_value t2
  refine keeps_ite ?_ ?_
  · exact State.endLoad_keeps h3
  · exact h3

theorem State.faultLoad_keeps {z : State} {s : State} {a1 : FLoad} {a2 : ℕ} {a3 : ℕ} (h : Keeps z s) :
    Keeps z (State.faultLoad s a1 a2 a3) := by
  unfold State.faultLoad
  extract_lets +onlyGivenNames t0
  have h1 : Keeps z t0 := by
    unfold t0
    exact State.updCmd_keeps h
  clear_value t0
  extract_lets +onlyGivenNames t2
  have h3 : Keeps z t2 := by
    unfold t2
    exact State.freezeArg_keeps h1
  clear_value t2
  split
  · exact h3
  · exact State.failLoad_keeps h3

theorem State.loadPoison_keeps {z : State} {s : State} {a1 : FLoad} {a2 : Bool} (h : Keeps z s) :
    Keeps z (State.loadPoison s a1 a2) := by
  unfold State.loadPoison
  refine keeps_ite ?_ ?_
  · exact State.updCmd_keeps h
  · exact h

theorem State.loadHeader_keeps {z : State} {s : State} {a1 : FLoad} (h : Keeps z s) :
    Keeps z (State.loadHeader s a1) := by
  unfold State.loadHeader
  split
  · exact State.faultLoad_keeps h
  · extract_lets +onlyGivenNames t0
    have h1 : Keeps z t0 := by
      unfold t0
      exact State.loadPoison_keeps h
    clear_value t0
    extract_lets +onlyGivenNames t2
    clear_value t2
    extract_lets +onlyGivenNames t3
    have h4 : Keeps z t3 := by
      unfold t3
      exact State.setLoad_keeps h1
    clear_value t3
    refine keeps_ite ?_ ?_
    · exact State.failLoad_keeps (State.loadLog_keeps h4)
    · split
      · exact State.failLoad_keeps (State.loadLog_keeps h4)
      · refine keeps_ite ?_ ?_
        · exact State.failLoad_keeps (State.loadLog_keeps h4)
        · extract_lets +onlyGivenNames t5
          have h6 : Keeps z t5 := by
            unfold t5
            refine keeps_foldl ?_ (fun s7 a8 h9 => ?_)
            · exact h4
            · exact State.setFld_keeps (State.setFld_keeps (State.setRegSt_keeps h9))
          clear_value t5
          exact State.setLoad_keeps h6

theorem State.beginLoad_keeps {z : State} {s : State} {a1 : FLoad} (h : Keeps z s) :
    Keeps z (State.beginLoad s a1) := by
  unfold State.beginLoad
  extract_lets +onlyGivenNames t0
  clear_value t0
  extract_lets +onlyGivenNames t1
  have h2 : Keeps z t1 := by
    unfold t1
    refine keeps_foldl ?_ (fun s3 a4 h5 => ?_)
    · exact h
    · exact State.setRegSt_keeps h5
  clear_value t1
  extract_lets +onlyGivenNames t6
  have h7 : Keeps z t6 := by
    unfold t6
    exact State.updFab_keeps h2
  clear_value t6
  extract_lets +onlyGivenNames t8
  clear_value t8
  extract_lets +onlyGivenNames t9
  have h10 : Keeps z t9 := by
    unfold t9
    exact State.setLoad_keeps h7
  clear_value t9
  refine keeps_ite ?_ ?_
  · exact State.loadHeader_keeps h10
  · exact h10

theorem State.beginLoads_keeps {z : State} {s : State} (h : Keeps z s) :
    Keeps z (State.beginLoads s) := by
  unfold State.beginLoads
  refine keeps_foldl ?_ (fun s0 a1 h2 => ?_)
  · exact h
  · refine keeps_ite ?_ ?_
    · exact State.beginLoad_keeps h2
    · exact h2

theorem State.addLoad_keeps {z : State} {s : State} {a1 : FLoad} (h : Keeps z s) :
    Keeps z (State.addLoad s a1) := by
  unfold State.addLoad
  exact State.beginLoads_keeps (State.updFab_keeps h)

theorem State.groupDone_keeps {z : State} {s : State} {a1 : List ℕ} (h : Keeps z s) :
    Keeps z (State.groupDone s a1) := by
  unfold State.groupDone
  extract_lets +onlyGivenNames t0
  have h1 : Keeps z t0 := by
    unfold t0
    exact State.updFab_keeps h
  clear_value t0
  extract_lets +onlyGivenNames t2
  clear_value t2
  extract_lets +onlyGivenNames t3
  clear_value t3
  extract_lets +onlyGivenNames t4
  have h5 : Keeps z t4 := by
    unfold t4
    exact keeps_mk h1
  clear_value t4
  extract_lets +onlyGivenNames t6
  have h7 : Keeps z t6 := by
    unfold t6
    refine keeps_foldl ?_ (fun s8 a9 h10 => ?_)
    · exact h5
    · exact State.finishCmd_keeps h10
  clear_value t6
  split
  · assumption
  · exact State.beginLoads_keeps (State.endLoad_keeps h7)

theorem execRegionRelease_keeps {z : State} {a0 : Fin 49} {s : State} (h : Keeps z s) :
    KeepsO z (execRegionRelease a0 s) := by
  unfold execRegionRelease
  split
  · exact keepsO_next h
  · extract_lets +onlyGivenNames t0
    clear_value t0
    refine keepsO_ite ?_ ?_
    · exact keepsO_next h
    · refine keepsO_ite ?_ ?_
      · refine keepsO_next ?_
        refine State.groupDone_keeps ?_
        refine keeps_foldl ?_ (fun s1 a2 h3 => ?_)
        · exact h
        · exact State.setRegSt_keeps h3
      · refine keepsO_next ?_
        refine keeps_foldl ?_ (fun s4 a5 h6 => ?_)
        · exact h
        · exact State.setRegSt_keeps h6

theorem State.freePorts_keeps {z : State} {s : State} {a1 : ℕ} (h : Keeps z s) :
    Keeps z (State.freePorts s a1) := by
  unfold State.freePorts
  refine keeps_ite ?_ ?_
  · exact h
  · refine keeps_foldl ?_ (fun s0 a1 h2 => ?_)
    · exact h
    · exact State.returnCredits_keeps (State.setFld_keeps (State.setFld_keeps h2))

theorem State.cleared_keeps {z : State} {s : State} {a1 : ℕ} (h : Keeps z s) :
    Keeps z (State.cleared s a1) := by
  unfold State.cleared
  extract_lets +onlyGivenNames t0
  have h1 : Keeps z t0 := by
    unfold t0
    exact State.setRegSt_keeps (State.zeroFrames_keeps h)
  clear_value t0
  extract_lets +onlyGivenNames t2
  have h3 : Keeps z t2 := by
    unfold t2
    exact State.setReg_keeps (State.setFld_keeps (State.setFld_keeps h1))
  clear_value t2
  exact State.freePorts_keeps (State.updFab_keeps h3)

theorem execRegionBlanking_keeps {z : State} {a0 : Fin 49} {s : State} (h : Keeps z s) :
    KeepsO z (execRegionBlanking a0 s) := by
  unfold execRegionBlanking
  split
  · exact keepsO_next (State.beginLoads_keeps h)
  · extract_lets +onlyGivenNames t0
    clear_value t0
    extract_lets +onlyGivenNames t1
    have h2 : Keeps z t1 := by
      unfold t1
      exact State.setLoad_keeps (State.cleared_keeps h)
    clear_value t1
    refine keepsO_ite ?_ ?_
    · exact keepsO_next h2
    · refine keepsO_ite ?_ ?_
      · exact keepsO_next (State.settleResets_keeps (State.beginLoads_keeps (State.endLoad_keeps h2)))
      · exact keepsO_next (State.beginLoads_keeps (State.loadHeader_keeps h2))

theorem State.loadRecord_keeps {z s t : State} {l : FLoad} {r : List Byte} (h : Keeps z s)
    (e : s.loadRecord l r = .ok t) : Keeps z t := by
  unfold State.loadRecord at e
  extract_lets at e
  split at e
  · cases e
  · split at e
    · cases e
    · cases e
      exact State.putFrame_keeps h

theorem State.loadRecords_keeps {z s : State} {l : FLoad} {bs : List Byte} {n : Nat} (h : Keeps z s) :
    Keeps z (s.loadRecords l bs n).1 := by
  induction n generalizing s bs with
  | zero => exact h
  | succ n ih =>
    unfold State.loadRecords
    split
    · exact h
    · exact ih (State.loadRecord_keeps h ‹_›)

theorem State.configure_keeps {z : State} {s : State} {a1 : ℕ} (h : Keeps z s) :
    Keeps z (State.configure s a1) := by
  unfold State.configure
  exact State.updFab_keeps (State.setReg_keeps h)

theorem State.loadTail_keeps {z : State} {s : State} {a1 : FLoad} (h : Keeps z s) :
    Keeps z (State.loadTail s a1) := by
  unfold State.loadTail
  split
  · exact State.faultLoad_keeps h
  · extract_lets +onlyGivenNames t0
    have h1 : Keeps z t0 := by
      unfold t0
      exact State.loadPoison_keeps h
    clear_value t0
    extract_lets +onlyGivenNames t2
    clear_value t2
    refine keeps_ite ?_ ?_
    · exact State.failLoad_keeps (State.loadLog_keeps h1)
    · refine keeps_ite ?_ ?_
      · exact State.failLoad_keeps (State.loadLog_keeps h1)
      · extract_lets +onlyGivenNames t3
        have h4 : Keeps z t3 := by
          unfold t3
          refine keeps_foldl ?_ (fun s5 a6 h7 => ?_)
          · exact h1
          · exact State.configure_keeps (State.setRegSt_keeps h7)
        clear_value t3
        extract_lets +onlyGivenNames t8
        have h9 : Keeps z t8 := by
          unfold t8
          exact State.updFab_keeps h4
        clear_value t8
        exact State.setLoad_keeps h9

theorem State.loadSegment_keeps {z : State} {s : State} {a1 : FLoad} (h : Keeps z s) :
    Keeps z (State.loadSegment s a1) := by
  unfold State.loadSegment
  extract_lets +onlyGivenNames t0
  clear_value t0
  refine keeps_ite ?_ ?_
  · exact State.loadTail_keeps h
  · split
    · exact State.faultLoad_keeps h
    · extract_lets +onlyGivenNames t1
      have h2 : Keeps z t1 := by
        unfold t1
        exact State.loadPoison_keeps h
      clear_value t1
      extract_lets +onlyGivenNames t3
      clear_value t3
      split
      · exact State.failLoad_keeps (State.loadLog_keeps h2)
      · extract_lets +onlyGivenNames t4
        have h5 : Keeps z t4.1 := by
          unfold t4
          exact State.loadRecords_keeps h2
        clear_value t4
        split
        · extract_lets +onlyGivenNames t6
          have h7 : Keeps z t6 := by
            unfold t6
            exact State.loadLog_keeps h5
          clear_value t6
          refine keeps_ite ?_ ?_
          · exact State.faultLoad_keeps h7
          · exact State.failLoad_keeps h7
        · extract_lets +onlyGivenNames t8
          clear_value t8
          extract_lets +onlyGivenNames t9
          have h10 : Keeps z t9 := by
            unfold t9
            exact State.setLoad_keeps h5
          clear_value t9
          refine keeps_ite ?_ ?_
          · exact State.loadTail_keeps h10
          · exact h10

theorem execLoadSegment_keeps {z : State} {a0 : Fin 2} {s : State} (h : Keeps z s) :
    KeepsO z (execLoadSegment a0 s) := by
  unfold execLoadSegment
  split
  · exact keepsO_next (State.beginLoads_keeps h)
  · exact keepsO_next (State.beginLoads_keeps (State.loadSegment_keeps h))

theorem fabLoadStart_keeps {z : State} {s : State} {a1 : Cmd} (h : Keeps z s) :
    Keeps z (fabLoadStart s a1) := by
  unfold fabLoadStart
  split
  · exact State.endCmd_keeps h
  · exact State.addLoad_keeps h

theorem fabLoadRow_keeps {z : State} : CmdRow.Keeps z fabLoadRow := by
  intro s0 c1 h2
  dsimp only [fabLoadRow]
  exact fabLoadStart_keeps h2

theorem execFabLoad_keeps {z : State} {a0 : Fin 16384} {s : State} (h : Keeps z s) :
    KeepsO z (execFabLoad a0 s) := by
  unfold execFabLoad
  refine acceptCmd_keeps ?_ ?_
  · exact h
  · exact fabLoadRow_keeps

theorem fabBlankRow_keeps {z : State} : CmdRow.Keeps z fabBlankRow := by
  intro s0 c1 h2
  dsimp only [fabBlankRow]
  exact State.addLoad_keeps h2

theorem execFabBlank_keeps {z : State} {a0 : Fin 16384} {s : State} (h : Keeps z s) :
    KeepsO z (execFabBlank a0 s) := by
  unfold execFabBlank
  refine acceptCmd_keeps ?_ ?_
  · exact h
  · exact fabBlankRow_keeps

theorem execBootFabricLoad_keeps {z : State} {s : State} (h : Keeps z s) :
    KeepsO z (execBootFabricLoad s) := by
  unfold execBootFabricLoad
  refine keepsO_ite ?_ ?_
  · exact keepsO_next h
  · split
    · exact keepsO_next (State.setFld_keeps (State.setFld_keeps h))
    · extract_lets +onlyGivenNames t0
      clear_value t0
      exact keepsO_next (State.addLoad_keeps h)

/-! ### Browse -/

theorem State.flip_keeps {z : State} {s : State} {a1 : ℕ} {a2 : List ℕ} (h : Keeps z s) :
    Keeps z (State.flip s a1 a2) := by
  unfold State.flip
  exact State.updFab_keeps h

theorem execReadback_keeps {z : State} {a0 : W32} {s : State} (h : Keeps z s) :
    KeepsO z (execReadback a0 s) := by
  unfold execReadback
  exact keepsO_next (State.regWrite_keeps h)

theorem execReadbackDone_keeps {z : State} {s : State} (h : Keeps z s) :
    KeepsO z (execReadbackDone s) := by
  unfold execReadbackDone
  refine keepsO_ite ?_ ?_
  · exact keepsO_next h
  · extract_lets +onlyGivenNames t0
    clear_value t0
    refine keepsO_ite ?_ ?_
    · exact keepsO_next (State.setFld_keeps h)
    · extract_lets +onlyGivenNames t1
      clear_value t1
      extract_lets +onlyGivenNames t2
      have h3 : Keeps z t2 := by
        unfold t2
        refine keeps_foldl ?_ (fun s4 a5 h6 => ?_)
        · exact h
        · exact State.setReg_keeps h6
      clear_value t2
      extract_lets +onlyGivenNames t7
      have h8 : Keeps z t7 := by
        unfold t7
        exact State.setFld_keeps (State.setFld_keeps (State.setFld_keeps h3))
      clear_value t7
      exact keepsO_next (State.setReg_keeps h8)

theorem execBbramCommit_keeps {z : State} {s : State} (h : Keeps z s) :
    KeepsO z (execBbramCommit s) := by
  unfold execBbramCommit
  exact keepsO_next (State.regWrite_keeps h)

theorem execBbramErase_keeps {z : State} {s : State} (h : Keeps z s) :
    KeepsO z (execBbramErase s) := by
  unfold execBbramErase
  exact keepsO_next (State.regWrite_keeps h)

theorem State.updBrowse_keeps {z : State} {s : State} {a1 : ℕ} {a2 : Browse → Browse} (h : Keeps z s) :
    Keeps z (State.updBrowse s a1 a2) := by
  unfold State.updBrowse
  exact State.updFab_keeps h

theorem State.browseLog_keeps {z : State} {s : State} {a1 : ℕ} {a2 : ℕ} {a3 : ℕ} {a4 : ℕ} {a5 : ℕ} (h : Keeps z s) :
    Keeps z (State.browseLog s a1 a2 a3 a4 a5) := by
  unfold State.browseLog
  extract_lets +onlyGivenNames t0
  clear_value t0
  exact State.setReg_keeps (State.setReg_keeps h)

theorem State.browseMulti_keeps {z : State} {s : State} {a1 : ℕ} {a2 : ℕ} (h : Keeps z s) :
    Keeps z (State.browseMulti s a1 a2) := by
  unfold State.browseMulti
  extract_lets +onlyGivenNames t0
  clear_value t0
  extract_lets +onlyGivenNames t1
  clear_value t1
  extract_lets +onlyGivenNames t2
  have h3 : Keeps z t2 := by
    unfold t2
    exact State.browseLog_keeps (State.updReg_keeps h)
  clear_value t2
  extract_lets +onlyGivenNames t4
  clear_value t4
  extract_lets +onlyGivenNames t5
  have h6 : Keeps z t5 := by
    unfold t5
    refine keeps_ite ?_ ?_
    · exact h3
    · exact State.updBrowse_keeps (State.event_keeps h3)
  clear_value t5
  refine keeps_ite ?_ ?_
  · exact State.setRegSt_keeps h6
  · exact h6

theorem State.browseNext_keeps {z : State} {s : State} {a1 : ℕ} (h : Keeps z s) :
    Keeps z (State.browseNext s a1) := by
  unfold State.browseNext
  extract_lets +onlyGivenNames t0
  clear_value t0
  refine keeps_ite ?_ ?_
  · exact State.setFld_keeps h
  · extract_lets +onlyGivenNames t1
    have h2 : Keeps z t1 := by
      unfold t1
      exact State.setFld_keeps (State.setFld_keeps h)
    clear_value t1
    exact State.updBrowse_keeps (State.setReg_keeps h2)

theorem execBrowseFrame_keeps {z : State} {a0 : Fin 2} {a1 : List (Fin 4110)} {s : State} (h : Keeps z s) :
    KeepsO z (execBrowseFrame a0 a1 s) := by
  unfold execBrowseFrame
  refine keepsO_ite ?_ ?_
  · exact keepsO_next (State.setFld_keeps h)
  · refine keepsO_ite ?_ ?_
    · exact keepsO_next h
    · extract_lets +onlyGivenNames t0
      clear_value t0
      extract_lets +onlyGivenNames t1
      clear_value t1
      extract_lets +onlyGivenNames t2
      have h3 : Keeps z t2 := by
        unfold t2
        exact State.setFld_keeps h
      clear_value t2
      refine keepsO_ite ?_ ?_
      · exact keepsO_next (State.browseNext_keeps h3)
      · extract_lets +onlyGivenNames t4
        have h5 : Keeps z t4 := by
          unfold t4
          exact State.browseNext_keeps (State.flip_keeps h3)
        clear_value t4
        split
        · exact keepsO_next h5
        · exact keepsO_next (State.updBrowse_keeps (State.setFld_keeps h5))
        · exact keepsO_next (State.browseMulti_keeps h5)

theorem execBrowseWriteback_keeps {z : State} {a0 : Fin 2} {a1 : List (Fin 4110)} {s : State} (h : Keeps z s) :
    KeepsO z (execBrowseWriteback a0 a1 s) := by
  unfold execBrowseWriteback
  split
  · exact keepsO_next h
  · extract_lets +onlyGivenNames t0
    have h1 : Keeps z t0 := by
      unfold t0
      exact State.updBrowse_keeps (State.setFld_keeps h)
    clear_value t0
    extract_lets +onlyGivenNames t2
    clear_value t2
    refine keepsO_ite ?_ ?_
    · exact keepsO_next h1
    · extract_lets +onlyGivenNames t3
      clear_value t3
      extract_lets +onlyGivenNames t4
      have h5 : Keeps z t4 := by
        unfold t4
        exact State.flip_keeps (State.flip_keeps h1)
      clear_value t4
      split
      · exact keepsO_next (State.browseLog_keeps (State.updReg_keeps h5))
      · refine keepsO_ite ?_ ?_
        · extract_lets +onlyGivenNames t6
          clear_value t6
          exact keepsO_next (State.updBrowse_keeps (State.setFld_keeps h5))
        · exact keepsO_next (State.browseMulti_keeps h5)

theorem execVotefix_keeps {z : State} {a0 : Fin 2} {s : State} (h : Keeps z s) :
    KeepsO z (execVotefix a0 s) := by
  unfold execVotefix
  exact keepsO_next (State.browseLog_keeps (State.updReg_keeps h))

theorem execBrowseWatchdog_keeps {z : State} {a0 : Fin 2} {s : State} (h : Keeps z s) :
    KeepsO z (execBrowseWatchdog a0 s) := by
  unfold execBrowseWatchdog
  refine keepsO_ite ?_ ?_
  · exact keepsO_next h
  · extract_lets +onlyGivenNames t0
    have h1 : Keeps z t0 := by
      unfold t0
      exact State.browseLog_keeps (State.updReg_keeps h)
    clear_value t0
    extract_lets +onlyGivenNames t2
    have h3 : Keeps z t2 := by
      unfold t2
      exact State.setFld_keeps (State.setFld_keeps h1)
    clear_value t2
    exact keepsO_next (State.updBrowse_keeps h3)

end Sys2Proof.Machine
end

