-- ==== Sys2Proof/Laws/Keeps5.lean ====
section
/-! SUPPORT. Every operation and meaning of the files CmdEngine, CmdChain, Release, CmdPeer, CxlLink, EthFrame,
Secure of Machine keeps the queue, the count of free values and the canonical form of memory (Keeps). -/

namespace Sys2Proof.Machine

/-! ### CmdEngine -/

theorem State.noteGens_keeps {z : State} {s : State} {a1 : Cmd} (h : Keeps z s) :
    Keeps z (State.noteGens s a1) := by
  unfold State.noteGens
  refine keeps_ite ?_ ?_
  · exact h
  · extract_lets +onlyGivenNames t0
    clear_value t0
    exact State.updCmd_keeps h

theorem State.placeOn_keeps {z : State} {s : State} {a1 : ℕ} {a2 : ℕ} {a3 : ℕ} {a4 : ℕ} {a5 : ℕ} {a6 : ℕ} {a7 : ℕ}
    {a8 : List ℕ} (h : Keeps z s) :
    Keeps z (State.placeOn s a1 a2 a3 a4 a5 a6 a7 a8) := by
  unfold State.placeOn
  extract_lets +onlyGivenNames t0
  clear_value t0
  extract_lets +onlyGivenNames t1
  have h2 : Keeps z t1 := by
    unfold t1
    exact State.setSlot_keeps h
  clear_value t1
  extract_lets +onlyGivenNames t3
  have h4 : Keeps z t3 := by
    unfold t3
    exact State.setReg_keeps (State.setReg_keeps h2)
  clear_value t3
  extract_lets +onlyGivenNames t5
  have h6 : Keeps z t5 := by
    unfold t5
    refine keeps_foldl ?_ (fun s7 a8 h9 => ?_)
    · exact h4
    · exact State.setReg_keeps h9
  clear_value t5
  exact State.wakeEngine_keeps (State.setReg_keeps (State.setSeeds_keeps (State.setControls_keeps h6)))

theorem State.placeNext_keeps {z : State} {s : State} {a1 : Cmd} {a2 : ℕ} (h : Keeps z s) :
    Keeps z (State.placeNext s a1 a2) := by
  unfold State.placeNext
  extract_lets +onlyGivenNames t0
  clear_value t0
  extract_lets +onlyGivenNames t1
  clear_value t1
  split
  · exact State.placeOn_keeps h
  · exact h

theorem ctxPlaceRow_keeps {z : State} : CmdRow.Keeps z ctxPlaceRow := by
  intro s0 c1 h2
  dsimp only [ctxPlaceRow]
  refine State.finishCmd_keeps ?_
  refine keeps_foldl ?_ (fun s3 a4 h5 => ?_)
  · exact h2
  · exact State.placeNext_keeps h5

theorem execCtxPlace_keeps {z : State} {a0 : Fin 16384} {s : State} (h : Keeps z s) :
    KeepsO z (execCtxPlace a0 s) := by
  unfold execCtxPlace
  refine acceptCmd_keeps ?_ ?_
  · exact h
  · exact ctxPlaceRow_keeps

theorem State.resetReg_keeps {z : State} {s : State} {a1 : ℕ} (h : Keeps z s) :
    Keeps z (State.resetReg s a1) := by
  unfold State.resetReg
  exact State.setReg_keeps h

theorem State.emptySlot_keeps {z : State} {s : State} {a1 : ℕ} {a2 : ℕ} (h : Keeps z s) :
    Keeps z (State.emptySlot s a1 a2) := by
  unfold State.emptySlot
  extract_lets +onlyGivenNames t0
  clear_value t0
  extract_lets +onlyGivenNames t1
  have h2 : Keeps z t1 := by
    unfold t1
    exact State.updEng_keeps h
  clear_value t1
  refine keeps_foldl ?_ (fun s3 a4 h5 => ?_)
  · exact h2
  · exact State.resetReg_keeps h5

theorem State.freeGates_keeps {z : State} {s : State} {a1 : ℕ} {a2 : ℕ} (h : Keeps z s) :
    Keeps z (State.freeGates s a1 a2) := by
  unfold State.freeGates
  refine keeps_foldl ?_ (fun s0 a1 h2 => ?_)
  · exact h
  · extract_lets +onlyGivenNames t3
    clear_value t3
    refine keeps_ite ?_ ?_
    · exact State.setReg_keeps h2
    · exact h2

theorem State.unplace_keeps {z : State} {s : State} {a1 : ℕ} {a2 : ℕ} (h : Keeps z s) :
    Keeps z (State.unplace s a1 a2) := by
  unfold State.unplace
  split
  · exact h
  · exact State.updEng_keeps (State.freeGates_keeps (State.emptySlot_keeps h))

theorem ctxUnplaceRow_keeps {z : State} : CmdRow.Keeps z ctxUnplaceRow := by
  intro s0 c1 h2
  dsimp only [ctxUnplaceRow]
  refine State.finishCmd_keeps ?_
  refine keeps_foldl ?_ (fun s3 a4 h5 => ?_)
  · exact h2
  · exact State.unplace_keeps h5

theorem execCtxUnplace_keeps {z : State} {a0 : Fin 16384} {s : State} (h : Keeps z s) :
    KeepsO z (execCtxUnplace a0 s) := by
  unfold execCtxUnplace
  refine acceptCmd_keeps ?_ ?_
  · exact h
  · exact ctxUnplaceRow_keeps

theorem State.imemPut_keeps {z : State} {s : State} {a1 : ℕ} {a2 : ℕ} {a3 : ℕ} {a4 : List Byte} (h : Keeps z s) :
    Keeps z (State.imemPut s a1 a2 a3 a4) := by
  unfold State.imemPut
  extract_lets +onlyGivenNames t0
  clear_value t0
  extract_lets +onlyGivenNames t1
  clear_value t1
  exact State.updEng_keeps h

theorem imemWriteStart_keeps {z : State} {s : State} {a1 : Cmd} (h : Keeps z s) :
    Keeps z (imemWriteStart s a1) := by
  unfold imemWriteStart
  split
  · exact State.endCmd_keeps h
  · refine State.finishCmd_keeps ?_
    refine keeps_foldl ?_ (fun s0 a1 h2 => ?_)
    · exact h
    · exact State.imemPut_keeps h2

theorem imemWriteRow_keeps {z : State} : CmdRow.Keeps z imemWriteRow := by
  intro s0 c1 h2
  dsimp only [imemWriteRow]
  exact imemWriteStart_keeps h2

theorem execImemWrite_keeps {z : State} {a0 : Fin 16384} {s : State} (h : Keeps z s) :
    KeepsO z (execImemWrite a0 s) := by
  unfold execImemWrite
  refine acceptCmd_keeps ?_ ?_
  · exact h
  · exact imemWriteRow_keeps

theorem State.startRun_keeps {z : State} {s : State} {a1 : Cmd} (h : Keeps z s) :
    Keeps z (State.startRun s a1) := by
  unfold State.startRun
  extract_lets +onlyGivenNames t0
  clear_value t0
  refine keeps_foldl ?_ (fun s1 a2 h3 => ?_)
  · exact h
  · split
    · exact h3
    · exact State.updSlot_keeps (State.wakeEngine_keeps h3)

theorem runStart_keeps {z : State} {s : State} {a1 : Cmd} (h : Keeps z s) :
    Keeps z (runStart s a1) := by
  unfold runStart
  refine keeps_ite ?_ ?_
  · exact State.finishCmd_keeps h
  · exact State.startRun_keeps (State.noteGens_keeps h)

theorem runRow_keeps {z : State} : CmdRow.Keeps z runRow := by
  intro s0 c1 h2
  dsimp only [runRow]
  exact runStart_keeps h2

theorem execRun_keeps {z : State} {a0 : Fin 16384} {s : State} (h : Keeps z s) :
    KeepsO z (execRun a0 s) := by
  unfold execRun
  refine acceptCmd_keeps ?_ ?_
  · exact h
  · exact runRow_keeps

theorem State.takeSlot_keeps {z : State} {s : State} {a1 : Cmd} {a2 : ℕ} (h : Keeps z s) :
    Keeps z (State.takeSlot s a1 a2) := by
  unfold State.takeSlot
  split
  · exact h
  · exact State.updSlot_keeps h

theorem State.convFault_keeps {z : State} {s : State} {a1 : Cmd} {a2 : ℕ} {a3 : ℤ} {a4 : ℕ} (h : Keeps z s) :
    Keeps z (State.convFault s a1 a2 a3 a4) := by
  unfold State.convFault
  split
  · exact h
  · exact State.streamFault_keeps (State.updCmd_keeps h)

theorem State.convDone_keeps {z : State} {s : State} {a1 : Cmd} {a2 : Fl} {a3 : Bool} (h : Keeps z s) :
    Keeps z (State.convDone s a1 a2 a3) := by
  unfold State.convDone
  extract_lets +onlyGivenNames t0
  have h1 : Keeps z t0 := by
    unfold t0
    exact State.updCmd_keeps h
  clear_value t0
  exact State.finishCmd_keeps (State.placeSlots_keeps h1)

theorem State.runConvert_keeps {z : State} {s : State} {a1 : Cmd} {a2 : ℕ} {a3 : ℕ} {a4 : Fmt} {a5 : Fmt} (h :
    Keeps z s) :
    Keeps z (State.runConvert s a1 a2 a3 a4 a5) := by
  unfold State.runConvert
  extract_lets +onlyGivenNames t0
  clear_value t0
  extract_lets +onlyGivenNames t1
  clear_value t1
  extract_lets +onlyGivenNames t2
  clear_value t2
  extract_lets +onlyGivenNames t3
  clear_value t3
  split
  · exact State.convFault_keeps h
  · exact State.convFault_keeps h
  · extract_lets +onlyGivenNames t4
    clear_value t4
    extract_lets +onlyGivenNames t5
    clear_value t5
    extract_lets +onlyGivenNames t6
    clear_value t6
    extract_lets +onlyGivenNames t7
    clear_value t7
    extract_lets +onlyGivenNames t8
    clear_value t8
    extract_lets +onlyGivenNames t9
    clear_value t9
    split
    · exact State.convFault_keeps h
    · extract_lets +onlyGivenNames t10
      have h11 : Keeps z t10 := by
        unfold t10
        exact State.scatter_keeps h
      clear_value t10
      extract_lets +onlyGivenNames t12
      have h13 : Keeps z t12 := by
        unfold t12
        exact State.touchVas_keeps h11
      clear_value t12
      exact State.convDone_keeps (State.setReg_keeps h13)

theorem convertStart_keeps {z : State} {s : State} {a1 : Cmd} (h : Keeps z s) :
    Keeps z (convertStart s a1) := by
  unfold convertStart
  split
  · exact State.endCmd_keeps h
  · extract_lets +onlyGivenNames t0
    have h1 : Keeps z t0 := by
      unfold t0
      exact State.takeSlot_keeps (State.noteGens_keeps h)
    clear_value t0
    split
    · extract_lets +onlyGivenNames t2
      have h3 : Keeps z t2 := by
        unfold t2
        exact State.runConvert_keeps h1
      clear_value t2
      exact keeps_free h3
    · exact State.endCmd_keeps h1

theorem convertRow_keeps {z : State} : CmdRow.Keeps z convertRow := by
  intro s0 c1 h2
  dsimp only [convertRow]
  exact convertStart_keeps h2

theorem execConvert_keeps {z : State} {a0 : Fin 16384} {s : State} (h : Keeps z s) :
    KeepsO z (execConvert a0 s) := by
  unfold execConvert
  refine acceptCmd_keeps ?_ ?_
  · exact h
  · exact convertRow_keeps

theorem copyStart_keeps {z : State} {s : State} {a1 : Cmd} (h : Keeps z s) :
    Keeps z (copyStart s a1) := by
  unfold copyStart
  split
  · exact State.endCmd_keeps h
  · extract_lets +onlyGivenNames t0
    have h1 : Keeps z t0 := by
      unfold t0
      exact State.takeSlot_keeps (State.noteGens_keeps h)
    clear_value t0
    split
    · exact State.endCmd_keeps h1
    · extract_lets +onlyGivenNames t2
      clear_value t2
      exact State.updEng_keeps h1

theorem copyRow_keeps {z : State} : CmdRow.Keeps z copyRow := by
  intro s0 c1 h2
  dsimp only [copyRow]
  exact copyStart_keeps h2

theorem execCopy_keeps {z : State} {a0 : Fin 16384} {s : State} (h : Keeps z s) :
    KeepsO z (execCopy a0 s) := by
  unfold execCopy
  refine acceptCmd_keeps ?_ ?_
  · exact h
  · exact copyRow_keeps

/-! ### CmdChain -/

theorem chainStart_keeps {z : State} {s : State} {a1 : Cmd} (h : Keeps z s) :
    Keeps z (chainStart s a1) := by
  unfold chainStart
  split
  · exact State.endCmd_keeps h
  · extract_lets +onlyGivenNames t0
    have h1 : Keeps z t0 := by
      unfold t0
      refine keeps_foldl ?_ (fun s2 a3 h4 => ?_)
      · exact State.noteGens_keeps h
      · exact State.takeSlot_keeps h4
    clear_value t0
    extract_lets +onlyGivenNames t5
    have h6 : Keeps z t5 := by
      unfold t5
      exact State.updCmd_keeps h1
    clear_value t5
    refine keeps_foldl ?_ (fun s7 a8 h9 => ?_)
    · exact h6
    · exact State.enqueuePass_keeps h9

theorem chainRow_keeps {z : State} : CmdRow.Keeps z chainRow := by
  intro s0 c1 h2
  dsimp only [chainRow]
  exact chainStart_keeps h2

theorem execChain_keeps {z : State} {a0 : Fin 16384} {s : State} (h : Keeps z s) :
    KeepsO z (execChain a0 s) := by
  unfold execChain
  refine acceptCmd_keeps ?_ ?_
  · exact h
  · exact chainRow_keeps

/-! ### Release -/

theorem State.runFix_keeps {z : State} {s : State} {a1 : Cmd} {a2 : Fix} (h : Keeps z s) :
    Keeps z (State.runFix s a1 a2) := by
  unfold State.runFix
  split
  · split
    · exact State.streamFault_keeps h
    · exact State.streamFault_keeps h
    · extract_lets +onlyGivenNames t0
      clear_value t0
      extract_lets +onlyGivenNames t1
      clear_value t1
      extract_lets +onlyGivenNames t2
      clear_value t2
      extract_lets +onlyGivenNames t3
      clear_value t3
      extract_lets +onlyGivenNames t4
      clear_value t4
      extract_lets +onlyGivenNames t5
      have h6 : Keeps z t5 := by
        unfold t5
        exact State.setReg_keeps h
      clear_value t5
      extract_lets +onlyGivenNames t7
      have h8 : Keeps z t7.1 := by
        unfold t7
        exact State.scatter_keeps h6
      clear_value t7
      exact State.updCmd_keeps (State.touchVas_keeps h8)
  · exact h

theorem State.settleRom_keeps {z : State} {s : State} {a1 : ℕ} (h : Keeps z s) :
    Keeps z (State.settleRom s a1) := by
  unfold State.settleRom
  split
  · exact h
  · refine keeps_ite ?_ ?_
    · refine keeps_ite ?_ ?_
      · exact State.finishRom_keeps h
      · exact h
    · extract_lets +onlyGivenNames t0
      clear_value t0
      extract_lets +onlyGivenNames t1
      have h2 : Keeps z t1 := by
        unfold t1
        exact State.updCmd_keeps h
      clear_value t1
      extract_lets +onlyGivenNames t3
      have h4 : Keeps z t3 := by
        unfold t3
        refine keeps_foldl ?_ (fun s5 a6 h7 => ?_)
        · exact h2
        · exact State.runFix_keeps h7
      clear_value t3
      split
      · refine keeps_ite ?_ ?_
        · exact State.finishRom_keeps h4
        · exact h4
      · exact h4

theorem State.putOut_keeps {z : State} {s : State} {a1 : ℕ} {a2 : Pass} {a3 : Option SDesc} {a4 : List Byte} (h :
    Keeps z s) :
    Keeps z (State.putOut s a1 a2 a3 a4) := by
  unfold State.putOut
  split
  · exact h
  · exact State.scatter_keeps h

theorem State.releaseStot_keeps {z : State} {s : State} {a1 : Pass} (h : Keeps z s) :
    Keeps z (State.releaseStot s a1) := by
  unfold State.releaseStot
  split
  · exact h
  · extract_lets +onlyGivenNames t0
    clear_value t0
    extract_lets +onlyGivenNames t1
    clear_value t1
    split
    · exact State.updCmd_keeps h
    · exact State.sendStot_keeps h

theorem State.releaseFlags_keeps {z : State} {s : State} {a1 : Pass} (h : Keeps z s) :
    Keeps z (State.releaseFlags s a1) := by
  unfold State.releaseFlags
  extract_lets +onlyGivenNames t0
  clear_value t0
  extract_lets +onlyGivenNames t1
  clear_value t1
  exact State.updCmd_keeps h

theorem State.deliverPass_keeps {z : State} {s : State} {a1 : ℕ} {a2 : Pass} (h : Keeps z s) :
    Keeps z (State.deliverPass s a1 a2) := by
  unfold State.deliverPass
  extract_lets +onlyGivenNames t0
  clear_value t0
  extract_lets +onlyGivenNames t1
  have h2 : Keeps z t1 := by
    unfold t1
    exact State.putOut_keeps h
  clear_value t1
  extract_lets +onlyGivenNames t3
  have h4 : Keeps z t3 := by
    unfold t3
    exact State.putOut_keeps h2
  clear_value t3
  extract_lets +onlyGivenNames t5
  have h6 : Keeps z t5 := by
    unfold t5
    exact State.putOut_keeps h4
  clear_value t5
  extract_lets +onlyGivenNames t7
  have h8 : Keeps z t7 := by
    unfold t7
    exact State.putOut_keeps h6
  clear_value t7
  extract_lets +onlyGivenNames t9
  have h10 : Keeps z t9 := by
    unfold t9
    exact State.releaseFlags_keeps (State.releaseStot_keeps h8)
  clear_value t9
  extract_lets +onlyGivenNames t11
  have h12 : Keeps z t11 := by
    unfold t11
    exact State.updReg_keeps h10
  clear_value t11
  refine keeps_ite ?_ ?_
  · exact State.sendSig_keeps h12
  · exact h12

theorem execRelease_keeps {z : State} {a0 : Fin 64} {s : State} (h : Keeps z s) :
    KeepsO z (execRelease a0 s) := by
  unfold execRelease
  extract_lets +onlyGivenNames t0
  clear_value t0
  split
  · exact keepsO_next h
  · split
    · exact keepsO_next (State.wake_keeps (State.settleRom_keeps (State.dropPass_keeps h)))
    · refine keepsO_ite ?_ ?_
      · exact keepsO_next h
      · split
        · exact keepsO_next (State.streamFault_keeps (State.dropPass_keeps h))
        · exact keepsO_next (State.wake_keeps (State.settleRom_keeps (State.dropPass_keeps (State.touchVas_keeps
            (State.deliverPass_keeps h)))))
    · exact keepsO_next h

/-! ### CmdPeer -/

theorem gateSignalStart_keeps {z : State} {s : State} {a1 : Cmd} (h : Keeps z s) :
    Keeps z (gateSignalStart s a1) := by
  unfold gateSignalStart
  extract_lets +onlyGivenNames t0
  clear_value t0
  extract_lets +onlyGivenNames t1
  clear_value t1
  extract_lets +onlyGivenNames t2
  clear_value t2
  refine keeps_ite ?_ ?_
  · exact State.finishCmd_keeps (State.faultCtx_keeps h)
  · refine keeps_ite ?_ ?_
    · exact State.finishCmd_keeps (State.faultCtx_keeps (State.raiseArmed_keeps (State.setFld_keeps
        (State.setGateCount_keeps h))))
    · exact State.finishCmd_keeps (State.addGate_keeps h)

theorem gateSignalRow_keeps {z : State} : CmdRow.Keeps z gateSignalRow := by
  intro s0 c1 h2
  dsimp only [gateSignalRow]
  exact gateSignalStart_keeps h2

theorem execGateSignal_keeps {z : State} {a0 : Fin 16384} {s : State} (h : Keeps z s) :
    KeepsO z (execGateSignal a0 s) := by
  unfold execGateSignal
  refine acceptCmd_keeps ?_ ?_
  · exact h
  · exact gateSignalRow_keeps

theorem stotDiscardRow_keeps {z : State} : CmdRow.Keeps z stotDiscardRow := by
  intro s0 c1 h2
  dsimp only [stotDiscardRow]
  exact State.finishCmd_keeps (keeps_mk h2)

theorem execStotDiscard_keeps {z : State} {a0 : Fin 16384} {s : State} (h : Keeps z s) :
    KeepsO z (execStotDiscard a0 s) := by
  unfold execStotDiscard
  refine acceptCmd_keeps ?_ ?_
  · exact h
  · exact stotDiscardRow_keeps

theorem State.freezeMaster_keeps {z : State} {s : State} {a1 : ℕ} {a2 : ℕ} (h : Keeps z s) :
    Keeps z (State.freezeMaster s a1 a2) := by
  unfold State.freezeMaster
  split
  · exact State.setFld_keeps h
  · exact State.stopLoads_keeps (State.updCtx_keeps h)
  · exact State.updEng_keeps h
  · exact State.setFld_keeps (State.setFld_keeps h)
  · exact State.opsFail_keeps (State.iceEnt_keeps h)
  · exact State.iceEnt_keeps h

theorem State.resume_keeps {z : State} {s : State} (h : Keeps z s) :
    Keeps z (State.resume s) := by
  unfold State.resume
  extract_lets +onlyGivenNames t0
  have h1 : Keeps z t0 := by
    unfold t0
    refine keeps_foldl ?_ (fun s2 a3 h4 => ?_)
    · exact h
    · exact State.wake_keeps h4
  clear_value t0
  refine keeps_foldl ?_ (fun s5 a6 h7 => ?_)
  · exact h1
  · exact State.settleRom_keeps h7

theorem State.thawMaster_keeps {z : State} {s : State} {a1 : ℕ} {a2 : ℕ} (h : Keeps z s) :
    Keeps z (State.thawMaster s a1 a2) := by
  unfold State.thawMaster
  split
  · exact State.setFld_keeps h
  · exact State.resume_keeps (State.updCtx_keeps h)
  · exact State.resume_keeps (State.returnCredits_keeps (State.updEng_keeps h))
  · exact State.returnCredits_keeps (State.setFld_keeps h)
  · exact State.setEntState_keeps h
  · exact State.setEntState_keeps h

theorem freezeRow_keeps {z : State} : CmdRow.Keeps z freezeRow := by
  intro s0 c1 h2
  dsimp only [freezeRow]
  refine State.finishCmd_keeps ?_
  refine keeps_ite ?_ ?_
  · refine keeps_ite ?_ ?_
    · exact State.updCmd_keeps h2
    · exact h2
  · refine State.freezeMaster_keeps ?_
    refine keeps_ite ?_ ?_
    · exact State.updCmd_keeps h2
    · exact h2

theorem execFreeze_keeps {z : State} {a0 : Fin 16384} {s : State} (h : Keeps z s) :
    KeepsO z (execFreeze a0 s) := by
  unfold execFreeze
  refine acceptCmd_keeps ?_ ?_
  · exact h
  · exact freezeRow_keeps

theorem unfreezeRow_keeps {z : State} : CmdRow.Keeps z unfreezeRow := by
  intro s0 c1 h2
  dsimp only [unfreezeRow]
  refine keeps_ite ?_ ?_
  · exact State.endCmd_keeps h2
  · refine State.finishCmd_keeps ?_
    refine keeps_ite ?_ ?_
    · exact State.thawMaster_keeps h2
    · exact h2

theorem execUnfreeze_keeps {z : State} {a0 : Fin 16384} {s : State} (h : Keeps z s) :
    KeepsO z (execUnfreeze a0 s) := by
  unfold execUnfreeze
  refine acceptCmd_keeps ?_ ?_
  · exact h
  · exact unfreezeRow_keeps

theorem State.setPeer_keeps {z : State} {s : State} {a1 : ℕ} {a2 : ℕ} {a3 : List W64} (h : Keeps z s) :
    Keeps z (State.setPeer s a1 a2 a3) := by
  unfold State.setPeer
  extract_lets +onlyGivenNames t0
  clear_value t0
  extract_lets +onlyGivenNames t1
  clear_value t1
  extract_lets +onlyGivenNames t2
  clear_value t2
  extract_lets +onlyGivenNames t3
  clear_value t3
  extract_lets +onlyGivenNames t4
  clear_value t4
  extract_lets +onlyGivenNames t5
  have h6 : Keeps z t5.2 := by
    unfold t5
    exact State.newPaths_keeps h
  clear_value t5
  extract_lets +onlyGivenNames t7
  clear_value t7
  extract_lets +onlyGivenNames t8
  clear_value t8
  exact State.setReg_keeps (State.setEnt_keeps h6)

theorem State.wipeKeys_keeps {z : State} {s : State} {a1 : Cmd} (h : Keeps z s) :
    Keeps z (State.wipeKeys s a1) := by
  unfold State.wipeKeys
  exact State.scatter_keeps h

theorem peerSetStart_keeps {z : State} {s : State} {a1 : Cmd} (h : Keeps z s) :
    Keeps z (peerSetStart s a1) := by
  unfold peerSetStart
  split
  · exact State.endCmd_keeps h
  · extract_lets +onlyGivenNames t0
    clear_value t0
    extract_lets +onlyGivenNames t1
    have h2 : Keeps z t1 := by
      unfold t1
      exact State.wipeKeys_keeps h
    clear_value t1
    extract_lets +onlyGivenNames t3
    clear_value t3
    extract_lets +onlyGivenNames t4
    clear_value t4
    extract_lets +onlyGivenNames t5
    have h6 : Keeps z t5 := by
      unfold t5
      refine keeps_ite ?_ ?_
      · exact keeps_mk h2
      · exact State.setPeer_keeps h2
    clear_value t5
    exact State.finishCmd_keeps h6

theorem peerSetRow_keeps {z : State} : CmdRow.Keeps z peerSetRow := by
  intro s0 c1 h2
  dsimp only [peerSetRow]
  exact peerSetStart_keeps h2

theorem execPeerSet_keeps {z : State} {a0 : Fin 16384} {s : State} (h : Keeps z s) :
    KeepsO z (execPeerSet a0 s) := by
  unfold execPeerSet
  refine acceptCmd_keeps ?_ ?_
  · exact h
  · exact peerSetRow_keeps

theorem State.clearPeer_keeps {z : State} {s : State} {a1 : ℕ} {a2 : ℕ} (h : Keeps z s) :
    Keeps z (State.clearPeer s a1 a2) := by
  unfold State.clearPeer
  extract_lets +onlyGivenNames t0
  clear_value t0
  refine keeps_ite ?_ ?_
  · exact State.finishCmd_keeps h
  · refine keeps_ite ?_ ?_
    · exact State.updEnt_keeps h
    · extract_lets +onlyGivenNames t1
      have h2 : Keeps z t1 := by
        unfold t1
        exact State.updEnt_keeps (State.fallEnt_keeps h)
      clear_value t1
      exact State.ackClear_keeps h2

theorem peerClearStart_keeps {z : State} {s : State} {a1 : Cmd} (h : Keeps z s) :
    Keeps z (peerClearStart s a1) := by
  unfold peerClearStart
  refine keeps_ite ?_ ?_
  · exact State.finishCmd_keeps (keeps_mk h)
  · exact State.clearPeer_keeps h

theorem peerClearRow_keeps {z : State} : CmdRow.Keeps z peerClearRow := by
  intro s0 c1 h2
  dsimp only [peerClearRow]
  exact peerClearStart_keeps h2

theorem execPeerClear_keeps {z : State} {a0 : Fin 16384} {s : State} (h : Keeps z s) :
    KeepsO z (execPeerClear a0 s) := by
  unfold execPeerClear
  refine acceptCmd_keeps ?_ ?_
  · exact h
  · exact peerClearRow_keeps

/-! ### CxlLink -/

theorem State.setCxl_keeps {z : State} {s : State} {a1 : ℕ} {a2 : ℕ} {a3 : ℕ} (h : Keeps z s) :
    Keeps z (State.setCxl s a1 a2 a3) := by
  unfold State.setCxl
  exact State.setFld_keeps (State.setFld_keeps h)

theorem State.cxlLanesOff_keeps {z : State} {s : State} {a1 : ℕ} (h : Keeps z s) :
    Keeps z (State.cxlLanesOff s a1) := by
  unfold State.cxlLanesOff
  refine State.setFld_keeps ?_
  refine State.setReg_keeps ?_
  refine keeps_foldl ?_ (fun s0 a1 h2 => ?_)
  · exact h
  · exact State.laneOff_keeps h2

theorem State.syncCxl_keeps {z : State} {s : State} (h : Keeps z s) :
    Keeps z (State.syncCxl s) := by
  unfold State.syncCxl
  extract_lets +onlyGivenNames t0
  clear_value t0
  refine keeps_ite ?_ ?_
  · exact State.setFld_keeps h
  · exact h

theorem State.cxlLeave_keeps {z : State} {s : State} {a1 : ℕ} (h : Keeps z s) :
    Keeps z (State.cxlLeave s a1) := by
  unfold State.cxlLeave
  refine keeps_ite ?_ ?_
  · extract_lets +onlyGivenNames t0
    have h1 : Keeps z t0 := by
      unfold t0
      refine keeps_ite ?_ ?_
      · exact State.setFld_keeps (State.setFld_keeps h)
      · exact h
    clear_value t0
    exact keeps_mk h1
  · exact h

theorem State.cxlEvent_keeps {z : State} {s : State} {a1 : ℕ} {a2 : ℕ} (h : Keeps z s) :
    Keeps z (State.cxlEvent s a1 a2) := by
  unfold State.cxlEvent
  exact State.event_keeps h

theorem State.cxlBegin_keeps {z : State} {s : State} {a1 : ℕ} (h : Keeps z s) :
    Keeps z (State.cxlBegin s a1) := by
  unfold State.cxlBegin
  extract_lets +onlyGivenNames t0
  clear_value t0
  extract_lets +onlyGivenNames t1
  clear_value t1
  extract_lets +onlyGivenNames t2
  clear_value t2
  extract_lets +onlyGivenNames t3
  have h4 : Keeps z t3 := by
    unfold t3
    exact keeps_mk h
  clear_value t3
  refine keeps_ite ?_ ?_
  · exact State.setCxl_keeps h4
  · extract_lets +onlyGivenNames t5
    have h6 : Keeps z t5 := by
      unfold t5
      exact State.setCxl_keeps h4
    clear_value t5
    exact keeps_mk h6

theorem execCxlDetect_keeps {z : State} {a0 : Fin 2} {a1 : Bool} {s : State} (h : Keeps z s) :
    KeepsO z (execCxlDetect a0 a1 s) := by
  unfold execCxlDetect
  refine keepsO_ite ?_ ?_
  · exact keepsO_next h
  · refine keepsO_ite ?_ ?_
    · refine keepsO_next ?_
      refine State.setFld_keeps ?_
      refine keeps_foldl ?_ (fun s0 a1 h2 => ?_)
      · exact State.setFld_keeps h
      · exact State.laneTrain_keeps h2
    · split
      · exact keepsO_next h
      · refine keepsO_ite ?_ ?_
        · exact keepsO_next (State.syncCxl_keeps (keeps_mk h))
        · exact keepsO_next h

theorem State.cxlTrain_keeps {z : State} {s : State} {a1 : ℕ} {a2 : CxlDev} (h : Keeps z s) :
    Keeps z (State.cxlTrain s a1 a2) := by
  unfold State.cxlTrain
  refine keeps_ite ?_ ?_
  · exact State.setCxl_keeps (State.cxlLanesOff_keeps h)
  · split
    · extract_lets +onlyGivenNames t0
      have h1 : Keeps z t0 := by
        unfold t0
        exact State.setReg_keeps (State.setCxl_keeps (State.cxlLanesOff_keeps h))
      clear_value t0
      exact State.syncCxl_keeps (State.cxlEvent_keeps h1)
    · extract_lets +onlyGivenNames t2
      clear_value t2
      extract_lets +onlyGivenNames t3
      clear_value t3
      extract_lets +onlyGivenNames t4
      clear_value t4
      extract_lets +onlyGivenNames t5
      have h6 : Keeps z t5 := by
        unfold t5
        exact State.cxlLanesOff_keeps h
      clear_value t5
      extract_lets +onlyGivenNames t7
      clear_value t7
      extract_lets +onlyGivenNames t8
      have h9 : Keeps z t8 := by
        unfold t8
        refine keeps_foldl ?_ (fun s10 a11 h12 => ?_)
        · exact h6
        · exact State.laneUp_keeps (State.setFfe_keeps h12)
      clear_value t8
      extract_lets +onlyGivenNames t13
      have h14 : Keeps z t13 := by
        unfold t13
        exact State.setReg_keeps h9
      clear_value t13
      extract_lets +onlyGivenNames t15
      have h16 : Keeps z t15 := by
        unfold t15
        exact State.setReg_keeps h14
      clear_value t15
      extract_lets +onlyGivenNames t17
      have h18 : Keeps z t17 := by
        unfold t17
        exact State.setReg_keeps h16
      clear_value t17
      exact State.setReg_keeps (State.setReg_keeps h18)

theorem execCxlBringUp_keeps {z : State} {a0 : Fin 2} {a1 : CxlDev} {s : State} (h : Keeps z s) :
    KeepsO z (execCxlBringUp a0 a1 s) := by
  unfold execCxlBringUp
  refine keepsO_ite ?_ ?_
  · exact keepsO_next (State.cxlTrain_keeps h)
  · exact keepsO_next h

theorem execCxlHotAttach_keeps {z : State} {a0 : Fin 2} {a1 : CxlDev} {s : State} (h : Keeps z s) :
    KeepsO z (execCxlHotAttach a0 a1 s) := by
  unfold execCxlHotAttach
  refine keepsO_ite ?_ ?_
  · exact keepsO_next (State.cxlTrain_keeps h)
  · exact keepsO_next h

theorem execCxlLinkDown_keeps {z : State} {a0 : Fin 2} {s : State} (h : Keeps z s) :
    KeepsO z (execCxlLinkDown a0 s) := by
  unfold execCxlLinkDown
  refine keepsO_ite ?_ ?_
  · exact keepsO_next h
  · extract_lets +onlyGivenNames t0
    have h1 : Keeps z t0 := by
      unfold t0
      exact State.setReg_keeps (State.setCxl_keeps (State.cxlLeave_keeps h))
    clear_value t0
    exact keepsO_next (State.cxlEvent_keeps (State.cxlLanesOff_keeps h1))

theorem execCxlMedia_keeps {z : State} {a0 : Fin 2} {s : State} (h : Keeps z s) :
    KeepsO z (execCxlMedia a0 s) := by
  unfold execCxlMedia
  refine keepsO_ite ?_ ?_
  · exact keepsO_next (State.event_keeps h)
  · exact keepsO_next h

theorem execPcieRecovery_keeps {z : State} {a0 : Fin 2} {a1 : ℕ} {s : State} (h : Keeps z s) :
    KeepsO z (execPcieRecovery a0 a1 s) := by
  unfold execPcieRecovery
  refine keepsO_ite ?_ ?_
  · exact keepsO_next h
  · refine keepsO_next ?_
    refine State.updReg_keeps ?_
    refine keeps_foldl ?_ (fun s0 a1 h2 => ?_)
    · exact h
    · exact State.abortScan_keeps h2

theorem State.resetCxl_keeps {z : State} {s : State} {a1 : ℕ} (h : Keeps z s) :
    Keeps z (State.resetCxl s a1) := by
  unfold State.resetCxl
  extract_lets +onlyGivenNames t0
  have h1 : Keeps z t0 := by
    unfold t0
    exact State.cxlLanesOff_keeps (State.cxlLeave_keeps h)
  clear_value t0
  extract_lets +onlyGivenNames t2
  have h3 : Keeps z t2 := by
    unfold t2
    refine keeps_foldl ?_ (fun s4 a5 h6 => ?_)
    · exact h1
    · exact State.setReg_keeps (State.setReg_keeps h6)
  clear_value t2
  extract_lets +onlyGivenNames t7
  have h8 : Keeps z t7 := by
    unfold t7
    refine keeps_foldl ?_ (fun s9 a10 h11 => ?_)
    · exact h3
    · exact State.setReg_keeps h11
  clear_value t7
  exact State.cxlBegin_keeps (State.setFld_keeps h8)

theorem execCxlZeroing_keeps {z : State} {a0 : Fin 2} {s : State} (h : Keeps z s) :
    KeepsO z (execCxlZeroing a0 s) := by
  unfold execCxlZeroing
  refine keepsO_ite ?_ ?_
  · exact keepsO_next h
  · extract_lets +onlyGivenNames t0
    clear_value t0
    extract_lets +onlyGivenNames t1
    have h2 : Keeps z t1 := by
      unfold t1
      exact State.setFld_keeps (State.zeroKeys_keeps h)
    clear_value t1
    exact keepsO_next (State.syncCxl_keeps (State.setFld_keeps h2))

/-! ### EthFrame -/

theorem State.unhandled_keeps {z : State} {s : State} {a1 : ℕ} (h : Keeps z s) :
    Keeps z (State.unhandled s a1) := by
  unfold State.unhandled
  exact State.updReg_keeps h

theorem State.authFail_keeps {z : State} {s : State} (h : Keeps z s) :
    Keeps z (State.authFail s) := by
  unfold State.authFail
  exact State.updReg_keeps h

theorem State.msgPart_keeps {z : State} {s : State} {a1 : ℕ} {a2 : Bool} {a3 : Pkt} (h : Keeps z s) :
    Keeps z (State.msgPart s a1 a2 a3) := by
  unfold State.msgPart
  extract_lets +onlyGivenNames t0
  clear_value t0
  extract_lets +onlyGivenNames t1
  clear_value t1
  extract_lets +onlyGivenNames t2
  clear_value t2
  extract_lets +onlyGivenNames t3
  clear_value t3
  exact keeps_mk h

theorem State.pumpMsgs_keeps {z : State} {s : State} {a1 : ℕ} (h : Keeps z s) :
    Keeps z (State.pumpMsgs s a1) := by
  unfold State.pumpMsgs
  extract_lets +onlyGivenNames t0
  clear_value t0
  refine keeps_foldl ?_ (fun s1 a2 h3 => ?_)
  · exact h
  · refine State.deliverOne_keeps ?_ ?_
    · exact h3
    · intro x4 x5 h6
      exact State.msgPart_keeps h6

theorem State.takeCoroc_keeps {z : State} {s : State} {a1 : ℕ} {a2 : ℕ} {a3 : ℕ} {a4 : Bool} {a5 : ℕ} {a6 : List
    Byte} (h : Keeps z s) :
    Keeps z (State.takeCoroc s a1 a2 a3 a4 a5 a6) := by
  unfold State.takeCoroc
  split
  · exact State.authFail_keeps h
  · extract_lets +onlyGivenNames t0
    refine keeps_ite ?_ ?_
    · refine keeps_ite ?_ ?_
      · exact State.msgPart_keeps h
      · exact h
    · exact State.arrive_keeps h

theorem State.updPtp_keeps {z : State} {s : State} {a1 : Ptp → Ptp} (h : Keeps z s) :
    Keeps z (State.updPtp s a1) := by
  unfold State.updPtp
  exact keeps_mk h

theorem State.setPtpSt_keeps {z : State} {s : State} {a1 : ℕ} (h : Keeps z s) :
    Keeps z (State.setPtpSt s a1) := by
  unfold State.setPtpSt
  exact State.setFld_keeps h

theorem State.setOffs_keeps {z : State} {s : State} {a1 : ℤ} (h : Keeps z s) :
    Keeps z (State.setOffs s a1) := by
  unfold State.setOffs
  refine keeps_ite ?_ ?_
  · exact State.setFld_keeps h
  · extract_lets +onlyGivenNames t0
    have h1 : Keeps z t0.2 := by
      unfold t0
      exact State.takeBits_keeps h
    clear_value t0
    exact State.setFld_keeps h1

theorem State.steer_keeps {z : State} {s : State} (h : Keeps z s) :
    Keeps z (State.steer s) := by
  unfold State.steer
  extract_lets +onlyGivenNames t0
  clear_value t0
  extract_lets +onlyGivenNames t1
  have h2 : Keeps z t1.2 := by
    unfold t1
    exact State.takeBits_keeps h
  clear_value t1
  exact State.updPtp_keeps h2

theorem State.measure_keeps {z : State} {s : State} {a1 : ℕ} {a2 : ℕ} {a3 : ℕ} {a4 : ℕ} (h : Keeps z s) :
    Keeps z (State.measure s a1 a2 a3 a4) := by
  unfold State.measure
  extract_lets +onlyGivenNames t0
  clear_value t0
  extract_lets +onlyGivenNames t1
  clear_value t1
  extract_lets +onlyGivenNames t2
  clear_value t2
  extract_lets +onlyGivenNames t3
  have h4 : Keeps z t3 := by
    unfold t3
    exact State.steer_keeps (State.updPtp_keeps (State.setPtpSt_keeps (State.setOffs_keeps h)))
  clear_value t3
  refine keeps_ite ?_ ?_
  · exact State.setReg_keeps (State.setReg_keeps h4)
  · exact h4

theorem State.ptpExpire_keeps {z : State} {s : State} (h : Keeps z s) :
    Keeps z (State.ptpExpire s) := by
  unfold State.ptpExpire
  refine keeps_ite ?_ ?_
  · exact State.updPtp_keeps h
  · exact h

theorem State.ptpAnnounce_keeps {z : State} {s : State} {a1 : ℕ} {a2 : ℕ} {a3 : ℕ} {a4 : ℕ} (h : Keeps z s) :
    Keeps z (State.ptpAnnounce s a1 a2 a3 a4) := by
  unfold State.ptpAnnounce
  extract_lets +onlyGivenNames t0
  clear_value t0
  extract_lets +onlyGivenNames t1
  clear_value t1
  refine keeps_ite ?_ ?_
  · exact h
  · extract_lets +onlyGivenNames t2
    have h3 : Keeps z t2 := by
      unfold t2
      exact State.updPtp_keeps h
    clear_value t2
    refine keeps_ite ?_ ?_
    · exact h3
    · exact State.setFld_keeps (State.setPtpSt_keeps h3)

theorem State.takePtp_keeps {z : State} {s : State} {a1 : ℕ} {a2 : ℕ} {a3 : ℕ} {a4 : PtpMsg} (h : Keeps z s) :
    Keeps z (State.takePtp s a1 a2 a3 a4) := by
  unfold State.takePtp
  refine keeps_ite ?_ ?_
  · exact h
  · extract_lets +onlyGivenNames t0
    have h1 : Keeps z t0 := by
      unfold t0
      exact State.ptpExpire_keeps h
    clear_value t0
    split
    · refine keeps_ite ?_ ?_
      · exact State.ptpAnnounce_keeps h1
      · exact h1
    · refine keeps_ite ?_ ?_
      · exact State.updPtp_keeps h1
      · exact h1
    · refine keeps_ite ?_ ?_
      · exact State.updPtp_keeps h1
      · exact h1
    · refine keeps_ite ?_ ?_
      · exact h1
      · split
        · exact State.updPtp_keeps (State.measure_keeps h1)
        · exact h1

theorem execPtpDelayRequest_keeps {z : State} {s : State} (h : Keeps z s) :
    KeepsO z (execPtpDelayRequest s) := by
  unfold execPtpDelayRequest
  extract_lets +onlyGivenNames t0
  clear_value t0
  refine keepsO_ite ?_ ?_
  · exact keepsO_next h
  · exact keepsO_next (State.answerOn_keeps (State.updPtp_keeps h))

theorem execPtpHoldover_keeps {z : State} {s : State} (h : Keeps z s) :
    KeepsO z (execPtpHoldover s) := by
  unfold execPtpHoldover
  refine keepsO_ite ?_ ?_
  · exact keepsO_next (State.setPtpSt_keeps h)
  · exact keepsO_next h

theorem State.passFrame_keeps {z : State} {s : State} {a1 : ℕ} {a2 : ℕ} {a3 : Frame} (h : Keeps z s) :
    Keeps z (State.passFrame s a1 a2 a3) := by
  unfold State.passFrame
  extract_lets +onlyGivenNames t0
  clear_value t0
  split
  · refine keeps_ite ?_ ?_
    · exact State.answerOn_keeps h
    · exact State.unhandled_keeps h
  · refine keeps_ite ?_ ?_
    · exact State.answerOn_keeps h
    · exact State.unhandled_keeps h
  · refine keeps_ite ?_ ?_
    · exact State.answerOn_keeps h
    · exact State.unhandled_keeps h
  · exact State.takePtp_keeps h
  · split
    · exact State.unhandled_keeps h
    · refine keeps_ite ?_ ?_
      · exact State.unhandled_keeps h
      · exact State.takeCoroc_keeps h
  · exact State.unhandled_keeps h

theorem State.takeFrame_keeps {z : State} {s : State} {a1 : ℕ} {a2 : ℕ} {a3 : Frame} {a4 : FrameMeta} (h : Keeps z
    s) :
    Keeps z (State.takeFrame s a1 a2 a3 a4) := by
  unfold State.takeFrame
  refine keeps_ite ?_ ?_
  · exact State.updReg_keeps h
  · split
    · exact State.takePfc_keeps h
    · extract_lets +onlyGivenNames t0
      clear_value t0
      extract_lets +onlyGivenNames t1
      have h2 : Keeps z t1 := by
        unfold t1
        exact State.rxShare_keeps h
      clear_value t1
      refine keeps_ite ?_ ?_
      · exact h2
      · refine keeps_ite ?_ ?_
        · exact State.unhandled_keeps h2
        · exact State.passFrame_keeps h2

theorem execFrameReceive_keeps {z : State} {a0 : Fin 2} {a1 : Fin 4} {a2 : RxFrame} {s : State} (h : Keeps z s) :
    KeepsO z (execFrameReceive a0 a1 a2 s) := by
  unfold execFrameReceive
  refine keepsO_ite ?_ ?_
  · exact keepsO_next (State.takeFrame_keeps h)
  · exact keepsO_next h

/-! ### Secure -/

theorem State.updSec_keeps {z : State} {s : State} {a1 : Sec → Sec} (h : Keeps z s) :
    Keeps z (State.updSec s a1) := by
  unfold State.updSec
  exact keeps_mk h

theorem State.flashWrite_keeps {z : State} {s : State} {a1 : ℕ} {a2 : ℕ} {a3 : List Byte} (h : Keeps z s) :
    Keeps z (State.flashWrite s a1 a2 a3) := by
  unfold State.flashWrite
  extract_lets +onlyGivenNames t0
  clear_value t0
  extract_lets +onlyGivenNames t1
  clear_value t1
  exact State.updFab_keeps h

theorem State.showFuses_keeps {z : State} {s : State} (h : Keeps z s) :
    Keeps z (State.showFuses s) := by
  unfold State.showFuses
  extract_lets +onlyGivenNames t0
  clear_value t0
  extract_lets +onlyGivenNames t1
  clear_value t1
  extract_lets +onlyGivenNames t2
  clear_value t2
  extract_lets +onlyGivenNames t3
  have h4 : Keeps z t3 := by
    unfold t3
    exact State.setReg_keeps h
  clear_value t3
  extract_lets +onlyGivenNames t5
  have h6 : Keeps z t5 := by
    unfold t5
    exact State.setFld_keeps h4
  clear_value t5
  exact State.setFld_keeps (State.setFld_keeps (State.setFld_keeps h6))

theorem State.showSlots_keeps {z : State} {s : State} (h : Keeps z s) :
    Keeps z (State.showSlots s) := by
  unfold State.showSlots
  exact State.setFld_keeps h

theorem State.newNonce_keeps {z : State} {s : State} (h : Keeps z s) :
    Keeps z (State.newNonce s) := by
  unfold State.newNonce
  extract_lets +onlyGivenNames t0
  have h1 : Keeps z t0.2 := by
    unfold t0
    exact State.takeBits_keeps h
  clear_value t0
  exact State.setReg_keeps h1

theorem State.setHp0Endpoint_keeps {z : State} {s : State} (h : Keeps z s) :
    Keeps z (State.setHp0Endpoint s) := by
  unfold State.setHp0Endpoint
  split
  · extract_lets +onlyGivenNames t0
    clear_value t0
    extract_lets +onlyGivenNames t1
    clear_value t1
    extract_lets +onlyGivenNames t2
    clear_value t2
    extract_lets +onlyGivenNames t3
    have h4 : Keeps z t3 := by
      unfold t3
      exact keeps_mk h
    clear_value t3
    extract_lets +onlyGivenNames t5
    have h6 : Keeps z t5 := by
      unfold t5
      refine keeps_ite ?_ ?_
      · exact h4
      · exact State.setFld_keeps h4
    clear_value t5
    exact State.setPeer_keeps h6
  · extract_lets +onlyGivenNames t7
    clear_value t7
    extract_lets +onlyGivenNames t8
    clear_value t8
    extract_lets +onlyGivenNames t9
    have h10 : Keeps z t9 := by
      unfold t9
      exact keeps_mk h
    clear_value t9
    exact State.setPeer_keeps h10

theorem State.setHp0_keeps {z : State} {s : State} (h : Keeps z s) :
    Keeps z (State.setHp0 s) := by
  unfold State.setHp0
  extract_lets +onlyGivenNames t0
  clear_value t0
  extract_lets +onlyGivenNames t1
  clear_value t1
  extract_lets +onlyGivenNames t2
  have h3 : Keeps z t2 := by
    unfold t2
    exact State.updPart_keeps h
  clear_value t2
  extract_lets +onlyGivenNames t4
  have h5 : Keeps z t4 := by
    unfold t4
    exact State.setCtx_keeps h3
  clear_value t4
  extract_lets +onlyGivenNames t6
  have h7 : Keeps z t6 := by
    unfold t6
    exact State.setReg_keeps h5
  clear_value t6
  extract_lets +onlyGivenNames t8
  have h9 : Keeps z t8 := by
    unfold t8
    exact State.setReg_keeps h7
  clear_value t8
  exact State.setQueue_keeps h9

theorem State.settleHp0_keeps {z : State} {s : State} (h : Keeps z s) :
    Keeps z (State.settleHp0 s) := by
  unfold State.settleHp0
  extract_lets +onlyGivenNames t0
  clear_value t0
  refine keeps_ite ?_ ?_
  · exact h
  · refine keeps_ite ?_ ?_
    · refine State.setHp0_keeps ?_
      exact h
    · exact h

theorem State.patchApplied_keeps {z : State} {s : State} {a1 : List Byte} (h : Keeps z s) :
    Keeps z (State.patchApplied s a1) := by
  unfold State.patchApplied
  exact State.updSec_keeps (State.setFld_keeps h)

theorem State.bootBundle_keeps {z : State} {s : State} {a1 : ℕ × ℕ} (h : Keeps z s) :
    Keeps z (State.bootBundle s a1) := by
  unfold State.bootBundle
  extract_lets +onlyGivenNames t0
  clear_value t0
  split
  · exact State.patchApplied_keeps h
  · exact State.setReg_keeps h

theorem State.enterFawn_keeps {z : State} {s : State} {a1 : ℕ} (h : Keeps z s) :
    Keeps z (State.enterFawn s a1) := by
  unfold State.enterFawn
  extract_lets +onlyGivenNames t0
  clear_value t0
  extract_lets +onlyGivenNames t1
  have h2 : Keeps z t1 := by
    unfold t1
    exact State.setFld_keeps (State.setFld_keeps (keeps_mk h))
  clear_value t1
  extract_lets +onlyGivenNames t3
  have h4 : Keeps z t3 := by
    unfold t3
    exact State.updSec_keeps h2
  clear_value t3
  refine State.settleHp0_keeps ?_
  refine State.setHp0Endpoint_keeps ?_
  exact State.newNonce_keeps h4

theorem State.bootImage_keeps {z : State} {s : State} {a1 : List Byte} (h : Keeps z s) :
    Keeps z (State.bootImage s a1) := by
  unfold State.bootImage
  extract_lets +onlyGivenNames t0
  have h1 : Keeps z t0 := by
    unfold t0
    exact State.updSec_keeps h
  clear_value t0
  extract_lets +onlyGivenNames t2
  have h3 : Keeps z t2 := by
    unfold t2
    exact State.updSec_keeps h1
  clear_value t2
  extract_lets +onlyGivenNames t4
  have h5 : Keeps z t4 := by
    unfold t4
    refine keeps_foldl ?_ (fun s6 a7 h8 => ?_)
    · exact h3
    · exact State.setReg_keeps h8
  clear_value t4
  extract_lets +onlyGivenNames t9
  have h10 : Keeps z t9 := by
    unfold t9
    exact State.setReg_keeps (State.setFld_keeps h5)
  clear_value t9
  extract_lets +onlyGivenNames t11
  have h12 : Keeps z t11 := by
    unfold t11
    refine keeps_foldl ?_ (fun s13 a14 h15 => ?_)
    · exact h10
    · exact State.bootBundle_keeps h15
  clear_value t11
  refine State.settleHp0_keeps ?_
  refine State.setHp0Endpoint_keeps ?_
  exact State.newNonce_keeps (State.setFld_keeps h12)

theorem State.bootRecord_keeps {z : State} {s : State} {a1 : List Byte} (h : Keeps z s) :
    Keeps z (State.bootRecord s a1) := by
  unfold State.bootRecord
  extract_lets +onlyGivenNames t0
  clear_value t0
  extract_lets +onlyGivenNames t1
  clear_value t1
  extract_lets +onlyGivenNames t2
  have h3 : Keeps z t2 := by
    unfold t2
    exact State.updSec_keeps h
  clear_value t2
  extract_lets +onlyGivenNames t4
  have h5 : Keeps z t4 := by
    unfold t4
    exact State.setFld_keeps h3
  clear_value t4
  extract_lets +onlyGivenNames t6
  clear_value t6
  split
  · exact State.bootImage_keeps h5
  · exact State.enterFawn_keeps h5

theorem State.stepDone_keeps {z : State} {s : State} {a1 : ℕ} (h : Keeps z s) :
    Keeps z (State.stepDone s a1) := by
  unfold State.stepDone
  exact keeps_mk h

theorem execBootChain_keeps {z : State} {a0 : Option FlashId} {s : State} (h : Keeps z s) :
    KeepsO z (execBootChain a0 s) := by
  unfold execBootChain
  refine keepsO_ite ?_ ?_
  · exact keepsO_next h
  · extract_lets +onlyGivenNames t0
    have h1 : Keeps z t0 := by
      unfold t0
      exact State.stepDone_keeps h
    clear_value t0
    split
    · exact keepsO_next (State.showSlots_keeps (State.showFuses_keeps (State.enterFawn_keeps h1)))
    · extract_lets +onlyGivenNames t2
      have h3 : Keeps z t2 := by
        unfold t2
        exact State.setReg_keeps (State.setFld_keeps h1)
      clear_value t2
      extract_lets +onlyGivenNames t4
      clear_value t4
      extract_lets +onlyGivenNames t5
      have h6 : Keeps z t5 := by
        unfold t5
        refine keeps_ite ?_ ?_
        · exact State.bootRecord_keeps h3
        · exact State.enterFawn_keeps h3
      clear_value t5
      exact keepsO_next (State.showSlots_keeps (State.showFuses_keeps h6))

end Sys2Proof.Machine
end

