-- ==== Sys2Proof/Laws/Keeps6.lean ====
section
/-! SUPPORT. Every operation and meaning of the files Migrate, Dumps, Resets, Firmware, Teardown, Vtile of Machine
keeps the queue, the count of free values and the canonical form of memory (Keeps). -/

namespace Sys2Proof.Machine

/-! ### Migrate -/

theorem hbmRegionRow_keeps {z : State} : CmdRow.Keeps z hbmRegionRow := by
  intro s0 c1 h2
  dsimp only [hbmRegionRow]
  exact State.finishCmd_keeps (State.setReg_keeps h2)

theorem execHbmRegion_keeps {z : State} {a0 : Fin 16384} {s : State} (h : Keeps z s) :
    KeepsO z (execHbmRegion a0 s) := by
  unfold execHbmRegion
  refine acceptCmd_keeps ?_ ?_
  · exact h
  · exact hbmRegionRow_keeps

theorem rekeyStart_keeps {z : State} {s : State} {a1 : Cmd} (h : Keeps z s) :
    Keeps z (rekeyStart s a1) := by
  unfold rekeyStart
  extract_lets +onlyGivenNames t0
  clear_value t0
  extract_lets +onlyGivenNames t1
  clear_value t1
  exact State.addWork_keeps (State.setFld_keeps (keeps_mk h))

theorem rekeyRow_keeps {z : State} : CmdRow.Keeps z rekeyRow := by
  intro s0 c1 h2
  dsimp only [rekeyRow]
  exact rekeyStart_keeps h2

theorem execRekey_keeps {z : State} {a0 : Fin 16384} {s : State} (h : Keeps z s) :
    KeepsO z (execRekey a0 s) := by
  unfold execRekey
  refine acceptCmd_keeps ?_ ?_
  · exact h
  · exact rekeyRow_keeps

theorem State.rekeyDone_keeps {z : State} {s : State} {a1 : Rekey} (h : Keeps z s) :
    Keeps z (State.rekeyDone s a1) := by
  unfold State.rekeyDone
  extract_lets +onlyGivenNames t0
  clear_value t0
  extract_lets +onlyGivenNames t1
  clear_value t1
  extract_lets +onlyGivenNames t2
  have h3 : Keeps z t2 := by
    unfold t2
    exact State.setReg_keeps h
  clear_value t2
  extract_lets +onlyGivenNames t4
  have h5 : Keeps z t4 := by
    unfold t4
    exact State.updReg_keeps h3
  clear_value t4
  exact State.finishCmd_keeps (State.dropWork_keeps (keeps_mk h5))

theorem State.rekeyChunk_keeps {z : State} {s : State} {a1 : Rekey} {a2 : List (ℕ × ℕ)} (h : Keeps z s) :
    Keeps z (State.rekeyChunk s a1 a2) := by
  unfold State.rekeyChunk
  extract_lets +onlyGivenNames t0
  have h1 : Keeps z t0 := by
    unfold t0
    exact State.spanMeets_keeps h
  clear_value t0
  extract_lets +onlyGivenNames t2
  have h3 : Keeps z t2 := by
    unfold t2
    refine keeps_foldl ?_ (fun s4 a5 h6 => ?_)
    · exact h1
    · extract_lets +onlyGivenNames t7
      clear_value t7
      exact State.copyCells_keeps h6
  clear_value t2
  extract_lets +onlyGivenNames t8
  extract_lets +onlyGivenNames t9
  have h10 : Keeps z t9 := by
    unfold t9
    exact keeps_mk h3
  clear_value t9
  refine keeps_ite ?_ ?_
  · exact State.rekeyDone_keeps h10
  · exact h10

theorem execHbmSkewSampleExpiry_keeps {z : State} {a0 : Fin 512} {a1 : Fin 65} {a2 : ℕ} {a3 : List (Fin 378 × ℕ)}
    {s : State} (h : Keeps z s) :
    KeepsO z (execHbmSkewSampleExpiry a0 a1 a2 a3 s) := by
  unfold execHbmSkewSampleExpiry
  extract_lets +onlyGivenNames t0
  clear_value t0
  extract_lets +onlyGivenNames t1
  clear_value t1
  extract_lets +onlyGivenNames t2
  clear_value t2
  extract_lets +onlyGivenNames t3
  refine keepsO_ite ?_ ?_
  · extract_lets +onlyGivenNames t4
    clear_value t4
    extract_lets +onlyGivenNames t5
    clear_value t5
    extract_lets +onlyGivenNames t6
    clear_value t6
    extract_lets +onlyGivenNames t7
    clear_value t7
    extract_lets +onlyGivenNames t8
    have h9 : Keeps z t8 := by
      unfold t8
      exact State.setReg_keeps (State.setReg_keeps h)
    clear_value t8
    refine keepsO_next ?_
    dsimp only [t3]
    exact keeps_mk (State.event_keeps h9)
  · refine keepsO_next ?_
    dsimp only [t3]
    exact keeps_mk h

theorem State.retirePc_keeps {z : State} {s : State} {a1 : ℕ} {a2 : ℕ} (h : Keeps z s) :
    Keeps z (State.retirePc s a1 a2) := by
  unfold State.retirePc
  extract_lets +onlyGivenNames t0
  clear_value t0
  refine keeps_ite ?_ ?_
  · exact State.finishCmd_keeps (State.event_keeps (State.setFld_keeps h))
  · extract_lets +onlyGivenNames t1
    have h2 : Keeps z t1 := by
      unfold t1
      exact State.setReg_keeps (State.setFld_keeps h)
    clear_value t1
    extract_lets +onlyGivenNames t3
    clear_value t3
    exact State.addWork_keeps (State.event_keeps (keeps_mk h2))

theorem execHbmPcRetire_keeps {z : State} {a0 : Fin 512} {s : State} (h : Keeps z s) :
    KeepsO z (execHbmPcRetire a0 s) := by
  unfold execHbmPcRetire
  refine keepsO_ite ?_ ?_
  · exact keepsO_next (State.retirePc_keeps (keeps_mk h))
  · exact keepsO_next h

theorem execSoftRepair_keeps {z : State} {a0 : Fin 512} {a1 : ℕ} {a2 : ℕ} {a3 : Bool} {s : State} (h : Keeps z s) :
    KeepsO z (execSoftRepair a0 a1 a2 a3 s) := by
  unfold execSoftRepair
  refine keepsO_ite ?_ ?_
  · exact keepsO_next h
  · extract_lets +onlyGivenNames t0
    have h1 : Keeps z t0 := by
      unfold t0
      exact keeps_mk h
    clear_value t0
    refine keepsO_ite ?_ ?_
    · exact keepsO_next (State.healthChange_keeps h1)
    · exact keepsO_next (State.retirePc_keeps h1)

theorem State.pcChunk_keeps {z : State} {s : State} {a1 : PcRet} {a2 : List (ℕ × ℕ)} (h : Keeps z s) :
    Keeps z (State.pcChunk s a1 a2) := by
  unfold State.pcChunk
  extract_lets +onlyGivenNames t0
  have h1 : Keeps z t0 := by
    unfold t0
    refine keeps_foldl ?_ (fun s2 a3 h4 => ?_)
    · exact h
    · exact State.hbmMeets_keeps h4
  clear_value t0
  extract_lets +onlyGivenNames t5
  have h6 : Keeps z t5 := by
    unfold t5
    exact State.copyCells_keeps h1
  clear_value t5
  extract_lets +onlyGivenNames t7
  clear_value t7
  extract_lets +onlyGivenNames t8
  clear_value t8
  extract_lets +onlyGivenNames t9
  clear_value t9
  extract_lets +onlyGivenNames t10
  have h11 : Keeps z t10 := by
    unfold t10
    exact keeps_mk h6
  clear_value t10
  extract_lets +onlyGivenNames t12
  have h13 : Keeps z t12 := by
    unfold t12
    refine keeps_ite ?_ ?_
    · exact State.setFld_keeps h11
    · exact h11
  clear_value t12
  refine keeps_ite ?_ ?_
  · extract_lets +onlyGivenNames t14
    have h15 : Keeps z t14 := by
      unfold t14
      refine keeps_ite ?_ ?_
      · exact State.setFld_keeps h13
      · exact h13
    clear_value t14
    exact State.finishCmd_keeps (State.dropWork_keeps (State.healthChange_keeps h15))
  · exact h13

theorem retireStart_keeps {z : State} {s : State} {a1 : Cmd} (h : Keeps z s) :
    Keeps z (retireStart s a1) := by
  unfold retireStart
  extract_lets +onlyGivenNames t0
  clear_value t0
  split
  · exact State.updEng_keeps h
  · exact State.retirePc_keeps h
  · exact State.retireRank_keeps h

theorem retireRow_keeps {z : State} : CmdRow.Keeps z retireRow := by
  intro s0 c1 h2
  dsimp only [retireRow]
  exact retireStart_keeps h2

theorem execRetire_keeps {z : State} {a0 : Fin 16384} {s : State} (h : Keeps z s) :
    KeepsO z (execRetire a0 s) := by
  unfold execRetire
  refine acceptCmd_keeps ?_ ?_
  · exact h
  · exact retireRow_keeps

theorem pageMoveStart_keeps {z : State} {s : State} {a1 : Cmd} (h : Keeps z s) :
    Keeps z (pageMoveStart s a1) := by
  unfold pageMoveStart
  split
  · exact State.endCmd_keeps h
  · exact State.addWork_keeps (State.updCmd_keeps h)

theorem pageMoveRow_keeps {z : State} : CmdRow.Keeps z pageMoveRow := by
  intro s0 c1 h2
  dsimp only [pageMoveRow]
  exact pageMoveStart_keeps h2

theorem execPageMove_keeps {z : State} {a0 : Fin 16384} {s : State} (h : Keeps z s) :
    KeepsO z (execPageMove a0 s) := by
  unfold execPageMove
  refine acceptCmd_keeps ?_ ?_
  · exact h
  · exact pageMoveRow_keeps

theorem State.wildWord_keeps {z : State} {s : State} {a1 : ℕ} (h : Keeps z s) :
    Keeps z (State.wildWord s a1) := by
  unfold State.wildWord
  exact State.setBytes_keeps (keeps_free h)

theorem State.pageDone_keeps {z : State} {s : State} {a1 : Cmd} {a2 : MovePage} {a3 : ℕ} {a4 : List (List ℕ)} (h :
    Keeps z s) :
    Keeps z (State.pageDone s a1 a2 a3 a4) := by
  unfold State.pageDone
  extract_lets +onlyGivenNames t0
  have h1 : Keeps z t0 := by
    unfold t0
    exact keeps_mk h
  clear_value t0
  extract_lets +onlyGivenNames t2
  clear_value t2
  extract_lets +onlyGivenNames t3
  clear_value t3
  extract_lets +onlyGivenNames t4
  have h5 : Keeps z t4 := by
    unfold t4
    refine keeps_ite ?_ ?_
    · exact State.wildWord_keeps h1
    · refine keeps_ite ?_ ?_
      · exact h1
      · exact State.setBytes_keeps h1
  clear_value t4
  extract_lets +onlyGivenNames t6
  have h7 : Keeps z t6 := by
    unfold t6
    exact State.updCmd_keeps h5
  clear_value t6
  refine State.resume_keeps ?_
  refine keeps_ite ?_ ?_
  · exact State.finishCmd_keeps (State.dropWork_keeps h7)
  · exact h7

theorem State.ddrSpan_keeps {z : State} {s : State} {a1 : ℕ} {a2 : ℕ} {a3 : ℕ} {a4 : Bool} (h : Keeps z s) :
    Keeps z (State.ddrSpan s a1 a2 a3 a4) := by
  unfold State.ddrSpan
  refine keeps_foldl ?_ (fun s0 a1 h2 => ?_)
  · exact h
  · split
    · exact State.ddrAccess_keeps (State.wakeAt_keeps h2)
    · exact h2

theorem State.pageCopy_keeps {z : State} {s : State} {a1 : ℕ} {a2 : ℕ} {a3 : ℕ} (h : Keeps z s) :
    Keeps z (State.pageCopy s a1 a2 a3) := by
  unfold State.pageCopy
  exact State.wrAll_keeps h

theorem State.pageChunk_keeps {z : State} {s : State} {a1 : Cmd} {a2 : ℕ} {a3 : List (ℕ × ℕ)} (h : Keeps z s) :
    Keeps z (State.pageChunk s a1 a2 a3) := by
  unfold State.pageChunk
  split
  · split
    · extract_lets +onlyGivenNames t0
      have h1 : Keeps z t0 := by
        unfold t0
        exact State.updCmd_keeps h
      clear_value t0
      refine keeps_ite ?_ ?_
      · exact State.finishCmd_keeps (State.dropWork_keeps h1)
      · exact h1
    · extract_lets +onlyGivenNames t2
      clear_value t2
      extract_lets +onlyGivenNames t3
      clear_value t3
      refine keeps_ite ?_ ?_
      · exact h
      · extract_lets +onlyGivenNames t4
        have h5 : Keeps z t4 := by
          unfold t4
          refine keeps_ite ?_ ?_
          · exact keeps_mk h
          · exact h
        clear_value t4
        extract_lets +onlyGivenNames t6
        clear_value t6
        extract_lets +onlyGivenNames t7
        clear_value t7
        extract_lets +onlyGivenNames t8
        have h9 : Keeps z t8 := by
          unfold t8
          exact State.spanMeets_keeps (State.ddrSpan_keeps (State.ddrSpan_keeps h5))
        clear_value t8
        extract_lets +onlyGivenNames t10
        have h11 : Keeps z t10 := by
          unfold t10
          exact State.touchDev_keeps (State.touchDev_keeps (State.pageCopy_keeps h9))
        clear_value t10
        refine keeps_ite ?_ ?_
        · exact State.updCmd_keeps h11
        · exact State.pageDone_keeps h11
  · exact State.finishCmd_keeps (State.dropWork_keeps h)

theorem State.workChunk_keeps {z : State} {s : State} {a1 : Work} {a2 : ℕ} {a3 : List (ℕ × ℕ)} (h : Keeps z s) :
    Keeps z (State.workChunk s a1 a2 a3) := by
  unfold State.workChunk
  split
  · split
    · exact State.dropWork_keeps h
    · exact State.pageChunk_keeps h
  · split
    · exact State.dropWork_keeps h
    · exact State.rekeyChunk_keeps h
  · split
    · exact State.dropWork_keeps h
    · exact State.pcChunk_keeps h
  · split
    · exact State.dropWork_keeps h
    · exact State.rankChunk_keeps h

theorem execMigrationChunk_keeps {z : State} {a0 : ChunkRead} {s : State} (h : Keeps z s) :
    KeepsO z (execMigrationChunk a0 s) := by
  unfold execMigrationChunk
  split
  · exact keepsO_next h
  · extract_lets +onlyGivenNames t0
    clear_value t0
    extract_lets +onlyGivenNames t1
    clear_value t1
    extract_lets +onlyGivenNames t2
    have h3 : Keeps z t2 := by
      unfold t2
      split
      · exact State.updCmd_keeps h
      · assumption
    clear_value t2
    extract_lets +onlyGivenNames t4
    clear_value t4
    exact keepsO_next (State.workChunk_keeps (keeps_mk h3))

/-! ### Dumps -/

theorem State.updRst_keeps {z : State} {s : State} {a1 : Rst → Rst} (h : Keeps z s) :
    Keeps z (State.updRst s a1) := by
  unfold State.updRst
  exact keeps_mk h

theorem State.readUnit_keeps {z : State} {s : State} {a1 : Dump} (h : Keeps z s) :
    Keeps z (State.readUnit s a1).1 := by
  unfold State.readUnit
  split
  · dsimp only
    exact h
  · extract_lets +onlyGivenNames t0
    have h1 : Keeps z t0 := by
      unfold t0
      refine keeps_ite ?_ ?_
      · exact State.wakeEngine_keeps h
      · exact h
    clear_value t0
    dsimp only
    exact keeps_free h1

theorem State.storeDump_keeps {z : State} {s : State} {a1 : Dump} (h : Keeps z s) :
    Keeps z (State.storeDump s a1) := by
  unfold State.storeDump
  extract_lets +onlyGivenNames t0
  clear_value t0
  extract_lets +onlyGivenNames t1
  clear_value t1
  extract_lets +onlyGivenNames t2
  have h3 : Keeps z t2 := by
    unfold t2
    exact State.putBytes_keeps h
  clear_value t2
  extract_lets +onlyGivenNames t4
  clear_value t4
  extract_lets +onlyGivenNames t5
  have h6 : Keeps z t5 := by
    unfold t5
    exact State.setReg_keeps (State.setReg_keeps h3)
  clear_value t5
  exact State.updRst_keeps (State.setReg_keeps h6)

theorem State.putDump_keeps {z : State} {s : State} {a1 : Dump} (h : Keeps z s) :
    Keeps z (State.putDump s a1) := by
  unfold State.putDump
  extract_lets +onlyGivenNames t0
  have h1 : Keeps z t0 := by
    unfold t0
    exact State.updRst_keeps h
  clear_value t0
  refine keeps_ite ?_ ?_
  · exact State.storeDump_keeps h1
  · exact h1

theorem State.addDump_keeps {z : State} {s : State} {a1 : Dump} (h : Keeps z s) :
    Keeps z (State.addDump s a1) := by
  unfold State.addDump
  exact State.setFld_keeps (State.updRst_keeps h)

theorem execDumpCollect_keeps {z : State} {s : State} (h : Keeps z s) :
    KeepsO z (execDumpCollect s) := by
  unfold execDumpCollect
  split
  · exact keepsO_next h
  · refine keepsO_ite ?_ ?_
    · exact keepsO_next h
    · extract_lets +onlyGivenNames t0
      have h1 : Keeps z t0.1 := by
        unfold t0
        exact State.readUnit_keeps h
      clear_value t0
      exact keepsO_next (State.putDump_keeps h1)

theorem execDumpAccessTimeout_keeps {z : State} {s : State} (h : Keeps z s) :
    KeepsO z (execDumpAccessTimeout s) := by
  unfold execDumpAccessTimeout
  split
  · exact keepsO_next h
  · refine keepsO_ite ?_ ?_
    · exact keepsO_next h
    · exact keepsO_next (State.putDump_keeps h)

theorem State.sendDump_keeps {z : State} {s : State} {a1 : ℕ} (h : Keeps z s) :
    Keeps z (State.sendDump s a1) := by
  unfold State.sendDump
  extract_lets +onlyGivenNames t0
  clear_value t0
  extract_lets +onlyGivenNames t1
  clear_value t1
  refine keeps_ite ?_ ?_
  · exact h
  · extract_lets +onlyGivenNames t2
    have h3 : Keeps z t2.1 := by
      unfold t2
      exact State.postHost_keeps h
    clear_value t2
    split
    · exact h
    · exact State.event_keeps (State.setFld_keeps h3)

theorem execDumpSend_keeps {z : State} {s : State} (h : Keeps z s) :
    KeepsO z (execDumpSend s) := by
  unfold execDumpSend
  split
  · exact keepsO_next h
  · refine keepsO_ite ?_ ?_
    · exact keepsO_next h
    · extract_lets +onlyGivenNames t0
      have h1 : Keeps z t0 := by
        unfold t0
        exact State.finishCmd_keeps (State.sendDump_keeps h)
      clear_value t0
      exact keepsO_next (State.setFld_keeps (State.updRst_keeps h1))

theorem dumpRow_keeps {z : State} : CmdRow.Keeps z dumpRow := by
  intro s0 c1 h2
  dsimp only [dumpRow]
  refine keeps_ite ?_ ?_
  · exact State.addDump_keeps h2
  · exact State.addDump_keeps h2

theorem execDump_keeps {z : State} {a0 : Fin 16384} {s : State} (h : Keeps z s) :
    KeepsO z (execDump a0 s) := by
  unfold execDump
  refine acceptCmd_keeps ?_ ?_
  · exact h
  · exact dumpRow_keeps

theorem State.dumpNow_keeps {z : State} {s : State} (h : Keeps z s) :
    Keeps z (State.dumpNow s).1 := by
  unfold State.dumpNow
  refine keeps_ite_fst h ?_
  generalize List.range summaryUnits.length = l
  exact State.storeDump_keeps (keeps_foldl_fst h fun p _ hp => State.readUnit_keeps hp)

/-! ### Resets -/

theorem State.applyRec_keeps {z : State} {s : State} {a1 : HRec} (h : Keeps z s) :
    Keeps z (State.applyRec s a1) := by
  unfold State.applyRec
  split
  · exact State.setReg_keeps h
  · exact State.setFld_keeps (State.updEng_keeps h)
  · extract_lets +onlyGivenNames t0
    clear_value t0
    exact State.setFld_keeps (keeps_mk h)
  · exact h
  · exact h
  · exact h

theorem State.applyHealth_keeps {z : State} {s : State} (h : Keeps z s) :
    Keeps z (State.applyHealth s) := by
  unfold State.applyHealth
  refine keeps_foldl ?_ (fun s0 a1 h2 => ?_)
  · exact h
  · exact State.applyRec_keeps h2

theorem State.readHealth_keeps {z : State} {s : State} (h : Keeps z s) :
    Keeps z (State.readHealth s) := by
  unfold State.readHealth
  split
  · exact State.setFld_keeps h
  · exact State.setReg_keeps (keeps_mk h)

theorem State.wakeBbram_keeps {z : State} {s : State} {a1 : Bool} (h : Keeps z s) :
    Keeps z (State.wakeBbram s a1) := by
  unfold State.wakeBbram
  refine keeps_ite ?_ ?_
  · exact State.setFld_keeps h
  · exact keeps_mk h

theorem execPowerOnReset_keeps {z : State} {a0 : Bool} {s : State} (h : Keeps z s) :
    KeepsO z (execPowerOnReset a0 s) := by
  unfold execPowerOnReset
  exact keepsO_next (State.showFuses_keeps (State.applyHealth_keeps (State.readHealth_keeps (State.wakeBbram_keeps
    (State.rebirth_keeps h)))))

theorem State.holdReset_keeps {z : State} {s : State} {a1 : Bool} (h : Keeps z s) :
    Keeps z (State.holdReset s a1) := by
  unfold State.holdReset
  extract_lets +onlyGivenNames t0
  have h1 : Keeps z t0 := by
    unfold t0
    exact State.rebirth_keeps h
  clear_value t0
  exact keeps_mk h1

theorem execRailDroop_keeps {z : State} {s : State} (h : Keeps z s) :
    KeepsO z (execRailDroop s) := by
  unfold execRailDroop
  exact keepsO_next (State.holdReset_keeps h)

theorem execPowerDown_keeps {z : State} {s : State} (h : Keeps z s) :
    KeepsO z (execPowerDown s) := by
  unfold execPowerDown
  exact keepsO_next (State.holdReset_keeps h)

theorem State.keepFld_keeps {z : State} {s : State} {a1 : State} {a2 : ℕ} {a3 : ℕ} {a4 : ℕ} (h : Keeps z s) :
    Keeps z (State.keepFld s a1 a2 a3 a4) := by
  unfold State.keepFld
  exact State.setFld_keeps h

theorem State.keepRegs_keeps {z : State} {s : State} {a1 : State} (h : Keeps z s) :
    Keeps z (State.keepRegs s a1) := by
  unfold State.keepRegs
  extract_lets +onlyGivenNames t0
  have h1 : Keeps z t0 := by
    unfold t0
    refine keeps_foldl ?_ (fun s2 a3 h4 => ?_)
    · exact h
    · exact State.setReg_keeps h4
  clear_value t0
  extract_lets +onlyGivenNames t5
  have h6 : Keeps z t5 := by
    unfold t5
    refine keeps_foldl ?_ (fun s7 a8 h9 => ?_)
    · exact h1
    · exact State.keepFld_keeps h9
  clear_value t5
  exact State.keepFld_keeps (State.keepFld_keeps (State.keepFld_keeps (State.keepFld_keeps h6)))

theorem State.keepDump_keeps {z : State} {s : State} {a1 : State} (h : Keeps z s) :
    Keeps z (State.keepDump s a1) := by
  unfold State.keepDump
  refine keeps_ite ?_ ?_
  · exact h
  · exact State.setReg_keeps (State.setReg_keeps (State.setReg_keeps h))

theorem State.warmReset_keeps {z : State} {s : State} {a1 : ℕ} {a2 : Bool} (h : Keeps z s) :
    Keeps z (State.warmReset s a1 a2) := by
  unfold State.warmReset
  extract_lets +onlyGivenNames t0
  have h1 : Keeps z t0 := by
    unfold t0
    exact State.rebirth_keeps h
  clear_value t0
  extract_lets +onlyGivenNames t2
  clear_value t2
  extract_lets +onlyGivenNames t3
  clear_value t3
  extract_lets +onlyGivenNames t4
  clear_value t4
  extract_lets +onlyGivenNames t5
  clear_value t5
  extract_lets +onlyGivenNames t6
  clear_value t6
  extract_lets +onlyGivenNames t7
  clear_value t7
  extract_lets +onlyGivenNames t8
  have h9 : Keeps z t8 := by
    unfold t8
    refine keeps_mk_dt ?_ ?_
    · exact h1
    · exact h
  clear_value t8
  extract_lets +onlyGivenNames t10
  have h11 : Keeps z t10 := by
    unfold t10
    exact State.keepDump_keeps (State.keepRegs_keeps h9)
  clear_value t10
  extract_lets +onlyGivenNames t12
  have h13 : Keeps z t12 := by
    unfold t12
    exact State.setReg_keeps (State.setReg_keeps h11)
  clear_value t12
  extract_lets +onlyGivenNames t14
  have h15 : Keeps z t14 := by
    unfold t14
    refine keeps_foldl ?_ (fun s16 a17 h18 => ?_)
    · exact h13
    · exact State.setFld_keeps h18
  clear_value t14
  exact State.showFuses_keeps (State.applyHealth_keeps h15)

theorem execDeviceWarmReset_keeps {z : State} {s : State} (h : Keeps z s) :
    KeepsO z (execDeviceWarmReset s) := by
  unfold execDeviceWarmReset
  refine keepsO_ite ?_ ?_
  · exact keepsO_next (State.warmReset_keeps h)
  · exact keepsO_next h

theorem State.alert_keeps {z : State} {s : State} {a1 : ℕ} (h : Keeps z s) :
    Keeps z (State.alert s a1) := by
  unfold State.alert
  exact State.setReg_keeps (State.setFld_keeps h)

theorem State.controllerFails_keeps {z : State} {s : State} {a1 : ℕ} (h : Keeps z s) :
    Keeps z (State.controllerFails s a1) := by
  unfold State.controllerFails
  refine keeps_ite ?_ ?_
  · exact h
  · extract_lets +onlyGivenNames t0
    have h1 : Keeps z t0.1 := by
      unfold t0
      exact State.dumpNow_keeps (State.alert_keeps h)
    clear_value t0
    exact State.warmReset_keeps h1

theorem execDcWatchdog_keeps {z : State} {s : State} (h : Keeps z s) :
    KeepsO z (execDcWatchdog s) := by
  unfold execDcWatchdog
  exact keepsO_next (State.controllerFails_keeps h)

theorem execDcMemoryError_keeps {z : State} {s : State} (h : Keeps z s) :
    KeepsO z (execDcMemoryError s) := by
  unfold execDcMemoryError
  exact keepsO_next (State.controllerFails_keeps h)

theorem execDcSelfTest_keeps {z : State} {a0 : Bool} {s : State} (h : Keeps z s) :
    KeepsO z (execDcSelfTest a0 s) := by
  unfold execDcSelfTest
  refine keepsO_ite ?_ ?_
  · refine keepsO_next ?_
    refine keeps_ite ?_ ?_
    · exact State.updReg_keeps h
    · exact h
  · exact keepsO_next (State.controllerFails_keeps h)

theorem execJtagInstruction_keeps {z : State} {a0 : Jtag} {s : State} (h : Keeps z s) :
    KeepsO z (execJtagInstruction a0 s) := by
  unfold execJtagInstruction
  extract_lets +onlyGivenNames t0
  clear_value t0
  extract_lets +onlyGivenNames t1
  split
  · refine keepsO_next ?_
    dsimp only [t1]
    exact keeps_mk h
  · refine keepsO_next ?_
    dsimp only [t1]
    exact keeps_mk h
  · refine keepsO_ite ?_ ?_
    · refine keepsO_next ?_
      dsimp only [t1]
      exact keeps_mk h
    · exact keepsO_next h
  · refine keepsO_ite ?_ ?_
    · trivial
    · exact keepsO_next h

/-! ### Firmware -/

theorem State.programImage_keeps {z : State} {s : State} {a1 : Bool} {a2 : List Byte} (h : Keeps z s) :
    Keeps z (State.programImage s a1 a2) := by
  unfold State.programImage
  extract_lets +onlyGivenNames t0
  clear_value t0
  extract_lets +onlyGivenNames t1
  have h2 : Keeps z t1 := by
    unfold t1
    exact State.flashWrite_keeps h
  clear_value t1
  refine keeps_ite ?_ ?_
  · exact h2
  · exact State.showSlots_keeps (State.flashWrite_keeps h2)

theorem State.spoilImage_keeps {z : State} {s : State} {a1 : Bool} {a2 : List Byte} (h : Keeps z s) :
    Keeps z (State.spoilImage s a1 a2) := by
  unfold State.spoilImage
  exact State.programImage_keeps h

theorem fwImageStart_keeps {z : State} {s : State} {a1 : Cmd} (h : Keeps z s) :
    Keeps z (fwImageStart s a1) := by
  unfold fwImageStart
  extract_lets +onlyGivenNames t0
  clear_value t0
  split
  · exact State.endCmd_keeps h
  · split
    · extract_lets +onlyGivenNames t1
      have h2 : Keeps z t1 := by
        unfold t1
        exact keeps_free h
      clear_value t1
      refine keeps_ite ?_ ?_
      · extract_lets +onlyGivenNames t3
        have h4 : Keeps z t3 := by
          unfold t3
          exact State.finishCmd_keeps (State.programImage_keeps h2)
        clear_value t3
        refine keeps_ite ?_ ?_
        · exact State.warmReset_keeps h4
        · exact h4
      · exact State.endCmd_keeps (State.spoilImage_keeps h2)
    · exact State.endCmd_keeps h

theorem fwImageRow_keeps {z : State} : CmdRow.Keeps z fwImageRow := by
  intro s0 c1 h2
  dsimp only [fwImageRow]
  exact fwImageStart_keeps h2

theorem execFwImage_keeps {z : State} {a0 : Fin 16384} {s : State} (h : Keeps z s) :
    KeepsO z (execFwImage a0 s) := by
  unfold execFwImage
  refine acceptCmd_keeps ?_ ?_
  · exact h
  · exact fwImageRow_keeps

theorem State.setQpSt_keeps {z : State} {s : State} {a1 : ℕ} {a2 : ℕ} (h : Keeps z s) :
    Keeps z (State.setQpSt s a1 a2) := by
  unfold State.setQpSt
  exact State.setFld_keeps h

theorem fwPatchStart_keeps {z : State} {s : State} {a1 : Cmd} (h : Keeps z s) :
    Keeps z (fwPatchStart s a1) := by
  unfold fwPatchStart
  split
  · exact State.endCmd_keeps h
  · extract_lets +onlyGivenNames t0
    clear_value t0
    split
    · exact State.setQpSt_keeps (State.updSec_keeps h)
    · exact State.endCmd_keeps h

theorem fwPatchRow_keeps {z : State} : CmdRow.Keeps z fwPatchRow := by
  intro s0 c1 h2
  dsimp only [fwPatchRow]
  exact fwPatchStart_keeps h2

theorem execFwPatch_keeps {z : State} {a0 : Fin 16384} {s : State} (h : Keeps z s) :
    KeepsO z (execFwPatch a0 s) := by
  unfold execFwPatch
  refine acceptCmd_keeps ?_ ?_
  · exact h
  · exact fwPatchRow_keeps

theorem State.setPatch_keeps {z : State} {s : State} {a1 : Patch} (h : Keeps z s) :
    Keeps z (State.setPatch s a1) := by
  unfold State.setPatch
  exact State.updSec_keeps h

theorem State.endPatch_keeps {z : State} {s : State} {a1 : Patch} (h : Keeps z s) :
    Keeps z (State.endPatch s a1) := by
  unfold State.endPatch
  extract_lets +onlyGivenNames t0
  have h1 : Keeps z t0 := by
    unfold t0
    exact State.updSec_keeps (State.patchApplied_keeps h)
  clear_value t0
  extract_lets +onlyGivenNames t2
  have h3 : Keeps z t2 := by
    unfold t2
    refine keeps_ite ?_ ?_
    · split
      · assumption
      · exact State.showSlots_keeps (State.flashWrite_keeps h1)
    · exact h1
  clear_value t2
  exact State.finishCmd_keeps h3

theorem execQueueProcessorPatch_keeps {z : State} {s : State} (h : Keeps z s) :
    KeepsO z (execQueueProcessorPatch s) := by
  unfold execQueueProcessorPatch
  split
  · exact keepsO_next h
  · refine keepsO_ite ?_ ?_
    · refine keepsO_next ?_
      refine keeps_ite ?_ ?_
      · exact State.endPatch_keeps h
      · exact h
    · refine keepsO_ite ?_ ?_
      · refine keepsO_next ?_
        refine keeps_ite ?_ ?_
        · exact h
        · exact State.setPatch_keeps h
      · refine keepsO_ite ?_ ?_
        · refine keepsO_next ?_
          refine keeps_ite ?_ ?_
          · exact h
          · exact State.setQpSt_keeps (State.setPatch_keeps h)
        · refine keepsO_ite ?_ ?_
          · exact keepsO_next (State.setQpSt_keeps (State.setPatch_keeps h))
          · extract_lets +onlyGivenNames t0
            have h1 : Keeps z t0 := by
              unfold t0
              exact State.setQpSt_keeps (State.setPatch_keeps h)
            clear_value t0
            refine keepsO_next ?_
            refine keeps_ite ?_ ?_
            · exact h1
            · exact State.setQpSt_keeps h1

/-! ### Teardown -/

theorem State.tearCmds_keeps {z : State} {s : State} {a1 : ℕ} {a2 : ℕ} (h : Keeps z s) :
    Keeps z (State.tearCmds s a1 a2) := by
  unfold State.tearCmds
  extract_lets +onlyGivenNames t0
  clear_value t0
  extract_lets +onlyGivenNames t1
  clear_value t1
  extract_lets +onlyGivenNames t2
  have h3 : Keeps z t2 := by
    unfold t2
    exact keeps_mk h
  clear_value t2
  refine keeps_foldl ?_ (fun s4 a5 h6 => ?_)
  · exact h3
  · exact State.finishCmd_keeps (State.updCmd_keeps (State.dropWork_keeps h6))

theorem State.tearStream_keeps {z : State} {s : State} {a1 : ℕ} {a2 : Stream} (h : Keeps z s) :
    Keeps z (State.tearStream s a1 a2) := by
  unfold State.tearStream
  refine keeps_ite ?_ ?_
  · exact h
  · exact State.runStream_keeps (keeps_free h)

theorem State.tearStreams_keeps {z : State} {s : State} {a1 : ℕ} {a2 : ℕ} (h : Keeps z s) :
    Keeps z (State.tearStreams s a1 a2) := by
  unfold State.tearStreams
  refine keeps_foldl ?_ (fun s0 a1 h2 => ?_)
  · exact h
  · exact State.tearStream_keeps h2

theorem State.retagGates_keeps {z : State} {s : State} {a1 : ℕ} {a2 : ℕ} {a3 : ℕ} (h : Keeps z s) :
    Keeps z (State.retagGates s a1 a2 a3) := by
  unfold State.retagGates
  refine keeps_foldl ?_ (fun s0 a1 h2 => ?_)
  · exact h
  · extract_lets +onlyGivenNames t3
    clear_value t3
    refine keeps_ite ?_ ?_
    · exact State.setFld_keeps h2
    · exact h2

theorem State.tearPort_keeps {z : State} {s : State} {a1 : ℕ} (h : Keeps z s) :
    Keeps z (State.tearPort s a1) := by
  unfold State.tearPort
  extract_lets +onlyGivenNames t0
  clear_value t0
  extract_lets +onlyGivenNames t1
  have h2 : Keeps z t1 := by
    unfold t1
    exact State.setFld_keeps (State.setFld_keeps h)
  clear_value t1
  split
  · exact State.frozenEvent_keeps h2
  · exact h2

theorem State.tearPorts_keeps {z : State} {s : State} {a1 : ℕ} {a2 : ℕ} (h : Keeps z s) :
    Keeps z (State.tearPorts s a1 a2) := by
  unfold State.tearPorts
  refine keeps_foldl ?_ (fun s0 a1 h2 => ?_)
  · exact h
  · exact State.tearPort_keeps (State.tearPort_keeps h2)

theorem State.sweepOps_keeps {z : State} {s : State} (h : Keeps z s) :
    Keeps z (State.sweepOps s) := by
  unfold State.sweepOps
  refine keeps_foldl ?_ (fun s0 a1 h2 => ?_)
  · exact h
  · exact State.opDone_keeps h2

theorem State.tearDown_keeps {z : State} {s : State} {a1 : ℕ} {a2 : ℕ} (h : Keeps z s) :
    Keeps z (State.tearDown s a1 a2) := by
  unfold State.tearDown
  extract_lets +onlyGivenNames t0
  clear_value t0
  extract_lets +onlyGivenNames t1
  clear_value t1
  extract_lets +onlyGivenNames t2
  have h3 : Keeps z t2 := by
    unfold t2
    refine keeps_foldl ?_ (fun s4 a5 h6 => ?_)
    · exact h
    · exact State.stopLoad_keeps h6
  clear_value t2
  extract_lets +onlyGivenNames t7
  have h8 : Keeps z t7 := by
    unfold t7
    exact State.tearCmds_keeps h3
  clear_value t7
  extract_lets +onlyGivenNames t9
  have h10 : Keeps z t9 := by
    unfold t9
    refine keeps_foldl ?_ (fun s11 a12 h13 => ?_)
    · exact h8
    · exact State.tearStreams_keeps h13
  clear_value t9
  extract_lets +onlyGivenNames t14
  have h15 : Keeps z t14 := by
    unfold t14
    exact State.updCtx_keeps h10
  clear_value t14
  extract_lets +onlyGivenNames t16
  have h17 : Keeps z t16 := by
    unfold t16
    refine keeps_foldl ?_ (fun s18 a19 h20 => ?_)
    · exact h15
    · exact State.retagGates_keeps (State.updEng_keeps h20)
  clear_value t16
  extract_lets +onlyGivenNames t21
  have h22 : Keeps z t21 := by
    unfold t21
    exact State.updRst_keeps (State.tearPorts_keeps h17)
  clear_value t21
  split
  · exact h22
  · exact State.sweepOps_keeps (State.netTeardown_keeps h22)

theorem ctxTeardownRow_keeps {z : State} : CmdRow.Keeps z ctxTeardownRow := by
  intro s0 c1 h2
  dsimp only [ctxTeardownRow]
  exact State.tearDown_keeps h2

theorem execCtxTeardown_keeps {z : State} {a0 : Fin 16384} {s : State} (h : Keeps z s) :
    KeepsO z (execCtxTeardown a0 s) := by
  unfold execCtxTeardown
  refine acceptCmd_keeps ?_ ?_
  · exact h
  · exact ctxTeardownRow_keeps

theorem State.releaseCtx_keeps {z : State} {s : State} {a1 : ℕ} {a2 : ℕ} (h : Keeps z s) :
    Keeps z (State.releaseCtx s a1 a2) := by
  unfold State.releaseCtx
  extract_lets +onlyGivenNames t0
  clear_value t0
  extract_lets +onlyGivenNames t1
  have h2 : Keeps z t1 := by
    unfold t1
    refine keeps_foldl ?_ (fun s3 a4 h5 => ?_)
    · exact h
    · exact State.freeGates_keeps (State.emptySlot_keeps h5)
  clear_value t1
  extract_lets +onlyGivenNames t6
  have h7 : Keeps z t6 := by
    unfold t6
    refine keeps_foldl ?_ (fun s8 a9 h10 => ?_)
    · exact h2
    · exact State.updEng_keeps h10
  clear_value t6
  extract_lets +onlyGivenNames t11
  have h12 : Keeps z t11 := by
    unfold t11
    exact State.dropHeld_keeps (keeps_mk h7)
  clear_value t11
  extract_lets +onlyGivenNames t13
  have h14 : Keeps z t13 := by
    unfold t13
    refine keeps_foldl ?_ (fun s15 a16 h17 => ?_)
    · exact h12
    · exact State.updEnt_keeps h17
  clear_value t13
  extract_lets +onlyGivenNames t18
  have h19 : Keeps z t18 := by
    unfold t18
    exact State.setCtx_keeps h14
  clear_value t18
  extract_lets +onlyGivenNames t20
  have h21 : Keeps z t20 := by
    unfold t20
    split
    · assumption
    · exact State.endCmd_keeps h19
  clear_value t20
  exact State.settleResets_keeps h21

theorem execQuiesceFence_keeps {z : State} {a0 : Fin 1024} {s : State} (h : Keeps z s) :
    KeepsO z (execQuiesceFence a0 s) := by
  unfold execQuiesceFence
  refine keepsO_ite ?_ ?_
  · exact keepsO_next (State.releaseCtx_keeps h)
  · exact keepsO_next h

theorem State.scrub_keeps {z : State} {s : State} {a1 : ℕ} (h : Keeps z s) :
    Keeps z (State.scrub s a1) := by
  unfold State.scrub
  extract_lets +onlyGivenNames t0
  clear_value t0
  refine keeps_foldl ?_ (fun s1 a2 h3 => ?_)
  · exact h
  · exact State.putBytes_keeps h3

theorem execTeardownTimeout_keeps {z : State} {a0 : Fin 1024} {s : State} (h : Keeps z s) :
    KeepsO z (execTeardownTimeout a0 s) := by
  unfold execTeardownTimeout
  extract_lets +onlyGivenNames t0
  clear_value t0
  refine keepsO_ite ?_ ?_
  · exact keepsO_next (State.releaseCtx_keeps (State.scrub_keeps h))
  · exact keepsO_next h

/-! ### Vtile -/

theorem State.vtFault_keeps {z : State} {s : State} {a1 : ℕ} {a2 : ℕ} {a3 : ℕ} (h : Keeps z s) :
    Keeps z (State.vtFault s a1 a2 a3) := by
  unfold State.vtFault
  extract_lets +onlyGivenNames t0
  clear_value t0
  extract_lets +onlyGivenNames t1
  have h2 : Keeps z t1 := by
    unfold t1
    exact State.updEng_keeps h
  clear_value t1
  extract_lets +onlyGivenNames t3
  clear_value t3
  extract_lets +onlyGivenNames t4
  clear_value t4
  extract_lets +onlyGivenNames t5
  clear_value t5
  extract_lets +onlyGivenNames t6
  have h7 : Keeps z t6 := by
    unfold t6
    exact State.setSlot_keeps h2
  clear_value t6
  extract_lets +onlyGivenNames t8
  have h9 : Keeps z t8 := by
    unfold t8
    exact State.updEng_keeps h7
  clear_value t8
  extract_lets +onlyGivenNames t10
  clear_value t10
  exact State.faultCtx_keeps (State.setReg_keeps (State.setReg_keeps h9))

theorem State.bundleSide_keeps {z : State} {s : State} {a1 : ℕ} {a2 : ℕ} {a3 : VRes} (h : Keeps z s) :
    Keeps z (State.bundleSide s a1 a2 a3) := by
  unfold State.bundleSide
  extract_lets +onlyGivenNames t0
  have h1 : Keeps z t0 := by
    unfold t0
    refine keeps_ite ?_ ?_
    · exact State.setFld_keeps h
    · exact h
  clear_value t0
  extract_lets +onlyGivenNames t2
  have h3 : Keeps z t2 := by
    unfold t2
    exact State.updReg_keeps h1
  clear_value t2
  extract_lets +onlyGivenNames t4
  have h5 : Keeps z t4 := by
    unfold t4
    split
    · exact h3
    · exact State.setReg_keeps h3
  clear_value t4
  extract_lets +onlyGivenNames t6
  have h7 : Keeps z t6 := by
    unfold t6
    split
    · exact h5
    · exact State.setReg_keeps h5
  clear_value t6
  extract_lets +onlyGivenNames t8
  have h9 : Keeps z t8 := by
    unfold t8
    split
    · exact h7
    · exact State.updSlot_keeps h7
  clear_value t8
  split
  · exact h9
  · exact State.updSlot_keeps h9

theorem State.runBundle_keeps {z : State} {s : State} {a1 : ℕ} {a2 : Bundle} (h : Keeps z s) :
    Keeps z (State.runBundle s a1 a2) := by
  unfold State.runBundle
  extract_lets +onlyGivenNames t0
  clear_value t0
  extract_lets +onlyGivenNames t1
  clear_value t1
  extract_lets +onlyGivenNames t2
  clear_value t2
  extract_lets +onlyGivenNames t3
  clear_value t3
  extract_lets +onlyGivenNames t4
  clear_value t4
  extract_lets +onlyGivenNames t5
  clear_value t5
  extract_lets +onlyGivenNames t6
  clear_value t6
  extract_lets +onlyGivenNames t7
  have h8 : Keeps z t7 := by
    unfold t7
    refine keeps_ite ?_ ?_
    · exact State.updEng_keeps h
    · exact h
  clear_value t7
  extract_lets +onlyGivenNames t9
  clear_value t9
  extract_lets +onlyGivenNames t10
  clear_value t10
  extract_lets +onlyGivenNames t11
  have h12 : Keeps z t11 := by
    unfold t11
    exact State.updEng_keeps h8
  clear_value t11
  extract_lets +onlyGivenNames t13
  have h14 : Keeps z t13 := by
    unfold t13
    exact State.updReg_keeps (State.bundleSide_keeps h12)
  clear_value t13
  extract_lets +onlyGivenNames t15
  have h16 : Keeps z t15 := by
    unfold t15
    exact keeps_free h14
  clear_value t15
  extract_lets +onlyGivenNames t17
  have h18 : Keeps z t17 := by
    unfold t17
    split
    · exact h16
    · exact State.sendSig_keeps h16
  clear_value t17
  refine keeps_ite ?_ ?_
  · exact State.updEng_keeps h18
  · exact h18

theorem vtRun_keeps {z : State} {a0 : ℕ} {a1 : VOp} {s : State} (h : Keeps z s) :
    KeepsO z (vtRun a0 a1 s) := by
  unfold vtRun
  refine keepsO_ite ?_ ?_
  · extract_lets +onlyGivenNames t0
    clear_value t0
    extract_lets +onlyGivenNames t1
    have h2 : Keeps z t1 := by
      unfold t1
      exact State.updEng_keeps h
    clear_value t1
    extract_lets +onlyGivenNames t3
    clear_value t3
    split
    · exact keepsO_next (State.vtFault_keeps h2)
    · split
      · exact keepsO_next (State.vtFault_keeps h2)
      · refine keepsO_ite ?_ ?_
        · exact keepsO_next (State.runBundle_keeps h2)
        · exact keepsO_next h
  · exact keepsO_next h

theorem execResultLand_keeps {z : State} {a0 : Fin 64} {s : State} (h : Keeps z s) :
    KeepsO z (execResultLand a0 s) := by
  unfold execResultLand
  split
  · exact keepsO_next h
  · refine keepsO_ite ?_ ?_
    · exact keepsO_next h
    · exact keepsO_next (State.updEng_keeps h)

theorem execBankDrained_keeps {z : State} {a0 : Fin 64} {a1 : Fin 2} {s : State} (h : Keeps z s) :
    KeepsO z (execBankDrained a0 a1 s) := by
  unfold execBankDrained
  extract_lets +onlyGivenNames t0
  clear_value t0
  refine keepsO_ite ?_ ?_
  · extract_lets +onlyGivenNames t1
    have h2 : Keeps z t1 := by
      unfold t1
      exact State.updEng_keeps h
    clear_value t1
    extract_lets +onlyGivenNames t3
    clear_value t3
    extract_lets +onlyGivenNames t4
    have h5 : Keeps z t4 := by
      unfold t4
      refine keeps_ite ?_ ?_
      · exact h2
      · exact State.updSlot_keeps h2
    clear_value t4
    exact keepsO_next (State.updEng_keeps h5)
  · exact keepsO_next h

theorem execThreadEnd_keeps {z : State} {a0 : Fin 64} {s : State} (h : Keeps z s) :
    KeepsO z (execThreadEnd a0 s) := by
  unfold execThreadEnd
  extract_lets +onlyGivenNames t0
  clear_value t0
  extract_lets +onlyGivenNames t1
  clear_value t1
  refine keepsO_ite ?_ ?_
  · extract_lets +onlyGivenNames t2
    have h3 : Keeps z t2 := by
      unfold t2
      exact State.updEng_keeps h
    clear_value t2
    extract_lets +onlyGivenNames t4
    have h5 : Keeps z t4 := by
      unfold t4
      exact State.updSlot_keeps h3
    clear_value t4
    exact keepsO_next (State.wake_keeps h5)
  · exact keepsO_next h

theorem State.swapIn_keeps {z : State} {s : State} {a1 : ℕ} {a2 : ℕ} {a3 : ℕ} (h : Keeps z s) :
    Keeps z (State.swapIn s a1 a2 a3) := by
  unfold State.swapIn
  extract_lets +onlyGivenNames t0
  clear_value t0
  extract_lets +onlyGivenNames t1
  clear_value t1
  extract_lets +onlyGivenNames t2
  clear_value t2
  extract_lets +onlyGivenNames t3
  have h4 : Keeps z t3 := by
    unfold t3
    exact State.setSlot_keeps h
  clear_value t3
  split
  · exact State.updEng_keeps h4
  · exact State.updEng_keeps h4

theorem execThreadSwitch_keeps {z : State} {a0 : Fin 64} {s : State} (h : Keeps z s) :
    KeepsO z (execThreadSwitch a0 s) := by
  unfold execThreadSwitch
  extract_lets +onlyGivenNames t0
  clear_value t0
  extract_lets +onlyGivenNames t1
  clear_value t1
  extract_lets +onlyGivenNames t2
  clear_value t2
  extract_lets +onlyGivenNames t3
  clear_value t3
  extract_lets +onlyGivenNames t4
  refine keepsO_ite ?_ ?_
  · exact keepsO_next h
  · split
    · refine keepsO_ite ?_ ?_
      · exact keepsO_next (State.updEng_keeps h)
      · exact keepsO_next h
    · refine keepsO_ite ?_ ?_
      · refine keepsO_ite ?_ ?_
        · exact keepsO_next h
        · refine keepsO_ite ?_ ?_
          · exact keepsO_next (State.updEng_keeps h)
          · exact keepsO_next (State.swapIn_keeps (State.updEng_keeps h))
      · refine keepsO_ite ?_ ?_
        · exact keepsO_next h
        · exact keepsO_next (State.swapIn_keeps h)

theorem execGateHandlerEntry_keeps {z : State} {a0 : Fin 64} {s : State} (h : Keeps z s) :
    KeepsO z (execGateHandlerEntry a0 s) := by
  unfold execGateHandlerEntry
  extract_lets +onlyGivenNames t0
  clear_value t0
  extract_lets +onlyGivenNames t1
  clear_value t1
  extract_lets +onlyGivenNames t2
  clear_value t2
  refine keepsO_ite ?_ ?_
  · split
    · exact keepsO_next h
    · extract_lets +onlyGivenNames t3
      have h4 : Keeps z t3 := by
        unfold t3
        exact State.updSlot_keeps h
      clear_value t3
      extract_lets +onlyGivenNames t5
      clear_value t5
      exact keepsO_next (State.updEng_keeps h4)
  · exact keepsO_next h

theorem execVlaunch_keeps {z : State} {a0 : Fin 64} {a1 : Fin 8} {s : State} (h : Keeps z s) :
    KeepsO z (execVlaunch a0 a1 s) := by
  unfold execVlaunch
  refine esRun_keeps ?_ ?_
  · exact h
  · intro x0
    split
    · refine keepsF_some (fun s1 h2 => ?_)
      extract_lets +onlyGivenNames t3
      clear_value t3
      extract_lets +onlyGivenNames t4
      clear_value t4
      refine keeps_ite ?_ ?_
      · exact State.blockRetry_keeps h2
      · refine keeps_ite ?_ ?_
        · exact State.esFault_keeps h2
        · extract_lets +onlyGivenNames t5
          clear_value t5
          extract_lets +onlyGivenNames t6
          have h7 : Keeps z t6 := by
            unfold t6
            exact State.beginCmd_keeps (State.updEng_keeps h2)
          clear_value t6
          exact State.retire_keeps h7
    · exact keepsF_none

end Sys2Proof.Machine
end

