-- ==== Sys2Proof/Laws/Keeps7.lean ====
section
/-! SUPPORT. Every operation and meaning of the files Retire, Power, Hang, Mgmt, Ddr5Init, Startup of Machine keeps
the queue, the count of free values and the canonical form of memory (Keeps). -/

namespace Sys2Proof.Machine

/-! ### Retire -/

theorem State.moveSlot_keeps {z : State} {s : State} {a1 : ℕ} {a2 : ℕ} {a3 : ℕ} (h : Keeps z s) :
    Keeps z (State.moveSlot s a1 a2 a3) := by
  unfold State.moveSlot
  extract_lets +onlyGivenNames t0
  clear_value t0
  extract_lets +onlyGivenNames t1
  clear_value t1
  extract_lets +onlyGivenNames t2
  clear_value t2
  extract_lets +onlyGivenNames t3
  clear_value t3
  extract_lets +onlyGivenNames t4
  clear_value t4
  split
  · extract_lets +onlyGivenNames t5
    clear_value t5
    extract_lets +onlyGivenNames t6
    have h7 : Keeps z t6 := by
      unfold t6
      exact State.updEng_keeps h
    clear_value t6
    extract_lets +onlyGivenNames t8
    have h9 : Keeps z t8 := by
      unfold t8
      exact State.setReg_keeps (State.setReg_keeps h7)
    clear_value t8
    extract_lets +onlyGivenNames t10
    have h11 : Keeps z t10 := by
      unfold t10
      refine keeps_foldl ?_ (fun s12 a13 h14 => ?_)
      · exact h9
      · exact State.setReg_keeps h14
    clear_value t10
    extract_lets +onlyGivenNames t15
    have h16 : Keeps z t15 := by
      unfold t15
      refine keeps_foldl ?_ (fun s17 a18 h19 => ?_)
      · exact h11
      · exact State.setReg_keeps h19
    clear_value t15
    extract_lets +onlyGivenNames t20
    have h21 : Keeps z t20 := by
      unfold t20
      exact State.freeGates_keeps (State.emptySlot_keeps h16)
    clear_value t20
    extract_lets +onlyGivenNames t22
    have h23 : Keeps z t22 := by
      unfold t22
      exact State.updEng_keeps h21
    clear_value t22
    extract_lets +onlyGivenNames t24
    have h25 : Keeps z t24 := by
      unfold t24
      refine keeps_foldl ?_ (fun s26 a27 h28 => ?_)
      · exact h23
      · exact State.updEng_keeps h28
    clear_value t24
    exact State.wakeEngine_keeps (keeps_mk h25)
  · exact h

theorem State.rehome_keeps {z : State} {s : State} {a1 : ℕ} {a2 : List ℕ} {a3 : ℕ} (h : Keeps z s) :
    Keeps z (State.rehome s a1 a2 a3) := by
  unfold State.rehome
  extract_lets +onlyGivenNames t0
  clear_value t0
  refine keeps_ite ?_ ?_
  · exact State.freezeCtx_keeps h
  · split
    · exact State.moveSlot_keeps h
    · exact State.freezeCtx_keeps h

theorem State.retireEngine_keeps {z : State} {s : State} {a1 : ℕ} {a2 : ℕ} (h : Keeps z s) :
    Keeps z (State.retireEngine s a1 a2) := by
  unfold State.retireEngine
  extract_lets +onlyGivenNames t0
  have h1 : Keeps z t0 := by
    unfold t0
    refine keeps_foldl ?_ (fun s2 a3 h4 => ?_)
    · exact h
    · exact State.updPart_keeps h4
  clear_value t0
  extract_lets +onlyGivenNames t5
  have h6 : Keeps z t5 := by
    unfold t5
    exact State.setFld_keeps (State.updEng_keeps h1)
  clear_value t5
  extract_lets +onlyGivenNames t7
  have h8 : Keeps z t7 := by
    unfold t7
    exact State.event_keeps (State.healthChange_keeps h6)
  clear_value t7
  refine keeps_foldl ?_ (fun s9 a10 h11 => ?_)
  · exact h8
  · exact State.finishCmd_keeps h11

theorem execEngineRetirement_keeps {z : State} {a0 : Fin 64} {a1 : List (Fin 1024)} {s : State} (h : Keeps z s) :
    KeepsO z (execEngineRetirement a0 a1 s) := by
  unfold execEngineRetirement
  extract_lets +onlyGivenNames t0
  clear_value t0
  split
  · exact keepsO_next h
  · refine keepsO_ite ?_ ?_
    · exact keepsO_next h
    · extract_lets +onlyGivenNames t1
      have h2 : Keeps z t1 := by
        unfold t1
        exact State.updEng_keeps h
      clear_value t1
      extract_lets +onlyGivenNames t3
      have h4 : Keeps z t3 := by
        unfold t3
        refine keeps_foldl ?_ (fun s5 a6 h7 => ?_)
        · exact h2
        · exact State.rehome_keeps h7
      clear_value t3
      exact keepsO_next (State.retireEngine_keeps h4)

theorem State.zeroGrant_keeps {z : State} {s : State} {a1 : Cmd} {a2 : Grant} (h : Keeps z s) :
    Keeps z (State.zeroGrant s a1 a2) := by
  unfold State.zeroGrant
  extract_lets +onlyGivenNames t0
  split
  · dsimp only [t0]
    refine keeps_foldl ?_ (fun s1 a2 h3 => ?_)
    · exact h
    · exact State.putBytes_keeps h3
  · exact State.zeroKeys_keeps h
  · exact State.zeroKeys_keeps h
  · exact State.addLoad_keeps h
  · exact h

theorem execRevokeZeroing_keeps {z : State} {a0 : Fin 8} {s : State} (h : Keeps z s) :
    KeepsO z (execRevokeZeroing a0 s) := by
  unfold execRevokeZeroing
  split
  · exact keepsO_next h
  · extract_lets +onlyGivenNames t0
    clear_value t0
    extract_lets +onlyGivenNames t1
    clear_value t1
    extract_lets +onlyGivenNames t2
    clear_value t2
    refine keepsO_ite ?_ ?_
    · exact keepsO_next h
    · refine keepsO_ite ?_ ?_
      · exact keepsO_next (State.finishCmd_keeps (State.updPart_keeps h))
      · extract_lets +onlyGivenNames t3
        have h4 : Keeps z t3 := by
          unfold t3
          refine State.showGrant_keeps ?_
          refine State.updPart_keeps ?_
          refine keeps_foldl ?_ (fun s5 a6 h7 => ?_)
          · exact h
          · exact State.zeroGrant_keeps h7
        clear_value t3
        refine keepsO_next ?_
        refine keeps_ite ?_ ?_
        · exact h4
        · exact State.finishCmd_keeps h4

/-! ### Power -/

theorem State.updPwr_keeps {z : State} {s : State} {a1 : Pwr → Pwr} (h : Keeps z s) :
    Keeps z (State.updPwr s a1) := by
  unfold State.updPwr
  exact keeps_mk h

theorem State.showFs_keeps {z : State} {s : State} (h : Keeps z s) :
    Keeps z (State.showFs s) := by
  unfold State.showFs
  exact State.setFld_keeps h

theorem State.setStretch_keeps {z : State} {s : State} {a1 : ℕ} {a2 : ℕ} (h : Keeps z s) :
    Keeps z (State.setStretch s a1 a2) := by
  unfold State.setStretch
  refine keeps_ite ?_ ?_
  · exact State.showFs_keeps (State.updPwr_keeps h)
  · refine keeps_ite ?_ ?_
    · exact State.showFs_keeps (State.updPwr_keeps h)
    · exact State.setFld_keeps h

theorem State.moveIsland_keeps {z : State} {s : State} {a1 : List ℕ} {a2 : ℕ} (h : Keeps z s) :
    Keeps z (State.moveIsland s a1 a2) := by
  unfold State.moveIsland
  split
  · exact State.updPwr_keeps h
  · exact State.setStretch_keeps h

theorem execGovernorUpdate_keeps {z : State} {a0 : Sensors} {s : State} (h : Keeps z s) :
    KeepsO z (execGovernorUpdate a0 s) := by
  unfold execGovernorUpdate
  refine keepsO_ite ?_ ?_
  · exact keepsO_next h
  · extract_lets +onlyGivenNames t0
    clear_value t0
    extract_lets +onlyGivenNames t1
    have h2 : Keeps z t1.2 := by
      unfold t1
      exact State.takeBits_keeps h
    clear_value t1
    extract_lets +onlyGivenNames t3
    clear_value t3
    extract_lets +onlyGivenNames t4
    have h5 : Keeps z t4 := by
      unfold t4
      exact State.updPwr_keeps h2
    clear_value t4
    extract_lets +onlyGivenNames t6
    have h7 : Keeps z t6 := by
      unfold t6
      refine keeps_foldl ?_ (fun s8 a9 h10 => ?_)
      · exact h5
      · exact State.moveIsland_keeps h10
    clear_value t6
    extract_lets +onlyGivenNames t11
    clear_value t11
    extract_lets +onlyGivenNames t12
    have h13 : Keeps z t12 := by
      unfold t12
      exact State.updPwr_keeps h7
    clear_value t12
    extract_lets +onlyGivenNames t14
    clear_value t14
    exact keepsO_next (State.setReg_keeps h13)

theorem execGovernorCalibration_keeps {z : State} {a0 : ℕ} {s : State} (h : Keeps z s) :
    KeepsO z (execGovernorCalibration a0 s) := by
  unfold execGovernorCalibration
  extract_lets +onlyGivenNames t0
  clear_value t0
  refine keepsO_next ?_
  refine keeps_ite ?_ ?_
  · exact State.updPwr_keeps h
  · exact h

theorem execCapmiss_keeps {z : State} {s : State} (h : Keeps z s) :
    KeepsO z (execCapmiss s) := by
  unfold execCapmiss
  split
  · exact keepsO_next h
  · refine keepsO_ite ?_ ?_
    · exact keepsO_next (State.setFld_keeps (State.alert_keeps h))
    · exact keepsO_next h

theorem execTemperatureAlert_keeps {z : State} {s : State} (h : Keeps z s) :
    KeepsO z (execTemperatureAlert s) := by
  unfold execTemperatureAlert
  refine keepsO_next ?_
  refine keeps_ite ?_ ?_
  · exact State.alert_keeps h
  · exact h

theorem execThermalTrip_keeps {z : State} {s : State} (h : Keeps z s) :
    KeepsO z (execThermalTrip s) := by
  unfold execThermalTrip
  refine keepsO_ite ?_ ?_
  · exact keepsO_next h
  · extract_lets +onlyGivenNames t0
    have h1 : Keeps z t0 := by
      unfold t0
      refine keeps_foldl ?_ (fun s2 a3 h4 => ?_)
      · exact h
      · exact State.setFld_keeps (State.sre_keeps h4)
    clear_value t0
    extract_lets +onlyGivenNames t5
    have h6 : Keeps z t5 := by
      unfold t5
      refine keeps_foldl ?_ (fun s7 a8 h9 => ?_)
      · exact h1
      · exact State.laneOff_keeps h9
    clear_value t5
    exact keepsO_next (State.updPwr_keeps (State.alert_keeps h6))

theorem State.dimmHeat_keeps {z : State} {s : State} {a1 : ℕ} {a2 : List ℕ} (h : Keeps z s) :
    Keeps z (State.dimmHeat s a1 a2) := by
  unfold State.dimmHeat
  extract_lets +onlyGivenNames t0
  clear_value t0
  extract_lets +onlyGivenNames t1
  refine keeps_ite ?_ ?_
  · extract_lets +onlyGivenNames t2
    have h3 : Keeps z t2 := by
      unfold t2
      exact State.alert_keeps h
    clear_value t2
    extract_lets +onlyGivenNames t4
    have h5 : Keeps z t4 := by
      unfold t4
      refine keeps_ite ?_ ?_
      · exact h3
      · exact State.updDdr_keeps h3
    clear_value t4
    refine keeps_ite ?_ ?_
    · exact State.changeSet_keeps h5
    · exact h5
  · refine keeps_ite ?_ ?_
    · extract_lets +onlyGivenNames t6
      have h7 : Keeps z t6 := by
        unfold t6
        exact State.updDdr_keeps h
      clear_value t6
      refine keeps_ite ?_ ?_
      · exact State.changeSet_keeps h7
      · exact h7
    · exact h

theorem execDimmTemperatureRead_keeps {z : State} {a0 : List (List ℕ)} {s : State} (h : Keeps z s) :
    KeepsO z (execDimmTemperatureRead a0 s) := by
  unfold execDimmTemperatureRead
  refine keepsO_next ?_
  refine keeps_ite ?_ ?_
  · refine keeps_foldl ?_ (fun s0 a1 h2 => ?_)
    · exact h
    · exact State.dimmHeat_keeps h2
  · exact h

theorem execPmbusTelemetry_keeps {z : State} {a0 : List Rail} {s : State} (h : Keeps z s) :
    KeepsO z (execPmbusTelemetry a0 s) := by
  unfold execPmbusTelemetry
  refine keepsO_ite ?_ ?_
  · exact keepsO_next h
  · refine keepsO_next ?_
    refine keeps_foldl ?_ (fun s0 a1 h2 => ?_)
    · exact h
    · extract_lets +onlyGivenNames t3
      clear_value t3
      refine keeps_ite ?_ ?_
      · exact State.updReg_keeps h2
      · exact State.setFld_keeps h2

theorem execPmbusAlert_keeps {z : State} {a0 : List Rail} {s : State} (h : Keeps z s) :
    KeepsO z (execPmbusAlert a0 s) := by
  unfold execPmbusAlert
  refine keepsO_ite ?_ ?_
  · exact keepsO_next h
  · extract_lets +onlyGivenNames t0
    have h1 : Keeps z t0 := by
      unfold t0
      refine keeps_foldl ?_ (fun s2 a3 h4 => ?_)
      · exact h
      · extract_lets +onlyGivenNames t5
        clear_value t5
        refine keeps_ite ?_ ?_
        · exact State.updReg_keeps h4
        · exact State.setFld_keeps h4
    clear_value t0
    exact keepsO_next (State.alert_keeps h1)

theorem execLocalSupplyDroop_keeps {z : State} {a0 : Fin 124} {s : State} (h : Keeps z s) :
    KeepsO z (execLocalSupplyDroop a0 s) := by
  unfold execLocalSupplyDroop
  refine keepsO_ite ?_ ?_
  · exact keepsO_next h
  · extract_lets +onlyGivenNames t0
    clear_value t0
    extract_lets +onlyGivenNames t1
    have h2 : Keeps z t1.2 := by
      unfold t1
      exact State.takeBits_keeps h
    clear_value t1
    extract_lets +onlyGivenNames t3
    clear_value t3
    exact keepsO_next (State.setStretch_keeps (State.updPwr_keeps h2))

theorem execLocalSupplyRecovery_keeps {z : State} {a0 : Fin 124} {s : State} (h : Keeps z s) :
    KeepsO z (execLocalSupplyRecovery a0 s) := by
  unfold execLocalSupplyRecovery
  split
  · exact keepsO_next h
  · exact keepsO_next (State.setStretch_keeps (State.updPwr_keeps h))

theorem execEngineClockGate_keeps {z : State} {a0 : Fin 64} {s : State} (h : Keeps z s) :
    KeepsO z (execEngineClockGate a0 s) := by
  unfold execEngineClockGate
  refine keepsO_ite ?_ ?_
  · exact keepsO_next h
  · exact keepsO_next (State.setFld_keeps h)

theorem execHerdRetention_keeps {z : State} {a0 : Fin 8} {s : State} (h : Keeps z s) :
    KeepsO z (execHerdRetention a0 s) := by
  unfold execHerdRetention
  extract_lets +onlyGivenNames t0
  clear_value t0
  refine keepsO_ite ?_ ?_
  · exact keepsO_next h
  · refine keepsO_next ?_
    refine keeps_foldl ?_ (fun s1 a2 h3 => ?_)
    · exact h
    · refine keeps_ite ?_ ?_
      · exact State.setFld_keeps h3
      · exact h3

theorem execRouterClockGate_keeps {z : State} {a0 : Fin 8} {s : State} (h : Keeps z s) :
    KeepsO z (execRouterClockGate a0 s) := by
  unfold execRouterClockGate
  refine keepsO_next ?_
  refine keeps_ite ?_ ?_
  · exact State.setFld_keeps h
  · exact h

/-! ### Hang -/

theorem State.resetEngine_keeps {z : State} {s : State} {a1 : ℕ} (h : Keeps z s) :
    Keeps z (State.resetEngine s a1) := by
  unfold State.resetEngine
  extract_lets +onlyGivenNames t0
  have h1 : Keeps z t0 := by
    unfold t0
    exact State.dropHeld_keeps (State.updEng_keeps h)
  clear_value t0
  extract_lets +onlyGivenNames t2
  have h3 : Keeps z t2 := by
    unfold t2
    exact State.updNoc_keeps h1
  clear_value t2
  extract_lets +onlyGivenNames t4
  have h5 : Keeps z t4 := by
    unfold t4
    refine keeps_foldl ?_ (fun s6 a7 h8 => ?_)
    · exact h3
    · exact State.resetReg_keeps h8
  clear_value t4
  refine keeps_foldl ?_ (fun s9 a10 h11 => ?_)
  · exact h5
  · exact State.setControls_keeps h11

theorem State.startHang_keeps {z : State} {s : State} {a1 : ℕ} (h : Keeps z s) :
    Keeps z (State.startHang s a1) := by
  unfold State.startHang
  extract_lets +onlyGivenNames t0
  clear_value t0
  extract_lets +onlyGivenNames t1
  have h2 : Keeps z t1 := by
    unfold t1
    exact State.updRst_keeps (State.updEng_keeps h)
  clear_value t1
  extract_lets +onlyGivenNames t3
  have h4 : Keeps z t3 := by
    unfold t3
    exact State.frozenEvent_keeps h2
  clear_value t3
  exact State.addDump_keeps h4

theorem State.setHang_keeps {z : State} {s : State} {a1 : Hang} {a2 : Hang} (h : Keeps z s) :
    Keeps z (State.setHang s a1 a2) := by
  unfold State.setHang
  exact State.updRst_keeps h

theorem State.dropCmdWork_keeps {z : State} {s : State} {a1 : ℕ} {a2 : ℕ} (h : Keeps z s) :
    Keeps z (State.dropCmdWork s a1 a2) := by
  unfold State.dropCmdWork
  refine keeps_foldl ?_ (fun s0 a1 h2 => ?_)
  · exact h
  · exact State.updEng_keeps h2

theorem State.guilty_keeps {z : State} {s : State} {a1 : ℕ} {a2 : Hang} {a3 : ℕ} {a4 : ℕ} (h : Keeps z s) :
    Keeps z (State.guilty s a1 a2 a3 a4) := by
  unfold State.guilty
  extract_lets +onlyGivenNames t0
  have h1 : Keeps z t0 := by
    unfold t0
    exact State.dropCmdWork_keeps (State.resetEngine_keeps h)
  clear_value t0
  extract_lets +onlyGivenNames t2
  have h3 : Keeps z t2 := by
    unfold t2
    exact State.freezeCtx_keeps h1
  clear_value t2
  extract_lets +onlyGivenNames t4
  have h5 : Keeps z t4 := by
    unfold t4
    exact State.finishCmd_keeps (State.updCmd_keeps h3)
  clear_value t4
  extract_lets +onlyGivenNames t6
  clear_value t6
  extract_lets +onlyGivenNames t7
  have h8 : Keeps z t7 := by
    unfold t7
    exact State.event_keeps h5
  clear_value t7
  exact State.setHang_keeps h8

theorem State.expire_keeps {z : State} {s : State} {a1 : ℕ} (h : Keeps z s) :
    Keeps z (State.expire s a1) := by
  unfold State.expire
  split
  · exact State.startHang_keeps h
  · split
    · exact State.guilty_keeps h
    · exact h

theorem execEngineWatchdog_keeps {z : State} {a0 : Fin 64} {s : State} (h : Keeps z s) :
    KeepsO z (execEngineWatchdog a0 s) := by
  unfold execEngineWatchdog
  refine keepsO_ite ?_ ?_
  · exact keepsO_next (State.expire_keeps h)
  · exact keepsO_next h

theorem execStreamWatchdog_keeps {z : State} {a0 : Fin 64} {a1 : Fin 4} {s : State} (h : Keeps z s) :
    KeepsO z (execStreamWatchdog a0 a1 s) := by
  unfold execStreamWatchdog
  refine keepsO_ite ?_ ?_
  · exact keepsO_next (State.expire_keeps h)
  · exact keepsO_next h

theorem State.replayCmd_keeps {z : State} {s : State} {a1 : Cmd} (h : Keeps z s) :
    Keeps z (State.replayCmd s a1) := by
  unfold State.replayCmd
  extract_lets +onlyGivenNames t0
  have h1 : Keeps z t0 := by
    unfold t0
    exact State.dropCmdWork_keeps h
  clear_value t0
  extract_lets +onlyGivenNames t2
  have h3 : Keeps z t2 := by
    unfold t2
    refine keeps_foldl ?_ (fun s4 a5 h6 => ?_)
    · exact h1
    · exact State.setReg_keeps (State.setReg_keeps h6)
  clear_value t2
  extract_lets +onlyGivenNames t7
  clear_value t7
  extract_lets +onlyGivenNames t8
  clear_value t8
  extract_lets +onlyGivenNames t9
  have h10 : Keeps z t9 := by
    unfold t9
    exact State.updCmd_keeps h3
  clear_value t9
  split
  · exact runStart_keeps h10
  · exact chainStart_keeps h10
  · exact convertStart_keeps h10
  · exact copyStart_keeps h10
  · exact h10

theorem State.endHang_keeps {z : State} {s : State} {a1 : Hang} (h : Keeps z s) :
    Keeps z (State.endHang s a1) := by
  unfold State.endHang
  extract_lets +onlyGivenNames t0
  clear_value t0
  extract_lets +onlyGivenNames t1
  clear_value t1
  extract_lets +onlyGivenNames t2
  clear_value t2
  extract_lets +onlyGivenNames t3
  have h4 : Keeps z t3 := by
    unfold t3
    exact State.setReg_keeps (State.setReg_keeps h)
  clear_value t3
  exact State.resume_keeps (State.updRst_keeps h4)

theorem State.nextReplay_keeps {z : State} {s : State} {a1 : Hang} (h : Keeps z s) :
    Keeps z (State.nextReplay s a1) := by
  unfold State.nextReplay
  extract_lets +onlyGivenNames t0
  clear_value t0
  split
  · exact State.endHang_keeps h
  · split
    · exact State.endHang_keeps h
    · exact State.resume_keeps (State.replayCmd_keeps (State.setHang_keeps h))

theorem State.hangReset_keeps {z : State} {s : State} {a1 : Hang} {a2 : Bool} (h : Keeps z s) :
    Keeps z (State.hangReset s a1 a2) := by
  unfold State.hangReset
  extract_lets +onlyGivenNames t0
  have h1 : Keeps z t0 := by
    unfold t0
    exact State.resetEngine_keeps h
  clear_value t0
  extract_lets +onlyGivenNames t2
  clear_value t2
  extract_lets +onlyGivenNames t3
  have h4 : Keeps z t3 := by
    unfold t3
    exact State.setHang_keeps h1
  clear_value t3
  refine keeps_ite ?_ ?_
  · exact State.nextReplay_keeps h4
  · exact State.updEng_keeps h4

theorem execSuspectReplay_keeps {z : State} {a0 : Fin 64} {a1 : Bool} {s : State} (h : Keeps z s) :
    KeepsO z (execSuspectReplay a0 a1 s) := by
  unfold execSuspectReplay
  split
  · exact keepsO_next h
  · refine keepsO_ite ?_ ?_
    · exact keepsO_next h
    · split
      · refine keepsO_ite ?_ ?_
        · exact keepsO_next h
        · exact keepsO_next (State.hangReset_keeps h)
      · refine keepsO_ite ?_ ?_
        · exact keepsO_next h
        · exact keepsO_next (State.nextReplay_keeps h)
      · refine keepsO_ite ?_ ?_
        · exact keepsO_next h
        · extract_lets +onlyGivenNames t0
          clear_value t0
          extract_lets +onlyGivenNames t1
          have h2 : Keeps z t1 := by
            unfold t1
            exact State.setHang_keeps h
          clear_value t1
          refine keepsO_ite ?_ ?_
          · exact keepsO_next h2
          · exact keepsO_next (State.nextReplay_keeps h2)

/-! ### Mgmt -/

theorem State.answerMgmt_keeps {z : State} {s : State} {a1 : Mgmt} {a2 : ℕ} {a3 : List Byte} (h : Keeps z s) :
    Keeps z (State.answerMgmt s a1 a2 a3) := by
  unfold State.answerMgmt
  extract_lets +onlyGivenNames t0
  clear_value t0
  refine keeps_ite ?_ ?_
  · exact State.emit_keeps h
  · extract_lets +onlyGivenNames t1
    clear_value t1
    extract_lets +onlyGivenNames t2
    clear_value t2
    exact State.post_keeps h

theorem State.answerError_keeps {z : State} {s : State} {a1 : Mgmt} {a2 : ℕ} (h : Keeps z s) :
    Keeps z (State.answerError s a1 a2) := by
  unfold State.answerError
  exact State.answerMgmt_keeps h

theorem State.takeMsg_keeps {z s t : State} {part row : Nat} {m : Mgmt} (h : Keeps z s)
    (e : s.takeMsg part row = some (m, t)) : Keeps z t := by
  unfold State.takeMsg at e
  split at e
  · cases e
  · cases e
    exact State.updSec_keeps h

theorem mgmtRun_keeps {z s : State} {part row : Nat} {f : State → Mgmt → State} (h : Keeps z s)
    (hf : ∀ t m, Keeps z t → Keeps z (f t m)) : KeepsO z (mgmtRun part row f s) := by
  unfold mgmtRun
  refine keepsO_ite (keepsO_next h) ?_
  have h1 := State.pumpMsgs_keeps (a1 := part) h
  dsimp only
  split
  · exact keepsO_next h1
  · have h2 := State.takeMsg_keeps h1 ‹_›
    exact keepsO_next (keeps_ite (hf _ _ h2) (State.answerError_keeps h2))

theorem State.startHandshake_keeps {z : State} {s : State} {a1 : Mgmt} {a2 : List Byte} (h : Keeps z s) :
    Keeps z (State.startHandshake s a1 a2).1 := by
  unfold State.startHandshake
  extract_lets +onlyGivenNames t0
  have h1 : Keeps z t0.2 := by
    unfold t0
    exact State.takeBits_keeps h
  clear_value t0
  extract_lets +onlyGivenNames t2
  have h3 : Keeps z t2.2 := by
    unfold t2
    exact State.takeBits_keeps h1
  clear_value t2
  extract_lets +onlyGivenNames t4
  have h5 : Keeps z t4.2 := by
    unfold t4
    exact State.takeBits_keeps h3
  clear_value t4
  extract_lets +onlyGivenNames t6
  clear_value t6
  extract_lets +onlyGivenNames t7
  clear_value t7
  extract_lets +onlyGivenNames t8
  clear_value t8
  extract_lets +onlyGivenNames t9
  clear_value t9
  extract_lets +onlyGivenNames t10
  clear_value t10
  dsimp only
  exact State.updSec_keeps h5

theorem State.onHello_keeps {z : State} {s : State} {a1 : Mgmt} (h : Keeps z s) :
    Keeps z (State.onHello s a1) := by
  unfold State.onHello
  extract_lets +onlyGivenNames t0
  clear_value t0
  extract_lets +onlyGivenNames t1
  clear_value t1
  refine keeps_ite ?_ ?_
  · exact State.answerError_keeps h
  · refine keeps_ite ?_ ?_
    · exact State.answerError_keeps h
    · extract_lets +onlyGivenNames t2
      have h3 : Keeps z t2.1 := by
        unfold t2
        exact State.startHandshake_keeps h
      clear_value t2
      exact State.answerMgmt_keeps h3

theorem execHello_keeps {z : State} {a0 : Fin 8} {s : State} (h : Keeps z s) :
    KeepsO z (execHello a0 s) := by
  unfold execHello
  refine mgmtRun_keeps ?_ ?_
  · exact h
  · intro x0 x1 h2
    exact State.onHello_keeps h2

theorem State.installKeys_keeps {z : State} {s : State} {a1 : Handshake} (h : Keeps z s) :
    Keeps z (State.installKeys s a1) := by
  unfold State.installKeys
  extract_lets +onlyGivenNames t0
  clear_value t0
  extract_lets +onlyGivenNames t1
  clear_value t1
  extract_lets +onlyGivenNames t2
  clear_value t2
  extract_lets +onlyGivenNames t3
  clear_value t3
  extract_lets +onlyGivenNames t4
  clear_value t4
  extract_lets +onlyGivenNames t5
  clear_value t5
  extract_lets +onlyGivenNames t6
  have h7 : Keeps z t6.2 := by
    unfold t6
    refine keeps_ite_snd ?_ ?_
    · exact State.newPaths_keeps h
    · dsimp only
      exact h
  clear_value t6
  extract_lets +onlyGivenNames t8
  clear_value t8
  extract_lets +onlyGivenNames t9
  have h10 : Keeps z t9 := by
    unfold t9
    exact h7
  clear_value t9
  extract_lets +onlyGivenNames t11
  clear_value t11
  extract_lets +onlyGivenNames t12
  have h13 : Keeps z t12 := by
    unfold t12
    exact keeps_mk h10
  clear_value t12
  extract_lets +onlyGivenNames t14
  clear_value t14
  extract_lets +onlyGivenNames t15
  have h16 : Keeps z t15 := by
    unfold t15
    exact State.setEnt_keeps h13
  clear_value t15
  extract_lets +onlyGivenNames t17
  clear_value t17
  extract_lets +onlyGivenNames t18
  have h19 : Keeps z t18 := by
    unfold t18
    exact State.setFld_keeps (State.setFld_keeps h16)
  clear_value t18
  extract_lets +onlyGivenNames t20
  have h21 : Keeps z t20 := by
    unfold t20
    refine keeps_ite ?_ ?_
    · exact State.setFld_keeps (State.setFld_keeps (State.setFld_keeps h19))
    · exact h19
  clear_value t20
  exact State.setFld_keeps h21

theorem State.onFinish_keeps {z : State} {s : State} {a1 : Mgmt} (h : Keeps z s) :
    Keeps z (State.onFinish s a1) := by
  unfold State.onFinish
  split
  · exact State.answerError_keeps h
  · refine keeps_ite ?_ ?_
    · exact State.answerError_keeps h
    · refine keeps_ite ?_ ?_
      · exact State.installKeys_keeps (State.updSec_keeps h)
      · exact State.answerError_keeps h

theorem execFinish_keeps {z : State} {a0 : Fin 8} {s : State} (h : Keeps z s) :
    KeepsO z (execFinish a0 s) := by
  unfold execFinish
  refine mgmtRun_keeps ?_ ?_
  · exact h
  · intro x0 x1 h2
    exact State.onFinish_keeps h2

theorem State.onAttest_keeps {z : State} {s : State} {a1 : Mgmt} (h : Keeps z s) :
    Keeps z (State.onAttest s a1) := by
  unfold State.onAttest
  extract_lets +onlyGivenNames t0
  clear_value t0
  refine keeps_ite ?_ ?_
  · exact State.answerError_keeps h
  · refine keeps_ite ?_ ?_
    · exact State.answerError_keeps h
    · extract_lets +onlyGivenNames t1
      clear_value t1
      exact State.answerMgmt_keeps h

theorem execAttestReq_keeps {z : State} {a0 : Fin 8} {s : State} (h : Keeps z s) :
    KeepsO z (execAttestReq a0 s) := by
  unfold execAttestReq
  refine mgmtRun_keeps ?_ ?_
  · exact h
  · intro x0 x1 h2
    exact State.onAttest_keeps h2

theorem State.onCerts_keeps {z : State} {s : State} {a1 : Mgmt} (h : Keeps z s) :
    Keeps z (State.onCerts s a1) := by
  unfold State.onCerts
  refine keeps_ite ?_ ?_
  · exact State.answerError_keeps h
  · exact State.answerMgmt_keeps h

theorem execCertsReq_keeps {z : State} {a0 : Fin 8} {s : State} (h : Keeps z s) :
    KeepsO z (execCertsReq a0 s) := by
  unfold execCertsReq
  refine mgmtRun_keeps ?_ ?_
  · exact h
  · intro x0 x1 h2
    exact State.onCerts_keeps h2

theorem State.onUnlock_keeps {z : State} {s : State} {a1 : Mgmt} (h : Keeps z s) :
    Keeps z (State.onUnlock s a1) := by
  unfold State.onUnlock
  refine keeps_ite ?_ ?_
  · exact State.answerError_keeps h
  · refine keeps_ite ?_ ?_
    · exact State.newNonce_keeps (State.updSec_keeps (State.setFld_keeps h))
    · exact State.answerError_keeps (State.newNonce_keeps h)

theorem execUnlock_keeps {z : State} {a0 : Fin 8} {s : State} (h : Keeps z s) :
    KeepsO z (execUnlock a0 s) := by
  unfold execUnlock
  refine mgmtRun_keeps ?_ ?_
  · exact h
  · intro x0 x1 h2
    exact State.onUnlock_keeps h2

/-! ### Ddr5Init -/

theorem State.pruneHealth_keeps {z : State} {s : State} (h : Keeps z s) :
    Keeps z (State.pruneHealth s) := by
  unfold State.pruneHealth
  extract_lets +onlyGivenNames t0
  clear_value t0
  refine keeps_ite ?_ ?_
  · exact State.healthChange_keeps h
  · exact h

theorem State.applyRank_keeps {z : State} {s : State} {a1 : ℕ} {a2 : ℕ} {a3 : ℕ} {a4 : ℕ} (h : Keeps z s) :
    Keeps z (State.applyRank s a1 a2 a3 a4) := by
  unfold State.applyRank
  split
  · exact h
  · refine keeps_ite ?_ ?_
    · refine keeps_ite ?_ ?_
      · exact State.setFld_keeps (State.setFld_keeps h)
      · exact h
    · refine keeps_ite ?_ ?_
      · extract_lets +onlyGivenNames t0
        clear_value t0
        exact State.setFld_keeps (State.updDdr_keeps h)
      · exact h

theorem State.applyRanks_keeps {z : State} {s : State} (h : Keeps z s) :
    Keeps z (State.applyRanks s) := by
  unfold State.applyRanks
  refine keeps_foldl ?_ (fun s0 a1 h2 => ?_)
  · exact h
  · split
    · refine keeps_ite ?_ ?_
      · exact State.applyRank_keeps h2
      · exact h2
    · exact h2

theorem State.trainRank_keeps {z : State} {s : State} {a1 : ℕ} {a2 : ℕ} {a3 : ℕ} {a4 : ℕ} (h : Keeps z s) :
    Keeps z (State.trainRank s a1 a2 a3 a4) := by
  unfold State.trainRank
  extract_lets +onlyGivenNames t0
  clear_value t0
  refine keeps_ite ?_ ?_
  · exact h
  · exact State.updDdr_keeps (keeps_free h)

theorem State.trainChan_keeps {z : State} {s : State} {a1 : ℕ} {a2 : Popul} (h : Keeps z s) :
    Keeps z (State.trainChan s a1 a2) := by
  unfold State.trainChan
  extract_lets +onlyGivenNames t0
  clear_value t0
  extract_lets +onlyGivenNames t1
  have h2 : Keeps z t1 := by
    unfold t1
    exact State.setReg_keeps (State.setReg_keeps h)
  clear_value t1
  extract_lets +onlyGivenNames t3
  have h4 : Keeps z t3 := by
    unfold t3
    refine keeps_foldl ?_ (fun s5 a6 h7 => ?_)
    · exact h2
    · exact State.trainRank_keeps (State.trainRank_keeps h7)
  clear_value t3
  extract_lets +onlyGivenNames t8
  have h9 : Keeps z t8 := by
    unfold t8
    exact State.issue_keeps (State.updChanBanks_keeps h4)
  clear_value t8
  exact State.setReg_keeps h9

theorem State.setGeom_keeps {z : State} {s : State} {a1 : List ℕ} {a2 : Popul} (h : Keeps z s) :
    Keeps z (State.setGeom s a1 a2) := by
  unfold State.setGeom
  extract_lets +onlyGivenNames t0
  clear_value t0
  extract_lets +onlyGivenNames t1
  clear_value t1
  extract_lets +onlyGivenNames t2
  clear_value t2
  extract_lets +onlyGivenNames t3
  clear_value t3
  extract_lets +onlyGivenNames t4
  clear_value t4
  extract_lets +onlyGivenNames t5
  clear_value t5
  extract_lets +onlyGivenNames t6
  clear_value t6
  extract_lets +onlyGivenNames t7
  clear_value t7
  extract_lets +onlyGivenNames t8
  clear_value t8
  exact State.setReg_keeps h

theorem State.leaveOut_keeps {z : State} {s : State} {a1 : ℕ} {a2 : Bool} (h : Keeps z s) :
    Keeps z (State.leaveOut s a1 a2) := by
  unfold State.leaveOut
  extract_lets +onlyGivenNames t0
  clear_value t0
  extract_lets +onlyGivenNames t1
  have h2 : Keeps z t1 := by
    unfold t1
    exact State.setReg_keeps h
  clear_value t1
  refine keeps_ite ?_ ?_
  · exact State.event_keeps h2
  · exact h2

theorem State.trainFails_keeps {z : State} {s : State} {a1 : ℕ} (h : Keeps z s) :
    Keeps z (State.trainFails s a1) := by
  unfold State.trainFails
  extract_lets +onlyGivenNames t0
  clear_value t0
  refine keeps_ite ?_ ?_
  · exact State.leaveOut_keeps (State.healthChange_keeps h)
  · exact State.leaveOut_keeps (State.updDdr_keeps h)

theorem State.initChan_keeps {z : State} {s : State} {a1 : Popul} {a2 : List ℕ} {a3 : ℕ} (h : Keeps z s) :
    Keeps z (State.initChan s a1 a2 a3) := by
  unfold State.initChan
  split
  · exact State.setReg_keeps h
  · refine keeps_ite ?_ ?_
    · exact State.leaveOut_keeps h
    · refine keeps_ite ?_ ?_
      · exact State.trainFails_keeps h
      · exact State.updDdr_keeps (State.trainChan_keeps h)

theorem State.takeDimms_keeps {z : State} {s : State} {a1 : Tab (List Spd)} (h : Keeps z s) :
    Keeps z (State.takeDimms s a1) := by
  unfold State.takeDimms
  extract_lets +onlyGivenNames t0
  have h1 : Keeps z t0 := by
    unfold t0
    exact State.updDdr_keeps h
  clear_value t0
  extract_lets +onlyGivenNames t2
  clear_value t2
  exact State.updDdr_keeps h1

theorem State.initTier_keeps {z : State} {s : State} {a1 : List (List Spd)} {a2 : List ℕ} (h : Keeps z s) :
    Keeps z (State.initTier s a1 a2) := by
  unfold State.initTier
  extract_lets +onlyGivenNames t0
  clear_value t0
  extract_lets +onlyGivenNames t1
  have h2 : Keeps z t1 := by
    unfold t1
    exact State.pruneHealth_keeps (State.takeDimms_keeps h)
  clear_value t1
  extract_lets +onlyGivenNames t3
  have h4 : Keeps z t3 := by
    unfold t3
    exact State.setReg_keeps (State.setReg_keeps h2)
  clear_value t3
  split
  · refine keeps_foldl ?_ (fun s5 a6 h7 => ?_)
    · exact h4
    · exact State.initChan_keeps h7
  · extract_lets +onlyGivenNames t8
    clear_value t8
    extract_lets +onlyGivenNames t9
    have h10 : Keeps z t9 := by
      unfold t9
      refine keeps_foldl ?_ (fun s11 a12 h13 => ?_)
      · exact h4
      · exact State.initChan_keeps h13
    clear_value t9
    refine keeps_ite ?_ ?_
    · exact h10
    · exact State.applyRanks_keeps (State.setGeom_keeps h10)

theorem State.retrain_keeps {z : State} {s : State} {a1 : List ℕ} {a2 : ℕ} (h : Keeps z s) :
    Keeps z (State.retrain s a1 a2) := by
  unfold State.retrain
  split
  · exact h
  · refine keeps_ite ?_ ?_
    · exact h
    · exact State.trainChan_keeps h

/-! ### Startup -/

theorem State.advance_keeps {z : State} {s : State} (h : Keeps z s) :
    Keeps z (State.advance s) := by
  unfold State.advance
  refine keeps_ite ?_ ?_
  · exact h
  · exact State.syncCxl_keeps (State.cxlBegin_keeps (State.cxlBegin_keeps (State.stepDone_keeps h)))

theorem State.bistRetire_keeps {z : State} {s : State} {a1 : ℕ} (h : Keeps z s) :
    Keeps z (State.bistRetire s a1) := by
  unfold State.bistRetire
  extract_lets +onlyGivenNames t0
  have h1 : Keeps z t0 := by
    unfold t0
    exact State.setFld_keeps (State.updEng_keeps h)
  clear_value t0
  exact State.event_keeps (State.healthChange_keeps h1)

theorem State.bistFault_keeps {z : State} {s : State} {a1 : ℕ} {a2 : BistFault} (h : Keeps z s) :
    Keeps z (State.bistFault s a1 a2) := by
  unfold State.bistFault
  refine keeps_ite ?_ ?_
  · exact h
  · extract_lets +onlyGivenNames t0
    clear_value t0
    extract_lets +onlyGivenNames t1
    clear_value t1
    refine keeps_ite ?_ ?_
    · exact State.event_keeps (State.healthRemap_keeps (State.setReg_keeps h))
    · exact State.bistRetire_keeps h

theorem execBist_keeps {z : State} {a0 : List (Fin 64 × BistFault)} {s : State} (h : Keeps z s) :
    KeepsO z (execBist a0 s) := by
  unfold execBist
  refine keepsO_ite ?_ ?_
  · refine keepsO_next ?_
    refine keeps_foldl ?_ (fun s0 a1 h2 => ?_)
    · exact State.stepDone_keeps h
    · exact State.bistFault_keeps h2
  · exact keepsO_next h

theorem execLaneCalibration_keeps {z : State} {s : State} (h : Keeps z s) :
    KeepsO z (execLaneCalibration s) := by
  unfold execLaneCalibration
  refine keepsO_ite ?_ ?_
  · exact keepsO_next (State.advance_keeps (State.stepDone_keeps h))
  · exact keepsO_next h

theorem execHbmTraining_keeps {z : State} {s : State} (h : Keeps z s) :
    KeepsO z (execHbmTraining s) := by
  unfold execHbmTraining
  refine keepsO_ite ?_ ?_
  · extract_lets +onlyGivenNames t0
    have h1 : Keeps z t0 := by
      unfold t0
      exact State.stepDone_keeps h
    clear_value t0
    refine keepsO_next ?_
    refine keeps_ite ?_ ?_
    · exact State.healthChange_keeps h1
    · exact h1
  · exact keepsO_next h

theorem State.drawKeys_keeps {z : State} {s : State} (h : Keeps z s) :
    Keeps z (State.drawKeys s) := by
  unfold State.drawKeys
  refine keeps_foldl ?_ (fun s0 a1 h2 => ?_)
  · exact h
  · extract_lets +onlyGivenNames t3
    have h4 : Keeps z t3.2 := by
      unfold t3
      exact State.takeBits_keeps h2
    clear_value t3
    extract_lets +onlyGivenNames t5
    have h6 : Keeps z t5 := by
      unfold t5
      exact h4
    clear_value t5
    exact keeps_mk h6

theorem State.restoreDump_keeps {z : State} {s : State} (h : Keeps z s) :
    Keeps z (State.restoreDump s) := by
  unfold State.restoreDump
  extract_lets +onlyGivenNames t0
  clear_value t0
  refine State.updRst_keeps ?_
  refine keeps_foldl ?_ (fun s1 a2 h3 => ?_)
  · exact h
  · exact State.setByte_keeps h3

theorem execHbmZeroing_keeps {z : State} {s : State} (h : Keeps z s) :
    KeepsO z (execHbmZeroing s) := by
  unfold execHbmZeroing
  refine keepsO_ite ?_ ?_
  · extract_lets +onlyGivenNames t0
    have h1 : Keeps z t0 := by
      unfold t0
      exact State.restoreDump_keeps (State.zeroKeys_keeps (State.drawKeys_keeps (State.stepDone_keeps h)))
    clear_value t0
    refine keepsO_next ?_
    refine State.settleHp0_keeps ?_
    exact State.setFld_keeps h1
  · exact keepsO_next h

theorem execEnginesIntoService_keeps {z : State} {s : State} (h : Keeps z s) :
    KeepsO z (execEnginesIntoService s) := by
  unfold execEnginesIntoService
  refine keepsO_ite ?_ ?_
  · refine keepsO_next ?_
    refine State.advance_keeps ?_
    refine State.settleHp0_keeps ?_
    exact State.setFld_keeps (State.stepDone_keeps h)
  · exact keepsO_next h

theorem execEthernetBringUp_keeps {z : State} {s : State} (h : Keeps z s) :
    KeepsO z (execEthernetBringUp s) := by
  unfold execEthernetBringUp
  refine keepsO_ite ?_ ?_
  · refine keepsO_next ?_
    refine keeps_foldl ?_ (fun s0 a1 h2 => ?_)
    · exact State.stepDone_keeps h
    · refine keeps_foldl ?_ (fun s3 a4 h5 => ?_)
      · exact h2
      · exact State.startSub_keeps h5
  · exact keepsO_next h

theorem execDdr5Training_keeps {z : State} {a0 : List (List Spd)} {a1 : List (Fin 8)} {s : State} (h : Keeps z s) :
    KeepsO z (execDdr5Training a0 a1 s) := by
  unfold execDdr5Training
  extract_lets +onlyGivenNames t0
  clear_value t0
  refine keepsO_ite ?_ ?_
  · extract_lets +onlyGivenNames t1
    have h2 : Keeps z t1 := by
      unfold t1
      exact State.initTier_keeps (State.stepDone_keeps h)
    clear_value t1
    refine keepsO_next ?_
    refine keeps_ite ?_ ?_
    · exact State.setFld_keeps (State.setFld_keeps h2)
    · exact h2
  · refine keepsO_ite ?_ ?_
    · refine keepsO_next ?_
      refine keeps_foldl ?_ (fun s3 a4 h5 => ?_)
      · exact h
      · exact State.retrain_keeps h5
    · exact keepsO_next h

theorem State.zeroChan_keeps {z : State} {s : State} {a1 : ℕ} (h : Keeps z s) :
    Keeps z (State.zeroChan s a1) := by
  unfold State.zeroChan
  exact State.issue_keeps (State.zeroKeys_keeps h)

theorem State.ddrReady_keeps {z : State} {s : State} (h : Keeps z s) :
    Keeps z (State.ddrReady s) := by
  unfold State.ddrReady
  extract_lets +onlyGivenNames t0
  have h1 : Keeps z t0 := by
    unfold t0
    exact State.setFld_keeps (State.setFld_keeps h)
  clear_value t0
  extract_lets +onlyGivenNames t2
  clear_value t2
  extract_lets +onlyGivenNames t3
  have h4 : Keeps z t3 := by
    unfold t3
    exact State.updRst_keeps h1
  clear_value t3
  refine keeps_foldl ?_ (fun s5 a6 h7 => ?_)
  · exact h4
  · exact State.finishCmd_keeps h7

theorem execDdr5Zeroing_keeps {z : State} {s : State} (h : Keeps z s) :
    KeepsO z (execDdr5Zeroing s) := by
  unfold execDdr5Zeroing
  refine keepsO_ite ?_ ?_
  · exact keepsO_next h
  · refine keepsO_ite ?_ ?_
    · extract_lets +onlyGivenNames t0
      have h1 : Keeps z t0 := by
        unfold t0
        refine keeps_foldl ?_ (fun s2 a3 h4 => ?_)
        · exact h
        · exact State.issue_keeps h4
      clear_value t0
      exact keepsO_next (State.ddrReady_keeps (State.updDdr_keeps (State.zeroKeys_keeps (State.stepDone_keeps h1))))
    · refine keepsO_ite ?_ ?_
      · exact keepsO_next h
      · refine keepsO_next ?_
        refine State.ddrReady_keeps ?_
        refine State.updDdr_keeps ?_
        refine keeps_foldl ?_ (fun s5 a6 h7 => ?_)
        · exact h
        · exact State.zeroChan_keeps h7

end Sys2Proof.Machine
end

