-- ==== Sys2Proof/Laws/Keeps8.lean ====
section
/-! SUPPORT. Every operation and meaning of the files ResetCmd, VtRows of Machine keeps the queue, the count of free
values and the canonical form of memory (Keeps). -/

namespace Sys2Proof.Machine

/-! ### ResetCmd -/

theorem State.addReset_keeps {z : State} {s : State} {a1 : ℕ} {a2 : ℕ} {a3 : ℕ} (h : Keeps z s) :
    Keeps z (State.addReset s a1 a2 a3) := by
  unfold State.addReset
  exact State.updRst_keeps h

theorem State.resetPart_keeps {z : State} {s : State} {a1 : ℕ} {a2 : ℕ} (h : Keeps z s) :
    Keeps z (State.resetPart s a1 a2) := by
  unfold State.resetPart
  extract_lets +onlyGivenNames t0
  have h1 : Keeps z t0 := by
    unfold t0
    exact State.addReset_keeps h
  clear_value t0
  extract_lets +onlyGivenNames t2
  have h3 : Keeps z t2 := by
    unfold t2
    refine keeps_foldl ?_ (fun s4 a5 h6 => ?_)
    · exact h1
    · exact State.tearDown_keeps h6
  clear_value t2
  extract_lets +onlyGivenNames t7
  have h8 : Keeps z t7 := by
    unfold t7
    refine keeps_foldl ?_ (fun s9 a10 h11 => ?_)
    · exact h3
    · exact State.clearPeer_keeps h11
  clear_value t7
  extract_lets +onlyGivenNames t12
  have h13 : Keeps z t12 := by
    unfold t12
    refine keeps_foldl ?_ (fun s14 a15 h16 => ?_)
    · exact h8
    · exact State.addLoad_keeps h16
  clear_value t12
  extract_lets +onlyGivenNames t17
  have h18 : Keeps z t17 := by
    unfold t17
    refine keeps_foldl ?_ (fun s19 a20 h21 => ?_)
    · exact h13
    · exact State.settleQueue_keeps h21
  clear_value t17
  exact State.settleResets_keeps h18

theorem State.loseWork_keeps {z : State} {s : State} {a1 : ℕ} (h : Keeps z s) :
    Keeps z (State.loseWork s a1) := by
  unfold State.loseWork
  refine keeps_foldl ?_ (fun s0 a1 h2 => ?_)
  · exact h
  · exact State.updCmd_keeps h2

theorem State.resetRegionPorts_keeps {z : State} {s : State} {a1 : ℕ} (h : Keeps z s) :
    Keeps z (State.resetRegionPorts s a1) := by
  unfold State.resetRegionPorts
  refine keeps_foldl ?_ (fun s0 a1 h2 => ?_)
  · exact h
  · extract_lets +onlyGivenNames t3
    have h4 : Keeps z t3 := by
      unfold t3
      exact State.dropHeld_keeps h2
    clear_value t3
    refine keeps_ite ?_ ?_
    · exact State.setFld_keeps h4
    · exact State.returnCredits_keeps (State.setReg_keeps h4)

theorem State.resetRegion_keeps {z : State} {s : State} {a1 : ℕ} {a2 : ℕ} (h : Keeps z s) :
    Keeps z (State.resetRegion s a1 a2) := by
  unfold State.resetRegion
  extract_lets +onlyGivenNames t0
  have h1 : Keeps z t0 := by
    unfold t0
    exact State.updNoc_keeps h
  clear_value t0
  extract_lets +onlyGivenNames t2
  have h3 : Keeps z t2 := by
    unfold t2
    exact State.resetRegionPorts_keeps h1
  clear_value t2
  refine keeps_ite ?_ ?_
  · exact State.addReset_keeps (State.updFab_keeps (State.setRegSt_keeps h3))
  · exact State.finishCmd_keeps h3

theorem State.endCopies_keeps {z : State} {s : State} {a1 : ℕ} (h : Keeps z s) :
    Keeps z (State.endCopies s a1) := by
  unfold State.endCopies
  refine keeps_foldl ?_ (fun s0 a1 h2 => ?_)
  · exact h
  · split
    · exact h2
    · exact State.rankDone_keeps h2

theorem State.resetChan_keeps {z : State} {s : State} {a1 : ℕ} {a2 : ℕ} (h : Keeps z s) :
    Keeps z (State.resetChan s a1 a2) := by
  unfold State.resetChan
  refine keeps_ite ?_ ?_
  · exact State.finishCmd_keeps h
  · extract_lets +onlyGivenNames t0
    have h1 : Keeps z t0 := by
      unfold t0
      exact State.endCopies_keeps h
    clear_value t0
    extract_lets +onlyGivenNames t2
    have h3 : Keeps z t2 := by
      unfold t2
      exact State.updDdr_keeps h1
    clear_value t2
    extract_lets +onlyGivenNames t4
    have h5 : Keeps z t4 := by
      unfold t4
      refine keeps_foldl ?_ (fun s6 a7 h8 => ?_)
      · exact h3
      · exact State.resetReg_keeps h8
    clear_value t4
    extract_lets +onlyGivenNames t9
    have h10 : Keeps z t9 := by
      unfold t9
      exact State.updNoc_keeps h5
    clear_value t9
    exact State.addReset_keeps (State.setFld_keeps (State.setFld_keeps h10))

theorem resetStart_keeps {z : State} {s : State} {a1 : Cmd} (h : Keeps z s) :
    Keeps z (resetStart s a1) := by
  unfold resetStart
  extract_lets +onlyGivenNames t0
  clear_value t0
  split
  · exact State.warmReset_keeps h
  · exact State.resetPart_keeps h
  · exact State.finishCmd_keeps (State.resetEngine_keeps (State.loseWork_keeps h))
  · exact State.resetRegion_keeps h
  · exact State.finishCmd_keeps (State.resetPort_keeps h)
  · exact State.finishCmd_keeps (State.resetCxl_keeps h)
  · exact State.resetChan_keeps h

theorem resetRow_keeps {z : State} : CmdRow.Keeps z resetRow := by
  intro s0 c1 h2
  dsimp only [resetRow]
  exact resetStart_keeps h2

theorem execReset_keeps {z : State} {a0 : Fin 16384} {s : State} (h : Keeps z s) :
    KeepsO z (execReset a0 s) := by
  unfold execReset
  refine acceptCmd_keeps ?_ ?_
  · exact h
  · exact resetRow_keeps

theorem rowOf_keeps {z : State} {op : Nat} {r : CmdRow} (e : rowOf op = some r) : r.Keeps z := by
  have hm := List.mem_of_find?_eq_some e
  simp only [cmdRows, List.cons_append, List.nil_append, List.mem_cons, List.not_mem_nil, or_false] at hm
  rcases hm with rfl | rfl | rfl | rfl | rfl | rfl | rfl | rfl | rfl | rfl | rfl | rfl | rfl | rfl | rfl | rfl | rfl |
    rfl | rfl | rfl | rfl | rfl | rfl | rfl | rfl | rfl | rfl | rfl | rfl | rfl | rfl | rfl | rfl | rfl | rfl
  exacts [nopRow_keeps, partConfigRow_keeps, partGrantRow_keeps, partRegulateRow_keeps, regReadRow_keeps,
    regWriteRow_keeps, hbmRegionRow_keeps, rekeyRow_keeps, retireRow_keeps, fwPatchRow_keeps, fwImageRow_keeps,
    dumpRow_keeps, resetRow_keeps, queueCreateRow_keeps, queueDeleteRow_keeps, ctxCreateRow_keeps,
    ctxConfigRow_keeps, ctxTeardownRow_keeps, ctxPlaceRow_keeps, ctxUnplaceRow_keeps, imemWriteRow_keeps,
    runRow_keeps, chainRow_keeps, convertRow_keeps, copyRow_keeps, pageMoveRow_keeps, xlateInvalRow_keeps,
    gateSignalRow_keeps, stotDiscardRow_keeps, freezeRow_keeps, unfreezeRow_keeps, peerSetRow_keeps,
    peerClearRow_keeps, fabLoadRow_keeps, fabBlankRow_keeps]

theorem execCommandStart_keeps {z s : State} {id : Nat} (h : Keeps z s) : KeepsO z (execCommandStart id s) := by
  unfold execCommandStart
  split
  · exact keepsO_next h
  · split
    · exact keepsO_next h
    · exact keepsO_ite (keepsO_next (State.lateStart_keeps h (rowOf_keeps ‹_›))) (keepsO_next h)

theorem State.restartProc_keeps {z : State} {s : State} {a1 : ℕ} (h : Keeps z s) :
    Keeps z (State.restartProc s a1) := by
  unfold State.restartProc
  extract_lets +onlyGivenNames t0
  clear_value t0
  extract_lets +onlyGivenNames t1
  clear_value t1
  extract_lets +onlyGivenNames t2
  have h3 : Keeps z t2 := by
    unfold t2
    exact keeps_mk h
  clear_value t2
  extract_lets +onlyGivenNames t4
  have h5 : Keeps z t4 := by
    unfold t4
    refine keeps_foldl ?_ (fun s6 a7 h8 => ?_)
    · exact h3
    · exact State.finishCmd_keeps h8
  clear_value t4
  exact State.setReg_keeps (State.setReg_keeps h5)

theorem execQueueWatchdog_keeps {z : State} {a0 : Fin 4} {s : State} (h : Keeps z s) :
    KeepsO z (execQueueWatchdog a0 s) := by
  unfold execQueueWatchdog
  refine keepsO_ite ?_ ?_
  · exact keepsO_next (State.restartProc_keeps h)
  · exact keepsO_next h

/-! ### VtRows -/

theorem execVtNop_keeps {z : State} {a0 : Fin 64} {s : State} (h : Keeps z s) :
    KeepsO z (execVtNop a0 s) := by
  unfold execVtNop
  exact vtRun_keeps h

theorem execVld_keeps {z : State} {a0 : Fin 64} {s : State} (h : Keeps z s) :
    KeepsO z (execVld a0 s) := by
  unfold execVld
  exact vtRun_keeps h

theorem execVlds_keeps {z : State} {a0 : Fin 64} {s : State} (h : Keeps z s) :
    KeepsO z (execVlds a0 s) := by
  unfold execVlds
  exact vtRun_keeps h

theorem execVst_keeps {z : State} {a0 : Fin 64} {s : State} (h : Keeps z s) :
    KeepsO z (execVst a0 s) := by
  unfold execVst
  exact vtRun_keeps h

theorem execVstm_keeps {z : State} {a0 : Fin 64} {s : State} (h : Keeps z s) :
    KeepsO z (execVstm a0 s) := by
  unfold execVstm
  exact vtRun_keeps h

theorem execSld_keeps {z : State} {a0 : Fin 64} {s : State} (h : Keeps z s) :
    KeepsO z (execSld a0 s) := by
  unfold execSld
  exact vtRun_keeps h

theorem execSst_keeps {z : State} {a0 : Fin 64} {s : State} (h : Keeps z s) :
    KeepsO z (execSst a0 s) := by
  unfold execSst
  exact vtRun_keeps h

theorem execAmov_keeps {z : State} {a0 : Fin 64} {s : State} (h : Keeps z s) :
    KeepsO z (execAmov a0 s) := by
  unfold execAmov
  exact vtRun_keeps h

theorem execAget_keeps {z : State} {a0 : Fin 64} {s : State} (h : Keeps z s) :
    KeepsO z (execAget a0 s) := by
  unfold execAget
  exact vtRun_keeps h

theorem execVadd_keeps {z : State} {a0 : Fin 64} {s : State} (h : Keeps z s) :
    KeepsO z (execVadd a0 s) := by
  unfold execVadd
  exact vtRun_keeps h

theorem execVsub_keeps {z : State} {a0 : Fin 64} {s : State} (h : Keeps z s) :
    KeepsO z (execVsub a0 s) := by
  unfold execVsub
  exact vtRun_keeps h

theorem execVmax_keeps {z : State} {a0 : Fin 64} {s : State} (h : Keeps z s) :
    KeepsO z (execVmax a0 s) := by
  unfold execVmax
  exact vtRun_keeps h

theorem execVmin_keeps {z : State} {a0 : Fin 64} {s : State} (h : Keeps z s) :
    KeepsO z (execVmin a0 s) := by
  unfold execVmin
  exact vtRun_keeps h

theorem execVand_keeps {z : State} {a0 : Fin 64} {s : State} (h : Keeps z s) :
    KeepsO z (execVand a0 s) := by
  unfold execVand
  exact vtRun_keeps h

theorem execVor_keeps {z : State} {a0 : Fin 64} {s : State} (h : Keeps z s) :
    KeepsO z (execVor a0 s) := by
  unfold execVor
  exact vtRun_keeps h

theorem execVxor_keeps {z : State} {a0 : Fin 64} {s : State} (h : Keeps z s) :
    KeepsO z (execVxor a0 s) := by
  unfold execVxor
  exact vtRun_keeps h

theorem execVshl_keeps {z : State} {a0 : Fin 64} {s : State} (h : Keeps z s) :
    KeepsO z (execVshl a0 s) := by
  unfold execVshl
  exact vtRun_keeps h

theorem execVshr_keeps {z : State} {a0 : Fin 64} {s : State} (h : Keeps z s) :
    KeepsO z (execVshr a0 s) := by
  unfold execVshr
  exact vtRun_keeps h

theorem execVcmp_keeps {z : State} {a0 : Fin 64} {s : State} (h : Keeps z s) :
    KeepsO z (execVcmp a0 s) := by
  unfold execVcmp
  exact vtRun_keeps h

theorem execVsel_keeps {z : State} {a0 : Fin 64} {s : State} (h : Keeps z s) :
    KeepsO z (execVsel a0 s) := by
  unfold execVsel
  exact vtRun_keeps h

theorem execVbcst_keeps {z : State} {a0 : Fin 64} {s : State} (h : Keeps z s) :
    KeepsO z (execVbcst a0 s) := by
  unfold execVbcst
  exact vtRun_keeps h

theorem execVperm_keeps {z : State} {a0 : Fin 64} {s : State} (h : Keeps z s) :
    KeepsO z (execVperm a0 s) := by
  unfold execVperm
  exact vtRun_keeps h

theorem execVextr_keeps {z : State} {a0 : Fin 64} {s : State} (h : Keeps z s) :
    KeepsO z (execVextr a0 s) := by
  unfold execVextr
  exact vtRun_keeps h

theorem execVcvt_keeps {z : State} {a0 : Fin 64} {s : State} (h : Keeps z s) :
    KeepsO z (execVcvt a0 s) := by
  unfold execVcvt
  exact vtRun_keeps h

theorem execVmaxi_keeps {z : State} {a0 : Fin 64} {s : State} (h : Keeps z s) :
    KeepsO z (execVmaxi a0 s) := by
  unfold execVmaxi
  exact vtRun_keeps h

theorem execVmini_keeps {z : State} {a0 : Fin 64} {s : State} (h : Keeps z s) :
    KeepsO z (execVmini a0 s) := by
  unfold execVmini
  exact vtRun_keeps h

theorem execSmaxi_keeps {z : State} {a0 : Fin 64} {s : State} (h : Keeps z s) :
    KeepsO z (execSmaxi a0 s) := by
  unfold execSmaxi
  exact vtRun_keeps h

theorem execSmini_keeps {z : State} {a0 : Fin 64} {s : State} (h : Keeps z s) :
    KeepsO z (execSmini a0 s) := by
  unfold execSmini
  exact vtRun_keeps h

theorem execVtopk_keeps {z : State} {a0 : Fin 64} {s : State} (h : Keeps z s) :
    KeepsO z (execVtopk a0 s) := by
  unfold execVtopk
  exact vtRun_keeps h

theorem execSadd_keeps {z : State} {a0 : Fin 64} {s : State} (h : Keeps z s) :
    KeepsO z (execSadd a0 s) := by
  unfold execSadd
  exact vtRun_keeps h

theorem execSsub_keeps {z : State} {a0 : Fin 64} {s : State} (h : Keeps z s) :
    KeepsO z (execSsub a0 s) := by
  unfold execSsub
  exact vtRun_keeps h

theorem execSmul_keeps {z : State} {a0 : Fin 64} {s : State} (h : Keeps z s) :
    KeepsO z (execSmul a0 s) := by
  unfold execSmul
  exact vtRun_keeps h

theorem execSmovi_keeps {z : State} {a0 : Fin 64} {s : State} (h : Keeps z s) :
    KeepsO z (execSmovi a0 s) := by
  unfold execSmovi
  exact vtRun_keeps h

theorem execSlui_keeps {z : State} {a0 : Fin 64} {s : State} (h : Keeps z s) :
    KeepsO z (execSlui a0 s) := by
  unfold execSlui
  exact vtRun_keeps h

theorem execBr_keeps {z : State} {a0 : Fin 64} {s : State} (h : Keeps z s) :
    KeepsO z (execBr a0 s) := by
  unfold execBr
  exact vtRun_keeps h

theorem execVarm_keeps {z : State} {a0 : Fin 64} {s : State} (h : Keeps z s) :
    KeepsO z (execVarm a0 s) := by
  unfold execVarm
  exact vtRun_keeps h

theorem execVdisarm_keeps {z : State} {a0 : Fin 64} {s : State} (h : Keeps z s) :
    KeepsO z (execVdisarm a0 s) := by
  unfold execVdisarm
  exact vtRun_keeps h

theorem execVreti_keeps {z : State} {a0 : Fin 64} {s : State} (h : Keeps z s) :
    KeepsO z (execVreti a0 s) := by
  unfold execVreti
  exact vtRun_keeps h

theorem execVsig_keeps {z : State} {a0 : Fin 64} {s : State} (h : Keeps z s) :
    KeepsO z (execVsig a0 s) := by
  unfold execVsig
  exact vtRun_keeps h

theorem execVsrrd_keeps {z : State} {a0 : Fin 64} {s : State} (h : Keeps z s) :
    KeepsO z (execVsrrd a0 s) := by
  unfold execVsrrd
  exact vtRun_keeps h

theorem execVsrwr_keeps {z : State} {a0 : Fin 64} {s : State} (h : Keeps z s) :
    KeepsO z (execVsrwr a0 s) := by
  unfold execVsrwr
  exact vtRun_keeps h

theorem execVflags_keeps {z : State} {a0 : Fin 64} {s : State} (h : Keeps z s) :
    KeepsO z (execVflags a0 s) := by
  unfold execVflags
  exact vtRun_keeps h

theorem execVmul_keeps {z : State} {a0 : Fin 64} {s : State} (h : Keeps z s) :
    KeepsO z (execVmul a0 s) := by
  unfold execVmul
  exact vtRun_keeps h

theorem execVfma_keeps {z : State} {a0 : Fin 64} {s : State} (h : Keeps z s) :
    KeepsO z (execVfma a0 s) := by
  unfold execVfma
  exact vtRun_keeps h

theorem execVfms_keeps {z : State} {a0 : Fin 64} {s : State} (h : Keeps z s) :
    KeepsO z (execVfms a0 s) := by
  unfold execVfms
  exact vtRun_keeps h

theorem execVfnma_keeps {z : State} {a0 : Fin 64} {s : State} (h : Keeps z s) :
    KeepsO z (execVfnma a0 s) := by
  unfold execVfnma
  exact vtRun_keeps h

theorem execVdot2_keeps {z : State} {a0 : Fin 64} {s : State} (h : Keeps z s) :
    KeepsO z (execVdot2 a0 s) := by
  unfold execVdot2
  exact vtRun_keeps h

theorem execVrsum_keeps {z : State} {a0 : Fin 64} {s : State} (h : Keeps z s) :
    KeepsO z (execVrsum a0 s) := by
  unfold execVrsum
  exact vtRun_keeps h

theorem execVexp2_keeps {z : State} {a0 : Fin 64} {s : State} (h : Keeps z s) :
    KeepsO z (execVexp2 a0 s) := by
  unfold execVexp2
  exact vtRun_keeps h

theorem execVlog2_keeps {z : State} {a0 : Fin 64} {s : State} (h : Keeps z s) :
    KeepsO z (execVlog2 a0 s) := by
  unfold execVlog2
  exact vtRun_keeps h

theorem execVrcp_keeps {z : State} {a0 : Fin 64} {s : State} (h : Keeps z s) :
    KeepsO z (execVrcp a0 s) := by
  unfold execVrcp
  exact vtRun_keeps h

theorem execVrsqrt_keeps {z : State} {a0 : Fin 64} {s : State} (h : Keeps z s) :
    KeepsO z (execVrsqrt a0 s) := by
  unfold execVrsqrt
  exact vtRun_keeps h

theorem execVsilu_keeps {z : State} {a0 : Fin 64} {s : State} (h : Keeps z s) :
    KeepsO z (execVsilu a0 s) := by
  unfold execVsilu
  exact vtRun_keeps h

theorem execVgelu_keeps {z : State} {a0 : Fin 64} {s : State} (h : Keeps z s) :
    KeepsO z (execVgelu a0 s) := by
  unfold execVgelu
  exact vtRun_keeps h

theorem execVerf_keeps {z : State} {a0 : Fin 64} {s : State} (h : Keeps z s) :
    KeepsO z (execVerf a0 s) := by
  unfold execVerf
  exact vtRun_keeps h

end Sys2Proof.Machine
end

