-- ==== Sys2Proof/Laws/State.lean ====
section
/-! SUPPORT. The small laws of State: each update changes its own field and no other, and each accessor reads what its
update wrote. -/

namespace Sys2Proof.Machine

/-! ### Derived updates in terms of the plain ones -/

@[simp] theorem State.updReg_eq (s : State) (o : Nat) (f : W64 → W64) : s.updReg o f = s.setReg o (f (s.reg o)) := rfl
@[simp] theorem State.setFld_eq (s : State) (o lo n v : Nat) : s.setFld o lo n v = s.setReg o (bset (s.reg o) lo n v) := rfl
@[simp] theorem State.updEng_eq (s : State) (n : Nat) (f : Engine → Engine) : s.updEng n f = s.setEng n (f (s.eng n)) := rfl
@[simp] theorem State.setSlot_eq (s : State) (n k : Nat) (x : Slot) : s.setSlot n k x = s.setEng n ((s.eng n).setSlot k x) := rfl
@[simp] theorem State.updSlot_eq (s : State) (n k : Nat) (f : Slot → Slot) :
    s.updSlot n k f = s.setEng n ((s.eng n).setSlot k (f (s.slot n k))) := rfl
@[simp] theorem State.updCtx_eq (s : State) (c : Nat) (f : Ctx → Ctx) : s.updCtx c f = s.setCtx c (f (s.ctx c)) := rfl
@[simp] theorem State.updPart_eq (s : State) (p : Nat) (f : Part → Part) : s.updPart p f = s.setPart p (f (s.part p)) := rfl
@[simp] theorem State.updQueue_eq (s : State) (q : Nat) (f : Queue → Queue) :
    s.updQueue q f = s.setQueue q (f (s.queue q)) := rfl

/-! ### Each accessor after each update -/

theorem State.reg_setReg (s : State) (o o' : Nat) (v : W64) :
    (s.setReg o v).reg o' = if o' = o then v else s.reg o' := by
  unfold State.reg State.setReg
  by_cases h : o' = o
  · subst h; simp [tget_tset]
  · rw [if_neg h]
    unfold tset
    split <;> simp [tget_tdel, tget_tput, h]

@[simp] theorem State.reg_setReg_self (s : State) (o : Nat) (v : W64) : (s.setReg o v).reg o = v := by
  simp [State.reg_setReg]

theorem State.eng_setEng (s : State) (n m : Nat) (e : Engine) :
    (s.setEng n e).eng m = if m = n then e else s.eng m := tget_tset _ _ _ _

@[simp] theorem State.eng_setEng_self (s : State) (n : Nat) (e : Engine) : (s.setEng n e).eng n = e := by
  simp [State.eng_setEng]

theorem Engine.slot_setSlot (e : Engine) (k j : Nat) (x : Slot) :
    (e.setSlot k x).slot j = if j = k then x else e.slot j := tget_tset _ _ _ _

@[simp] theorem Engine.slot_setSlot_self (e : Engine) (k : Nat) (x : Slot) : (e.setSlot k x).slot k = x := by
  simp [Engine.slot_setSlot]

theorem State.slot_setEng (s : State) (n m k : Nat) (e : Engine) :
    (s.setEng n e).slot m k = if m = n then e.slot k else s.slot m k := by
  unfold State.slot
  rw [State.eng_setEng]
  split <;> rfl

theorem State.ctx_setCtx (s : State) (c d : Nat) (x : Ctx) :
    (s.setCtx c x).ctx d = if d = c then x else s.ctx d := tget_tset _ _ _ _

@[simp] theorem State.ctx_setCtx_self (s : State) (c : Nat) (x : Ctx) : (s.setCtx c x).ctx c = x := by
  simp [State.ctx_setCtx]

theorem State.part_setPart (s : State) (p r : Nat) (x : Part) :
    (s.setPart p x).part r = if r = p then x else s.part r := tget_tset _ _ _ _

@[simp] theorem State.part_setPart_self (s : State) (p : Nat) (x : Part) : (s.setPart p x).part p = x := by
  simp [State.part_setPart]

theorem State.queue_setQueue (s : State) (q r : Nat) (x : Queue) :
    (s.setQueue q x).queue r = if r = q then x else s.queue r := tget_tset _ _ _ _

@[simp] theorem State.queue_setQueue_self (s : State) (q : Nat) (x : Queue) : (s.setQueue q x).queue q = x := by
  simp [State.queue_setQueue]

@[simp] theorem State.eng_setReg (s : State) (o : Nat) (v : W64) (j : Nat) : (s.setReg o v).eng j = s.eng j := rfl
@[simp] theorem State.slot_setReg (s : State) (o : Nat) (v : W64) (j l : Nat) : (s.setReg o v).slot j l = s.slot j l := rfl
@[simp] theorem State.ctx_setReg (s : State) (o : Nat) (v : W64) (j : Nat) : (s.setReg o v).ctx j = s.ctx j := rfl
@[simp] theorem State.part_setReg (s : State) (o : Nat) (v : W64) (j : Nat) : (s.setReg o v).part j = s.part j := rfl
@[simp] theorem State.queue_setReg (s : State) (o : Nat) (v : W64) (j : Nat) : (s.setReg o v).queue j = s.queue j := rfl
@[simp] theorem State.cmd_setReg (s : State) (o : Nat) (v : W64) (j : Nat) : (s.setReg o v).cmd j = s.cmd j := rfl

@[simp] theorem State.reg_setEng (s : State) (n : Nat) (e : Engine) (j : Nat) : (s.setEng n e).reg j = s.reg j := rfl
@[simp] theorem State.fld_setEng (s : State) (n : Nat) (e : Engine) (j lo w : Nat) : (s.setEng n e).fld j lo w = s.fld j lo w := rfl
@[simp] theorem State.ctx_setEng (s : State) (n : Nat) (e : Engine) (j : Nat) : (s.setEng n e).ctx j = s.ctx j := rfl
@[simp] theorem State.part_setEng (s : State) (n : Nat) (e : Engine) (j : Nat) : (s.setEng n e).part j = s.part j := rfl
@[simp] theorem State.queue_setEng (s : State) (n : Nat) (e : Engine) (j : Nat) : (s.setEng n e).queue j = s.queue j := rfl
@[simp] theorem State.cmd_setEng (s : State) (n : Nat) (e : Engine) (j : Nat) : (s.setEng n e).cmd j = s.cmd j := rfl
@[simp] theorem State.memKey_setEng (s : State) (n : Nat) (e : Engine) (j : Nat) : (s.setEng n e).memKey j = s.memKey j := rfl

@[simp] theorem State.reg_setCtx (s : State) (c : Nat) (x : Ctx) (j : Nat) : (s.setCtx c x).reg j = s.reg j := rfl
@[simp] theorem State.fld_setCtx (s : State) (c : Nat) (x : Ctx) (j lo w : Nat) : (s.setCtx c x).fld j lo w = s.fld j lo w := rfl
@[simp] theorem State.eng_setCtx (s : State) (c : Nat) (x : Ctx) (j : Nat) : (s.setCtx c x).eng j = s.eng j := rfl
@[simp] theorem State.slot_setCtx (s : State) (c : Nat) (x : Ctx) (j l : Nat) : (s.setCtx c x).slot j l = s.slot j l := rfl
@[simp] theorem State.part_setCtx (s : State) (c : Nat) (x : Ctx) (j : Nat) : (s.setCtx c x).part j = s.part j := rfl
@[simp] theorem State.queue_setCtx (s : State) (c : Nat) (x : Ctx) (j : Nat) : (s.setCtx c x).queue j = s.queue j := rfl
@[simp] theorem State.cmd_setCtx (s : State) (c : Nat) (x : Ctx) (j : Nat) : (s.setCtx c x).cmd j = s.cmd j := rfl
@[simp] theorem State.memKey_setCtx (s : State) (c : Nat) (x : Ctx) (j : Nat) : (s.setCtx c x).memKey j = s.memKey j := rfl

@[simp] theorem State.reg_setPart (s : State) (p : Nat) (x : Part) (j : Nat) : (s.setPart p x).reg j = s.reg j := rfl
@[simp] theorem State.fld_setPart (s : State) (p : Nat) (x : Part) (j lo w : Nat) : (s.setPart p x).fld j lo w = s.fld j lo w := rfl
@[simp] theorem State.eng_setPart (s : State) (p : Nat) (x : Part) (j : Nat) : (s.setPart p x).eng j = s.eng j := rfl
@[simp] theorem State.slot_setPart (s : State) (p : Nat) (x : Part) (j l : Nat) : (s.setPart p x).slot j l = s.slot j l := rfl
@[simp] theorem State.ctx_setPart (s : State) (p : Nat) (x : Part) (j : Nat) : (s.setPart p x).ctx j = s.ctx j := rfl
@[simp] theorem State.queue_setPart (s : State) (p : Nat) (x : Part) (j : Nat) : (s.setPart p x).queue j = s.queue j := rfl
@[simp] theorem State.cmd_setPart (s : State) (p : Nat) (x : Part) (j : Nat) : (s.setPart p x).cmd j = s.cmd j := rfl
@[simp] theorem State.memKey_setPart (s : State) (p : Nat) (x : Part) (j : Nat) : (s.setPart p x).memKey j = s.memKey j := rfl

@[simp] theorem State.reg_setQueue (s : State) (q : Nat) (x : Queue) (j : Nat) : (s.setQueue q x).reg j = s.reg j := rfl
@[simp] theorem State.fld_setQueue (s : State) (q : Nat) (x : Queue) (j lo w : Nat) : (s.setQueue q x).fld j lo w = s.fld j lo w := rfl
@[simp] theorem State.eng_setQueue (s : State) (q : Nat) (x : Queue) (j : Nat) : (s.setQueue q x).eng j = s.eng j := rfl
@[simp] theorem State.slot_setQueue (s : State) (q : Nat) (x : Queue) (j l : Nat) : (s.setQueue q x).slot j l = s.slot j l := rfl
@[simp] theorem State.ctx_setQueue (s : State) (q : Nat) (x : Queue) (j : Nat) : (s.setQueue q x).ctx j = s.ctx j := rfl
@[simp] theorem State.part_setQueue (s : State) (q : Nat) (x : Queue) (j : Nat) : (s.setQueue q x).part j = s.part j := rfl
@[simp] theorem State.cmd_setQueue (s : State) (q : Nat) (x : Queue) (j : Nat) : (s.setQueue q x).cmd j = s.cmd j := rfl
@[simp] theorem State.memKey_setQueue (s : State) (q : Nat) (x : Queue) (j : Nat) : (s.setQueue q x).memKey j = s.memKey j := rfl

@[simp] theorem State.reg_updCmd (s : State) (i : Nat) (f : Cmd → Cmd) (j : Nat) : (s.updCmd i f).reg j = s.reg j := rfl
@[simp] theorem State.fld_updCmd (s : State) (i : Nat) (f : Cmd → Cmd) (j lo w : Nat) : (s.updCmd i f).fld j lo w = s.fld j lo w := rfl
@[simp] theorem State.eng_updCmd (s : State) (i : Nat) (f : Cmd → Cmd) (j : Nat) : (s.updCmd i f).eng j = s.eng j := rfl
@[simp] theorem State.slot_updCmd (s : State) (i : Nat) (f : Cmd → Cmd) (j l : Nat) : (s.updCmd i f).slot j l = s.slot j l := rfl
@[simp] theorem State.ctx_updCmd (s : State) (i : Nat) (f : Cmd → Cmd) (j : Nat) : (s.updCmd i f).ctx j = s.ctx j := rfl
@[simp] theorem State.part_updCmd (s : State) (i : Nat) (f : Cmd → Cmd) (j : Nat) : (s.updCmd i f).part j = s.part j := rfl
@[simp] theorem State.queue_updCmd (s : State) (i : Nat) (f : Cmd → Cmd) (j : Nat) : (s.updCmd i f).queue j = s.queue j := rfl
@[simp] theorem State.memKey_updCmd (s : State) (i : Nat) (f : Cmd → Cmd) (j : Nat) : (s.updCmd i f).memKey j = s.memKey j := rfl

@[simp] theorem State.reg_setByte (s : State) (a : Nat) (b : Byte) (j : Nat) : (s.setByte a b).reg j = s.reg j := rfl
@[simp] theorem State.fld_setByte (s : State) (a : Nat) (b : Byte) (j lo w : Nat) : (s.setByte a b).fld j lo w = s.fld j lo w := rfl
@[simp] theorem State.eng_setByte (s : State) (a : Nat) (b : Byte) (j : Nat) : (s.setByte a b).eng j = s.eng j := rfl
@[simp] theorem State.slot_setByte (s : State) (a : Nat) (b : Byte) (j l : Nat) : (s.setByte a b).slot j l = s.slot j l := rfl
@[simp] theorem State.ctx_setByte (s : State) (a : Nat) (b : Byte) (j : Nat) : (s.setByte a b).ctx j = s.ctx j := rfl
@[simp] theorem State.part_setByte (s : State) (a : Nat) (b : Byte) (j : Nat) : (s.setByte a b).part j = s.part j := rfl
@[simp] theorem State.queue_setByte (s : State) (a : Nat) (b : Byte) (j : Nat) : (s.setByte a b).queue j = s.queue j := rfl
@[simp] theorem State.cmd_setByte (s : State) (a : Nat) (b : Byte) (j : Nat) : (s.setByte a b).cmd j = s.cmd j := rfl
@[simp] theorem State.memKey_setByte (s : State) (a : Nat) (b : Byte) (j : Nat) : (s.setByte a b).memKey j = s.memKey j := rfl

@[simp] theorem State.reg_setPoison (s : State) (a : Nat) (b : Bool) (j : Nat) : (s.setPoison a b).reg j = s.reg j := rfl
@[simp] theorem State.fld_setPoison (s : State) (a : Nat) (b : Bool) (j lo w : Nat) : (s.setPoison a b).fld j lo w = s.fld j lo w := rfl
@[simp] theorem State.eng_setPoison (s : State) (a : Nat) (b : Bool) (j : Nat) : (s.setPoison a b).eng j = s.eng j := rfl
@[simp] theorem State.slot_setPoison (s : State) (a : Nat) (b : Bool) (j l : Nat) : (s.setPoison a b).slot j l = s.slot j l := rfl
@[simp] theorem State.ctx_setPoison (s : State) (a : Nat) (b : Bool) (j : Nat) : (s.setPoison a b).ctx j = s.ctx j := rfl
@[simp] theorem State.part_setPoison (s : State) (a : Nat) (b : Bool) (j : Nat) : (s.setPoison a b).part j = s.part j := rfl
@[simp] theorem State.queue_setPoison (s : State) (a : Nat) (b : Bool) (j : Nat) : (s.setPoison a b).queue j = s.queue j := rfl
@[simp] theorem State.cmd_setPoison (s : State) (a : Nat) (b : Bool) (j : Nat) : (s.setPoison a b).cmd j = s.cmd j := rfl
@[simp] theorem State.memKey_setPoison (s : State) (a : Nat) (b : Bool) (j : Nat) : (s.setPoison a b).memKey j = s.memKey j := rfl

@[simp] theorem State.reg_updLogic (s : State) (f : Nat) (g : Logic → Logic) (j : Nat) : (s.updLogic f g).reg j = s.reg j := rfl
@[simp] theorem State.fld_updLogic (s : State) (f : Nat) (g : Logic → Logic) (j lo w : Nat) : (s.updLogic f g).fld j lo w = s.fld j lo w := rfl
@[simp] theorem State.eng_updLogic (s : State) (f : Nat) (g : Logic → Logic) (j : Nat) : (s.updLogic f g).eng j = s.eng j := rfl
@[simp] theorem State.slot_updLogic (s : State) (f : Nat) (g : Logic → Logic) (j l : Nat) : (s.updLogic f g).slot j l = s.slot j l := rfl
@[simp] theorem State.ctx_updLogic (s : State) (f : Nat) (g : Logic → Logic) (j : Nat) : (s.updLogic f g).ctx j = s.ctx j := rfl
@[simp] theorem State.part_updLogic (s : State) (f : Nat) (g : Logic → Logic) (j : Nat) : (s.updLogic f g).part j = s.part j := rfl
@[simp] theorem State.queue_updLogic (s : State) (f : Nat) (g : Logic → Logic) (j : Nat) : (s.updLogic f g).queue j = s.queue j := rfl
@[simp] theorem State.cmd_updLogic (s : State) (f : Nat) (g : Logic → Logic) (j : Nat) : (s.updLogic f g).cmd j = s.cmd j := rfl
@[simp] theorem State.memKey_updLogic (s : State) (f : Nat) (g : Logic → Logic) (j : Nat) : (s.updLogic f g).memKey j = s.memKey j := rfl

/-- A byte of memory after a write of one: the byte written where the two addresses lie in one place. -/
theorem State.byte_setByte (s : State) (a a' : Nat) (b : Byte) :
    (s.setByte a b).byte a' = if s.memKey a' = s.memKey a then b else s.byte a' := tget_tset _ _ _ _

/-- The poison mark of a line after a write of one. -/
theorem State.poisoned_setPoison (s : State) (a a' : Nat) (v : Bool) :
    (s.setPoison a v).poisoned a' = if s.memKey a' / 64 = s.memKey a / 64 then v else s.poisoned a' := tget_tset _ _ _ _

/-! ### Each field after each update -/

@[simp] theorem State.setReg_pending (s : State) (o : Nat) (v : W64) : (s.setReg o v).pending = s.pending := rfl
@[simp] theorem State.setReg_free (s : State) (o : Nat) (v : W64) : (s.setReg o v).free = s.free := rfl
@[simp] theorem State.setReg_dt (s : State) (o : Nat) (v : W64) : (s.setReg o v).dt = s.dt := rfl
@[simp] theorem State.setReg_mem (s : State) (o : Nat) (v : W64) : (s.setReg o v).mem = s.mem := rfl
@[simp] theorem State.setReg_poison (s : State) (o : Nat) (v : W64) : (s.setReg o v).poison = s.poison := rfl
@[simp] theorem State.setReg_hbmKeys (s : State) (o : Nat) (v : W64) : (s.setReg o v).hbmKeys = s.hbmKeys := rfl
@[simp] theorem State.setReg_engs (s : State) (o : Nat) (v : W64) : (s.setReg o v).engs = s.engs := rfl
@[simp] theorem State.setReg_ctxs (s : State) (o : Nat) (v : W64) : (s.setReg o v).ctxs = s.ctxs := rfl
@[simp] theorem State.setReg_parts (s : State) (o : Nat) (v : W64) : (s.setReg o v).parts = s.parts := rfl
@[simp] theorem State.setReg_queues (s : State) (o : Nat) (v : W64) : (s.setReg o v).queues = s.queues := rfl
@[simp] theorem State.setReg_cmds (s : State) (o : Nat) (v : W64) : (s.setReg o v).cmds = s.cmds := rfl
@[simp] theorem State.setReg_nextCmd (s : State) (o : Nat) (v : W64) : (s.setReg o v).nextCmd = s.nextCmd := rfl
@[simp] theorem State.setReg_reds (s : State) (o : Nat) (v : W64) : (s.setReg o v).reds = s.reds := rfl
@[simp] theorem State.setReg_moves (s : State) (o : Nat) (v : W64) : (s.setReg o v).moves = s.moves := rfl
@[simp] theorem State.setReg_rekeys (s : State) (o : Nat) (v : W64) : (s.setReg o v).rekeys = s.rekeys := rfl
@[simp] theorem State.setReg_works (s : State) (o : Nat) (v : W64) : (s.setReg o v).works = s.works := rfl
@[simp] theorem State.setReg_pcRets (s : State) (o : Nat) (v : W64) : (s.setReg o v).pcRets = s.pcRets := rfl
@[simp] theorem State.setReg_hbmHot (s : State) (o : Nat) (v : W64) : (s.setReg o v).hbmHot = s.hbmHot := rfl
@[simp] theorem State.setReg_hbmErrs (s : State) (o : Nat) (v : W64) : (s.setReg o v).hbmErrs = s.hbmErrs := rfl
@[simp] theorem State.setReg_ddr (s : State) (o : Nat) (v : W64) : (s.setReg o v).ddr = s.ddr := rfl
@[simp] theorem State.setReg_health (s : State) (o : Nat) (v : W64) : (s.setReg o v).health = s.health := rfl
@[simp] theorem State.setReg_net (s : State) (o : Nat) (v : W64) : (s.setReg o v).net = s.net := rfl
@[simp] theorem State.setReg_noc (s : State) (o : Nat) (v : W64) : (s.setReg o v).noc = s.noc := rfl
@[simp] theorem State.setReg_fab (s : State) (o : Nat) (v : W64) : (s.setReg o v).fab = s.fab := rfl
@[simp] theorem State.setReg_links (s : State) (o : Nat) (v : W64) : (s.setReg o v).links = s.links := rfl
@[simp] theorem State.setReg_sec (s : State) (o : Nat) (v : W64) : (s.setReg o v).sec = s.sec := rfl
@[simp] theorem State.setReg_pwr (s : State) (o : Nat) (v : W64) : (s.setReg o v).pwr = s.pwr := rfl
@[simp] theorem State.setReg_rst (s : State) (o : Nat) (v : W64) : (s.setReg o v).rst = s.rst := rfl

@[simp] theorem State.setEng_pending (s : State) (n : Nat) (e : Engine) : (s.setEng n e).pending = s.pending := rfl
@[simp] theorem State.setEng_free (s : State) (n : Nat) (e : Engine) : (s.setEng n e).free = s.free := rfl
@[simp] theorem State.setEng_dt (s : State) (n : Nat) (e : Engine) : (s.setEng n e).dt = s.dt := rfl
@[simp] theorem State.setEng_regs (s : State) (n : Nat) (e : Engine) : (s.setEng n e).regs = s.regs := rfl
@[simp] theorem State.setEng_mem (s : State) (n : Nat) (e : Engine) : (s.setEng n e).mem = s.mem := rfl
@[simp] theorem State.setEng_poison (s : State) (n : Nat) (e : Engine) : (s.setEng n e).poison = s.poison := rfl
@[simp] theorem State.setEng_hbmKeys (s : State) (n : Nat) (e : Engine) : (s.setEng n e).hbmKeys = s.hbmKeys := rfl
@[simp] theorem State.setEng_ctxs (s : State) (n : Nat) (e : Engine) : (s.setEng n e).ctxs = s.ctxs := rfl
@[simp] theorem State.setEng_parts (s : State) (n : Nat) (e : Engine) : (s.setEng n e).parts = s.parts := rfl
@[simp] theorem State.setEng_queues (s : State) (n : Nat) (e : Engine) : (s.setEng n e).queues = s.queues := rfl
@[simp] theorem State.setEng_cmds (s : State) (n : Nat) (e : Engine) : (s.setEng n e).cmds = s.cmds := rfl
@[simp] theorem State.setEng_nextCmd (s : State) (n : Nat) (e : Engine) : (s.setEng n e).nextCmd = s.nextCmd := rfl
@[simp] theorem State.setEng_reds (s : State) (n : Nat) (e : Engine) : (s.setEng n e).reds = s.reds := rfl
@[simp] theorem State.setEng_moves (s : State) (n : Nat) (e : Engine) : (s.setEng n e).moves = s.moves := rfl
@[simp] theorem State.setEng_rekeys (s : State) (n : Nat) (e : Engine) : (s.setEng n e).rekeys = s.rekeys := rfl
@[simp] theorem State.setEng_works (s : State) (n : Nat) (e : Engine) : (s.setEng n e).works = s.works := rfl
@[simp] theorem State.setEng_pcRets (s : State) (n : Nat) (e : Engine) : (s.setEng n e).pcRets = s.pcRets := rfl
@[simp] theorem State.setEng_hbmHot (s : State) (n : Nat) (e : Engine) : (s.setEng n e).hbmHot = s.hbmHot := rfl
@[simp] theorem State.setEng_hbmErrs (s : State) (n : Nat) (e : Engine) : (s.setEng n e).hbmErrs = s.hbmErrs := rfl
@[simp] theorem State.setEng_ddr (s : State) (n : Nat) (e : Engine) : (s.setEng n e).ddr = s.ddr := rfl
@[simp] theorem State.setEng_health (s : State) (n : Nat) (e : Engine) : (s.setEng n e).health = s.health := rfl
@[simp] theorem State.setEng_net (s : State) (n : Nat) (e : Engine) : (s.setEng n e).net = s.net := rfl
@[simp] theorem State.setEng_noc (s : State) (n : Nat) (e : Engine) : (s.setEng n e).noc = s.noc := rfl
@[simp] theorem State.setEng_fab (s : State) (n : Nat) (e : Engine) : (s.setEng n e).fab = s.fab := rfl
@[simp] theorem State.setEng_links (s : State) (n : Nat) (e : Engine) : (s.setEng n e).links = s.links := rfl
@[simp] theorem State.setEng_sec (s : State) (n : Nat) (e : Engine) : (s.setEng n e).sec = s.sec := rfl
@[simp] theorem State.setEng_pwr (s : State) (n : Nat) (e : Engine) : (s.setEng n e).pwr = s.pwr := rfl
@[simp] theorem State.setEng_rst (s : State) (n : Nat) (e : Engine) : (s.setEng n e).rst = s.rst := rfl

@[simp] theorem State.setCtx_pending (s : State) (c : Nat) (x : Ctx) : (s.setCtx c x).pending = s.pending := rfl
@[simp] theorem State.setCtx_free (s : State) (c : Nat) (x : Ctx) : (s.setCtx c x).free = s.free := rfl
@[simp] theorem State.setCtx_dt (s : State) (c : Nat) (x : Ctx) : (s.setCtx c x).dt = s.dt := rfl
@[simp] theorem State.setCtx_regs (s : State) (c : Nat) (x : Ctx) : (s.setCtx c x).regs = s.regs := rfl
@[simp] theorem State.setCtx_mem (s : State) (c : Nat) (x : Ctx) : (s.setCtx c x).mem = s.mem := rfl
@[simp] theorem State.setCtx_poison (s : State) (c : Nat) (x : Ctx) : (s.setCtx c x).poison = s.poison := rfl
@[simp] theorem State.setCtx_hbmKeys (s : State) (c : Nat) (x : Ctx) : (s.setCtx c x).hbmKeys = s.hbmKeys := rfl
@[simp] theorem State.setCtx_engs (s : State) (c : Nat) (x : Ctx) : (s.setCtx c x).engs = s.engs := rfl
@[simp] theorem State.setCtx_parts (s : State) (c : Nat) (x : Ctx) : (s.setCtx c x).parts = s.parts := rfl
@[simp] theorem State.setCtx_queues (s : State) (c : Nat) (x : Ctx) : (s.setCtx c x).queues = s.queues := rfl
@[simp] theorem State.setCtx_cmds (s : State) (c : Nat) (x : Ctx) : (s.setCtx c x).cmds = s.cmds := rfl
@[simp] theorem State.setCtx_nextCmd (s : State) (c : Nat) (x : Ctx) : (s.setCtx c x).nextCmd = s.nextCmd := rfl
@[simp] theorem State.setCtx_reds (s : State) (c : Nat) (x : Ctx) : (s.setCtx c x).reds = s.reds := rfl
@[simp] theorem State.setCtx_moves (s : State) (c : Nat) (x : Ctx) : (s.setCtx c x).moves = s.moves := rfl
@[simp] theorem State.setCtx_rekeys (s : State) (c : Nat) (x : Ctx) : (s.setCtx c x).rekeys = s.rekeys := rfl
@[simp] theorem State.setCtx_works (s : State) (c : Nat) (x : Ctx) : (s.setCtx c x).works = s.works := rfl
@[simp] theorem State.setCtx_pcRets (s : State) (c : Nat) (x : Ctx) : (s.setCtx c x).pcRets = s.pcRets := rfl
@[simp] theorem State.setCtx_hbmHot (s : State) (c : Nat) (x : Ctx) : (s.setCtx c x).hbmHot = s.hbmHot := rfl
@[simp] theorem State.setCtx_hbmErrs (s : State) (c : Nat) (x : Ctx) : (s.setCtx c x).hbmErrs = s.hbmErrs := rfl
@[simp] theorem State.setCtx_ddr (s : State) (c : Nat) (x : Ctx) : (s.setCtx c x).ddr = s.ddr := rfl
@[simp] theorem State.setCtx_health (s : State) (c : Nat) (x : Ctx) : (s.setCtx c x).health = s.health := rfl
@[simp] theorem State.setCtx_net (s : State) (c : Nat) (x : Ctx) : (s.setCtx c x).net = s.net := rfl
@[simp] theorem State.setCtx_noc (s : State) (c : Nat) (x : Ctx) : (s.setCtx c x).noc = s.noc := rfl
@[simp] theorem State.setCtx_fab (s : State) (c : Nat) (x : Ctx) : (s.setCtx c x).fab = s.fab := rfl
@[simp] theorem State.setCtx_links (s : State) (c : Nat) (x : Ctx) : (s.setCtx c x).links = s.links := rfl
@[simp] theorem State.setCtx_sec (s : State) (c : Nat) (x : Ctx) : (s.setCtx c x).sec = s.sec := rfl
@[simp] theorem State.setCtx_pwr (s : State) (c : Nat) (x : Ctx) : (s.setCtx c x).pwr = s.pwr := rfl
@[simp] theorem State.setCtx_rst (s : State) (c : Nat) (x : Ctx) : (s.setCtx c x).rst = s.rst := rfl

@[simp] theorem State.setPart_pending (s : State) (p : Nat) (x : Part) : (s.setPart p x).pending = s.pending := rfl
@[simp] theorem State.setPart_free (s : State) (p : Nat) (x : Part) : (s.setPart p x).free = s.free := rfl
@[simp] theorem State.setPart_dt (s : State) (p : Nat) (x : Part) : (s.setPart p x).dt = s.dt := rfl
@[simp] theorem State.setPart_regs (s : State) (p : Nat) (x : Part) : (s.setPart p x).regs = s.regs := rfl
@[simp] theorem State.setPart_mem (s : State) (p : Nat) (x : Part) : (s.setPart p x).mem = s.mem := rfl
@[simp] theorem State.setPart_poison (s : State) (p : Nat) (x : Part) : (s.setPart p x).poison = s.poison := rfl
@[simp] theorem State.setPart_hbmKeys (s : State) (p : Nat) (x : Part) : (s.setPart p x).hbmKeys = s.hbmKeys := rfl
@[simp] theorem State.setPart_engs (s : State) (p : Nat) (x : Part) : (s.setPart p x).engs = s.engs := rfl
@[simp] theorem State.setPart_ctxs (s : State) (p : Nat) (x : Part) : (s.setPart p x).ctxs = s.ctxs := rfl
@[simp] theorem State.setPart_queues (s : State) (p : Nat) (x : Part) : (s.setPart p x).queues = s.queues := rfl
@[simp] theorem State.setPart_cmds (s : State) (p : Nat) (x : Part) : (s.setPart p x).cmds = s.cmds := rfl
@[simp] theorem State.setPart_nextCmd (s : State) (p : Nat) (x : Part) : (s.setPart p x).nextCmd = s.nextCmd := rfl
@[simp] theorem State.setPart_reds (s : State) (p : Nat) (x : Part) : (s.setPart p x).reds = s.reds := rfl
@[simp] theorem State.setPart_moves (s : State) (p : Nat) (x : Part) : (s.setPart p x).moves = s.moves := rfl
@[simp] theorem State.setPart_rekeys (s : State) (p : Nat) (x : Part) : (s.setPart p x).rekeys = s.rekeys := rfl
@[simp] theorem State.setPart_works (s : State) (p : Nat) (x : Part) : (s.setPart p x).works = s.works := rfl
@[simp] theorem State.setPart_pcRets (s : State) (p : Nat) (x : Part) : (s.setPart p x).pcRets = s.pcRets := rfl
@[simp] theorem State.setPart_hbmHot (s : State) (p : Nat) (x : Part) : (s.setPart p x).hbmHot = s.hbmHot := rfl
@[simp] theorem State.setPart_hbmErrs (s : State) (p : Nat) (x : Part) : (s.setPart p x).hbmErrs = s.hbmErrs := rfl
@[simp] theorem State.setPart_ddr (s : State) (p : Nat) (x : Part) : (s.setPart p x).ddr = s.ddr := rfl
@[simp] theorem State.setPart_health (s : State) (p : Nat) (x : Part) : (s.setPart p x).health = s.health := rfl
@[simp] theorem State.setPart_net (s : State) (p : Nat) (x : Part) : (s.setPart p x).net = s.net := rfl
@[simp] theorem State.setPart_noc (s : State) (p : Nat) (x : Part) : (s.setPart p x).noc = s.noc := rfl
@[simp] theorem State.setPart_fab (s : State) (p : Nat) (x : Part) : (s.setPart p x).fab = s.fab := rfl
@[simp] theorem State.setPart_links (s : State) (p : Nat) (x : Part) : (s.setPart p x).links = s.links := rfl
@[simp] theorem State.setPart_sec (s : State) (p : Nat) (x : Part) : (s.setPart p x).sec = s.sec := rfl
@[simp] theorem State.setPart_pwr (s : State) (p : Nat) (x : Part) : (s.setPart p x).pwr = s.pwr := rfl
@[simp] theorem State.setPart_rst (s : State) (p : Nat) (x : Part) : (s.setPart p x).rst = s.rst := rfl

@[simp] theorem State.setQueue_pending (s : State) (q : Nat) (x : Queue) : (s.setQueue q x).pending = s.pending := rfl
@[simp] theorem State.setQueue_free (s : State) (q : Nat) (x : Queue) : (s.setQueue q x).free = s.free := rfl
@[simp] theorem State.setQueue_dt (s : State) (q : Nat) (x : Queue) : (s.setQueue q x).dt = s.dt := rfl
@[simp] theorem State.setQueue_regs (s : State) (q : Nat) (x : Queue) : (s.setQueue q x).regs = s.regs := rfl
@[simp] theorem State.setQueue_mem (s : State) (q : Nat) (x : Queue) : (s.setQueue q x).mem = s.mem := rfl
@[simp] theorem State.setQueue_poison (s : State) (q : Nat) (x : Queue) : (s.setQueue q x).poison = s.poison := rfl
@[simp] theorem State.setQueue_hbmKeys (s : State) (q : Nat) (x : Queue) : (s.setQueue q x).hbmKeys = s.hbmKeys := rfl
@[simp] theorem State.setQueue_engs (s : State) (q : Nat) (x : Queue) : (s.setQueue q x).engs = s.engs := rfl
@[simp] theorem State.setQueue_ctxs (s : State) (q : Nat) (x : Queue) : (s.setQueue q x).ctxs = s.ctxs := rfl
@[simp] theorem State.setQueue_parts (s : State) (q : Nat) (x : Queue) : (s.setQueue q x).parts = s.parts := rfl
@[simp] theorem State.setQueue_cmds (s : State) (q : Nat) (x : Queue) : (s.setQueue q x).cmds = s.cmds := rfl
@[simp] theorem State.setQueue_nextCmd (s : State) (q : Nat) (x : Queue) : (s.setQueue q x).nextCmd = s.nextCmd := rfl
@[simp] theorem State.setQueue_reds (s : State) (q : Nat) (x : Queue) : (s.setQueue q x).reds = s.reds := rfl
@[simp] theorem State.setQueue_moves (s : State) (q : Nat) (x : Queue) : (s.setQueue q x).moves = s.moves := rfl
@[simp] theorem State.setQueue_rekeys (s : State) (q : Nat) (x : Queue) : (s.setQueue q x).rekeys = s.rekeys := rfl
@[simp] theorem State.setQueue_works (s : State) (q : Nat) (x : Queue) : (s.setQueue q x).works = s.works := rfl
@[simp] theorem State.setQueue_pcRets (s : State) (q : Nat) (x : Queue) : (s.setQueue q x).pcRets = s.pcRets := rfl
@[simp] theorem State.setQueue_hbmHot (s : State) (q : Nat) (x : Queue) : (s.setQueue q x).hbmHot = s.hbmHot := rfl
@[simp] theorem State.setQueue_hbmErrs (s : State) (q : Nat) (x : Queue) : (s.setQueue q x).hbmErrs = s.hbmErrs := rfl
@[simp] theorem State.setQueue_ddr (s : State) (q : Nat) (x : Queue) : (s.setQueue q x).ddr = s.ddr := rfl
@[simp] theorem State.setQueue_health (s : State) (q : Nat) (x : Queue) : (s.setQueue q x).health = s.health := rfl
@[simp] theorem State.setQueue_net (s : State) (q : Nat) (x : Queue) : (s.setQueue q x).net = s.net := rfl
@[simp] theorem State.setQueue_noc (s : State) (q : Nat) (x : Queue) : (s.setQueue q x).noc = s.noc := rfl
@[simp] theorem State.setQueue_fab (s : State) (q : Nat) (x : Queue) : (s.setQueue q x).fab = s.fab := rfl
@[simp] theorem State.setQueue_links (s : State) (q : Nat) (x : Queue) : (s.setQueue q x).links = s.links := rfl
@[simp] theorem State.setQueue_sec (s : State) (q : Nat) (x : Queue) : (s.setQueue q x).sec = s.sec := rfl
@[simp] theorem State.setQueue_pwr (s : State) (q : Nat) (x : Queue) : (s.setQueue q x).pwr = s.pwr := rfl
@[simp] theorem State.setQueue_rst (s : State) (q : Nat) (x : Queue) : (s.setQueue q x).rst = s.rst := rfl

@[simp] theorem State.updCmd_pending (s : State) (i : Nat) (f : Cmd → Cmd) : (s.updCmd i f).pending = s.pending := rfl
@[simp] theorem State.updCmd_free (s : State) (i : Nat) (f : Cmd → Cmd) : (s.updCmd i f).free = s.free := rfl
@[simp] theorem State.updCmd_dt (s : State) (i : Nat) (f : Cmd → Cmd) : (s.updCmd i f).dt = s.dt := rfl
@[simp] theorem State.updCmd_regs (s : State) (i : Nat) (f : Cmd → Cmd) : (s.updCmd i f).regs = s.regs := rfl
@[simp] theorem State.updCmd_mem (s : State) (i : Nat) (f : Cmd → Cmd) : (s.updCmd i f).mem = s.mem := rfl
@[simp] theorem State.updCmd_poison (s : State) (i : Nat) (f : Cmd → Cmd) : (s.updCmd i f).poison = s.poison := rfl
@[simp] theorem State.updCmd_hbmKeys (s : State) (i : Nat) (f : Cmd → Cmd) : (s.updCmd i f).hbmKeys = s.hbmKeys := rfl
@[simp] theorem State.updCmd_engs (s : State) (i : Nat) (f : Cmd → Cmd) : (s.updCmd i f).engs = s.engs := rfl
@[simp] theorem State.updCmd_ctxs (s : State) (i : Nat) (f : Cmd → Cmd) : (s.updCmd i f).ctxs = s.ctxs := rfl
@[simp] theorem State.updCmd_parts (s : State) (i : Nat) (f : Cmd → Cmd) : (s.updCmd i f).parts = s.parts := rfl
@[simp] theorem State.updCmd_queues (s : State) (i : Nat) (f : Cmd → Cmd) : (s.updCmd i f).queues = s.queues := rfl
@[simp] theorem State.updCmd_nextCmd (s : State) (i : Nat) (f : Cmd → Cmd) : (s.updCmd i f).nextCmd = s.nextCmd := rfl
@[simp] theorem State.updCmd_reds (s : State) (i : Nat) (f : Cmd → Cmd) : (s.updCmd i f).reds = s.reds := rfl
@[simp] theorem State.updCmd_moves (s : State) (i : Nat) (f : Cmd → Cmd) : (s.updCmd i f).moves = s.moves := rfl
@[simp] theorem State.updCmd_rekeys (s : State) (i : Nat) (f : Cmd → Cmd) : (s.updCmd i f).rekeys = s.rekeys := rfl
@[simp] theorem State.updCmd_works (s : State) (i : Nat) (f : Cmd → Cmd) : (s.updCmd i f).works = s.works := rfl
@[simp] theorem State.updCmd_pcRets (s : State) (i : Nat) (f : Cmd → Cmd) : (s.updCmd i f).pcRets = s.pcRets := rfl
@[simp] theorem State.updCmd_hbmHot (s : State) (i : Nat) (f : Cmd → Cmd) : (s.updCmd i f).hbmHot = s.hbmHot := rfl
@[simp] theorem State.updCmd_hbmErrs (s : State) (i : Nat) (f : Cmd → Cmd) : (s.updCmd i f).hbmErrs = s.hbmErrs := rfl
@[simp] theorem State.updCmd_ddr (s : State) (i : Nat) (f : Cmd → Cmd) : (s.updCmd i f).ddr = s.ddr := rfl
@[simp] theorem State.updCmd_health (s : State) (i : Nat) (f : Cmd → Cmd) : (s.updCmd i f).health = s.health := rfl
@[simp] theorem State.updCmd_net (s : State) (i : Nat) (f : Cmd → Cmd) : (s.updCmd i f).net = s.net := rfl
@[simp] theorem State.updCmd_noc (s : State) (i : Nat) (f : Cmd → Cmd) : (s.updCmd i f).noc = s.noc := rfl
@[simp] theorem State.updCmd_fab (s : State) (i : Nat) (f : Cmd → Cmd) : (s.updCmd i f).fab = s.fab := rfl
@[simp] theorem State.updCmd_links (s : State) (i : Nat) (f : Cmd → Cmd) : (s.updCmd i f).links = s.links := rfl
@[simp] theorem State.updCmd_sec (s : State) (i : Nat) (f : Cmd → Cmd) : (s.updCmd i f).sec = s.sec := rfl
@[simp] theorem State.updCmd_pwr (s : State) (i : Nat) (f : Cmd → Cmd) : (s.updCmd i f).pwr = s.pwr := rfl
@[simp] theorem State.updCmd_rst (s : State) (i : Nat) (f : Cmd → Cmd) : (s.updCmd i f).rst = s.rst := rfl

@[simp] theorem State.setByte_pending (s : State) (a : Nat) (b : Byte) : (s.setByte a b).pending = s.pending := rfl
@[simp] theorem State.setByte_free (s : State) (a : Nat) (b : Byte) : (s.setByte a b).free = s.free := rfl
@[simp] theorem State.setByte_dt (s : State) (a : Nat) (b : Byte) : (s.setByte a b).dt = s.dt := rfl
@[simp] theorem State.setByte_regs (s : State) (a : Nat) (b : Byte) : (s.setByte a b).regs = s.regs := rfl
@[simp] theorem State.setByte_poison (s : State) (a : Nat) (b : Byte) : (s.setByte a b).poison = s.poison := rfl
@[simp] theorem State.setByte_hbmKeys (s : State) (a : Nat) (b : Byte) : (s.setByte a b).hbmKeys = s.hbmKeys := rfl
@[simp] theorem State.setByte_engs (s : State) (a : Nat) (b : Byte) : (s.setByte a b).engs = s.engs := rfl
@[simp] theorem State.setByte_ctxs (s : State) (a : Nat) (b : Byte) : (s.setByte a b).ctxs = s.ctxs := rfl
@[simp] theorem State.setByte_parts (s : State) (a : Nat) (b : Byte) : (s.setByte a b).parts = s.parts := rfl
@[simp] theorem State.setByte_queues (s : State) (a : Nat) (b : Byte) : (s.setByte a b).queues = s.queues := rfl
@[simp] theorem State.setByte_cmds (s : State) (a : Nat) (b : Byte) : (s.setByte a b).cmds = s.cmds := rfl
@[simp] theorem State.setByte_nextCmd (s : State) (a : Nat) (b : Byte) : (s.setByte a b).nextCmd = s.nextCmd := rfl
@[simp] theorem State.setByte_reds (s : State) (a : Nat) (b : Byte) : (s.setByte a b).reds = s.reds := rfl
@[simp] theorem State.setByte_moves (s : State) (a : Nat) (b : Byte) : (s.setByte a b).moves = s.moves := rfl
@[simp] theorem State.setByte_rekeys (s : State) (a : Nat) (b : Byte) : (s.setByte a b).rekeys = s.rekeys := rfl
@[simp] theorem State.setByte_works (s : State) (a : Nat) (b : Byte) : (s.setByte a b).works = s.works := rfl
@[simp] theorem State.setByte_pcRets (s : State) (a : Nat) (b : Byte) : (s.setByte a b).pcRets = s.pcRets := rfl
@[simp] theorem State.setByte_hbmHot (s : State) (a : Nat) (b : Byte) : (s.setByte a b).hbmHot = s.hbmHot := rfl
@[simp] theorem State.setByte_hbmErrs (s : State) (a : Nat) (b : Byte) : (s.setByte a b).hbmErrs = s.hbmErrs := rfl
@[simp] theorem State.setByte_ddr (s : State) (a : Nat) (b : Byte) : (s.setByte a b).ddr = s.ddr := rfl
@[simp] theorem State.setByte_health (s : State) (a : Nat) (b : Byte) : (s.setByte a b).health = s.health := rfl
@[simp] theorem State.setByte_net (s : State) (a : Nat) (b : Byte) : (s.setByte a b).net = s.net := rfl
@[simp] theorem State.setByte_noc (s : State) (a : Nat) (b : Byte) : (s.setByte a b).noc = s.noc := rfl
@[simp] theorem State.setByte_fab (s : State) (a : Nat) (b : Byte) : (s.setByte a b).fab = s.fab := rfl
@[simp] theorem State.setByte_links (s : State) (a : Nat) (b : Byte) : (s.setByte a b).links = s.links := rfl
@[simp] theorem State.setByte_sec (s : State) (a : Nat) (b : Byte) : (s.setByte a b).sec = s.sec := rfl
@[simp] theorem State.setByte_pwr (s : State) (a : Nat) (b : Byte) : (s.setByte a b).pwr = s.pwr := rfl
@[simp] theorem State.setByte_rst (s : State) (a : Nat) (b : Byte) : (s.setByte a b).rst = s.rst := rfl

@[simp] theorem State.setPoison_pending (s : State) (a : Nat) (b : Bool) : (s.setPoison a b).pending = s.pending := rfl
@[simp] theorem State.setPoison_free (s : State) (a : Nat) (b : Bool) : (s.setPoison a b).free = s.free := rfl
@[simp] theorem State.setPoison_dt (s : State) (a : Nat) (b : Bool) : (s.setPoison a b).dt = s.dt := rfl
@[simp] theorem State.setPoison_regs (s : State) (a : Nat) (b : Bool) : (s.setPoison a b).regs = s.regs := rfl
@[simp] theorem State.setPoison_mem (s : State) (a : Nat) (b : Bool) : (s.setPoison a b).mem = s.mem := rfl
@[simp] theorem State.setPoison_hbmKeys (s : State) (a : Nat) (b : Bool) : (s.setPoison a b).hbmKeys = s.hbmKeys := rfl
@[simp] theorem State.setPoison_engs (s : State) (a : Nat) (b : Bool) : (s.setPoison a b).engs = s.engs := rfl
@[simp] theorem State.setPoison_ctxs (s : State) (a : Nat) (b : Bool) : (s.setPoison a b).ctxs = s.ctxs := rfl
@[simp] theorem State.setPoison_parts (s : State) (a : Nat) (b : Bool) : (s.setPoison a b).parts = s.parts := rfl
@[simp] theorem State.setPoison_queues (s : State) (a : Nat) (b : Bool) : (s.setPoison a b).queues = s.queues := rfl
@[simp] theorem State.setPoison_cmds (s : State) (a : Nat) (b : Bool) : (s.setPoison a b).cmds = s.cmds := rfl
@[simp] theorem State.setPoison_nextCmd (s : State) (a : Nat) (b : Bool) : (s.setPoison a b).nextCmd = s.nextCmd := rfl
@[simp] theorem State.setPoison_reds (s : State) (a : Nat) (b : Bool) : (s.setPoison a b).reds = s.reds := rfl
@[simp] theorem State.setPoison_moves (s : State) (a : Nat) (b : Bool) : (s.setPoison a b).moves = s.moves := rfl
@[simp] theorem State.setPoison_rekeys (s : State) (a : Nat) (b : Bool) : (s.setPoison a b).rekeys = s.rekeys := rfl
@[simp] theorem State.setPoison_works (s : State) (a : Nat) (b : Bool) : (s.setPoison a b).works = s.works := rfl
@[simp] theorem State.setPoison_pcRets (s : State) (a : Nat) (b : Bool) : (s.setPoison a b).pcRets = s.pcRets := rfl
@[simp] theorem State.setPoison_hbmHot (s : State) (a : Nat) (b : Bool) : (s.setPoison a b).hbmHot = s.hbmHot := rfl
@[simp] theorem State.setPoison_hbmErrs (s : State) (a : Nat) (b : Bool) : (s.setPoison a b).hbmErrs = s.hbmErrs := rfl
@[simp] theorem State.setPoison_ddr (s : State) (a : Nat) (b : Bool) : (s.setPoison a b).ddr = s.ddr := rfl
@[simp] theorem State.setPoison_health (s : State) (a : Nat) (b : Bool) : (s.setPoison a b).health = s.health := rfl
@[simp] theorem State.setPoison_net (s : State) (a : Nat) (b : Bool) : (s.setPoison a b).net = s.net := rfl
@[simp] theorem State.setPoison_noc (s : State) (a : Nat) (b : Bool) : (s.setPoison a b).noc = s.noc := rfl
@[simp] theorem State.setPoison_fab (s : State) (a : Nat) (b : Bool) : (s.setPoison a b).fab = s.fab := rfl
@[simp] theorem State.setPoison_links (s : State) (a : Nat) (b : Bool) : (s.setPoison a b).links = s.links := rfl
@[simp] theorem State.setPoison_sec (s : State) (a : Nat) (b : Bool) : (s.setPoison a b).sec = s.sec := rfl
@[simp] theorem State.setPoison_pwr (s : State) (a : Nat) (b : Bool) : (s.setPoison a b).pwr = s.pwr := rfl
@[simp] theorem State.setPoison_rst (s : State) (a : Nat) (b : Bool) : (s.setPoison a b).rst = s.rst := rfl

@[simp] theorem State.updLogic_pending (s : State) (f : Nat) (g : Logic → Logic) : (s.updLogic f g).pending = s.pending := rfl
@[simp] theorem State.updLogic_free (s : State) (f : Nat) (g : Logic → Logic) : (s.updLogic f g).free = s.free := rfl
@[simp] theorem State.updLogic_dt (s : State) (f : Nat) (g : Logic → Logic) : (s.updLogic f g).dt = s.dt := rfl
@[simp] theorem State.updLogic_regs (s : State) (f : Nat) (g : Logic → Logic) : (s.updLogic f g).regs = s.regs := rfl
@[simp] theorem State.updLogic_mem (s : State) (f : Nat) (g : Logic → Logic) : (s.updLogic f g).mem = s.mem := rfl
@[simp] theorem State.updLogic_poison (s : State) (f : Nat) (g : Logic → Logic) : (s.updLogic f g).poison = s.poison := rfl
@[simp] theorem State.updLogic_hbmKeys (s : State) (f : Nat) (g : Logic → Logic) : (s.updLogic f g).hbmKeys = s.hbmKeys := rfl
@[simp] theorem State.updLogic_engs (s : State) (f : Nat) (g : Logic → Logic) : (s.updLogic f g).engs = s.engs := rfl
@[simp] theorem State.updLogic_ctxs (s : State) (f : Nat) (g : Logic → Logic) : (s.updLogic f g).ctxs = s.ctxs := rfl
@[simp] theorem State.updLogic_parts (s : State) (f : Nat) (g : Logic → Logic) : (s.updLogic f g).parts = s.parts := rfl
@[simp] theorem State.updLogic_queues (s : State) (f : Nat) (g : Logic → Logic) : (s.updLogic f g).queues = s.queues := rfl
@[simp] theorem State.updLogic_cmds (s : State) (f : Nat) (g : Logic → Logic) : (s.updLogic f g).cmds = s.cmds := rfl
@[simp] theorem State.updLogic_nextCmd (s : State) (f : Nat) (g : Logic → Logic) : (s.updLogic f g).nextCmd = s.nextCmd := rfl
@[simp] theorem State.updLogic_reds (s : State) (f : Nat) (g : Logic → Logic) : (s.updLogic f g).reds = s.reds := rfl
@[simp] theorem State.updLogic_moves (s : State) (f : Nat) (g : Logic → Logic) : (s.updLogic f g).moves = s.moves := rfl
@[simp] theorem State.updLogic_rekeys (s : State) (f : Nat) (g : Logic → Logic) : (s.updLogic f g).rekeys = s.rekeys := rfl
@[simp] theorem State.updLogic_works (s : State) (f : Nat) (g : Logic → Logic) : (s.updLogic f g).works = s.works := rfl
@[simp] theorem State.updLogic_pcRets (s : State) (f : Nat) (g : Logic → Logic) : (s.updLogic f g).pcRets = s.pcRets := rfl
@[simp] theorem State.updLogic_hbmHot (s : State) (f : Nat) (g : Logic → Logic) : (s.updLogic f g).hbmHot = s.hbmHot := rfl
@[simp] theorem State.updLogic_hbmErrs (s : State) (f : Nat) (g : Logic → Logic) : (s.updLogic f g).hbmErrs = s.hbmErrs := rfl
@[simp] theorem State.updLogic_ddr (s : State) (f : Nat) (g : Logic → Logic) : (s.updLogic f g).ddr = s.ddr := rfl
@[simp] theorem State.updLogic_health (s : State) (f : Nat) (g : Logic → Logic) : (s.updLogic f g).health = s.health := rfl
@[simp] theorem State.updLogic_net (s : State) (f : Nat) (g : Logic → Logic) : (s.updLogic f g).net = s.net := rfl
@[simp] theorem State.updLogic_noc (s : State) (f : Nat) (g : Logic → Logic) : (s.updLogic f g).noc = s.noc := rfl
@[simp] theorem State.updLogic_links (s : State) (f : Nat) (g : Logic → Logic) : (s.updLogic f g).links = s.links := rfl
@[simp] theorem State.updLogic_sec (s : State) (f : Nat) (g : Logic → Logic) : (s.updLogic f g).sec = s.sec := rfl
@[simp] theorem State.updLogic_pwr (s : State) (f : Nat) (g : Logic → Logic) : (s.updLogic f g).pwr = s.pwr := rfl
@[simp] theorem State.updLogic_rst (s : State) (f : Nat) (g : Logic → Logic) : (s.updLogic f g).rst = s.rst := rfl

end Sys2Proof.Machine
end

