-- ==== Sys2Proof/Laws/Seq.lean ====
section
/-! SUPPORT. What the sequencer's shared operations do: one law for each, which says all of it. -/

namespace Sys2Proof.Machine

/-! ### Registers of a slot (R118) -/

@[simp] theorem Slot.x_zero (x : Slot) : x.x 0 = 0 := by simp [Slot.x]

theorem Slot.x_setX (x : Slot) (d r : BitVec 5) (v : W64) :
    (x.setX d v).x r = if r = 0 then 0 else if r = d then v else x.x r := by
  unfold Slot.x Slot.setX
  by_cases h0 : r = 0
  · subst h0; simp
  · by_cases hd : d = 0
    · subst hd; simp only [if_true, if_neg h0]
    · simp only [h0, hd, if_false, tget_tset]
      by_cases h : r = d
      · simp [h]
      · rw [if_neg (fun e => h (BitVec.eq_of_toNat_eq e)), if_neg h]

@[simp] theorem Slot.setX_rest (x : Slot) (d : BitVec 5) (v : W64) : { x.setX d v with xs := x.xs } = x := by
  unfold Slot.setX; split <;> rfl

@[simp] theorem Slot.setX_pc (x : Slot) (d : BitVec 5) (v : W64) : (x.setX d v).pc = x.pc := by
  unfold Slot.setX; split <;> rfl

/-! ### Issue -/

/-- The slot that issues runs what the row makes of its instruction. -/
theorem esRun_issues {s : State} {n k : Nat} {i : EsInsn} {body : EsInsn → Option (State → State)}
    {f : State → State} (h : s.issues n k i) (hb : body i = some f) : esRun n k body s = .next (f s) := by
  simp [esRun, h.1, h.2, hb]

theorem State.issueBooks_rest (s : State) (n k : Nat) :
    { s.issueBooks n k with engs := s.engs, regs := s.regs } = s := by
  unfold State.issueBooks
  simp

theorem State.issueBooks_slot (s : State) (n k m j : Nat) : (s.issueBooks n k).slot m j = s.slot m j := by
  unfold State.issueBooks State.slot
  simp only [State.updReg_eq, State.updEng_eq, State.eng_setReg, State.eng_setEng]
  split
  · subst m; split <;> rfl
  · rfl

theorem State.issueBooks_eng (s : State) (n k m : Nat) (h : m ≠ n) : (s.issueBooks n k).eng m = s.eng m := by
  unfold State.issueBooks
  simp [State.eng_setEng, h]

theorem State.issueBooks_reg (s : State) (n k o : Nat) :
    (s.issueBooks n k).reg o = if o = rEsInsns n then s.reg (rEsInsns n) + 1 else s.reg o := by
  unfold State.issueBooks
  simp [State.reg_setReg]

/-- Where a byte of memory lies depends on registers outside the engine blocks alone. -/
theorem State.byte_congr {s t : State} (hr : { t with engs := s.engs, regs := s.regs } = s)
    (h : ∀ o, 0x100000 ≤ o → t.reg o = s.reg o) (a : Nat) : t.byte a = s.byte a := by
  have hm : t.mem = s.mem := by have x := congrArg State.mem hr; exact x
  have hk : t.memKey a = s.memKey a := by
    have e1 : t.rekeys = s.rekeys := by have x := congrArg State.rekeys hr; exact x
    have e2 : t.pcRets = s.pcRets := by have x := congrArg State.pcRets hr; exact x
    have e3 : t.hbmKeys = s.hbmKeys := by have x := congrArg State.hbmKeys hr; exact x
    have e4 : t.ddr = s.ddr := by have x := congrArg State.ddr hr; exact x
    have f1 : ∀ r, t.reg (rHbmRgn r) = s.reg (rHbmRgn r) := fun r => h _ (by unfold rHbmRgn; omega)
    have f2 : t.reg rDdrGeom = s.reg rDdrGeom := h _ (by unfold rDdrGeom; omega)
    have f3 : ∀ c, t.reg (rDdrRankmap c) = s.reg (rDdrRankmap c) := fun c => h _ (by unfold rDdrRankmap; omega)
    have k1 : ∀ k, t.hbmKey k = s.hbmKey k := fun k => by unfold State.hbmKey; rw [e3]
    have o1 : ∀ r a, t.oldPlace r a = s.oldPlace r a := fun r a => by unfold State.oldPlace; simp only [f1, k1]
    have o2 : ∀ k a, t.newPlace k a = s.newPlace k a := fun k a => by
      unfold State.newPlace State.fld; simp only [f1, k1]
    have o3 : ∀ p, t.hbmReloc p = s.hbmReloc p := fun p => by unfold State.hbmReloc; rw [e2]
    have d1 : t.chList = s.chList := by unfold State.chList State.fld; rw [f2]
    have d2 : t.ddrNr = s.ddrNr := by unfold State.ddrNr State.fld; rw [f2]
    have d3 : t.ddrRows = s.ddrRows := by unfold State.ddrRows State.fld; rw [f2]
    have d4 : t.ddrRsvr = s.ddrRsvr := by unfold State.ddrRsvr State.fld; rw [f2]
    have d5 : ∀ a, t.ddrDecode a = s.ddrDecode a := fun a => by unfold State.ddrDecode; rw [d1, d2]
    have d6 : ∀ c q, t.physRank c q = s.physRank c q := fun c q => by unfold State.physRank State.fld; rw [f3]
    have d7 : ∀ l, t.spareLine l = s.spareLine l := fun l => by unfold State.spareLine; rw [e4]; simp only [d6]
    have d8 : ∀ c q, t.otherRanks c q = s.otherRanks c q := fun c q => by unfold State.otherRanks; rw [d1, d2]
    have d9 : ∀ l, t.reserveLine l = s.reserveLine l := fun l => by unfold State.reserveLine; rw [d8, d3, d4]
    have d10 : ∀ a, t.ddrLine a = s.ddrLine a := fun a => by
      unfold State.ddrLine State.physLine; rw [e4, d5]; simp only [d7, d9]
    unfold State.memKey
    rw [e1]
    simp only [o1, o2, o3, d10]
  unfold State.byte
  rw [hk, hm]

/-- Where its books alone change, an instruction changes no slot and nothing outside its engine. -/
theorem State.issueBooks_frame (s : State) (n : Fin 64) (k : Nat) : EsFrame s (s.issueBooks n k) n k := by
  have h0 : { s.issueBooks n k with engs := s.engs, regs := s.regs } = s := by
    unfold State.issueBooks
    simp
  refine ⟨h0, fun m h => State.issueBooks_eng s n k m h, fun j _ => State.issueBooks_slot s n k n j, ?_,
    fun o h => by rw [State.issueBooks_reg, if_neg h], by rw [State.issueBooks_reg, if_pos rfl],
    State.byte_congr h0 (fun o h => ?_)⟩
  · unfold State.issueBooks
    simp only [State.updReg_eq, State.updEng_eq, State.eng_setReg, State.eng_setEng_self]
    split <;> rfl
  · rw [State.issueBooks_reg, if_neg]
    have := n.isLt
    unfold rEsInsns
    omega

/-- A change of the engine's sequencer books and of the issuing slot keeps the frame. -/
theorem EsFrame.setEng {s t : State} {n : Fin 64} {k : Nat} {e : Engine} (h : EsFrame s t n k)
    (hs : ∀ j, j ≠ k → e.slot j = (t.eng n).slot j)
    (he : { e with slots := (t.eng n).slots, last := (t.eng n).last, runLen := (t.eng n).runLen,
                   yielded := (t.eng n).yielded, esActive := (t.eng n).esActive } = t.eng n) :
    EsFrame s (t.setEng n e) n k := by
  have h0 : { t.setEng n e with engs := s.engs, regs := s.regs } = s := by simpa using h.rest
  refine ⟨h0, fun m hm => by simp only [State.eng_setEng, hm, if_false, h.others m hm], fun j hj => ?_, ?_,
    fun o ho => by simpa using h.regs o ho, by simpa using h.insns, fun a => ?_⟩
  · unfold State.slot
    rw [State.eng_setEng_self, hs j hj]
    exact h.slots j hj
  · rw [State.eng_setEng_self]
    have e1 := h.engine
    rw [← he] at e1
    exact e1
  · rw [← h.bytes a]
    exact State.byte_congr (by simp) (fun o _ => by simp) a

theorem State.passTurn_frame {s t : State} {n : Fin 64} {k : Nat} (h : EsFrame s t n k) :
    EsFrame s (t.passTurn n k) n k := by
  unfold State.passTurn
  simp only [State.updEng_eq]
  split
  · exact h.setEng (fun _ _ => rfl) rfl
  · exact h.setEng (fun _ _ => rfl) rfl

theorem State.passTurn_slot (s : State) (n k m j : Nat) : (s.passTurn n k).slot m j = s.slot m j := by
  unfold State.passTurn State.slot
  simp only [State.updEng_eq, State.eng_setEng]
  split
  · subst m; split <;> rfl
  · rfl

theorem State.updSlot_frame {s t : State} {n : Fin 64} {k : Nat} {f : Slot → Slot} (h : EsFrame s t n k) :
    EsFrame s (t.updSlot n k f) n k := by
  rw [State.updSlot_eq]
  refine h.setEng (fun j hj => ?_) rfl
  simp only [Engine.slot_setSlot, hj, if_false]

theorem State.updSlot_slot (s : State) (n k : Nat) (f : Slot → Slot) :
    (s.updSlot n k f).slot n k = f (s.slot n k) := by
  simp only [State.updSlot_eq, State.slot_setEng, if_true, Engine.slot_setSlot_self]

theorem State.retire_slot (s : State) (n k : Nat) (f : Slot → Slot) :
    (s.retire n k f).slot n k = { f (s.slot n k) with pc := (f (s.slot n k)).pc + 1 } := by
  unfold State.retire
  rw [State.updSlot_slot, State.issueBooks_slot]

theorem State.retire_frame (s : State) (n : Fin 64) (k : Nat) (f : Slot → Slot) : EsFrame s (s.retire n k f) n k :=
  State.updSlot_frame (s.issueBooks_frame n k)

theorem State.block_slot (s : State) (n k : Nat) (w : Wait) :
    (s.block n k w).slot n k = { s.slot n k with st := .blocked, wait := w } := by
  unfold State.block
  rw [State.updSlot_slot, State.passTurn_slot, State.issueBooks_slot]

theorem State.block_frame (s : State) (n : Fin 64) (k : Nat) (w : Wait) : EsFrame s (s.block n k w) n k :=
  State.updSlot_frame (State.passTurn_frame (s.issueBooks_frame n k))

/-- Every register of a slot but Xd, and all of the slot but its registers, as after a write of Xd. -/
theorem Slot.setX_frame (x : Slot) (d : BitVec 5) (v : W64) (p : Nat) : SlotFrame x { x.setX d v with pc := p } d := by
  refine ⟨fun r hr => ?_, Slot.x_zero _, ?_⟩
  · show (x.setX d v).x r = _
    rw [Slot.x_setX]
    by_cases h0 : r = 0
    · subst h0; simp only [if_true, Slot.x_zero]
    · simp only [if_neg h0, if_neg hr]
  · unfold Slot.setX; split <;> rfl

/-- An instruction that writes Xd and goes on. -/
theorem State.writesX_of {s : State} {c : Instr} {e : Fin 64} {sl : Fin 8} {d : BitVec 5} {v : W64}
    (h : exec c s = .next (s.retireX e sl d v)) : s.writesX c e sl d v := by
  refine ⟨_, h, State.retire_frame s e sl _, ?_, ?_, fun hd => ?_⟩ <;> unfold State.retireX <;> rw [State.retire_slot]
  · exact Slot.setX_frame _ _ _ _
  · simp
  · show ((s.slot e sl).setX d v).x d = _
    rw [Slot.x_setX]; simp only [if_neg hd, if_true]

/-- An instruction that goes to a target inside its window. -/
theorem State.jumps_of {s : State} {c : Instr} {e : Fin 64} {sl : Fin 8} {d : BitVec 5} {p : Int}
    (h : exec c s = .next (s.goTo e sl p d)) (hw : s.inWindow e sl p = true) : s.jumps c e sl d p.toNat := by
  unfold State.goTo at h
  rw [if_pos hw] at h
  refine ⟨_, h, State.updSlot_frame (s.issueBooks_frame e sl), ?_, ?_, fun hd => ?_⟩ <;>
    rw [State.updSlot_slot, State.issueBooks_slot]
  · exact Slot.setX_frame _ _ _ _
  · show ((s.slot e sl).setX d _).x d = _
    rw [Slot.x_setX]; simp only [if_neg hd, if_true]

end Sys2Proof.Machine
end

