-- ==== Sys2Proof/Laws/Units.lean ====
section
/-! SUPPORT. The same small laws for the updates of one unit: the transport's entries, the network, the DDR5 controllers, the
fabric, security and power. -/

namespace Sys2Proof.Machine

theorem State.ent_setEnt (s : State) (i j : Nat) (x : Entry) :
    (s.setEnt i x).ent j = if j = i then x else s.ent j := tget_tset _ _ _ _

@[simp] theorem State.ent_setEnt_self (s : State) (i : Nat) (x : Entry) : (s.setEnt i x).ent i = x := by
  simp [State.ent_setEnt]

@[simp] theorem State.updEnt_eq (s : State) (i : Nat) (f : Entry → Entry) : s.updEnt i f = s.setEnt i (f (s.ent i)) := rfl

@[simp] theorem State.reg_setEnt (s : State) (i : Nat) (x : Entry) (j : Nat) : (s.setEnt i x).reg j = s.reg j := rfl
@[simp] theorem State.fld_setEnt (s : State) (i : Nat) (x : Entry) (j lo w : Nat) : (s.setEnt i x).fld j lo w = s.fld j lo w := rfl
@[simp] theorem State.eng_setEnt (s : State) (i : Nat) (x : Entry) (j : Nat) : (s.setEnt i x).eng j = s.eng j := rfl
@[simp] theorem State.slot_setEnt (s : State) (i : Nat) (x : Entry) (j l : Nat) : (s.setEnt i x).slot j l = s.slot j l := rfl
@[simp] theorem State.ctx_setEnt (s : State) (i : Nat) (x : Entry) (j : Nat) : (s.setEnt i x).ctx j = s.ctx j := rfl
@[simp] theorem State.part_setEnt (s : State) (i : Nat) (x : Entry) (j : Nat) : (s.setEnt i x).part j = s.part j := rfl
@[simp] theorem State.queue_setEnt (s : State) (i : Nat) (x : Entry) (j : Nat) : (s.setEnt i x).queue j = s.queue j := rfl
@[simp] theorem State.cmd_setEnt (s : State) (i : Nat) (x : Entry) (j : Nat) : (s.setEnt i x).cmd j = s.cmd j := rfl
@[simp] theorem State.memKey_setEnt (s : State) (i : Nat) (x : Entry) (j : Nat) : (s.setEnt i x).memKey j = s.memKey j := rfl
@[simp] theorem State.setEnt_pending (s : State) (i : Nat) (x : Entry) : (s.setEnt i x).pending = s.pending := rfl
@[simp] theorem State.setEnt_free (s : State) (i : Nat) (x : Entry) : (s.setEnt i x).free = s.free := rfl
@[simp] theorem State.setEnt_dt (s : State) (i : Nat) (x : Entry) : (s.setEnt i x).dt = s.dt := rfl
@[simp] theorem State.setEnt_regs (s : State) (i : Nat) (x : Entry) : (s.setEnt i x).regs = s.regs := rfl
@[simp] theorem State.setEnt_mem (s : State) (i : Nat) (x : Entry) : (s.setEnt i x).mem = s.mem := rfl
@[simp] theorem State.setEnt_poison (s : State) (i : Nat) (x : Entry) : (s.setEnt i x).poison = s.poison := rfl
@[simp] theorem State.setEnt_hbmKeys (s : State) (i : Nat) (x : Entry) : (s.setEnt i x).hbmKeys = s.hbmKeys := rfl
@[simp] theorem State.setEnt_engs (s : State) (i : Nat) (x : Entry) : (s.setEnt i x).engs = s.engs := rfl
@[simp] theorem State.setEnt_ctxs (s : State) (i : Nat) (x : Entry) : (s.setEnt i x).ctxs = s.ctxs := rfl
@[simp] theorem State.setEnt_parts (s : State) (i : Nat) (x : Entry) : (s.setEnt i x).parts = s.parts := rfl
@[simp] theorem State.setEnt_queues (s : State) (i : Nat) (x : Entry) : (s.setEnt i x).queues = s.queues := rfl
@[simp] theorem State.setEnt_cmds (s : State) (i : Nat) (x : Entry) : (s.setEnt i x).cmds = s.cmds := rfl
@[simp] theorem State.setEnt_nextCmd (s : State) (i : Nat) (x : Entry) : (s.setEnt i x).nextCmd = s.nextCmd := rfl
@[simp] theorem State.setEnt_reds (s : State) (i : Nat) (x : Entry) : (s.setEnt i x).reds = s.reds := rfl
@[simp] theorem State.setEnt_moves (s : State) (i : Nat) (x : Entry) : (s.setEnt i x).moves = s.moves := rfl
@[simp] theorem State.setEnt_rekeys (s : State) (i : Nat) (x : Entry) : (s.setEnt i x).rekeys = s.rekeys := rfl
@[simp] theorem State.setEnt_works (s : State) (i : Nat) (x : Entry) : (s.setEnt i x).works = s.works := rfl
@[simp] theorem State.setEnt_pcRets (s : State) (i : Nat) (x : Entry) : (s.setEnt i x).pcRets = s.pcRets := rfl
@[simp] theorem State.setEnt_hbmHot (s : State) (i : Nat) (x : Entry) : (s.setEnt i x).hbmHot = s.hbmHot := rfl
@[simp] theorem State.setEnt_hbmErrs (s : State) (i : Nat) (x : Entry) : (s.setEnt i x).hbmErrs = s.hbmErrs := rfl
@[simp] theorem State.setEnt_ddr (s : State) (i : Nat) (x : Entry) : (s.setEnt i x).ddr = s.ddr := rfl
@[simp] theorem State.setEnt_health (s : State) (i : Nat) (x : Entry) : (s.setEnt i x).health = s.health := rfl
@[simp] theorem State.setEnt_noc (s : State) (i : Nat) (x : Entry) : (s.setEnt i x).noc = s.noc := rfl
@[simp] theorem State.setEnt_fab (s : State) (i : Nat) (x : Entry) : (s.setEnt i x).fab = s.fab := rfl
@[simp] theorem State.setEnt_links (s : State) (i : Nat) (x : Entry) : (s.setEnt i x).links = s.links := rfl
@[simp] theorem State.setEnt_sec (s : State) (i : Nat) (x : Entry) : (s.setEnt i x).sec = s.sec := rfl
@[simp] theorem State.setEnt_pwr (s : State) (i : Nat) (x : Entry) : (s.setEnt i x).pwr = s.pwr := rfl
@[simp] theorem State.setEnt_rst (s : State) (i : Nat) (x : Entry) : (s.setEnt i x).rst = s.rst := rfl

@[simp] theorem State.reg_emit (s : State) (x : Out) (j : Nat) : (s.emit x).reg j = s.reg j := rfl
@[simp] theorem State.fld_emit (s : State) (x : Out) (j lo w : Nat) : (s.emit x).fld j lo w = s.fld j lo w := rfl
@[simp] theorem State.eng_emit (s : State) (x : Out) (j : Nat) : (s.emit x).eng j = s.eng j := rfl
@[simp] theorem State.slot_emit (s : State) (x : Out) (j l : Nat) : (s.emit x).slot j l = s.slot j l := rfl
@[simp] theorem State.ctx_emit (s : State) (x : Out) (j : Nat) : (s.emit x).ctx j = s.ctx j := rfl
@[simp] theorem State.part_emit (s : State) (x : Out) (j : Nat) : (s.emit x).part j = s.part j := rfl
@[simp] theorem State.queue_emit (s : State) (x : Out) (j : Nat) : (s.emit x).queue j = s.queue j := rfl
@[simp] theorem State.cmd_emit (s : State) (x : Out) (j : Nat) : (s.emit x).cmd j = s.cmd j := rfl
@[simp] theorem State.memKey_emit (s : State) (x : Out) (j : Nat) : (s.emit x).memKey j = s.memKey j := rfl
@[simp] theorem State.emit_pending (s : State) (x : Out) : (s.emit x).pending = s.pending := rfl
@[simp] theorem State.emit_free (s : State) (x : Out) : (s.emit x).free = s.free := rfl
@[simp] theorem State.emit_dt (s : State) (x : Out) : (s.emit x).dt = s.dt := rfl
@[simp] theorem State.emit_regs (s : State) (x : Out) : (s.emit x).regs = s.regs := rfl
@[simp] theorem State.emit_mem (s : State) (x : Out) : (s.emit x).mem = s.mem := rfl
@[simp] theorem State.emit_poison (s : State) (x : Out) : (s.emit x).poison = s.poison := rfl
@[simp] theorem State.emit_hbmKeys (s : State) (x : Out) : (s.emit x).hbmKeys = s.hbmKeys := rfl
@[simp] theorem State.emit_engs (s : State) (x : Out) : (s.emit x).engs = s.engs := rfl
@[simp] theorem State.emit_ctxs (s : State) (x : Out) : (s.emit x).ctxs = s.ctxs := rfl
@[simp] theorem State.emit_parts (s : State) (x : Out) : (s.emit x).parts = s.parts := rfl
@[simp] theorem State.emit_queues (s : State) (x : Out) : (s.emit x).queues = s.queues := rfl
@[simp] theorem State.emit_cmds (s : State) (x : Out) : (s.emit x).cmds = s.cmds := rfl
@[simp] theorem State.emit_nextCmd (s : State) (x : Out) : (s.emit x).nextCmd = s.nextCmd := rfl
@[simp] theorem State.emit_reds (s : State) (x : Out) : (s.emit x).reds = s.reds := rfl
@[simp] theorem State.emit_moves (s : State) (x : Out) : (s.emit x).moves = s.moves := rfl
@[simp] theorem State.emit_rekeys (s : State) (x : Out) : (s.emit x).rekeys = s.rekeys := rfl
@[simp] theorem State.emit_works (s : State) (x : Out) : (s.emit x).works = s.works := rfl
@[simp] theorem State.emit_pcRets (s : State) (x : Out) : (s.emit x).pcRets = s.pcRets := rfl
@[simp] theorem State.emit_hbmHot (s : State) (x : Out) : (s.emit x).hbmHot = s.hbmHot := rfl
@[simp] theorem State.emit_hbmErrs (s : State) (x : Out) : (s.emit x).hbmErrs = s.hbmErrs := rfl
@[simp] theorem State.emit_ddr (s : State) (x : Out) : (s.emit x).ddr = s.ddr := rfl
@[simp] theorem State.emit_health (s : State) (x : Out) : (s.emit x).health = s.health := rfl
@[simp] theorem State.emit_noc (s : State) (x : Out) : (s.emit x).noc = s.noc := rfl
@[simp] theorem State.emit_fab (s : State) (x : Out) : (s.emit x).fab = s.fab := rfl
@[simp] theorem State.emit_links (s : State) (x : Out) : (s.emit x).links = s.links := rfl
@[simp] theorem State.emit_sec (s : State) (x : Out) : (s.emit x).sec = s.sec := rfl
@[simp] theorem State.emit_pwr (s : State) (x : Out) : (s.emit x).pwr = s.pwr := rfl
@[simp] theorem State.emit_rst (s : State) (x : Out) : (s.emit x).rst = s.rst := rfl

@[simp] theorem State.reg_updNoc (s : State) (f : Noc → Noc) (j : Nat) : (s.updNoc f).reg j = s.reg j := rfl
@[simp] theorem State.fld_updNoc (s : State) (f : Noc → Noc) (j lo w : Nat) : (s.updNoc f).fld j lo w = s.fld j lo w := rfl
@[simp] theorem State.eng_updNoc (s : State) (f : Noc → Noc) (j : Nat) : (s.updNoc f).eng j = s.eng j := rfl
@[simp] theorem State.slot_updNoc (s : State) (f : Noc → Noc) (j l : Nat) : (s.updNoc f).slot j l = s.slot j l := rfl
@[simp] theorem State.ctx_updNoc (s : State) (f : Noc → Noc) (j : Nat) : (s.updNoc f).ctx j = s.ctx j := rfl
@[simp] theorem State.part_updNoc (s : State) (f : Noc → Noc) (j : Nat) : (s.updNoc f).part j = s.part j := rfl
@[simp] theorem State.queue_updNoc (s : State) (f : Noc → Noc) (j : Nat) : (s.updNoc f).queue j = s.queue j := rfl
@[simp] theorem State.cmd_updNoc (s : State) (f : Noc → Noc) (j : Nat) : (s.updNoc f).cmd j = s.cmd j := rfl
@[simp] theorem State.memKey_updNoc (s : State) (f : Noc → Noc) (j : Nat) : (s.updNoc f).memKey j = s.memKey j := rfl
@[simp] theorem State.updNoc_pending (s : State) (f : Noc → Noc) : (s.updNoc f).pending = s.pending := rfl
@[simp] theorem State.updNoc_free (s : State) (f : Noc → Noc) : (s.updNoc f).free = s.free := rfl
@[simp] theorem State.updNoc_dt (s : State) (f : Noc → Noc) : (s.updNoc f).dt = s.dt := rfl
@[simp] theorem State.updNoc_regs (s : State) (f : Noc → Noc) : (s.updNoc f).regs = s.regs := rfl
@[simp] theorem State.updNoc_mem (s : State) (f : Noc → Noc) : (s.updNoc f).mem = s.mem := rfl
@[simp] theorem State.updNoc_poison (s : State) (f : Noc → Noc) : (s.updNoc f).poison = s.poison := rfl
@[simp] theorem State.updNoc_hbmKeys (s : State) (f : Noc → Noc) : (s.updNoc f).hbmKeys = s.hbmKeys := rfl
@[simp] theorem State.updNoc_engs (s : State) (f : Noc → Noc) : (s.updNoc f).engs = s.engs := rfl
@[simp] theorem State.updNoc_ctxs (s : State) (f : Noc → Noc) : (s.updNoc f).ctxs = s.ctxs := rfl
@[simp] theorem State.updNoc_parts (s : State) (f : Noc → Noc) : (s.updNoc f).parts = s.parts := rfl
@[simp] theorem State.updNoc_queues (s : State) (f : Noc → Noc) : (s.updNoc f).queues = s.queues := rfl
@[simp] theorem State.updNoc_cmds (s : State) (f : Noc → Noc) : (s.updNoc f).cmds = s.cmds := rfl
@[simp] theorem State.updNoc_nextCmd (s : State) (f : Noc → Noc) : (s.updNoc f).nextCmd = s.nextCmd := rfl
@[simp] theorem State.updNoc_reds (s : State) (f : Noc → Noc) : (s.updNoc f).reds = s.reds := rfl
@[simp] theorem State.updNoc_moves (s : State) (f : Noc → Noc) : (s.updNoc f).moves = s.moves := rfl
@[simp] theorem State.updNoc_rekeys (s : State) (f : Noc → Noc) : (s.updNoc f).rekeys = s.rekeys := rfl
@[simp] theorem State.updNoc_works (s : State) (f : Noc → Noc) : (s.updNoc f).works = s.works := rfl
@[simp] theorem State.updNoc_pcRets (s : State) (f : Noc → Noc) : (s.updNoc f).pcRets = s.pcRets := rfl
@[simp] theorem State.updNoc_hbmHot (s : State) (f : Noc → Noc) : (s.updNoc f).hbmHot = s.hbmHot := rfl
@[simp] theorem State.updNoc_hbmErrs (s : State) (f : Noc → Noc) : (s.updNoc f).hbmErrs = s.hbmErrs := rfl
@[simp] theorem State.updNoc_ddr (s : State) (f : Noc → Noc) : (s.updNoc f).ddr = s.ddr := rfl
@[simp] theorem State.updNoc_health (s : State) (f : Noc → Noc) : (s.updNoc f).health = s.health := rfl
@[simp] theorem State.updNoc_net (s : State) (f : Noc → Noc) : (s.updNoc f).net = s.net := rfl
@[simp] theorem State.updNoc_fab (s : State) (f : Noc → Noc) : (s.updNoc f).fab = s.fab := rfl
@[simp] theorem State.updNoc_links (s : State) (f : Noc → Noc) : (s.updNoc f).links = s.links := rfl
@[simp] theorem State.updNoc_sec (s : State) (f : Noc → Noc) : (s.updNoc f).sec = s.sec := rfl
@[simp] theorem State.updNoc_pwr (s : State) (f : Noc → Noc) : (s.updNoc f).pwr = s.pwr := rfl
@[simp] theorem State.updNoc_rst (s : State) (f : Noc → Noc) : (s.updNoc f).rst = s.rst := rfl

@[simp] theorem State.reg_updDdr (s : State) (f : Ddr → Ddr) (j : Nat) : (s.updDdr f).reg j = s.reg j := rfl
@[simp] theorem State.fld_updDdr (s : State) (f : Ddr → Ddr) (j lo w : Nat) : (s.updDdr f).fld j lo w = s.fld j lo w := rfl
@[simp] theorem State.eng_updDdr (s : State) (f : Ddr → Ddr) (j : Nat) : (s.updDdr f).eng j = s.eng j := rfl
@[simp] theorem State.slot_updDdr (s : State) (f : Ddr → Ddr) (j l : Nat) : (s.updDdr f).slot j l = s.slot j l := rfl
@[simp] theorem State.ctx_updDdr (s : State) (f : Ddr → Ddr) (j : Nat) : (s.updDdr f).ctx j = s.ctx j := rfl
@[simp] theorem State.part_updDdr (s : State) (f : Ddr → Ddr) (j : Nat) : (s.updDdr f).part j = s.part j := rfl
@[simp] theorem State.queue_updDdr (s : State) (f : Ddr → Ddr) (j : Nat) : (s.updDdr f).queue j = s.queue j := rfl
@[simp] theorem State.cmd_updDdr (s : State) (f : Ddr → Ddr) (j : Nat) : (s.updDdr f).cmd j = s.cmd j := rfl
@[simp] theorem State.updDdr_pending (s : State) (f : Ddr → Ddr) : (s.updDdr f).pending = s.pending := rfl
@[simp] theorem State.updDdr_free (s : State) (f : Ddr → Ddr) : (s.updDdr f).free = s.free := rfl
@[simp] theorem State.updDdr_dt (s : State) (f : Ddr → Ddr) : (s.updDdr f).dt = s.dt := rfl
@[simp] theorem State.updDdr_regs (s : State) (f : Ddr → Ddr) : (s.updDdr f).regs = s.regs := rfl
@[simp] theorem State.updDdr_mem (s : State) (f : Ddr → Ddr) : (s.updDdr f).mem = s.mem := rfl
@[simp] theorem State.updDdr_poison (s : State) (f : Ddr → Ddr) : (s.updDdr f).poison = s.poison := rfl
@[simp] theorem State.updDdr_hbmKeys (s : State) (f : Ddr → Ddr) : (s.updDdr f).hbmKeys = s.hbmKeys := rfl
@[simp] theorem State.updDdr_engs (s : State) (f : Ddr → Ddr) : (s.updDdr f).engs = s.engs := rfl
@[simp] theorem State.updDdr_ctxs (s : State) (f : Ddr → Ddr) : (s.updDdr f).ctxs = s.ctxs := rfl
@[simp] theorem State.updDdr_parts (s : State) (f : Ddr → Ddr) : (s.updDdr f).parts = s.parts := rfl
@[simp] theorem State.updDdr_queues (s : State) (f : Ddr → Ddr) : (s.updDdr f).queues = s.queues := rfl
@[simp] theorem State.updDdr_cmds (s : State) (f : Ddr → Ddr) : (s.updDdr f).cmds = s.cmds := rfl
@[simp] theorem State.updDdr_nextCmd (s : State) (f : Ddr → Ddr) : (s.updDdr f).nextCmd = s.nextCmd := rfl
@[simp] theorem State.updDdr_reds (s : State) (f : Ddr → Ddr) : (s.updDdr f).reds = s.reds := rfl
@[simp] theorem State.updDdr_moves (s : State) (f : Ddr → Ddr) : (s.updDdr f).moves = s.moves := rfl
@[simp] theorem State.updDdr_rekeys (s : State) (f : Ddr → Ddr) : (s.updDdr f).rekeys = s.rekeys := rfl
@[simp] theorem State.updDdr_works (s : State) (f : Ddr → Ddr) : (s.updDdr f).works = s.works := rfl
@[simp] theorem State.updDdr_pcRets (s : State) (f : Ddr → Ddr) : (s.updDdr f).pcRets = s.pcRets := rfl
@[simp] theorem State.updDdr_hbmHot (s : State) (f : Ddr → Ddr) : (s.updDdr f).hbmHot = s.hbmHot := rfl
@[simp] theorem State.updDdr_hbmErrs (s : State) (f : Ddr → Ddr) : (s.updDdr f).hbmErrs = s.hbmErrs := rfl
@[simp] theorem State.updDdr_health (s : State) (f : Ddr → Ddr) : (s.updDdr f).health = s.health := rfl
@[simp] theorem State.updDdr_net (s : State) (f : Ddr → Ddr) : (s.updDdr f).net = s.net := rfl
@[simp] theorem State.updDdr_noc (s : State) (f : Ddr → Ddr) : (s.updDdr f).noc = s.noc := rfl
@[simp] theorem State.updDdr_fab (s : State) (f : Ddr → Ddr) : (s.updDdr f).fab = s.fab := rfl
@[simp] theorem State.updDdr_links (s : State) (f : Ddr → Ddr) : (s.updDdr f).links = s.links := rfl
@[simp] theorem State.updDdr_sec (s : State) (f : Ddr → Ddr) : (s.updDdr f).sec = s.sec := rfl
@[simp] theorem State.updDdr_pwr (s : State) (f : Ddr → Ddr) : (s.updDdr f).pwr = s.pwr := rfl
@[simp] theorem State.updDdr_rst (s : State) (f : Ddr → Ddr) : (s.updDdr f).rst = s.rst := rfl

@[simp] theorem State.reg_updFab (s : State) (f : Fab → Fab) (j : Nat) : (s.updFab f).reg j = s.reg j := rfl
@[simp] theorem State.fld_updFab (s : State) (f : Fab → Fab) (j lo w : Nat) : (s.updFab f).fld j lo w = s.fld j lo w := rfl
@[simp] theorem State.eng_updFab (s : State) (f : Fab → Fab) (j : Nat) : (s.updFab f).eng j = s.eng j := rfl
@[simp] theorem State.slot_updFab (s : State) (f : Fab → Fab) (j l : Nat) : (s.updFab f).slot j l = s.slot j l := rfl
@[simp] theorem State.ctx_updFab (s : State) (f : Fab → Fab) (j : Nat) : (s.updFab f).ctx j = s.ctx j := rfl
@[simp] theorem State.part_updFab (s : State) (f : Fab → Fab) (j : Nat) : (s.updFab f).part j = s.part j := rfl
@[simp] theorem State.queue_updFab (s : State) (f : Fab → Fab) (j : Nat) : (s.updFab f).queue j = s.queue j := rfl
@[simp] theorem State.cmd_updFab (s : State) (f : Fab → Fab) (j : Nat) : (s.updFab f).cmd j = s.cmd j := rfl
@[simp] theorem State.memKey_updFab (s : State) (f : Fab → Fab) (j : Nat) : (s.updFab f).memKey j = s.memKey j := rfl
@[simp] theorem State.updFab_pending (s : State) (f : Fab → Fab) : (s.updFab f).pending = s.pending := rfl
@[simp] theorem State.updFab_free (s : State) (f : Fab → Fab) : (s.updFab f).free = s.free := rfl
@[simp] theorem State.updFab_dt (s : State) (f : Fab → Fab) : (s.updFab f).dt = s.dt := rfl
@[simp] theorem State.updFab_regs (s : State) (f : Fab → Fab) : (s.updFab f).regs = s.regs := rfl
@[simp] theorem State.updFab_mem (s : State) (f : Fab → Fab) : (s.updFab f).mem = s.mem := rfl
@[simp] theorem State.updFab_poison (s : State) (f : Fab → Fab) : (s.updFab f).poison = s.poison := rfl
@[simp] theorem State.updFab_hbmKeys (s : State) (f : Fab → Fab) : (s.updFab f).hbmKeys = s.hbmKeys := rfl
@[simp] theorem State.updFab_engs (s : State) (f : Fab → Fab) : (s.updFab f).engs = s.engs := rfl
@[simp] theorem State.updFab_ctxs (s : State) (f : Fab → Fab) : (s.updFab f).ctxs = s.ctxs := rfl
@[simp] theorem State.updFab_parts (s : State) (f : Fab → Fab) : (s.updFab f).parts = s.parts := rfl
@[simp] theorem State.updFab_queues (s : State) (f : Fab → Fab) : (s.updFab f).queues = s.queues := rfl
@[simp] theorem State.updFab_cmds (s : State) (f : Fab → Fab) : (s.updFab f).cmds = s.cmds := rfl
@[simp] theorem State.updFab_nextCmd (s : State) (f : Fab → Fab) : (s.updFab f).nextCmd = s.nextCmd := rfl
@[simp] theorem State.updFab_reds (s : State) (f : Fab → Fab) : (s.updFab f).reds = s.reds := rfl
@[simp] theorem State.updFab_moves (s : State) (f : Fab → Fab) : (s.updFab f).moves = s.moves := rfl
@[simp] theorem State.updFab_rekeys (s : State) (f : Fab → Fab) : (s.updFab f).rekeys = s.rekeys := rfl
@[simp] theorem State.updFab_works (s : State) (f : Fab → Fab) : (s.updFab f).works = s.works := rfl
@[simp] theorem State.updFab_pcRets (s : State) (f : Fab → Fab) : (s.updFab f).pcRets = s.pcRets := rfl
@[simp] theorem State.updFab_hbmHot (s : State) (f : Fab → Fab) : (s.updFab f).hbmHot = s.hbmHot := rfl
@[simp] theorem State.updFab_hbmErrs (s : State) (f : Fab → Fab) : (s.updFab f).hbmErrs = s.hbmErrs := rfl
@[simp] theorem State.updFab_ddr (s : State) (f : Fab → Fab) : (s.updFab f).ddr = s.ddr := rfl
@[simp] theorem State.updFab_health (s : State) (f : Fab → Fab) : (s.updFab f).health = s.health := rfl
@[simp] theorem State.updFab_net (s : State) (f : Fab → Fab) : (s.updFab f).net = s.net := rfl
@[simp] theorem State.updFab_noc (s : State) (f : Fab → Fab) : (s.updFab f).noc = s.noc := rfl
@[simp] theorem State.updFab_links (s : State) (f : Fab → Fab) : (s.updFab f).links = s.links := rfl
@[simp] theorem State.updFab_sec (s : State) (f : Fab → Fab) : (s.updFab f).sec = s.sec := rfl
@[simp] theorem State.updFab_pwr (s : State) (f : Fab → Fab) : (s.updFab f).pwr = s.pwr := rfl
@[simp] theorem State.updFab_rst (s : State) (f : Fab → Fab) : (s.updFab f).rst = s.rst := rfl

@[simp] theorem State.reg_updSec (s : State) (f : Sec → Sec) (j : Nat) : (s.updSec f).reg j = s.reg j := rfl
@[simp] theorem State.fld_updSec (s : State) (f : Sec → Sec) (j lo w : Nat) : (s.updSec f).fld j lo w = s.fld j lo w := rfl
@[simp] theorem State.eng_updSec (s : State) (f : Sec → Sec) (j : Nat) : (s.updSec f).eng j = s.eng j := rfl
@[simp] theorem State.slot_updSec (s : State) (f : Sec → Sec) (j l : Nat) : (s.updSec f).slot j l = s.slot j l := rfl
@[simp] theorem State.ctx_updSec (s : State) (f : Sec → Sec) (j : Nat) : (s.updSec f).ctx j = s.ctx j := rfl
@[simp] theorem State.part_updSec (s : State) (f : Sec → Sec) (j : Nat) : (s.updSec f).part j = s.part j := rfl
@[simp] theorem State.queue_updSec (s : State) (f : Sec → Sec) (j : Nat) : (s.updSec f).queue j = s.queue j := rfl
@[simp] theorem State.cmd_updSec (s : State) (f : Sec → Sec) (j : Nat) : (s.updSec f).cmd j = s.cmd j := rfl
@[simp] theorem State.memKey_updSec (s : State) (f : Sec → Sec) (j : Nat) : (s.updSec f).memKey j = s.memKey j := rfl
@[simp] theorem State.updSec_pending (s : State) (f : Sec → Sec) : (s.updSec f).pending = s.pending := rfl
@[simp] theorem State.updSec_free (s : State) (f : Sec → Sec) : (s.updSec f).free = s.free := rfl
@[simp] theorem State.updSec_dt (s : State) (f : Sec → Sec) : (s.updSec f).dt = s.dt := rfl
@[simp] theorem State.updSec_regs (s : State) (f : Sec → Sec) : (s.updSec f).regs = s.regs := rfl
@[simp] theorem State.updSec_mem (s : State) (f : Sec → Sec) : (s.updSec f).mem = s.mem := rfl
@[simp] theorem State.updSec_poison (s : State) (f : Sec → Sec) : (s.updSec f).poison = s.poison := rfl
@[simp] theorem State.updSec_hbmKeys (s : State) (f : Sec → Sec) : (s.updSec f).hbmKeys = s.hbmKeys := rfl
@[simp] theorem State.updSec_engs (s : State) (f : Sec → Sec) : (s.updSec f).engs = s.engs := rfl
@[simp] theorem State.updSec_ctxs (s : State) (f : Sec → Sec) : (s.updSec f).ctxs = s.ctxs := rfl
@[simp] theorem State.updSec_parts (s : State) (f : Sec → Sec) : (s.updSec f).parts = s.parts := rfl
@[simp] theorem State.updSec_queues (s : State) (f : Sec → Sec) : (s.updSec f).queues = s.queues := rfl
@[simp] theorem State.updSec_cmds (s : State) (f : Sec → Sec) : (s.updSec f).cmds = s.cmds := rfl
@[simp] theorem State.updSec_nextCmd (s : State) (f : Sec → Sec) : (s.updSec f).nextCmd = s.nextCmd := rfl
@[simp] theorem State.updSec_reds (s : State) (f : Sec → Sec) : (s.updSec f).reds = s.reds := rfl
@[simp] theorem State.updSec_moves (s : State) (f : Sec → Sec) : (s.updSec f).moves = s.moves := rfl
@[simp] theorem State.updSec_rekeys (s : State) (f : Sec → Sec) : (s.updSec f).rekeys = s.rekeys := rfl
@[simp] theorem State.updSec_works (s : State) (f : Sec → Sec) : (s.updSec f).works = s.works := rfl
@[simp] theorem State.updSec_pcRets (s : State) (f : Sec → Sec) : (s.updSec f).pcRets = s.pcRets := rfl
@[simp] theorem State.updSec_hbmHot (s : State) (f : Sec → Sec) : (s.updSec f).hbmHot = s.hbmHot := rfl
@[simp] theorem State.updSec_hbmErrs (s : State) (f : Sec → Sec) : (s.updSec f).hbmErrs = s.hbmErrs := rfl
@[simp] theorem State.updSec_ddr (s : State) (f : Sec → Sec) : (s.updSec f).ddr = s.ddr := rfl
@[simp] theorem State.updSec_health (s : State) (f : Sec → Sec) : (s.updSec f).health = s.health := rfl
@[simp] theorem State.updSec_net (s : State) (f : Sec → Sec) : (s.updSec f).net = s.net := rfl
@[simp] theorem State.updSec_noc (s : State) (f : Sec → Sec) : (s.updSec f).noc = s.noc := rfl
@[simp] theorem State.updSec_fab (s : State) (f : Sec → Sec) : (s.updSec f).fab = s.fab := rfl
@[simp] theorem State.updSec_links (s : State) (f : Sec → Sec) : (s.updSec f).links = s.links := rfl
@[simp] theorem State.updSec_pwr (s : State) (f : Sec → Sec) : (s.updSec f).pwr = s.pwr := rfl
@[simp] theorem State.updSec_rst (s : State) (f : Sec → Sec) : (s.updSec f).rst = s.rst := rfl

@[simp] theorem State.reg_updPwr (s : State) (f : Pwr → Pwr) (j : Nat) : (s.updPwr f).reg j = s.reg j := rfl
@[simp] theorem State.fld_updPwr (s : State) (f : Pwr → Pwr) (j lo w : Nat) : (s.updPwr f).fld j lo w = s.fld j lo w := rfl
@[simp] theorem State.eng_updPwr (s : State) (f : Pwr → Pwr) (j : Nat) : (s.updPwr f).eng j = s.eng j := rfl
@[simp] theorem State.slot_updPwr (s : State) (f : Pwr → Pwr) (j l : Nat) : (s.updPwr f).slot j l = s.slot j l := rfl
@[simp] theorem State.ctx_updPwr (s : State) (f : Pwr → Pwr) (j : Nat) : (s.updPwr f).ctx j = s.ctx j := rfl
@[simp] theorem State.part_updPwr (s : State) (f : Pwr → Pwr) (j : Nat) : (s.updPwr f).part j = s.part j := rfl
@[simp] theorem State.queue_updPwr (s : State) (f : Pwr → Pwr) (j : Nat) : (s.updPwr f).queue j = s.queue j := rfl
@[simp] theorem State.cmd_updPwr (s : State) (f : Pwr → Pwr) (j : Nat) : (s.updPwr f).cmd j = s.cmd j := rfl
@[simp] theorem State.memKey_updPwr (s : State) (f : Pwr → Pwr) (j : Nat) : (s.updPwr f).memKey j = s.memKey j := rfl
@[simp] theorem State.updPwr_pending (s : State) (f : Pwr → Pwr) : (s.updPwr f).pending = s.pending := rfl
@[simp] theorem State.updPwr_free (s : State) (f : Pwr → Pwr) : (s.updPwr f).free = s.free := rfl
@[simp] theorem State.updPwr_dt (s : State) (f : Pwr → Pwr) : (s.updPwr f).dt = s.dt := rfl
@[simp] theorem State.updPwr_regs (s : State) (f : Pwr → Pwr) : (s.updPwr f).regs = s.regs := rfl
@[simp] theorem State.updPwr_mem (s : State) (f : Pwr → Pwr) : (s.updPwr f).mem = s.mem := rfl
@[simp] theorem State.updPwr_poison (s : State) (f : Pwr → Pwr) : (s.updPwr f).poison = s.poison := rfl
@[simp] theorem State.updPwr_hbmKeys (s : State) (f : Pwr → Pwr) : (s.updPwr f).hbmKeys = s.hbmKeys := rfl
@[simp] theorem State.updPwr_engs (s : State) (f : Pwr → Pwr) : (s.updPwr f).engs = s.engs := rfl
@[simp] theorem State.updPwr_ctxs (s : State) (f : Pwr → Pwr) : (s.updPwr f).ctxs = s.ctxs := rfl
@[simp] theorem State.updPwr_parts (s : State) (f : Pwr → Pwr) : (s.updPwr f).parts = s.parts := rfl
@[simp] theorem State.updPwr_queues (s : State) (f : Pwr → Pwr) : (s.updPwr f).queues = s.queues := rfl
@[simp] theorem State.updPwr_cmds (s : State) (f : Pwr → Pwr) : (s.updPwr f).cmds = s.cmds := rfl
@[simp] theorem State.updPwr_nextCmd (s : State) (f : Pwr → Pwr) : (s.updPwr f).nextCmd = s.nextCmd := rfl
@[simp] theorem State.updPwr_reds (s : State) (f : Pwr → Pwr) : (s.updPwr f).reds = s.reds := rfl
@[simp] theorem State.updPwr_moves (s : State) (f : Pwr → Pwr) : (s.updPwr f).moves = s.moves := rfl
@[simp] theorem State.updPwr_rekeys (s : State) (f : Pwr → Pwr) : (s.updPwr f).rekeys = s.rekeys := rfl
@[simp] theorem State.updPwr_works (s : State) (f : Pwr → Pwr) : (s.updPwr f).works = s.works := rfl
@[simp] theorem State.updPwr_pcRets (s : State) (f : Pwr → Pwr) : (s.updPwr f).pcRets = s.pcRets := rfl
@[simp] theorem State.updPwr_hbmHot (s : State) (f : Pwr → Pwr) : (s.updPwr f).hbmHot = s.hbmHot := rfl
@[simp] theorem State.updPwr_hbmErrs (s : State) (f : Pwr → Pwr) : (s.updPwr f).hbmErrs = s.hbmErrs := rfl
@[simp] theorem State.updPwr_ddr (s : State) (f : Pwr → Pwr) : (s.updPwr f).ddr = s.ddr := rfl
@[simp] theorem State.updPwr_health (s : State) (f : Pwr → Pwr) : (s.updPwr f).health = s.health := rfl
@[simp] theorem State.updPwr_net (s : State) (f : Pwr → Pwr) : (s.updPwr f).net = s.net := rfl
@[simp] theorem State.updPwr_noc (s : State) (f : Pwr → Pwr) : (s.updPwr f).noc = s.noc := rfl
@[simp] theorem State.updPwr_fab (s : State) (f : Pwr → Pwr) : (s.updPwr f).fab = s.fab := rfl
@[simp] theorem State.updPwr_links (s : State) (f : Pwr → Pwr) : (s.updPwr f).links = s.links := rfl
@[simp] theorem State.updPwr_sec (s : State) (f : Pwr → Pwr) : (s.updPwr f).sec = s.sec := rfl
@[simp] theorem State.updPwr_rst (s : State) (f : Pwr → Pwr) : (s.updPwr f).rst = s.rst := rfl

end Sys2Proof.Machine
end

