-- ==== Sys2Proof/Tests/Slice0.lean ====
section
/-! SUPPORT. Tests: ill-formed terms that the checks refuse, words written out from the spec's encodings, the spec's own
examples, and for every obligation a state and operands that meet its hypotheses. -/

namespace Sys2Proof.Tests

set_option Elab.async false

open Sys2Proof Sys2Proof.Machine

/-! ### Well-formedness: one term for each check, which the check refuses -/

def dev : CxlDev :=
  { trains := true, isCxl := true, wantsCache := false, isSwitch := false, memClass := true, multi := false, width := 16,
    rate := 6, cap := 1024, flit256 := true, reversed := false, vendor := 0x1AF4, device := 1 }

theorem test_wf_bist : (Instr.bist [(3, .row 1), (3, .other)]).wf = false := by decide +kernel
theorem test_wf_training : (Instr.ddr5Training (List.replicate 9 []) []).wf = false ∧
    (Instr.ddr5Training [] [1, 1]).wf = false := by decide +kernel
theorem test_wf_drain : (Instr.drainStart 0 [(1, 1, 5), (1, 1, 6)]).wf = false ∧
    (Instr.partnerRun 0 [(1, 1, 5), (1, 1, 6)]).wf = false := by decide +kernel
theorem test_wf_start : (Instr.commandStart 0).wf = false := by decide +kernel
def seen : FrameMeta := { size := 64, dmac := 0, tag := none, dscp := 0, wait := 0 }

theorem test_wf_frames : (Instr.frameReceive 0 0 ⟨(.pfc [(1, 2), (1, 3)]), seen⟩).wf = false ∧
    (Instr.frameReceive 0 0 ⟨(.arp (2 ^ 32)), seen⟩).wf = false ∧ (Instr.frameReceive 0 0 ⟨(.nd (2 ^ 128)), seen⟩).wf = false ∧
    (Instr.frameReceive 0 0 ⟨(.echo false (2 ^ 32)), seen⟩).wf = false ∧
    (Instr.frameReceive 0 0 ⟨(.udp false true false 1 2 65536 5 []), seen⟩).wf = false ∧
    (Instr.frameReceive 0 0 ⟨.other, { seen with dmac := 2 ^ 48 }⟩).wf = false ∧
    (Instr.frameReceive 0 0 ⟨.other, { seen with wait := 2 ^ 21 + 1 }⟩).wf = false ∧
    (Instr.frameReceive 0 0 ⟨(.udp false true false 1 2 3 5 (List.replicate 19 0)), seen⟩).wf = false ∧
    (Instr.frameReceive 0 0 ⟨(.udp false true false 1 2 3 5 (List.replicate 18 0)), seen⟩).wf = true := by decide +kernel
theorem test_wf_timer : (Instr.retransmissionTimer 0 (2 ^ 33)).wf = false := by decide +kernel
theorem test_wf_cxl : (Instr.cxlBringUp 0 { dev with width := 17 }).wf = false ∧
    (Instr.cxlHotAttach 0 { dev with vendor := 65536 }).wf = false ∧ (Instr.cxlBringUp 0 dev).wf = true := by decide +kernel
theorem test_wf_inject : (Instr.packetInject { src := 0, ty := 0, peer := none, addr := 2 ^ 48, ctx := 0, len := 8, tid := 0 }).wf = false := by decide +kernel
theorem test_wf_port : (Instr.fabricPortRequest 0 (.read 0xFFF 2) 0).wf = false ∧
    (Instr.fabricPortRequest 0 (.write 0 [] false) 0).wf = false ∧
    (Instr.fabricPortRequest 0 (.read 0xFFF 1) 0).wf = true := by decide +kernel
theorem test_wf_browse : (Instr.browseFrame 0 [7, 7]).wf = false ∧ (Instr.browseWriteback 0 [7, 7]).wf = false := by decide +kernel
theorem test_wf_samples : (Instr.hbmSkewSampleExpiry 0 5 4 []).wf = false ∧
    (Instr.hbmSkewSampleExpiry 0 5 16385 []).wf = false ∧
    (Instr.hbmSkewSampleExpiry 0 5 16384 [(1, 2), (1, 3)]).wf = false := by decide +kernel
theorem test_wf_power : (Instr.governorUpdate ⟨0, 0, 0, List.replicate 51 0, 0, 0, 0⟩).wf = false ∧
    (Instr.dimmTemperatureRead [[1, 2, 3]]).wf = false ∧
    (Instr.pmbusTelemetry [⟨true, 4096, 0, 0, 0⟩]).wf = false ∧
    (Instr.pmbusAlert (List.replicate 10 ⟨true, 0, 0, 0, 0⟩)).wf = false := by decide +kernel
theorem test_wf_retirement : (Instr.engineRetirement 0 [4, 4]).wf = false := by decide +kernel
theorem test_wf_register : (Instr.registerWrite 4 0).wf = false ∧ (Instr.registerWrite (2 ^ 24) 0).wf = false ∧
    (Instr.registerWrite 8 0).wf = true := by decide +kernel
theorem test_wf_response : (Instr.fabricLogicResponse 0 (List.replicate 513 0) false).wf = false := by decide +kernel

/-! ### The engine's programs (Tables 5.1 and 5.2): words written out bit by bit -/

/-- Opcode in [31:26], Xd in [25:21], Xa in [20:16], and the form's 16 low bits: Xb in [15:11] and FN in [10:0], or an
immediate. -/
def esWord (op d a low : Nat) : W32 := BitVec.ofNat 32 (op * 2 ^ 26 + d * 2 ^ 21 + a * 2 ^ 16 + low)

theorem test_es_words :
    EsInsn.decode (esWord 0x01 4 5 (6 * 2 ^ 11 + 2)) = some (.alu .and 4 5 6) ∧
    EsInsn.decode (esWord 0x02 4 5 0x8000) = some (.imm .addi 4 5 0x8000) ∧
    EsInsn.decode (esWord 0x12 31 30 0xFFF0) = some (.mem .ldw 31 30 0xFFF0) := by decide +kernel

/-! ### Small states of an engine -/

/-- An address of herd pool 0 (Table 7.1), which C0 reaches untranslated (R451). -/
def pool (o : Nat) : Nat := 0xF00080000000 + o

/-- Words at rising offsets of herd pool 0, as cells in canonical form. -/
def cells (ws : List Nat) : List Host.Cell :=
  ((ws.flatMap (leBytes 8)).zipIdx.map (fun p => (pool p.2, p.1))).filter (fun c => c.2 != 0)

/-- HP0 enabled, with every queue, context 0 to 1022, and herd pool 0. -/
def home : Nat × W64 := (rQpPart 0, BitVec.ofNat 64 (fv 63 1 1 + fv 52 11 1023 + fv 14 15 16384))
def part0 : Tab Part := [(0, { grants := [{ kind := 2, lo := 0 }] })]

/-- Engine 0 with C0 READY in slot 0 at a PC inside or outside its window of 256 words, a word there, and X registers. -/
def es (pc : Nat) (w : W32) (xs : Tab W64) : State :=
  { State.reset with
    engs := [(0, { slots := [(0, { st := .ready, pc := pc, xs := xs })], imem := tset 0 [] pc w })],
    regs := [(rVtLmwin 0 0, 0x100), (rEsImwin 0 0, 0x10000), home], ctxs := [(0, { live := true })], parts := part0 }

/-- The same with the instruction's own word, at PC 0. -/
def at0 (i : EsInsn) (xs : Tab W64) : State := es 0 i.encode xs

/-! ### Witnesses: what the hypotheses of each obligation ask for holds somewhere -/

theorem wit_StepRunsFrontCommand : { State.reset with pending := [.capmiss] }.pending = .capmiss :: [] := rfl
theorem wit_IdleStepTakesOneUnitOfTime : State.reset.pending = [] ∧ State.reset.pwr.up = true ∧
    State.reset.fab.logic = [] ∧ State.reset.noc.held = [] ∧ State.reset.noc.kept = [] ∧
    ({ State.reset with pwr := { State.reset.pwr with up := false } } : State).pwr.up = false := ⟨rfl, rfl, rfl, rfl, rfl, rfl⟩
theorem wit_StepKeepsMemoryCanonical : State.reset.memoryOk ∧ ∃ t, step State.reset = .next t := ⟨⟨rfl, rfl⟩, _, rfl⟩
theorem wit_CommandsLeaveQueueAndTime : ∃ t, exec .capmiss State.reset = .next t := ⟨_, rfl⟩
theorem wit_OnlyJtagStops : Instr.capmiss ≠ .jtagInstruction .other := by decide
theorem wit_EsDecodeEncode : (EsInsn.movk 31 3 0xFFFF).wf = true := by decide +kernel
theorem wit_EsEncodeDecode : EsInsn.decode 0x0422180A = some (.alu .mul 1 2 3) := by decide +kernel

theorem wit_EsResults : ∀ i ∈ [EsInsn.alu .add 1 2 3, .alu .mul 0 2 3, .imm .addi 1 2 0x8000, .imm .xori 1 2 0xFFFF,
    .shi false 1 2 63, .shi true 1 2 0, .movi 1 0x100000, .movk 1 3 0xFFFF], (at0 i [(2, 5), (3, 7)]).issues 0 0 i := by
  unfold State.issues; decide +kernel

/-- A branch that is taken to the window's last word, to the word before its first and past its last, one that is not
taken with its target inside and past the window, and jumps. -/
theorem wit_EsBranches : ∀ i ∈ [EsInsn.br .beq 0 0 255, .br .beq 0 0 0xFFFF, .br .bge 0 0 256, .br .bne 0 0 5,
    .br .bne 0 0 256, .br .blt 2 0 5, .br .bltu 0 2 5, .jmp 1 255, .jmp 1 0x1FFFFF, .jr 1 2, .jr 1 3],
    (at0 i [(2, 0xFF), (3, 0x100)]).issues 0 0 i := by
  unfold State.issues; decide +kernel

theorem wit_EsFetchFaults : (es 256 0 []).chosen 0 = some 0 ∧ (es 256 0 []).fetch 0 0 = .range ∧
    (es 255 0xC4200006 []).chosen 0 = some 0 ∧ (es 255 0xC4200006 []).fetch 0 0 = .illegal ∧
    ((es 256 0 []).ctx 0).frozen = none := by decide +kernel

/-- Loads and stores: an address just aligned, an offset that reaches back. -/
theorem wit_EsLoads :
    let s := at0 (.mem .ld 1 2 8) [(2, BitVec.ofNat 64 (pool 0))]
    let t := at0 (.mem .ldw 1 2 0xFFFC) [(2, BitVec.ofNat 64 (pool 4))]
    s.issues 0 0 (.mem .ld 1 2 8) ∧ s.anyMoving 0 [(pool 8 : Int)] = false ∧ s.dataAddr 0 (BitVec.ofNat 64 (pool 8)) 8 false = .inl (pool 8) ∧
    t.issues 0 0 (.mem .ldw 1 2 0xFFFC) ∧ t.dataAddr 0 (BitVec.ofNat 64 (pool 0)) 4 false = .inl (pool 0) := by
  unfold State.issues; decide +kernel

/-- An outstanding load, and a poisoned one. -/
def loading (p : Bool) : State :=
  { State.reset with engs := [(0, { slots := [(0, { st := .ready, loads := [{ rd := 31, data := 9, poison := p }] })] })] }

theorem wit_LoadDataReturn : ((loading false).slot 0 0).loads[0]? = some { rd := 31, data := 9 } ∧
    ((loading true).slot 0 0).loads[0]? = some { rd := 31, data := 9, poison := true } ∧
    (loading false).slotFrozen 0 0 = false := by decide +kernel

theorem wit_EsStores :
    let s := at0 (.mem .st 1 2 0) [(1, 0x0102030405060708), (2, BitVec.ofNat 64 (pool 0))]
    s.issues 0 0 (.mem .st 1 2 0) ∧ s.anyMoving 0 [(pool 0 : Int)] = false ∧
    s.dataAddr 0 (BitVec.ofNat 64 (pool 0)) 8 true = .inl (pool 0) ∧ s.region (pool 0) ≠ .regs ∧
    (∀ k, k < 8 → isFabric (pool 0 + k) = false ∧ s.lost (pool 0 + k) = false) ∧
    (∀ k, k < 8 → ∀ j, j < 8 → k < j → s.memKey (pool 0 + j) ≠ s.memKey (pool 0 + k)) := by
  unfold State.issues; decide +kernel

/-! Descriptors in herd pool 0: a pass of K = 1 with one F32 lane on each side and no output, and its streams; then
a COPY of four bytes. -/

def passWords (o : Nat) : List Nat :=
  [2 ^ 36 * 63, 0x55, pool (o + 128), 0, pool (o + 192), 0] ++ List.replicate 10 0 ++
  [pool (o + 256), 0, 0, 0, 3 * 2 ^ 32, 0, 0, 0] ++ [pool (o + 256), 0, 0, 0, 3 * 2 ^ 32, 0, 0, 0] ++
  [pool 0, 0, 0, 0, 3 + 3 * 2 ^ 32, pool 4096, 0, 0]

def passState (i : EsInsn) (d : Nat) : State := { at0 i [(2, BitVec.ofNat 64 (pool d))] with mem := cells (passWords 0) }

theorem wit_EsQueues :
    let s := passState (.mpass 2) 0
    s.issues 0 0 (.mpass 2) ∧ s.queuedPasses 0 0 < 32 ∧ s.anyMoving 0 (spanFrom (pool 0) 128) = false ∧
    (s.parsePass 0 0 0 (pool 0) false).isOk = true ∧
    (let s := passState (.strm 2 1) 256
     s.issues 0 0 (.strm 2 1) ∧ s.anyMoving 0 (spanFrom (pool 256) 64) = false ∧ (pool 256) % 64 = 0 ∧
     (match s.vwords 0 0 0 (pool 256) 8 with
      | .inl (ws, false) => (SDesc.ofWords ws).any (fun d => strmMode d.mode 1)
      | _ => false) = true) ∧
    (let s := at0 (.vlaunch 1 2 3) [(1, 255)]
     s.issues 0 0 (.vlaunch 1 2 3) ∧ (s.slot 0 0).live = false ∧ 16 * bf 255 0 15 < s.fld (rVtLmwin 0 0) 8 8 * 4096) := by
  unfold State.issues; decide +kernel


/-- A slot that waits. -/
def waiting (w : Wait) : State :=
  { State.reset with engs := [(0, { slots := [(0, { st := .blocked, wait := w })] })], ctxs := [(0, { live := true })],
                     regs := [(rEsGate 0 255, BitVec.ofNat 64 (2 ^ 63 + 7))] }

theorem wit_EsWaits : (∀ i ∈ [EsInsn.swait 3, .fence, .vwait, .halt], (at0 i []).issues 0 0 i) ∧
    (let s := waiting .halt
     (s.slot 0 0).st = .blocked ∧ (s.slot 0 0).wait = .halt ∧ s.slotFrozen 0 0 = false ∧ s.workDone 0 0 = true ∧
      s.cmd (s.slot 0 0).cmd = none) := by
  unfold State.issues; decide +kernel

/-- Gate 255 of engine 0, owned by C0, with a count of 7. -/
def gate (i : EsInsn) (xs : Tab W64) : State :=
  let s := at0 i xs
  { s with regs := s.regs ++ [(rEsGate 0 255, BitVec.ofNat 64 (2 ^ 63 + 7))],
           engs := s.engs.map (fun e => (e.1, { e.2 with sigs := [{ gate := 255, value := 2 ^ 32 - 8 },
             { gate := 1, gen := 1, src := 9 }] })) }

theorem wit_EsGates :
    (∀ i ∈ [EsInsn.gset 2 255, .grd 1 255, .gwait 0 255 true, .gwait 3 255 false, .gset 0 254, .grd 1 254, .gsig 2 0,
      .gsig 3 2], (gate i [(2, 0x3FFF), (3, 0x4000)]).issues 0 0 i) ∧
    (let s := gate (.gset 2 255) []
     s.ownsGate 0 255 0 = true ∧ s.ownsGate 0 254 0 = false ∧ s.gateCount 0 255 = 7 ∧ sigReady (s.eng 0).sigs 0 = true ∧
      sigReady (s.eng 0).sigs 1 = true ∧ s.gateCount 0 255 + (2 ^ 32 - 8) < 2 ^ 32) ∧
    (let s := waiting (.gwait 255 7 true)
     (s.slot 0 0).st = .blocked ∧ s.slotFrozen 0 0 = false ∧ 7 ≤ s.gateCount 0 255) := by
  unfold State.issues; decide +kernel

theorem wit_EsReadsAndYield : (∀ i ∈ [EsInsn.nop, .yield, .rddt 1, .rdsr 1 5, .plrd 1 2 3],
    (at0 i [(2, 31)]).issues 0 0 i) ∧ (at0 .yield []).holder 0 = some 0 := by
  unfold State.issues; decide +kernel

/-! ### The vector tile (Tables 4.2 to 4.4): slot instructions and bundles -/

/-- OP in [41:34], D in [33:28], A in [27:22], B in [21:16], IMM in [15:0]. -/
def slotWord (op d a b x : Nat) : Nat := op * 2 ^ 34 + d * 2 ^ 28 + a * 2 ^ 22 + b * 2 ^ 16 + x

/-- CTL in [127:126], MAC in [125:84], ALU in [83:42], LS in [41:0]. -/
def bundleWord (ctl mac alu ls : Nat) : Nat := ctl * 2 ^ 126 + mac * 2 ^ 84 + alu * 2 ^ 42 + ls

theorem test_vt_words :
    let u := Bundle.ofBits (bundleWord 1 (slotWord 0x41 1 2 3 0x2800) (slotWord 0x1A 4 5 6 0x0C00) (slotWord 0x04 7 1 9 0xFFFC))
    u.ctl = 1 ∧ VOp.ofCode .mac u.mac.op = some .vfma ∧ u.mac = ⟨0x41, 1, 2, 3, 0x2800⟩ ∧
    VOp.ofCode .alu u.alu.op = some .vsel ∧ u.alu = ⟨0x1A, 4, 5, 6, 0x0C00⟩ ∧
    VOp.ofCode .ls u.ls.op = some .vstm ∧ u.ls.simm = -4 := by decide +kernel

theorem test_vt_wrong_slot : VOp.ofCode .ls 0x10 = none ∧ VOp.ofCode .alu 0x40 = none ∧ VOp.ofCode .mac 0x01 = none ∧
    VOp.ofCode .alu 0x1E = none := by decide

/-- Engine 0 with a running thread of C0's slot 0 and its bundle at index 0 of a window of 4 KiB. -/
def vt (b : Bank) (w : Nat) : State :=
  { State.reset with
    engs := [(0, { slots := [(0, { st := .ready, live := true })], banks := [(0, { b with st := .run })],
                   lmem := ((leBytes 16 w).zipIdx.map (fun p => (p.2, p.1))).filter (fun c => c.2 != 0) })],
    regs := [(rVtLmwin 0 0, 0x100), home], ctxs := [(0, { live := true })], parts := part0 }

def alu (op d a b x : Nat) : Nat := bundleWord 0 0 (slotWord op d a b x) 0
def mac (op d a b x : Nat) : Nat := bundleWord 0 (slotWord op d a b x) 0 0
def ls (op d a b x : Nat) : Nat := bundleWord 0 0 0 (slotWord op d a b x)

theorem wit_VtBundles : (vt {} (alu 0x10 1 2 3 3)).executes 0 (Bundle.ofBits (alu 0x10 1 2 3 3)) ∧
    (Bundle.ofBits (alu 0x10 1 2 3 3)).has .vadd = true ∧ (vt { ret := some 1 } 0).executes 0 (Bundle.ofBits 0) ∧
    ((vt { ret := some 1 } 0).eng 0).active < 2 ∧ ((vt { ret := some 1 } 0).landed 0 |>.actBank 0).ret = some 1 ∧
    (Bundle.ofBits 0).has .nop = true ∧
    (VOp.ofCode .ls (Bundle.ofBits 0).ls.op = some .nop ∧ VOp.ofCode .alu (Bundle.ofBits 0).alu.op = some .nop ∧
      VOp.ofCode .mac (Bundle.ofBits 0).mac.op = some .nop) ∧
    (let s := vt { pc := 256 } 0
     s.vtReady 0 = true ∧ (s.landed 0).vtFetch 0 ((s.landed 0).actBank 0) = none) ∧
    (let s := vt {} (alu 0x1E 0 0 0 0)
     s.vtReady 0 = true ∧ ∃ u, (s.landed 0).vtFetch 0 ((s.landed 0).actBank 0) = some u ∧
      (s.landed 0).bundleFault 0 ((s.landed 0).actBank 0) u = some stVtIllegalBundle) ∧
    ((vt {} 0).ctx 0).frozen = none := by
  refine ⟨by unfold State.executes; decide +kernel, by decide +kernel, by unfold State.executes; decide +kernel,
    by decide +kernel, by decide +kernel, by decide +kernel, by decide +kernel, by decide +kernel, ⟨by decide +kernel, ?_⟩, rfl⟩
  exact ⟨Bundle.ofBits (alu 0x1E 0 0 0 0), by decide +kernel⟩

/-- Every operation of Table 4.4 in a legal bundle: shifts by 31, INT32 and floating types, a VCVT of each kind. -/
theorem wit_VtOperations : ∀ w ∈ [alu 0x14 1 2 3 0, alu 0x15 1 2 3 0, alu 0x16 1 2 3 0, alu 0x17 1 2 1 0, alu 0x18 1 2 1 0,
    alu 0x1A 1 2 3 0x7C00, alu 0x1B 1 2 0 0, alu 0x1C 1 2 3 0, alu 0x1D 31 2 0 31, alu 0x10 1 2 3 3, alu 0x11 1 2 3 0,
    alu 0x12 1 2 3 1, alu 0x13 1 2 3 2, mac 0x40 1 2 3 3, mac 0x41 1 2 3 0xFC00, mac 0x42 1 2 3 1, mac 0x43 1 2 3 2,
    alu 0x30 1 2 3 0, alu 0x31 1 2 3 0, alu 0x32 1 2 3 0, alu 0x33 1 0 0 0x8000, alu 0x34 1 0 0 0xFFFF, alu 0x19 1 2 3 15,
    alu 0x28 2 3 4 7, alu 0x29 2 3 4 0, alu 0x2A 2 4 0 2, alu 0x2B 2 4 0 0, alu 0x2C 4 3 2 64],
    (vt { s := [(1, 31)] } w).executes 0 (Bundle.ofBits w) := by
  unfold State.executes; decide +kernel

theorem wit_VtMemoryAndSpecial : ∀ w ∈ [ls 0x01 1 0 0 128, ls 0x02 1 1 0 4, ls 0x03 0 2 3 0xFF80, ls 0x04 5 0 3 0, ls 0x05 31 7 0 4,
    ls 0x06 0 0 3 4, ls 0x08 2 3 4 0, ls 0x09 1 2 0 2, mac 0x44 1 2 3 1, mac 0x48 1 2 0 3, mac 0x48 1 2 0 0, mac 0x50 1 2 0 0,
    mac 0x51 1 2 0 0, mac 0x52 1 2 0 0, mac 0x53 1 2 0 0, mac 0x54 1 2 0 0, mac 0x55 1 2 0 0, mac 0x56 1 2 0 0,
    alu 0x20 1 2 0 0x1000, alu 0x38 1 2 0 0xFFFF, alu 0x39 0 2 0 255, alu 0x3A 0 0 0 255, alu 0x3C 0 0 0 255,
    alu 0x3D 2 0 0 1, alu 0x3E 0 2 0 0, alu 0x3F 1 0 0 1, 0],
    (vt { s := [(1, 31)] } w).executes 0 (Bundle.ofBits w) := by
  unfold State.executes; decide +kernel

theorem wit_VtControl : (vt { handler := true } (alu 0x3B 0 0 0 0)).executes 0 (Bundle.ofBits (alu 0x3B 0 0 0 0)) ∧
    (vt { br := some (1, 32767) } (alu 0 0 0 0 0)).executes 0 (Bundle.ofBits 0) := by
  unfold State.executes; decide +kernel

/-- A tile between two of its events. -/
def tile (x : Slot) (b0 b1 : Bank) : State :=
  { State.reset with engs := [(0, { slots := [(0, x)], banks := [(0, b0), (1, b1)] })], ctxs := [(0, { live := true })] }

theorem wit_VtThreadEvents :
    (let s := tile { st := .ready } { pend := [⟨5, .s 1 7⟩] } {}
     (s.eng 0).nextDue = some 5 ∧ s.vtReady 0 = false) ∧
    ((tile {} {} { st := .draining }).eng 0 |>.bank 1).st = .draining ∧
    (tile {} {} { st := .draining }).vtReady 0 = false ∧
    ((tile {} {} { st := .draining }).eng 0 |>.drainBank 1 |>.bank 1).handler = false ∧
    (((tile {} { st := .run, ended := true } {}).eng 0).bank 0).ended = true ∧
    (let s := tile { st := .ready, live := true, arms := [{ gate := 9, pc := 3, pending := true }] } { st := .run } {}
     s.handlerDue 0 = true ∧ (s.slot 0 0).pendingGate = some { gate := 9, pc := 3, pending := true }) ∧
    (let s := tile { st := .ready, live := true, image := some {} } {} {}
     s.runs = true ∧ ((s.eng 0).bank 0).st = .free ∧ s.wantThread 0 = some 0 ∧ (s.slot 0 0).himage = none) := by
  decide +kernel

/-! ### The matrix tile: passes of K = 1 over one lane of herd pool 0 on each side -/

def lane (a : Nat) : SDesc := { base := pool a, n0 := 4 }
def md : MDesc := { k := 1, rElem := lane 256, cElem := lane 256, out := some (lane 4096), sig := true, sigGate := 255 }

/-- Engine 0 with C0 in slot 0 and its passes. -/
def mt (ps : List Pass) : State :=
  { State.reset with
    engs := [(0, { slots := [(0, { st := .ready })], passes := ps })], regs := [(rVtLmwin 0 0, 0x100), home],
    ctxs := [(0, { live := true })], parts := part0, mem := cells (passWords 0) }

def po : PassOp := match (mt []).passIn 0 { d := md } with
  | .ok x => x.op
  | .error _ => ⟨⟨.f32, false, []⟩, ⟨.f32, false, []⟩, 1, false, [], 1⟩

/-- What a drain of the pass gives, where it does not fault. -/
def drained (fs : List Perturb) (srm : Nat) : Pass := match (mt []).drainRun 0 { d := md, op := some po, acc := po.start } fs srm with
  | .ok q => q
  | .error _ => {}

theorem wit_PassIssues : (∀ a ∈ [256, 2 ^ 40],
    let p : Pass := { d := { md with cElem := lane a } }
    let s := mt [p, { seq := 1, phase := .issuing, slot := 1, bank := 1 }]
    s.nextPass 0 = some p ∧ s.tileOpen 0 = true ∧ (s.endIssue 0).bankFree 0 p.bank = true ∧
      s.anyMoving p.ctx p.d.inAddrs = false ∧ (∀ q ∈ (s.eng 0).passes, q.phase ≠ .failed) ∧
      ((s.endIssue 0).passIn 0 p).isOk = decide (a = 256)) := by decide +kernel

theorem wit_PassDrainVerdictRelease :
    (∀ r ∈ [true, false],
      let p : Pass := { phase := .waiting, d := md, op := some po, acc := po.start, replayOf := r, srm0 := some 7 }
      let s := mt [p, { seq := 1, phase := .drained }, { seq := 2, phase := .judged }]
      s.drainNext 0 = some p ∧ s.heldCount 0 = 2 ∧ (s.eng 0).retired = false ∧ s.anyMoving p.ctx p.d.epiAddrs = false ∧
        (s.drainRun 0 p (perturbs []) 7).isOk = true) ∧
    (∀ f ∈ [[], [⟨0, 0, 0x3F800000⟩]],
      let p : Pass := { drained f 7 with phase := .drained }
      let s := mt [p]
      leastBy Pass.runNo ((s.eng 0).passes.filter (fun q => q.phase == .drained)) = some p ∧ p.op = some po ∧
        (po.tests p.acc p.faults p.tolsh).verdict = (if f = [] then .pass else .fail) ∧ s.outFault 0 p = none) ∧
    (∀ h ∈ [Phase.judged, .dead],
      let p : Pass := { drained [] 7 with phase := h }
      let s := mt [p]
      leastBy Pass.issueNo ((s.eng 0).passes.filter
          (fun q => q.phase != .queued && (q.phase != .saved || s.keepsPlace 0 q))) = some p ∧
        s.cmd p.cmd = none ∧ p.d.stot = none ∧ s.anyMoving p.ctx p.d.outAddrs = false ∧ s.outFault 0 p = none ∧
        p.d.outs = [lane 4096] ∧ s.memKey (pool 4095) ≠ s.memKey (pool 4096)) := by decide +kernel

theorem wit_PassRecovery :
    (let p : Pass := { drained [⟨0, 0, 0x3F800000⟩] 7 with phase := .failed }
     let s := mt [p]
     leastBy Pass.issueNo ((s.eng 0).passes.filter (fun q => q.phase == .failed && !s.frozenOn 0 q.ctx)) = some p ∧
      s.tileOpen 0 = true ∧ (s.endIssue 0).bankFree 0 p.bank = true) ∧
    (let p : Pass := { drained [] 7 with phase := .partner }
     let s := mt [p]
     leastBy Pass.issueNo ((s.eng 0).passes.filter (fun q => q.phase == .partner)) = some p ∧ p.op = some po ∧
      s.partnerOf 0 = some 1 ∧ s.outFault 0 p = none ∧ s.anyMoving p.ctx (p.d.epiAddrs ++ p.d.outAddrs) = false ∧
      (let r := { p with grp := 0, acc := po.start, runs := p.runs + 1, startDt := s.dt, byPartner := true, partnerEng := 1 }
       match ((s.yieldTile 1).setReg (rMtExc 1 ((s.yieldTile 1).partnerBank 1)) 0).drainRun 0 r (perturbs []) (p.srm0.getD 0) with
       | .ok q => (po.tests q.acc q.faults (s.fld (rMtCktol 1) 0 6)).verdict == .pass && (s.outFault 0 q).isNone
       | .error _ => false) = true) ∧
    (∀ l ∈ [Loc.unlocated, .row 128, .ckRow],
      let s : State := { State.reset with engs := [(0, { repair := some { loc := l } })] }
      (s.eng 0).repair = some { loc := l } ∧ s.tileQuiet 0 = true) := by
  decide +kernel

theorem wit_PassPreemptionIsExact :
    (let p : Pass := { drained [] 7 with phase := .issuing, cls := 1, acc := po.start, grp := 0 }
     let s := mt [p, { seq := 1, d := md }]
     (s.eng 0).passes.find? (fun q => q.phase == .issuing) = some p ∧ s.preemptDue 0 p = true ∧ 0 + 0 < po.groups) ∧
    (let p : Pass := { phase := .saved, op := some po, acc := po.start }
     let s := mt [p]
     s.nextPass 0 = some p ∧ s.tileOpen 0 = true ∧ (s.endIssue 0).bankFree 0 1 = true ∧ s.replayWaits 0 = false) ∧
    (let p : Pass := { phase := .saved, op := some po, acc := po.start, replayOf := true, issueNo := 1, failNo := 2 }
     let s := mt [p, { seq := 1, phase := .judged, issueNo := 2 }]
     s.nextPass 0 = some p ∧ s.keepsPlace 0 p = true ∧ s.replayWaits 0 = false ∧
      leastBy Pass.issueNo ((s.eng 0).passes.filter
        (fun q => q.phase != .queued && (q.phase != .saved || s.keepsPlace 0 q))) = some p) := by decide +kernel

/-- Engine 0 with descriptors on stream engine 3. -/
def streams (ts : List Stream) : State :=
  { mt [] with engs := [(0, { slots := [(0, { st := .ready }), (1, { st := .ready, ctx := 1 })], streams := ts })] }

/-- A LOAD of n bytes from herd pool 0 to an address. -/
def loadOf (n a : Nat) : SDesc := { base := pool 256, mode := 3, n0 := n, addr2 := a, sig := true }

theorem wit_StreamDescriptorsRun :
    (∀ b ∈ [true, false], ∀ a ∈ [pool 4096, pool (2 ^ 40)],
      let t : Stream := { se := 3, started := b, d := loadOf 4 a }
      let s := streams [t]
      s.streamMoving t = false ∧ leastStream ((s.streamHeads 0 3).filter (fun u => u.started == b)) = some t ∧
        s.runs = true ∧ (s.moveScan 0 t.slot t.ctx false (t.d.ends.drop t.pos)).2.isSome = decide (a ≠ pool 4096)) ∧
    (∀ n ∈ [4, 4100],
      let u : Stream := { seq := 1, se := 3, started := true, slot := 1, cls := 2, d := loadOf n (pool 8192) }
      let t : Stream := { se := 3, cls := 1, d := loadOf 4 (pool 4096) }
      let s := streams [t, u]
      leastStream ((s.streamHeads 0 3).filter (fun x => !x.started)) = some t ∧
        leastStream ((s.streamHeads 0 3).filter Stream.started) = some u ∧ t.cls < u.cls ∧ u.d.mode ≠ 5 ∧
        s.streamMoving u = false ∧ (u.pieces ≤ 1 ↔ n = 4) ∧
        (s.moveScan 0 u.slot u.ctx false (u.d.ends.drop u.pos)).2 = none) ∧
    (∀ k ∈ [0, 7],
      let t : Stream := { se := 3, started := true, op := some 7, d := { loadOf 4 0 with mode := 5 } }
      let s : State := { streams [t] with net := { ops := [{ id := k, ent := 0 }] } }
      s.streamMoving t = false ∧ leastStream ((s.streamHeads 0 3).filter Stream.started) = some t ∧
        ((∀ o ∈ s.net.ops, t.op ≠ some o.id) ↔ k = 0)) ∧
    (let t : Stream := { se := 3, started := true, d := loadOf 4 (pool 4096) }
     let s : State := { streams [t] with ctxs := [(0, { live := true, frozen := some 1 })] }
     (s.streamHeads 0 3).filter Stream.started = [] ∧ leastStream ((s.headsOf 0 3 true).filter Stream.started) = some t ∧
      s.streamMoving t = false) := by
  decide +kernel

/-! ### Queues: an entry of each opcode -/

/-- Queue 0 of partition 0 with one entry in herd pool 0: its opcode, further bits of its first word, and its operands; C0
in slot 0 of engine 0, PLACED; region 0 of the HBM enabled and granted, with a page table for PAGE_MOVE at its start whose
one leaf maps 2 MiB; a list for CHAIN; fabric region 0 granted and ACTIVE. -/
def entry (op bits : Nat) (ops : List Nat) : State :=
  let rs : List (Nat × Nat) := [(rQpQ 0, fv 61 1 1 + fv 48 5 4 + fv 0 16 1), (rPwrReady, 0x3FF), (rQpPevt 0, fv 32 15 9),
    (rHbmRgn 0, 2 ^ 14), (rEsImwin 0 0, 0x10000), (rVtLmwin 0 0, 0x100), (rFabRstat 0, 2 ^ 30 + 4), (rQpPart 0, fv 63 1 1 + fv 52 11 1023 + fv 14 15 16383), (rHbmRgn 377, 377 * 16),
    (rEsGate 0 255, 2 ^ 63), (entReg 7, fv 61 3 1)]
  let s : State :=
    { State.reset with
      mem := cells (([op + bits] ++ ops ++ List.replicate 7 0).take 8 ++ if op = 0x29 then [pool 128, 0, 0, 0, 0, 0, 0, 0] ++ passWords 128 else []),
      queues := [(0, { live := true, ring := pool 0 })],
      engs := [(0, { slots := [(0, { st := .placed })] })],
      ctxs := [(0, { live := true }), (1, { live := true, root := some 0 })],
      parts := [(0, { grants := [{ kind := 2, lo := 0 }, { kind := 0, lo := 0, size := 2 ^ 30 }] })],
      regs := rs.foldl (fun t x => tset 0 t x.1 (BitVec.ofNat 64 x.2)) State.reset.regs }
  if op ≠ 0x2C then s
  else (((s.setBytes 0x400000 (leBytes 8 (2 ^ 48) ++ leBytes 8 0x600000)).setBytes 0 (leBytes 8 0x1001)).setBytes 0x1000 (leBytes 8 0x2001)).setBytes 0x2000 (leBytes 8 0x40000F)

/-- Every row of Table 9.3 with an entry of it that starts at once: further bits of the first word, and the operands. -/
def entries : List (CmdRow × Nat × List Nat) :=
  [(nopRow, 0, []), (partConfigRow, 0, [9 + 2 ^ 16 * 16383 + 2 ^ 32, 1023 + 2 ^ 16, 0x1000, 16]),
   (partGrantRow, 0, [0x10 + 7, 63]), (partGrantRow, 0, [0x8 + 7, 0, 1]), (partRegulateRow, 0, [7, 5]),
   (regReadRow, 0, [regBase + 2 ^ 24 - 8, 64]), (regWriteRow, 0, [regBase + rQpPreg 0, 7]),
   (hbmRegionRow, 0, [377 + 2 ^ 9 + 2 ^ 14 * 377]), (rekeyRow, 0, [2 ^ 9 * 377]), (retireRow, 0, [63 * 256]),
   (retireRow, 0, [1 + 511 * 256]), (fwPatchRow, 0, [pool 256, 64]), (fwImageRow, 0, [pool 256, 64]), (dumpRow, 0, [])] ++
  [(resetRow, 0, [1]), (resetRow, 0, [2 + 7 * 256]), (resetRow, 0, [3]), (resetRow, 0, [4]), (resetRow, 0, [5]),
   (resetRow, 0, [6]), (resetRow, 0, [7]), (queueCreateRow, 0, [16382 + 2 ^ 16 * 4, 4096, 7]), (queueDeleteRow, 0, [0]),
   (ctxCreateRow, 2 ^ 32 * 1022, [0, 4096, 5]), (ctxConfigRow, 0, [7, 4096, 5]), (ctxTeardownRow, 0, []),
   (ctxPlaceRow, 0, [2 ^ 63, 256 + 2 ^ 16 * 128, 1]), (ctxUnplaceRow, 0, [1]), (imemWriteRow, 0, [1, pool 256, 64, 960]),
   (runRow, 0, [1, 255, 5]), (chainRow, 0, [pool 64, 1])] ++
  [(convertRow, 0, [pool 256, 0, pool 4096, 0, 1 + 2 ^ 24, 4]), (copyRow, 0, [pool 256, pool 4096, 1]),
   (pageMoveRow, 2 ^ 32, [0, 1]), (xlateInvalRow, 0, []), (gateSignalRow, 0, [255 * 256, 7]),
   (gateSignalRow, 0, [254 * 256, 7]), (stotDiscardRow, 0, [2 ^ 16]), (freezeRow, 0, [0]), (freezeRow, 0, [1]),
   (freezeRow, 0, [2]), (freezeRow, 0, [3]), (freezeRow, 0, [4 + 2 ^ 16 * 7]), (unfreezeRow, 0, [2 ^ 16 * 63 + 2]),
   (peerSetRow, 0, [16383, pool 1024]), (peerSetRow, 0, [2 ^ 15 + 2 ^ 16 * 7, pool 1024]), (peerClearRow, 0, [7]),
   (peerClearRow, 0, [2 ^ 15]), (fabLoadRow, 0, [0, 4096, 4096 + 16, 1]), (fabBlankRow, 0, [1])]

/-- An entry of each opcode starts at once (O32 to O37). -/
theorem wit_QueueEntries : (∀ x ∈ queueRows, ∃ y ∈ entries, y.1.op = x.1.op) ∧
    ∀ x ∈ entries, (entry x.1.op x.2.1 x.2.2).starts x.1 0 := by
  unfold State.starts; decide +kernel

/-- A reserved bit, a context that the partition does not own, and an ORDERED entry behind an open command. -/
theorem wit_QueueEntries_refused :
    (let s := entry 0 (2 ^ 11) []
     s.mayServe 0 = true ∧ (s.readEntry 0).opcode = 0 ∧
      (s.passEntry 0).entryStatus nopRow (s.readEntry 0) (s.entryPoison 0) = (stCmdFieldInvalid, false)) ∧
    (let s := entry 0 (2 ^ 32 * 1023) []
     s.mayServe 0 = true ∧ (s.readEntry 0).opcode = 0 ∧
      (s.passEntry 0).entryStatus nopRow (s.readEntry 0) (s.entryPoison 0) = (stNotOwner, true)) ∧
    (let s := { entry 0 (2 ^ 8) [] with cmds := [{ id := 0 }], nextCmd := 1 }
     s.mayServe 0 = true ∧ (s.passEntry 0).entryStatus nopRow (s.readEntry 0) (s.entryPoison 0) = (0, false) ∧
      (s.queued nopRow 0).mustHold nopRow (s.taken nopRow 0) = true) := by decide +kernel

/-- The state and the command that a row's work begins with. -/
def begun (r : CmdRow) (ops : List Nat) : State × Cmd :=
  ((entry r.op 0 ops).running r 0, (entry r.op 0 ops).runningCmd r 0)

/-- What the clauses of O33 to O37 ask beyond the start. -/
theorem wit_CommandsOnEngines :
    (let x := begun imemWriteRow [1, pool 256, 64, 960]
     (x.1.cmdBytes 0 (pool 256) 64).isOk = true ∧ x.1.seat 0 0 = some (0, 0)) ∧
    (begun runRow [1, 255, 5]).2.engines = [0] ∧
    (let x := begun chainRow [pool 64, 1]
     (x.1.chainPlan x.2).isOk = true) ∧
    (let x := begun convertRow [pool 256, 0, pool 4096, 0, 1 + 2 ^ 24, 4]
     x.2.engines = [0] ∧ x.1.slotOf 0 0 = some 0 ∧
      (match x.1.gather 0 0 0 false (planeContent (pool 256) 1 (convElems .f32 1)) with | .ok _ _ => true | _ => false) = true) ∧
    (begun copyRow [pool 256, pool 4096, 1]).2.engines = [0] := by decide +kernel

theorem wit_CommandsOnMastersAndMemory :
    (let s := entry 0x2E 0 [255 * 256, 7]
     s.hostOf 0 0 = 0 ∧ s.ownsGate 0 255 0 = true ∧ s.ownsGate 0 254 0 = false ∧ s.gateCount 0 255 + 7 < 2 ^ 32) ∧
    (entry 0x30 0 [4 + 2 ^ 16 * 7]).entState 7 = 1 ∧
    (entry 0x31 0 [2]).tornPort 2 63 = false ∧
    (let x : State × Cmd := ((entry 0x2C (2 ^ 32) [0, 1]).running pageMoveRow 0, (entry 0x2C (2 ^ 32) [0, 1]).runningCmd pageMoveRow 0)
     (x.1.pageList x.2).isOk = true) := by decide +kernel

theorem wit_CommandsOnPeersAndFabric :
    (let x := begun peerSetRow [16383, pool 1024]
     (x.1.peerBlock x.2).isOk = true) ∧
    (let x := begun fabLoadRow [0, 4096, 4096 + 16, 1]
     (x.1.loadSource x.2).isSome = true ∧ (entry 0x3A 0 []).fab.loads = [] ∧ x.1.regSt 0 = 4) := by decide +kernel

theorem wit_CommandsOnTheDevice :
    (let x := begun fwImageRow [pool 256, 64]
     (x.1.cmdBytes 0 (pool 256) 64).isOk = true) ∧
    (entry 0x0C 0 [4]).regSt 0 = 4 ∧ (entry 0x0C 0 [1]).openRets = [] := by decide +kernel

/-! ### The transport and the links -/

/-- The state after reset with some registers at other values. -/
def withRegs (rs : List (Nat × Nat)) : State :=
  { State.reset with regs := rs.foldl (fun t x => tset 0 t x.1 (BitVec.ofNat 64 x.2)) State.reset.regs }

/-- A held command that may start, with operands that pass the check and that do not; a record and an event with room in
the ring of 16 and with none, and EVENT_LOST due. -/
theorem wit_HeldCommandsAndRecords :
    (∀ u ∈ ([0, 1023] : List Nat),
      let c : Cmd := { id := 5, words := [0x21, BitVec.ofNat 64 u] }
      let s : State := { withRegs [(rQpPart 0, fv 63 1 1 + fv 14 15 1), (rQpQ 0, 2 ^ 61)] with cmds := [c] }
      s.cmd 5 = some c ∧ (rowOf c.opcode).map CmdRow.op = some 0x21 ∧ s.runs = true ∧ c.st = .held ∧
        s.mustHold queueDeleteRow c = false ∧ queueDeleteRow.check s c = (if u = 0 then 0 else stNotOwner)) ∧
    (∀ n ∈ [14, 15],
      let c : Cmd := { st := .done, words := [0] }
      let s : State := { withRegs [(rQpQ 3, fv 48 5 4)] with queues := [(3, { cqIdx := n, recs := [c] })] }
      s.partResetting (s.fld (rQpQ 3) 55 3) = false ∧ nextRec s.recReady (s.queue 3).recs = some c ∧ c.opcode ≠ 0x21 ∧
        s.entRefuses (hostEnt (s.fld (rQpQ 3) 55 3)) = none ∧ s.cqRoom 3 = decide (n = 14)) ∧
    (∀ n ∈ [14, 15], ∀ l ∈ [0, 2 ^ 32 - 1],
      let s : State := { withRegs [(rQpPevt 7, l)] with parts := [(7, { evIdx := n, events := [{ code := 1 }] })] }
      s.entRefuses (hostEnt 7) = none ∧ s.fld (rQpPevt 7) 0 32 = l ∧ (s.part 7).events = [{ code := 1 }] ∧
        s.evRoom 7 = decide (n = 14)) ∧
    ((withRegs [(entReg (hostEnt 7), fv 61 3 3)]).entRefuses (hostEnt 7)).isSome = true := by decide +kernel

/-- Entry 7, of partition 0, in a state, with a packet at the head of its reorder buffer. -/
def arriving (st : Nat) (p : Pkt) (ds : List Note) : State :=
  { withRegs [(entReg 7, fv 61 3 st), (home.1, home.2.toNat), (rQpQ 5, 2 ^ 61), (rEsGate 0 255, 2 ^ 63)] with
    ctxs := [(0, { live := true })], parts := part0, net := { ents := [(7, { rx := [p], rxNext := p.seq, drops := ds })] } }

/-- A packet of a kind for C0. -/
def pkt (kind arg : Nat) (bs : List Byte) : Pkt := { kind := kind, arg := arg, body := bs, seq := 2 ^ 32 - 1, last := true }

theorem wit_PacketDelivery :
    (∀ x ∈ [pkt 1 (pool 0) [1], pkt 1 (pool (2 ^ 40)) [1], pkt 2 (pool 0) (List.replicate 12 0), pkt 3 (pool 0) [1],
        pkt 5 (pool 0) (List.replicate 25 0), pkt 4 0 [0], pkt 4 1 [0]],
      let s := arriving 1 x []
      s.delivers 7 x ∧ (pktRow x 7).isSome = true ∧ s.entState 7 ≠ 2 ∧ s.stalePkt 7 x = false) ∧
    (let x := pkt 1 (pool 0) [1]
     (arriving 2 x []).delivers 7 x ∧ (arriving 2 x []).entState 7 = 2 ∧
      (arriving 1 x [{ ctx := 0, gen := 0, last := 2 ^ 32 - 1 }]).delivers 7 x ∧
      (arriving 1 x [{ ctx := 0, gen := 0, last := 2 ^ 32 - 2 }]).stalePkt 7 x = false ∧
      (arriving 1 x [{ ctx := 0, gen := 0, last := 2 ^ 32 - 1 }]).stalePkt 7 x = true ∧
      (arriving 1 x []).pktAddrs 7 x (pool 0) 1 true = .inl [pool 0] ∧
      ((arriving 1 x []).pktAddrs 7 x (pool (2 ^ 40)) 1 true).isRight = true ∧
      (let y : Prior := { epoch := 1, key := 0, next := 2 ^ 32 - 1, rx := [x], drops := [] }
       let s := (arriving 1 x []).updEnt 7 (fun e => { e with prior := some y })
       s.delivers 7 x ∧ (s.ent 7).early.isSome = true)) := by
  unfold State.delivers; decide +kernel

/-! Clauses whose hypothesis is the outcome of AES-256-GCM or of a signature check rest on opaque constants of Config, so that
no state decides them; the rest of their hypotheses is met here. -/

theorem wit_PacketEffects :
    (let x := pkt 2 (pool 0) (List.replicate 8 0 ++ leBytes 4 2)
     let s := arriving 1 x []
     s.delivers 7 x ∧ s.entState 7 = 1 ∧ s.pktAddrs 7 x (pool 0) 2 false = .inl [pool 0, pool 1]) ∧
    (∀ q ∈ [5, 6], let x := pkt 4 0 (leBytes 8 (q + 2 ^ 16 * 65535))
      let s := arriving 1 x []
      s.delivers 7 x ∧ x.devaddr = false ∧ (s.fld (rQpQ q) 61 1 = 1 ∧ s.partOfQueue q = some (s.entPart 7) ↔ q = 5)) ∧
    (∀ g ∈ [255, 254], let x := pkt 4 1 (leBytes 8 (256 * g + 2 ^ 32))
      let s := arriving 1 x []
      s.delivers 7 x ∧ s.ownsGate (s.hostOf 0 0) g 0 = decide (g = 255) ∧
        (arriving 1 { x with devaddr := true } []).delivers 7 { x with devaddr := true }) ∧
    (∀ h ∈ [({} : StotHdr), { sig := true, sigGate := 255 }, { sig := true, sigGate := 254 }, { red := true, nr := 64, rank := 63 }],
      let x := { pkt 5 (pool 0) (leBytes 24 h.toNat ++ [1, 2]) with first := true }
      let s := arriving 1 x []
      s.delivers 7 x ∧ StotHdr.ofNat (leNat (x.body.take 24)) = h ∧ s.stalePkt 7 x = false ∧
        s.pktAddrs 7 x (pool 0) 2 true = .inl [pool 0, pool 1] ∧ s.reds = [] ∧ s.redCount 0 < 512) := by
  unfold State.delivers; decide +kernel

/-- Entry 7 with an entry's state, sub-port 7 up. -/
def conn (st : Nat) (e : Entry) : State :=
  { withRegs [(entReg 7, fv 61 3 st + 100), (rCtPorts, 128), (rEthMac 1, fv 20 8 1)] with dt := 10 ^ 7, net := { ents := [(7, e)] } }

/-- The same while received PFC stops priority 0 of sub-port 7. -/
def stopped (e : Entry) : State := { conn 1 e with links := { pauses := [(56, 10 ^ 9)] } }

theorem wit_AcknowledgementAndLoss :
    (∀ k ∈ [8, 9, 10], ∀ n ∈ [0, 1, 2],
      let ds : List Note := List.replicate 7 { ctx := 0, gen := 0, last := 0 }
      let e : Entry := { inbox := [pkt 1 0 [], pkt k 0 []], unacked := 1, drops := ds, paths := [⟨49152, 7, 0, 0⟩],
                         refused := List.replicate n (5, 1) }
      let s := conn 1 e
      (s.ent 7).inbox.findIdx? (fun p => p.kind == k) = some 1 ∧ (s.ent 7).inbox[1]? = some (pkt k 0 []) ∧
        (s.ent 7).drops.length < 8 ∧ 0 < (s.ent 7).unacked ∧ ((s.ent 7).refused.length ≤ 1 ↔ n ≠ 2) ∧
        s.paused ((s.ent 7).path 0).sub (s.ent 7).dscp = false ∧
        (stopped e).paused ((s.ent 7).path 0).sub (s.ent 7).dscp = true ∧
        passed (beAt (pkt k 0 [0, 0, 0, 9]).body 0 4) (s.ent 7).rxNext = false) ∧
    (∀ n ∈ [true, false], ∀ m ∈ [true, false],
      let x : TxPkt := { p := { body := List.replicate 100 0 }, num := n }
      let e : Entry := { tx := [x], paths := [⟨49152, 7, 0, 0⟩], notes := [{ ctx := 0, gen := 0, last := 0, sent := m }] }
      let s := conn 1 e
      s.runs = true ∧ (s.ent 7).paths ≠ [] ∧ s.upSubs = [7] ∧ s.entState 7 = 1 ∧ s.paused 7 0 = false ∧
        e.notes.findIdx? (fun y => !y.sent) = (if m then none else some 0) ∧
        e.nextTx = some (0, x) ∧ e.flight + 100 ≤ s.fld (entReg 7) 0 32 ∧ e.reach 0 ≤ e.rwnd) ∧
    (∀ n ∈ [0, 15],
      let x : TxPkt := { p := { seq := 2 ^ 32 - 1 }, num := true, sent := true, tries := n, due := 10 ^ 7 }
      let s := conn 1 { tx := [x] }
      (s.ent 7).tx.findIdx? (fun y => y.num && y.p.seq == 2 ^ 32 - 1) = some 0 ∧ x.due ≤ s.dt.toNat ∧
        (s.retry ≤ x.tries ↔ n = 15)) ∧
    (∀ s ∈ [conn 4 {}, conn 2 { kept := 4 }], s.entLife 7 = 4 ∧ (s.ent 7).clearDt + dtMs 2 ≤ s.dt.toNat) := by decide +kernel

theorem wit_FramesAndPtp :
    (let s : State := { withRegs [(rEthPstat 0, 4), (rCtPtpctl, 1 + 5 * 256)] with
       net := { endpoints := [(3, { v4 := 9 })], ptp := { master := some (8, 0) } } }
     s.runs = true ∧ s.subSt 0 0 = 4 ∧ s.endpointOf false 9 = some 3 ∧ s.entryCheck 3 0 0 [] = none ∧
      s.ptpHears 0 0 = true ∧ s.fromMaster 5 8 = true ∧ s.dt.toNat < s.net.ptp.announced + announceLimit ∧
      (∀ d ∈ [0, 1, 2 ^ 40], s.frameMine 0 d = decide (d ≠ 1)) ∧
      (64 ≤ seen.size ∧ seen.wait + seen.size ≤ rxBuffer) ∧
      rxBuffer < { seen with wait := 2 ^ 21 - 63 }.wait + seen.size) ∧
    (∀ n ∈ [1, 2], let y : Prior := { epoch := 1, key := 0, next := 2 ^ 32 - 1, rx := [], drops := [] }
      ({ epoch := 2, prior := some y } : Entry).isEarly { epoch := n } = decide (n = 1) ∧ seqGap y.next 0 ≤ 2 ^ 30) ∧
    (let s : State := { withRegs [(rCtPtpctl, 1), (rCtPorts, 128)] with net := { ptp := { master := some (8, 0), t2 := some 0, sub := 7 } } }
     s.fld rCtPtpctl 0 1 = 1 ∧ s.net.ptp.master.isSome = true ∧ s.net.ptp.t2.isSome = true ∧ s.net.ptp.sub ∈ s.upSubs ∧
      s.paused s.net.ptp.sub 0 = false) ∧
    (∀ v ∈ [1, 2], let s : State := { withRegs [(rCtPtpstat, v)] with dt := BitVec.ofNat 64 (dtMs 3000) }
      s.ptpSt = v ∧ s.net.ptp.lastSync + dtMs 3000 ≤ s.dt.toNat) := by decide +kernel

/-- A whole message of HP0, good where its length is true. -/
def mail (ty len : Nat) (body : List Byte) : State × Mgmt :=
  let m : Mgmt := { part := 0, boot := false, whole := true, bytes := leBytes 1 ty ++ leBytes 1 1 ++ leBytes 2 0 ++ leBytes 4 len ++ body }
  ({ State.reset with sec := { State.reset.sec with inbox := [m] } }, m)

theorem wit_ManagementMessages : ∀ x ∈ [(1, 1249), (3, 1), (4, 32), (6, 0), (9, 1)],
    let y := mail x.1 x.2 (List.replicate x.2 0)
    let z := mail x.1 (x.2 + 1) []
    y.1.runs = true ∧ (((y.1.pumpMsgs 0).takeMsg 0 x.1).map Prod.fst) = some y.2 ∧ msgOk y.2 = true ∧
      ((z.1.pumpMsgs 0).takeMsg 0 x.1).isSome = true ∧ msgOk z.2 = false := by decide +kernel

/-- Sub-port 3 of port 1, enabled, in a state that it has been in for 10 ms. -/
def sub (v : Nat) : State :=
  { withRegs [(rEthPstat 1, 512 * v + 2 ^ 13), (rEthPcfg 1, 2 ^ 7)] with
    dt := BitVec.ofNat 64 (dtMs 10), links := { pauses := [(63, 7)] }, pwr := { steps := [0, 8] } }

theorem wit_EthernetLinks :
    (∀ v ∈ [1, 2, 3, 4, 5],
      (sub v).subSt 1 3 = v ∧ (sub v).pwr.steps.contains 8 = true ∧ (sub v).subEnabled 1 3 = true ∧
        tget 0 (sub v).links.downAt 7 + dtMs 10 ≤ (sub v).dt.toNat ∧ oget (sub v).links.pauses 63 = some 7 ∧
        7 ≤ (sub v).dt.toNat) ∧
    (∀ n ∈ [0, 1], ∀ m ∈ [6, 7], let s := withRegs [(rLeye 47, 2 * n), (rLstat 47, m * 2 ^ 8)]
      s.fld (rLeye 47) 1 1 = n ∧ (7 ≤ s.fld (rLstat 47) 8 4 ↔ m = 7)) := by decide +kernel

theorem wit_CxlPorts :
    (∀ v ∈ [1, 2, 4],
      let s : State := { withRegs [(rCxlPstat 1, v)] with dt := BitVec.ofNat 64 (dtMs 100), links := { detectAt := [(1, 0)] } }
      s.cxlSt 1 = v ∧ oget s.links.detectAt 1 = some 0 ∧ 0 + dtMs 100 ≤ s.dt.toNat ∧ s.links.noDev.contains 1 = false ∧
        s.fld rPwrReady 8 1 = 0) ∧
    (∀ x ∈ [(dev, none), ({ dev with isCxl := false }, some 1), ({ dev with wantsCache := true }, some 2),
        ({ dev with isSwitch := true }, some 3), ({ dev with memClass := false }, some 4), ({ dev with multi := true }, some 5),
        ({ dev with width := 3 }, some 6), ({ dev with width := 4, rate := 4, cap := 1 }, none), ({ dev with rate := 3 }, some 6),
        ({ dev with cap := 0 }, some 7)], State.reset.cxlRefusal 1 x.1 = x.2) := by decide +kernel

/-- An address of engine 5's store. -/
def store (o : Nat) : Nat := storeBase 5 + o

/-- A request of engine 63's SU to a byte of engine 5's store. -/
def nocReq (peer : Option (Fin 2)) : NocReq :=
  { src := 63, ty := 1, peer := peer, addr := store 0, ctx := 0, len := 64, tid := 255 }

/-- The packet that it makes, and its bucket. -/
def reqPkt (s : State) (peer : Option (Fin 2)) : NocPkt :=
  { ty := 1, cls := if peer.isSome then 2 else 0, src := 63, org := sourcePoint 63, dgen := s.dgenOf 63, addr := store 0, ctx := 0,
    cgen := (s.ctx 0).gen, len := 64, tid := 255, dst := match peer with | none => enginePoint 5 | some e => iodPoint (10 + e),
    kind := if peer.isSome then 4 else 0 }

theorem wit_NetworkSources :
    (isSource 0 = true ∧ isSource 0xB8 = true ∧ State.reset.credited 0xB8 2047 = false ∧ State.reset.probing = false) ∧
    (∀ n ∈ [63, 64],
      let k : NocPkt := { ty := 7, src := 63, dst := 2047 }
      let s : State := { State.reset with noc := { State.reset.noc with asks := [k], lent := [(2047, n)] } }
      s.noc.asks.find? (fun k => k.dst == 2047) = some k ∧ (64 ≤ tget 0 s.noc.lent 2047 ↔ n = 64)) ∧
    (∀ b ∈ [0, 1], ∀ e ∈ ([none, some 1] : List (Option (Fin 2))),
      let kind := if e.isSome then 4 else 0
      let d := (reqPkt State.reset e).dst
      let s : State := { withRegs [(rNocRg 63 4, 1), (rNocRg 63 0, 1)] with
        noc := { State.reset.noc with creds := [(d, 63)], buckets := [(8 * 63 + kind, { lvl := 1 - (b : Int) })] } }
      let p := reqPkt s e
      isSource 63 = true ∧ s.targetPoint (store 0) = some (enginePoint 5) ∧ s.destKind (store 0) = 0 ∧ p.dst = d ∧
        s.noc.creds.contains (d, 63) = true ∧ s.sourceFrozen 63 0 = false ∧
        s.mayInject p = decide (b = 0) ∧ (s.holdReq p).behind p = false) ∧
    (let p := reqPkt State.reset none
     let q := { p with tid := 1 }
     let s : State := { State.reset with noc := { State.reset.noc with creds := [(p.dst, 63)], held := [q] } }
     s.mayInject p = true ∧ (s.holdReq p).behind p = true) ∧
    (let s : State := { State.reset with dt := BitVec.ofNat 64 (dtUs 10), noc := { State.reset.noc with shares := [(shareKey 0 7 4, { lvl := 1 })] } }
     oget s.noc.shares (shareKey 0 7 (3 + 1)) = some { lvl := 1 } ∧ 0 + dtUs 10 ≤ s.dt.toNat) ∧
    State.reset.fld (rPwrEng 63) 12 2 < 3 := by decide +kernel

/-- A packet from engine 63 to engine 5's store, and back. -/
def going (ty cls : Nat) : NocPkt :=
  if cls = 1 then { ty := ty, cls := 1, src := 63, dst := enginePoint 63, org := enginePoint 5, addr := store 0 }
  else { ty := ty, cls := cls, src := 63, dst := enginePoint 5, org := enginePoint 63, addr := store 0, len := 8 }

/-- A state with packets in the network and at their targets. -/
def busy (net queue asked : List NocPkt) : State :=
  { withRegs [(rDdrGeom, 1), (rDdrChstat 0, 2), (rFabRstat 0, 4 + 2 ^ 30 + 255 * 2 ^ 12), (rFabClk 0, 1)] with
    noc := { State.reset.noc with net := net, queue := queue }, fab := { State.reset.fab with asked := asked },
    dt := BitVec.ofNat 64 (10 ^ 15), parts := [(0, { grants := [{ kind := 1, lo := 5 }] })] }

theorem wit_NetworkTargets :
    (∀ x ∈ [(8, 1, 0), (2, 1, 1), (7, 0, 0), (1, 0, 0), (0, 0, 0)],
      let p := { going x.1 x.2.1 with dgen := x.2.2 }
      let s := busy [p] [] []
      s.noc.net[0]? = some p ∧ ejectable s.noc.net 0 = true ∧ s.ejectWaits p = false ∧ s.staleResp p = decide (x.2.2 = 1)) ∧
    (∀ f ∈ [0, 1],
      let p : NocPkt := { going 0 0 with dst := fabricPoint (2 * f), addr := fabBase f }
      let s := busy [p] [] []
      ejectable s.noc.net 0 = true ∧ s.ejectWaits p = false ∧ isFabric p.addr = true ∧ s.fenced p.addr = decide (f = 1)) ∧
    (∀ t ∈ [0, 1],
      let p : NocPkt := { going t 0 with dst := iodPoint 0, addr := ddrBase }
      let s := busy [p] [p] []
      s.ejectWaits p = false ∧ isFabric p.addr = false ∧ (channelAt p.dst) = some 0 ∧ s.chServes 0 = true ∧
        s.noc.draining.contains 0 = false ∧ s.nextRead 0 0 (s.noc.queue.filter (fun p => p.dst == iodPoint 0)) = some p) ∧
    (let p : NocPkt := { going 0 0 with dst := stackPoint 0 0, addr := 0, len := 64, data := some [] }
     let s := busy [] [p] []
     channelAt (stackPoint 0 0) = none ∧ (s.noc.queue.filter (fun q => q.dst == stackPoint 0 0)).head? = some p ∧
      linesOf p.addr p.len = [p.addr / 64 * 64] ∧ s.region (p.addr / 64 * 64) = .hbm 0) ∧
    (∀ a ∈ [store 4095, pool (2 ^ 40)],
      let r : FabReq := .read a 1
      let s := busy [] [] []
      let k := s.portPkt 1 r 255
      let s2 : State := { s with noc := { s.noc with creds := [(enginePoint 5, 0x41)] } }
      s.regSt 0 = 4 ∧ s.fld (rFabPort 1) 32 1 = 0 ∧ s.portOpen 1 < 64 ∧ reqFits r = true ∧
        (s.portCheck 0 0 r).isSome = decide (a = pool (2 ^ 40)) ∧ k.isSome = decide (a = store 4095) ∧
        k.all (fun x => s2.mayInject x && !(s2.holdReq x).behind x && !s.mayInject x) = true) ∧
    (let p : NocPkt := { going 0 0 with dst := fabricPoint 0, addr := fabBase 0 }
     let s := busy [] [] [p]
     s.fab.asked[0]? = some p ∧ ∃ n, s.portLimit (regionOf p.addr) = some n ∧ p.stamp + n ≤ s.dt.toNat ∧
      regionOf p.addr < 48) := by
  refine ⟨?_, ?_, ?_, ?_, ?_, ?_⟩
  · decide +kernel
  · decide +kernel
  · decide +kernel
  · decide +kernel
  · decide +kernel
  · exact ⟨by decide +kernel, 8192 * 160000 * 255 / 256, by decide +kernel⟩

/-- The state after reset, with loads, groups and flash of the fabric. -/
def fabric (loads : List FLoad) (flash : Tab Byte) : State :=
  { withRegs [(rSecStat, 1), (rFabRstat 0, 3 + 2 ^ 4 * 3), (rFabRstat 1, 3 + 2 ^ 4)] with
    fab := { State.reset.fab with
      loads := loads, flash := flash, groups := [[0, 48], [1]],
      logic := [0, 48, 49].map (fun h => (h, { left := [(0, 2), (1, 2), (2, 2), (3, 2)] })) } }

theorem wit_FabricConfiguration :
    (∀ x ∈ ([([], none), ([(16 * 63 + 12, 3)], some 63)] : List (Tab Byte × Option Nat)),
      let s := fabric [] x.1
      s.fld rSecStat 0 2 = 1 ∧ s.fld rCfgStat 10 2 = 0 ∧ s.fab.loads = [] ∧ s.fab.loads.any FLoad.boot = false ∧
        (List.range 64).find? (fun d => (s.dirEntry d).2.2.1 && (s.dirEntry d).2.2.2) = x.2) ∧
    (let l : FLoad := { flash := true, mask := [0], st := .segs, seen := List.replicate 12 0 ++ leBytes 4 1 ++ List.replicate 20 0 }
     let s := fabric [l] []
     s.fab.loads.find? (fun l => l.st == .segs && l.dies.contains 0) = some l ∧ (∀ x ∈ s.fab.loads, x.st ≠ .ports) ∧ l.seg < segments (hdrFrames l.seen) ∧
      (s.loadBytes l l.seen.length (segBytes (hdrFrames l.seen) l.seg)).isOk = true) ∧
    (∀ f ∈ [0, 48],
      let l : FLoad := { st := .blanking, todo := [0, 48] }
      (fabric [l] []).fab.loads.find? (fun l => l.todo.contains f && (l.st == .blanking || l.st == .failing)) = some l) ∧
    (∀ f ∈ [0, 1], ∀ d ∈ [319, 320],
      let s : State := { fabric [] [] with dt := BitVec.ofNat 64 d }
      (s.inGroup f).isSome = true ∧ s.fab.loads = [] ∧ (∀ g ∈ s.fab.groups, ∀ r ∈ g, r < 49) ∧
        (s.fld (rFabRstat f) 4 2 = 3 ↔ f = 0) ∧
        s.releaseDue f (s.fld (rFabRstat f) 4 2) (if f = 0 then [0, 48] else [1]) = (decide (f = 0) || decide (d = 320))) ∧
    (State.reset.partStage (fsHalf 0) < 1 ∧ State.reset.partStage (511 / 512) < 1) := by
  decide +kernel

theorem wit_ReadbackKeysAndBrowse :
    (∀ f ∈ [0, 1], let s := withRegs [(rCfgRbctl, f + fv 34 2 1), (rFabRstat 1, 2 ^ 30 + 2 ^ 31)]
      s.fld rCfgRbctl 34 2 = 1 ∧ s.readable f = decide (f = 0)) ∧
    (let s : State := { withRegs [(rBrwCtl 1, 3), (rBrwStat 1, 59999 * 2 ^ 16)] with dt := BitVec.ofNat 64 (dtMs 250) }
     s.fld (rBrwCtl 1) 0 1 = 1 ∧ (s.browse 1).fix = none ∧ (s.browse 1).since + dtMs 250 ≤ s.dt.toNat ∧
      s.regSt (min (browseFrame 1 59999 % 64) 48) ∉ [1, 5]) ∧
    judgeFlips [] = .clean ∧ judgeFlips [4109] = .single 4109 ∧ judgeFlips [0, 4109] = .multi ∧
    (let s : State := { State.reset with fab := { State.reset.fab with browse := [(0, { fix := some (48, 0, 1) })] } }
     (s.browse 0).fix = some (48, 0, 1) ∧ s.regSt (min (48 % 64) 48) ∉ [1, 5]) := by decide +kernel

theorem wit_HbmAndMigration :
    (∀ r ∈ [true, false], let s : State := { withRegs [(rHbmSkctl, 2 ^ 16 + 64)] with hbmHot := [(511, { since := 0, raised := r })], dt := BitVec.ofNat 64 (dtMs 1) }
      s.fld rHbmSkctl 16 1 = 1 ∧ max 4 (min 64 (s.fld rHbmSkctl 0 7)) ≤ 64 ∧ 4 * 0 < 64 * 256 ∧
        oget s.hbmHot 511 = some { since := 0, raised := r } ∧ 0 + dtMs (max 1 (s.fld rHbmSkctl 8 8)) ≤ s.dt.toNat) ∧
    (∀ d ∈ [dtMs 1000, dtMs 1000 + 1], ∀ u ∈ [true, false],
      let s : State := { State.reset with hbmErrs := [⟨511, 3, 7, u, 0⟩, ⟨511, 3, 8, u, d⟩], dt := BitVec.ofNat 64 d }
      s.ueRecurs 511 = (u && decide (d = dtMs 1000)) ∧ s.repairDue 511 3 7 = u ∧ s.repairDue 511 3 9 = false) ∧
    (∀ n ∈ [1, 2], ({ withRegs [(rHbmPprth, 2)] with hbmErrs := List.replicate n ⟨0, 0, 0, false, 0⟩ } : State).repairDue 0 0 0 =
      decide (n = 2)) ∧
    (let s : State := { State.reset with pcRets := [{ pc := 511, cursor := 378 * 32 - 1 }], works := [{ kind := .pcRet 511 }] }
     (s.workOf 7).map Work.kind = some (.pcRet 511) ∧ (s.pcRets.find? (fun r => r.pc == 511 && !r.finished)).isSome = true) ∧
    (let s : State := { State.reset with rekeys := [{ r := 0, t := 377, key := 3, cursor := 16383 }], works := [{ kind := .rekey 0 }] }
     (s.workOf 7).map Work.kind = some (.rekey 0) ∧ (s.rekeys.find? (fun k => k.r == 0)).isSome = true) ∧
    (let c : Cmd := { id := 3, words := [0x100000000], todo := [[0, 21, 0x600000]] }
     let s : State := { entry 0x2C 0 [] with cmds := [c], works := [{ kind := .pages 3 }] }
     (s.workOf 7).map Work.kind = some (.pages 3) ∧ s.cmd 3 = some c ∧ c.isRom = false ∧
      (s.pageMark c 0 21 0x600000).any (fun m => !s.changing m.src 65536 && !s.changing 0x600000 65536) = true) := by
  decide +kernel

/-- Channel 7 in a state with one rank of 65536 rows, its last bank busy. -/
def chan (st : Nat) (b : DdrBank) : State :=
  { withRegs [(rDdrGeom, 2 ^ 7 + 2 ^ 12 + 2 ^ 15), (rDdrChstat 7, st), (rDdrActth 7, 9), (rDdrEvth 7, 3), (rPwrReady, 4), (rPwrLpctl, 2 ^ 48 + 2 ^ 32)] with
    dt := BitVec.ofNat 64 (dtMs 64), ddr := { State.reset.ddr with banks := [(1855, b)], change := [7], low := [7], moving := [(7, 1)] } }

/-- Twelve reads wait at one bank of channel 7, of rank 0 and subchannel 0. -/
def reads : List NocPkt := (List.range 12).map (fun i =>
  { dst := iodPoint 7, src := 63, tid := i, addr := ddrBase, len := 64 })

theorem wit_Ddr5Channels :
    (let b : DdrBank := { rows := [(5, 8), (6, 9)], evict := 4, acts := [(0xA8, 3)], hot := some { since := 0 } }
     let s := chan 2 b
     bankNo 7 0 1 31 = 1855 ∧ s.chServes 7 = true ∧ (s.bank 1855).refreshed + s.trefi 7 0 ≤ s.dt.toNat ∧
      tget 0 s.ddr.mr4 (4 * 7 + 0) + dtMs 16 ≤ s.dt.toNat ∧
      b.rows.find? (fun y => decide (s.actTh 7 ≤ y.2)) = some (6, 9) ∧ s.evTh 7 < b.evict ∧ b.stormed = false ∧
      topSource b.acts = some (0xA8, 3) ∧ topSource [(63, 3)] = some (63, 3) ∧ b.sampled + dtUs 1 ≤ s.dt.toNat ∧
      tget 0 s.ddr.dqs 7 + dtMs 64 ≤ s.dt.toNat ∧ s.chState 7 ≠ 3 ∧ s.mayChange 7 = true ∧
      s.ddr.change.contains 7 = true ∧ s.ddr.low.contains 7 = true ∧ s.fld rPwrLpctl 48 1 = 1 ∧ s.chSet 7 = 0) ∧
    (∀ n ∈ [11, 12],
      let s : State := { chan 2 {} with noc := { State.reset.noc with queue := reads.take n } }
      let th := max 4 (min 16 (s.fld (rDdrSched 7) 48 5))
      bankNo 7 0 0 0 = (s.ddrLine ddrBase).bankNo ∧ (th ≤ s.bankReads 7 (bankNo 7 0 0 0) ↔ n = 12) ∧
        4 * (s.readLines 7).length < th * (s.ddrPr * 64)) ∧
    ((chan 3 {}).chState 7 = 3 ∧ tget 0 (chan 3 {}).ddr.moving 7 < 2) ∧
    (let s := chan 2 {}
     s.chState 7 = 2 ∧ s.fld rPwrLpctl 32 16 ≠ 0 ∧ s.rankBusy 7 = false ∧ s.fld rPwrReady 2 1 = 1 ∧
      s.chIdle 7 (s.fld rPwrLpctl 32 16) = true) ∧
    (chan 4 {}).chState 7 = 4 ∧
    (∀ d ∈ [[], [(7, 0, false)], [(7, 0, true)]], ∀ n ∈ [0, 1],
      let s0 := chan 2 {}
      let s : State := { s0 with ddr := { s0.ddr with due := d, rets := if n = 0 then [] else [{ ch := 7, q := 0, phys := 0, dest := 1 }] } }
      s.chList.contains 7 = true ∧ 0 < s.ddrPr ∧ (s.rankBusy 7 = decide (n = 1)) ∧
        (s.ddr.rets.find? (fun r => r.ch == 7 && r.phys == 0 && !r.finished)).isSome = decide (n = 1) ∧
        (n = 0 → s.logicalRank 7 0 = some 0)) := by
  decide +kernel

theorem wit_DeviceResets :
    State.reset.pwr.up = true ∧ State.reset.pwr.tripped = false ∧ State.reset.runs = true ∧
    (∀ v ∈ [0, 1, 2],
      ({ State.reset with sec := { State.reset.sec with fuses := { State.reset.sec.fuses with jtagPol := v } } } : State).jtagOpen =
        decide (v = 0)) := by decide +kernel

/-- The state with steps of start-up done. -/
def did (ks : List Nat) : State := { withRegs [(rSecStat, 1), (rDdrGeom, 1)] with pwr := { State.reset.pwr with steps := ks } }

theorem wit_StartUp :
    ((did [0]).did 0 = true ∧ (did [0]).did 1 = false ∧ (did [0]).pwr.up = true) ∧
    (∀ x ∈ [(2, [0]), (3, [0]), (4, [0]), (5, [4]), (6, [1, 2]), (8, [3, 6]), (9, [0])], (did x.2).stepOpen x.1 x.2 = true) ∧
    ((did [9]).chList ≠ [] ∧ (did [9]).ddr.initing = [] ∧ (did []).rst.kept = [] ∧ (did []).health.queue = []) ∧
    (∀ n ∈ [1, 2, 4, 5],
      let s : State := { State.reset with sec := { State.reset.sec with patch := some { qp := 3, step := n } } }
      s.sec.patch = some { qp := 3, step := n } ∧ s.tearsOn 3 = false ∧ s.drains 3 0 = false) := by decide +kernel

theorem wit_PowerAndTemperature :
    (let s : State := { withRegs [(rPwrLpctl, 1 + 2 ^ 28)] with pwr := { State.reset.pwr with missFrom := some 0 }, dt := BitVec.ofNat 64 (dtMs 1) }
     s.runs = true ∧ s.engPower 63 = 0 ∧ s.fld rPwrLpctl 0 16 ≠ 0 ∧ s.engineWork 63 = false ∧ s.fld rPwrLpctl 28 1 = 1 ∧
      s.pwr.missFrom = some 0 ∧ 0 + dtMs 1 ≤ s.dt.toNat ∧ s.pwr.up = true ∧ s.pwr.tripped = false) ∧
    (let s := withRegs ((List.range 8).map (fun i => (rPwrEng (56 + i), 2 ^ 12 + i / 7 * 2 ^ 13)))
     ∀ i ∈ List.range 8, s.engPower (8 * 7 + i) = 1 ∨ s.engPower (8 * 7 + i) = 3) ∧
    (∀ i ∈ [0, 63, 64, 112, 113, 114, 123],
      let s : State := { State.reset with pwr := { State.reset.pwr with droops := [(i, 256)] } }
      oget State.reset.pwr.droops i = none ∧ State.reset.stretch i < islandMax i ∧ State.reset.stretch i ≤ 4079 ∧
        oget s.pwr.droops i = some 256) ∧
    (let s := withRegs [(rDdrGeom, 1), (rPwrGov, 85 * 2 ^ 24)]
     0 ∈ s.chList ∧ ([86].any (fun v => decide (s.fld rPwrGov 24 8 < v))) = true ∧
      ([80].all (fun v => decide (v + 5 ≤ s.fld rPwrGov 24 8))) = true) := by decide +kernel

/-- Engine 63 with a stream of C0 that runs, and a hang procedure of it. -/
def hung (h : List Hang) (cs : List Cmd) : State :=
  let e : Engine := { slots := [(0, { st := .ready })], streams := [{ se := 3, started := true }] }
  { State.reset with engs := [(63, e)], ctxs := [(0, { live := true })], cmds := cs, rst := { hangs := h } }

theorem wit_HangsAndTeardown :
    (∀ h ∈ [[], [({ eng := 63, st := .replay 0 5 } : Hang)]], ((hung h []).runs = true ∧ ((hung h []).eng 63).retired = false ∧
      (hung h []).engineCounts 63 = true ∧
      ((hung h []).streamHeads 63 3).any (fun x => x.started && !(hung h []).streamHeld x) = true ∧
      (hung h []).rst.hangs.find? (fun h => h.eng == 63) = h.head?)) ∧
    ((hung [{ eng := 63 }] []).hangDumpOpen 63 = false ∧ ((hung [] []).eng 63).retiring = none) ∧
    (∀ cs ∈ [[], [({ id := 5 } : Cmd)]],
      let s := hung [{ eng := 63, st := .ready, suspects := [(0, 5)] }] cs
      ([(0, 5)].all (fun x => (s.cmd x.2).isNone)) = cs.isEmpty ∧ (∀ d ∈ s.cmds, d.fixes = [])) ∧
    (hung [] [{ id := 5, qp := 3 }]).procWork 3 = true ∧
    (∀ n ∈ [0, 1],
      let s : State := { hung [] [] with
        ctxs := [(1023, { tearing := true })], dt := BitVec.ofNat 64 (dtMs 2),
        net := { ents := [(0, { notes := if n = 0 then [] else [{ ctx := 1023, gen := 0, last := 0 }] })] } }
      (s.ctx 1023).tearing = true ∧ s.fence 1023 = decide (n = 0) ∧ (s.ctx 1023).tearDt.toNat + dtMs 2 ≤ s.dt.toNat) := by
  decide +kernel

theorem wit_DumpsRetirementsAndRevokes :
    (let u : DumpUnit := { cls := 0, idx := 0, addr := regBase, len := 8 }
     let d : Dump := { kind := 0, units := [u] }
     let s : State := { State.reset with rst := { dumps := [d] } }
     s.rst.dumps = d :: [] ∧ 256 + d.bytes.length + (dumpEntry u false s.dt.toNat (s.unitData u)).length ≤ dumpArea ∧
      256 + d.bytes.length + 32 ≤ dumpArea) ∧
    (let s : State := { State.reset with engs := [(63, { retiring := some 3 })] }
     s.runs = true ∧ (s.eng 63).retiring = some 3 ∧ (s.eng 63).movable = true ∧ s.hangHolds 63 = false) ∧
    (∀ g ∈ [({ kind := 0, lo := 0, size := 2 ^ 21 } : Grant), { kind := 1, lo := 63 }],
      let r : Revoke := { cmd := 5, grant := g }
      let s : State := { State.reset with parts := [(7, { grants := [g], revoking := [r] })] }
      s.requested g = false ∧ (s.part 7).revoking.find? (fun r => s.revoked r) = some r ∧ g.meets g = true ∧
        (g.common g).size % 4096 = 0) := by decide +kernel

theorem wit_RegisterWrites : (∀ off ∈ [rMtCktol 0, rRstCause, rPwrLpctl],
      off % 8 = 0 ∧ off < 2 ^ 24 ∧ regReserved off = false ∧ (regDef off).isSome = true) ∧
    regAct (rMtCktol 0) = .plain ∧ regAct (rEthMac 1) = .mac ∧ regReserved 0x40 = true ∧ regDef (2 ^ 24 - 8) = none := by decide +kernel

theorem wit_DumpAreaRule :
    (let c : Cmd := { words := [2, 7, 0x5E3C000000 - 2 ^ 21 * 0, 1] }
     let s := State.reset
     c.opf 0 3 1 = 0 ∧ c.opf 0 4 4 = 0 ∧ (c.op 1).toNat % 2 ^ 21 = 0 ∧
      c.grant.probes.all (fun a => isTier (s.region a)) = true ∧ (c.op 1).toNat < (s.reg rDmpBase).toNat + 64 * 2 ^ 20 ∧
      (s.reg rDmpBase).toNat < (c.op 1).toNat + (c.op 2).toNat * 2 ^ 21) := by decide +kernel

/-- The last byte of the last region, and addresses of regions in modes 1 and 2. -/
theorem wit_HbmPlacement :
    (let A := 378 * 2 ^ 30 - 1
     A < 378 * 2 ^ 30 ∧ State.reset.rekeys = [] ∧ State.reset.pcRets = [] ∧ State.reset.rgnOn (A / 2 ^ 30) = true ∧
      State.reset.rgnMode (A / 2 ^ 30) < 3 ∧ State.reset.rgnSlice (A / 2 ^ 30) < 378) ∧
    (∀ m ∈ [1, 2], let s := withRegs [(rHbmRgn 0, 2 ^ 14 + m + 376 * 16)]
      s.rgnOn 0 = true ∧ s.rgnMode 0 = m ∧ s.rgnSlice 0 + 1 < 378) := by decide +kernel

/-! ### The spec's worked examples -/

/-- Chapter 02, single values under each mode: 490, 500 and -0.0009 to F8, 70,000 to F16, NaN to INT8. -/
theorem test_convert_values :
    let f8 (w round mode : Nat) := let c := cvtElem (Fmt.elem .f8) round mode 0 (decodeF32 w); (c.code, c.sat)
    let f16 (round mode : Nat) := let c := cvtElem (Fmt.elem .f16) round mode 0 (decodeF32 0x4788B800); (c.code, c.sat)
    [0, 1, 2].map (f8 0x43F50000 0) = [(0x7F, false), (0x7F, false), (0x7F, false)] ∧
    [0, 1, 2].map (f8 0x43FA0000 0) = [(0x7F, true), (0x7F, true), (0x80, true)] ∧
    [0, 1, 2].map (f8 0x43FA0000 1) = [(0x7F, false), (0x7F, false), (0x7F, false)] ∧
    [0, 1, 2].map (f8 0xBA6BEDFA 0) = [(0, false), (0, false), (0, false)] ∧
    [0, 1, 2, 3].map (f16 0) = [(0x7C00, true), (0x7BFF, true), (0x7E00, true), (0x7C00, true)] ∧
    [0, 1, 2, 3].map (f16 1) = [(0x7BFF, true), (0x7BFF, true), (0x7E00, true), (0x7BFF, true)] ∧
    cvtElem (Fmt.elem .int8) 0 0 0 (decodeF32 nanF32) = { code := 0, sat := false, inv := true } := by decide +kernel

/-- Chapter 02, one block of activations to FB4, block 16, RNE, AUTO, under FLOOR and FIT. -/
theorem test_convert_fb4 :
    let vs := [0x3E99999A, 0xBF8CCCCD, 0x4039999A, 0x3D4CCCCD, 0xBF1EB852, 0x3FE00000, 0xC059999A, 0x00000000,
      0x3F733333, 0xBE4CCCCD, 0x3FA66666, 0x400CCCCD, 0xBEE66666, 0x3F333333, 0xBFCCCCCD, 0x40633333].map decodeF32
    let floor := cvtBlock .fb4 ⟨false, false, 0, 0⟩ [] vs
    let fit := cvtBlock .fb4 ⟨false, true, 0, 0⟩ [] vs
    floor.scale = 126 ∧ floor.codes = [1, 0xC, 7, 0, 0xA, 6, 0xF, 0, 4, 9, 5, 6, 0xA, 3, 0xD, 7] ∧
    fit.scale = 127 ∧ fit.codes = [1, 0xA, 5, 0, 9, 4, 0xD, 0, 2, 0, 3, 4, 9, 1, 0xB, 6] := by decide +kernel

/-- Chapter 03, tolerance: of an error of 0.25 in one cell where PK = 6 and G = 416, at TOLSH 23 the row test of 64
cells fails and the column test of 128 does not; at TOLSH 30 both fail. -/
theorem test_tolerance :
    let q : Cell := { acc := 0, pk := 6, sum := 0, hit := false }
    let bad : List Cell := [{ q with acc := 0x3E800000 }]
    lineOk false 416 64 23 bad q = false ∧ lineOk false 416 128 23 bad q = true ∧
    lineOk false 416 64 30 bad q = false ∧ lineOk false 416 128 30 bad q = false := by decide +kernel

/-- Chapter 08, decoding an address in a full tier, and the reserve target of its line. -/
theorem test_ddr_decode :
    let s := withRegs [(rDdrGeom, 0xFF + 2 ^ 12 * 4 + 2 ^ 15 * 4 + 2 ^ 18 * 3 + 2 ^ 44 * 8192)]
    let l : DdrLine := { ch := 0, rank := 1, sub := 0, bank := 4 * 3 + 3, row := 4660, col := 51 }
    s.ddrCap = 3968 * 2 ^ 30 ∧ s.ddrDecode 0x101234567890 = l ∧ (s.ddrDecode 0x101234567990).ch = 1 ∧
    s.reserveLine l = { l with ch := 2, rank := 3, row := 254102 } := by decide +kernel

/-- Chapter 12, a read from E18 to port 1 of M2: it leaves by port 9 of router (0, 0) of die 0, and its stamp extends. -/
theorem test_route :
    (route (enginePoint 18) (stackPoint 2 1)).getLast? = some (routerPoint 0 0 0 9, 1) ∧
    (route (enginePoint 18) (stackPoint 2 1)).contains (routerPoint 0 0 1 2, 0) = true ∧
    enginePoint 18 = routerPoint 0 2 2 4 ∧ fullStamp 0x1234570050 0xFFF0 = 0x123456FFF0 := by decide +kernel

/-- Chapter 13, R336: port A writes byte 1 of a block RAM in each write mode; port B reads the halfword at another edge. -/
theorem test_ram_modes :
    let cfg (m : RamMode) (w : Fin 7) : RamPortCfg := { clock := 0, wlog := w, outReg := false, mode := m, ecc := false }
    let r : Ram := { bits := 0x12AB, a := { read := { data := 0x77 } } }
    let a : RamAsk := { addr := 1, din := 0xCD, we := true, be := 0 }
    let ran (m : RamMode) := r.edge (cfg m 3) (cfg m 4) (fun _ _ => false) (some a) none
    [RamMode.writeFirst, .readFirst, .noChange].map (fun m => ((ran m).bits, (ran m).a.read.data)) =
      [(0xCDAB, 0xCD), (0xCDAB, 0x12), (0xCDAB, 0x77)] ∧
    (r.edge (cfg .readFirst 3) (cfg .readFirst 4) (fun _ _ => false) none (some { a with addr := 0, we := false })).b.read.data =
      0x12AB := by decide +kernel

/-- R338: a flipped bit of a word, or of its check bits, is corrected and shown; two are found. -/
theorem test_ram_ecc : eccRead 5 0 = { data := 5 } ∧ eccRead 5 1 = { data := 4, fixed := true } ∧
    eccRead 5 (2 ^ 64) = { data := 5, fixed := true } ∧ eccRead 5 3 = { data := 5, bad := true } := by decide +kernel

/-- Table 13.2: the splice that is a D source of each cell. -/
theorem test_splices : (List.range 7).map spliceOf = [0, 4, 1, 6, 2, 5, 3] := by decide

end Sys2Proof.Tests
end

section
/-! PROOFS. What no command does: the laws of the Keeps files, put together for exec. -/

namespace Sys2Proof.Machine

/-- Every command keeps the queue, device time, the count of free values and the canonical form of memory: one arm for
each command, which cites the law of its meaning. -/
theorem exec_keeps (c : Instr) (s : State) : KeepsO s (exec c s) :=
  match c with
  | .powerOnReset _ => execPowerOnReset_keeps .rfl
  | .deviceWarmReset => execDeviceWarmReset_keeps .rfl
  | .railDroop => execRailDroop_keeps .rfl
  | .powerDown => execPowerDown_keeps .rfl
  | .bootChain _ => execBootChain_keeps .rfl
  | .bist _ => execBist_keeps .rfl
  | .laneCalibration => execLaneCalibration_keeps .rfl
  | .hbmTraining => execHbmTraining_keeps .rfl
  | .hbmZeroing => execHbmZeroing_keeps .rfl
  | .enginesIntoService => execEnginesIntoService_keeps .rfl
  | .bootFabricLoad => execBootFabricLoad_keeps .rfl
  | .ethernetBringUp => execEthernetBringUp_keeps .rfl
  | .ddr5Training _ _ => execDdr5Training_keeps .rfl
  | .ddr5Zeroing => execDdr5Zeroing_keeps .rfl
  | .cxlZeroing _ => execCxlZeroing_keeps .rfl
  | .esNop _ _ => execEsNop_keeps .rfl
  | .add _ _ => execAdd_keeps .rfl
  | .sub _ _ => execSub_keeps .rfl
  | .and _ _ => execAnd_keeps .rfl
  | .or _ _ => execOr_keeps .rfl
  | .xor _ _ => execXor_keeps .rfl
  | .shl _ _ => execShl_keeps .rfl
  | .shr _ _ => execShr_keeps .rfl
  | .sra _ _ => execSra_keeps .rfl
  | .slt _ _ => execSlt_keeps .rfl
  | .sltu _ _ => execSltu_keeps .rfl
  | .mul _ _ => execMul_keeps .rfl
  | .addi _ _ => execAddi_keeps .rfl
  | .andi _ _ => execAndi_keeps .rfl
  | .ori _ _ => execOri_keeps .rfl
  | .xori _ _ => execXori_keeps .rfl
  | .shli _ _ => execShli_keeps .rfl
  | .shri _ _ => execShri_keeps .rfl
  | .movi _ _ => execMovi_keeps .rfl
  | .movk _ _ => execMovk_keeps .rfl
  | .ld _ _ => execLd_keeps .rfl
  | .st _ _ => execSt_keeps .rfl
  | .ldw _ _ => execLdw_keeps .rfl
  | .stw _ _ => execStw_keeps .rfl
  | .loadDataReturn _ _ _ => execLoadDataReturn_keeps .rfl
  | .beq _ _ => execBeq_keeps .rfl
  | .bne _ _ => execBne_keeps .rfl
  | .blt _ _ => execBlt_keeps .rfl
  | .bge _ _ => execBge_keeps .rfl
  | .bltu _ _ => execBltu_keeps .rfl
  | .jmp _ _ => execJmp_keeps .rfl
  | .jr _ _ => execJr_keeps .rfl
  | .mpass _ _ => execMpass_keeps .rfl
  | .strm _ _ => execStrm_keeps .rfl
  | .swait _ _ => execSwait_keeps .rfl
  | .fence _ _ => execFence_keeps .rfl
  | .vlaunch _ _ => execVlaunch_keeps .rfl
  | .vwait _ _ => execVwait_keeps .rfl
  | .gsig _ _ => execGsig_keeps .rfl
  | .gwait _ _ => execGwait_keeps .rfl
  | .gwaitReturn _ _ => execGwaitReturn_keeps .rfl
  | .gset _ _ => execGset_keeps .rfl
  | .grd _ _ => execGrd_keeps .rfl
  | .rddt _ _ => execRddt_keeps .rfl
  | .rdsr _ _ => execRdsr_keeps .rfl
  | .plrd _ _ => execPlrd_keeps .rfl
  | .yield _ _ => execYield_keeps .rfl
  | .halt _ _ => execHalt_keeps .rfl
  | .slotHalted _ _ => execSlotHalted_keeps .rfl
  | .streamDescriptorStart _ _ => execStreamDescriptorStart_keeps .rfl
  | .streamDescriptorComplete _ _ => execStreamDescriptorComplete_keeps .rfl
  | .passIssue _ => execPassIssue_keeps .rfl
  | .drainStart _ _ => execDrainStart_keeps .rfl
  | .verdict _ => execVerdict_keeps .rfl
  | .release _ => execRelease_keeps .rfl
  | .replay _ => execReplay_keeps .rfl
  | .partnerRun _ _ => execPartnerRun_keeps .rfl
  | .lineRemap _ _ => execLineRemap_keeps .rfl
  | .passPreempt _ _ => execPassPreempt_keeps .rfl
  | .passResume _ _ => execPassResume_keeps .rfl
  | .vtNop _ => execVtNop_keeps .rfl
  | .vld _ => execVld_keeps .rfl
  | .vlds _ => execVlds_keeps .rfl
  | .vst _ => execVst_keeps .rfl
  | .vstm _ => execVstm_keeps .rfl
  | .sld _ => execSld_keeps .rfl
  | .sst _ => execSst_keeps .rfl
  | .amov _ => execAmov_keeps .rfl
  | .aget _ => execAget_keeps .rfl
  | .vadd _ => execVadd_keeps .rfl
  | .vsub _ => execVsub_keeps .rfl
  | .vmax _ => execVmax_keeps .rfl
  | .vmin _ => execVmin_keeps .rfl
  | .vand _ => execVand_keeps .rfl
  | .vor _ => execVor_keeps .rfl
  | .vxor _ => execVxor_keeps .rfl
  | .vshl _ => execVshl_keeps .rfl
  | .vshr _ => execVshr_keeps .rfl
  | .vcmp _ => execVcmp_keeps .rfl
  | .vsel _ => execVsel_keeps .rfl
  | .vbcst _ => execVbcst_keeps .rfl
  | .vperm _ => execVperm_keeps .rfl
  | .vextr _ => execVextr_keeps .rfl
  | .vcvt _ => execVcvt_keeps .rfl
  | .vmaxi _ => execVmaxi_keeps .rfl
  | .vmini _ => execVmini_keeps .rfl
  | .smaxi _ => execSmaxi_keeps .rfl
  | .smini _ => execSmini_keeps .rfl
  | .vtopk _ => execVtopk_keeps .rfl
  | .sadd _ => execSadd_keeps .rfl
  | .ssub _ => execSsub_keeps .rfl
  | .smul _ => execSmul_keeps .rfl
  | .smovi _ => execSmovi_keeps .rfl
  | .slui _ => execSlui_keeps .rfl
  | .br _ => execBr_keeps .rfl
  | .varm _ => execVarm_keeps .rfl
  | .vdisarm _ => execVdisarm_keeps .rfl
  | .vreti _ => execVreti_keeps .rfl
  | .vsig _ => execVsig_keeps .rfl
  | .vsrrd _ => execVsrrd_keeps .rfl
  | .vsrwr _ => execVsrwr_keeps .rfl
  | .vflags _ => execVflags_keeps .rfl
  | .vmul _ => execVmul_keeps .rfl
  | .vfma _ => execVfma_keeps .rfl
  | .vfms _ => execVfms_keeps .rfl
  | .vfnma _ => execVfnma_keeps .rfl
  | .vdot2 _ => execVdot2_keeps .rfl
  | .vrsum _ => execVrsum_keeps .rfl
  | .vexp2 _ => execVexp2_keeps .rfl
  | .vlog2 _ => execVlog2_keeps .rfl
  | .vrcp _ => execVrcp_keeps .rfl
  | .vrsqrt _ => execVrsqrt_keeps .rfl
  | .vsilu _ => execVsilu_keeps .rfl
  | .vgelu _ => execVgelu_keeps .rfl
  | .verf _ => execVerf_keeps .rfl
  | .resultLand _ => execResultLand_keeps .rfl
  | .threadEnd _ => execThreadEnd_keeps .rfl
  | .threadSwitch _ => execThreadSwitch_keeps .rfl
  | .bankDrained _ _ => execBankDrained_keeps .rfl
  | .gateHandlerEntry _ => execGateHandlerEntry_keeps .rfl
  | .gateSignalArrival _ _ => execGateSignalArrival_keeps .rfl
  | .nop _ => execNop_keeps .rfl
  | .partConfig _ => execPartConfig_keeps .rfl
  | .partGrant _ => execPartGrant_keeps .rfl
  | .partRegulate _ => execPartRegulate_keeps .rfl
  | .regRead _ => execRegRead_keeps .rfl
  | .regWrite _ => execRegWrite_keeps .rfl
  | .hbmRegion _ => execHbmRegion_keeps .rfl
  | .rekey _ => execRekey_keeps .rfl
  | .retire _ => execRetire_keeps .rfl
  | .fwPatch _ => execFwPatch_keeps .rfl
  | .fwImage _ => execFwImage_keeps .rfl
  | .dump _ => execDump_keeps .rfl
  | .reset _ => execReset_keeps .rfl
  | .queueCreate _ => execQueueCreate_keeps .rfl
  | .queueDelete _ => execQueueDelete_keeps .rfl
  | .ctxCreate _ => execCtxCreate_keeps .rfl
  | .ctxConfig _ => execCtxConfig_keeps .rfl
  | .ctxTeardown _ => execCtxTeardown_keeps .rfl
  | .ctxPlace _ => execCtxPlace_keeps .rfl
  | .ctxUnplace _ => execCtxUnplace_keeps .rfl
  | .imemWrite _ => execImemWrite_keeps .rfl
  | .run _ => execRun_keeps .rfl
  | .chain _ => execChain_keeps .rfl
  | .convert _ => execConvert_keeps .rfl
  | .copy _ => execCopy_keeps .rfl
  | .pageMove _ => execPageMove_keeps .rfl
  | .xlateInval _ => execXlateInval_keeps .rfl
  | .gateSignal _ => execGateSignal_keeps .rfl
  | .stotDiscard _ => execStotDiscard_keeps .rfl
  | .freeze _ => execFreeze_keeps .rfl
  | .unfreeze _ => execUnfreeze_keeps .rfl
  | .peerSet _ => execPeerSet_keeps .rfl
  | .peerClear _ => execPeerClear_keeps .rfl
  | .peerClearTimeout _ => execPeerClearTimeout_keeps .rfl
  | .fabLoad _ => execFabLoad_keeps .rfl
  | .fabBlank _ => execFabBlank_keeps .rfl
  | .commandStart _ => execCommandStart_keeps .rfl
  | .completionRecordWrite _ => execCompletionRecordWrite_keeps .rfl
  | .eventRecord _ => execEventRecord_keeps .rfl
  | .frameReceive _ _ _ => execFrameReceive_keeps .rfl
  | .write _ => execWrite_keeps .rfl
  | .read _ => execRead_keeps .rfl
  | .readResp _ => execReadResp_keeps .rfl
  | .doorbell _ => execDoorbell_keeps .rfl
  | .gateSignalMessage _ => execGateSignalMessage_keeps .rfl
  | .stot _ => execStot_keeps .rfl
  | .ack _ => execAck_keeps .rfl
  | .ackTimer _ => execAckTimer_keeps .rfl
  | .notice _ => execNotice_keeps .rfl
  | .probe _ => execProbe_keeps .rfl
  | .packetTransmit _ => execPacketTransmit_keeps .rfl
  | .retransmissionTimer _ _ => execRetransmissionTimer_keeps .rfl
  | .hello _ => execHello_keeps .rfl
  | .finish _ => execFinish_keeps .rfl
  | .attestReq _ => execAttestReq_keeps .rfl
  | .certsReq _ => execCertsReq_keeps .rfl
  | .unlock _ => execUnlock_keeps .rfl
  | .ptpHoldover => execPtpHoldover_keeps .rfl
  | .autoNegotiation _ _ _ => execAutoNegotiation_keeps .rfl
  | .linkTraining _ _ => execLinkTraining_keeps .rfl
  | .maxWaitTimer _ _ => execMaxWaitTimer_keeps .rfl
  | .pcsAlignment _ _ => execPcsAlignment_keeps .rfl
  | .alignmentTimeout _ _ => execAlignmentTimeout_keeps .rfl
  | .fecWindow _ _ _ _ => execFecWindow_keeps .rfl
  | .lossOfLink _ _ => execLossOfLink_keeps .rfl
  | .holdOffExpiry _ _ => execHoldOffExpiry_keeps .rfl
  | .pfcQuantaExpiry _ _ _ => execPfcQuantaExpiry_keeps .rfl
  | .eyeScanStart _ => execEyeScanStart_keeps .rfl
  | .eyeScanDone _ _ _ _ _ _ => execEyeScanDone_keeps .rfl
  | .cxlDetect _ _ => execCxlDetect_keeps .rfl
  | .cxlBringUp _ _ => execCxlBringUp_keeps .rfl
  | .cxlLinkDown _ => execCxlLinkDown_keeps .rfl
  | .cxlMedia _ => execCxlMedia_keeps .rfl
  | .cxlHotAttach _ _ => execCxlHotAttach_keeps .rfl
  | .creditRequest _ _ => execCreditRequest_keeps .rfl
  | .creditGrant _ => execCreditGrant_keeps .rfl
  | .packetInject _ => execPacketInject_keeps .rfl
  | .packetEject _ => execPacketEject_keeps .rfl
  | .partitionGrantReturn _ _ _ => execPartitionGrantReturn_keeps .rfl
  | .islandWake _ => execIslandWake_keeps .rfl
  | .fabricPortRequest _ _ _ => execFabricPortRequest_keeps .rfl
  | .fabricPortTimeout _ => execFabricPortTimeout_keeps .rfl
  | .regionRelease _ => execRegionRelease_keeps .rfl
  | .loadSegment _ => execLoadSegment_keeps .rfl
  | .regionBlanking _ => execRegionBlanking_keeps .rfl
  | .readback _ => execReadback_keeps .rfl
  | .readbackDone => execReadbackDone_keeps .rfl
  | .bbramCommit => execBbramCommit_keeps .rfl
  | .bbramErase => execBbramErase_keeps .rfl
  | .browseFrame _ _ => execBrowseFrame_keeps .rfl
  | .browseWriteback _ _ => execBrowseWriteback_keeps .rfl
  | .browseWatchdog _ => execBrowseWatchdog_keeps .rfl
  | .queueProcessorPatch => execQueueProcessorPatch_keeps .rfl
  | .dcWatchdog => execDcWatchdog_keeps .rfl
  | .dcMemoryError => execDcMemoryError_keeps .rfl
  | .dcSelfTest _ => execDcSelfTest_keeps .rfl
  | .hbmSkewSampleExpiry _ _ _ _ => execHbmSkewSampleExpiry_keeps .rfl
  | .softRepair _ _ _ _ => execSoftRepair_keeps .rfl
  | .hbmPcRetire _ => execHbmPcRetire_keeps .rfl
  | .migrationChunk _ => execMigrationChunk_keeps .rfl
  | .refresh _ _ _ _ => execRefresh_keeps .rfl
  | .mr4Poll _ _ _ => execMr4Poll_keeps .rfl
  | .targetedRefresh _ _ _ _ => execTargetedRefresh_keeps .rfl
  | .rowDisturbanceWindow _ => execRowDisturbanceWindow_keeps .rfl
  | .actStorm _ _ _ _ => execActStorm_keeps .rfl
  | .ddrSkew _ _ _ _ _ _ => execDdrSkew_keeps .rfl
  | .dqsTracking _ => execDqsTracking_keeps .rfl
  | .frequencyChange _ => execFrequencyChange_keeps .rfl
  | .rankRetire _ _ _ _ => execRankRetire_keeps .rfl
  | .selfRefreshEntry _ => execSelfRefreshEntry_keeps .rfl
  | .selfRefreshExit _ => execSelfRefreshExit_keeps .rfl
  | .lowTimingSetEntry _ => execLowTimingSetEntry_keeps .rfl
  | .lowTimingSetExit _ => execLowTimingSetExit_keeps .rfl
  | .engineClockGate _ => execEngineClockGate_keeps .rfl
  | .herdRetention _ => execHerdRetention_keeps .rfl
  | .routerClockGate _ => execRouterClockGate_keeps .rfl
  | .governorUpdate _ => execGovernorUpdate_keeps .rfl
  | .governorCalibration _ => execGovernorCalibration_keeps .rfl
  | .capmiss => execCapmiss_keeps .rfl
  | .temperatureAlert => execTemperatureAlert_keeps .rfl
  | .thermalTrip => execThermalTrip_keeps .rfl
  | .dimmTemperatureRead _ => execDimmTemperatureRead_keeps .rfl
  | .pmbusTelemetry _ => execPmbusTelemetry_keeps .rfl
  | .pmbusAlert _ => execPmbusAlert_keeps .rfl
  | .engineWatchdog _ => execEngineWatchdog_keeps .rfl
  | .streamWatchdog _ _ => execStreamWatchdog_keeps .rfl
  | .queueWatchdog _ => execQueueWatchdog_keeps .rfl
  | .suspectReplay _ _ => execSuspectReplay_keeps .rfl
  | .quiesceFence _ => execQuiesceFence_keeps .rfl
  | .teardownTimeout _ => execTeardownTimeout_keeps .rfl
  | .dumpCollect => execDumpCollect_keeps .rfl
  | .dumpAccessTimeout => execDumpAccessTimeout_keeps .rfl
  | .dumpSend => execDumpSend_keeps .rfl
  | .engineRetirement _ _ => execEngineRetirement_keeps .rfl
  | .healthRecordWrite => execHealthRecordWrite_keeps .rfl
  | .mtCkstatClear _ => execMtCkstatClear_keeps .rfl
  | .hbmEccClear => execHbmEccClear_keeps .rfl
  | .ddrEccClear _ => execDdrEccClear_keeps .rfl
  | .ethFecClear _ _ => execEthFecClear_keeps .rfl
  | .cxlErrClear _ => execCxlErrClear_keeps .rfl
  | .nocPrbctlClear _ => execNocPrbctlClear_keeps .rfl
  | .nocTrctlClear _ => execNocTrctlClear_keeps .rfl
  | .brwCntClear _ => execBrwCntClear_keeps .rfl
  | .registerWrite _ _ => execRegisterWrite_keeps .rfl
  | .memoryTargetResponse _ _ => execMemoryTargetResponse_keeps .rfl
  | .fabricLogicResponse _ _ _ => execFabricLogicResponse_keeps .rfl
  | .revokeZeroing _ => execRevokeZeroing_keeps .rfl
  | .localSupplyDroop _ => execLocalSupplyDroop_keeps .rfl
  | .localSupplyRecovery _ => execLocalSupplyRecovery_keeps .rfl
  | .votefix _ => execVotefix_keeps .rfl
  | .pcieRecovery _ _ => execPcieRecovery_keeps .rfl
  | .ptpDelayRequest => execPtpDelayRequest_keeps .rfl
  | .jtagInstruction _ => execJtagInstruction_keeps .rfl

/-- Settles O5 (log 2, log 5): what `exec_keeps` says of every command, read off for the queue, DT and the count of free
values. -/
theorem commandsLeaveQueueAndTime : Obligations.CommandsLeaveQueueAndTime := by
  intro c s t h
  have hk : Keeps s t := by simpa only [h, KeepsO] using exec_keeps c s
  exact ⟨hk.pending, hk.dt, hk.free⟩

end Sys2Proof.Machine
end

section
/-! PROOFS. What a step does on an empty queue: device time over the parts of a tick. -/

namespace Sys2Proof.Machine

/-! ### Device time over what one tick does -/

/-- A fold whose step leaves a projection of the accumulator as it is leaves it as it was. -/
theorem foldl_proj {α β γ : Type} {π : β → γ} {f : β → α → β} (h : ∀ b a, π (f b a) = π b) (l : List α) (b : β) :
    π (l.foldl f b) = π b := by
  induction l generalizing b with
  | nil => rfl
  | cons a l ih => exact (ih (f b a)).trans (h b a)

@[simp] theorem State.traceRecord_dt (s : State) (b d : Nat) (p : NocPkt) : (s.traceRecord b d p).dt = s.dt := by
  unfold State.traceRecord
  dsimp only
  split_ifs <;> simp

@[simp] theorem State.probeOne_dt (s : State) (p : Nat) (k : NocPkt) (x : Nat × Nat) (d : Nat) :
    (s.probeOne p k x d).dt = s.dt := by
  unfold State.probeOne
  dsimp only
  split
  · rfl
  · split <;> simp

@[simp] theorem State.probeEntry_dt (s : State) (k : NocPkt) : (s.probeEntry k).dt = s.dt := by
  unfold State.probeEntry
  split
  · exact foldl_proj (π := State.dt) (fun s x => foldl_proj (fun s p => s.probeOne_dt p k x _) _ s) _ s
  · rfl

@[simp] theorem State.inject_dt (s : State) (p : NocPkt) : (s.inject p).dt = s.dt := by simp [State.inject]

@[simp] theorem State.draw_dt (s : State) (src p kind n : Nat) : (s.draw src p kind n).dt = s.dt := by
  unfold State.draw
  dsimp only
  split_ifs <;> simp

@[simp] theorem State.tryInject_dt (s : State) (p : NocPkt) : (s.tryInject p).dt = s.dt := by
  unfold State.tryInject
  dsimp only
  split_ifs <;> simp

@[simp] theorem State.portsTick_dt (s : State) : s.portsTick.dt = s.dt := by
  unfold State.portsTick
  split
  · rfl
  · exact foldl_proj State.tryInject_dt _ s

@[simp] theorem State.fabTick_dt (s : State) : s.fabTick.dt = s.dt := by
  unfold State.fabTick
  split <;> rfl

theorem State.fabTick_of_no_logic {s : State} (h : s.fab.logic = []) : s.fabTick = s := if_pos h

theorem State.portsTick_of_nothing_held {s : State} (hh : s.noc.held = []) (hk : s.noc.kept = []) :
    s.portsTick = s := if_pos ⟨hh, hk⟩

/-! ### The step on an empty queue -/

theorem step_of_empty {s : State} (h : s.pending = []) : step s = .next s.tick := by
  unfold step; rw [h]

theorem State.tick_of_down {s : State} (h : s.pwr.up = false) : s.tick = s := by simp [State.tick, h]

theorem State.tick_of_up {s : State} (h : s.pwr.up = true) :
    s.tick = { s.fabTick.portsTick with dt := s.dt + 1 } := by simp [State.tick, h]

theorem State.ticked_pending (s : State) : s.fabTick.portsTick.pending = s.pending :=
  (State.portsTick_keeps (State.fabTick_keeps .rfl)).pending

/-- Settles O2 (log 2): a step on the empty queue is one tick, and each part of a tick leaves DT to the count at its
end. -/
theorem idleStepTakesOneUnitOfTime : Obligations.IdleStepTakesOneUnitOfTime := by
  intro s hq
  rw [step_of_empty hq]
  refine ⟨fun hd => by rw [State.tick_of_down hd], fun hu => ⟨_, rfl, ?_⟩⟩
  rw [State.tick_of_up hu]
  refine ⟨rfl, s.ticked_pending.trans hq, rfl, fun hl hh hk => ?_⟩
  rw [State.fabTick_of_no_logic hl, State.portsTick_of_nothing_held hh hk]

end Sys2Proof.Machine
end

section
/-! PROOFS. Which registers there are beside their actions, and what a plain write of one leaves unchanged (R8, R9). -/

namespace Sys2Proof.Machine

/-! ### Named offsets and what a write of each does -/

theorem regDef_rLctl : ∀ l ∈ List.range 48, (regDef (rLctl l)).isSome := by decide +kernel
theorem regDef_rEthMac : ∀ p ∈ List.range 2, (regDef (rEthMac p)).isSome := by decide +kernel
theorem regDef_rEthPcfg : ∀ p ∈ List.range 2, (regDef (rEthPcfg p)).isSome := by decide +kernel
theorem regDef_rDdrTsel : ∀ c ∈ List.range 8, (regDef (rDdrTsel c)).isSome := by decide +kernel
theorem regDef_rNocTrctl : ∀ b ∈ List.range 3, (regDef (rNocTrctl b)).isSome := by decide +kernel
theorem regDef_rNocPrbctl : ∀ p ∈ List.range 40, (regDef (rNocPrbctl p)).isSome := by decide +kernel
theorem regDef_rCfgBbkey : ∀ w ∈ List.range 4, (regDef (rCfgBbkey w)).isSome := by decide +kernel
theorem regDef_rBrwCtl : ∀ u ∈ List.range 2, (regDef (rBrwCtl u)).isSome := by decide +kernel

theorem regDef_of_find {r : Nat → Nat} {n i off : Nat} (hr : ∀ l ∈ List.range n, (regDef (r l)).isSome)
    (h : (List.range n).find? (fun l => r l == off) = some i) : (regDef off).isSome := by
  have he : r i = off := by simpa using List.find?_some h
  exact he ▸ hr i (List.mem_of_find?_eq_some h)

/-- A write acts beside its value only at the offset of a register. -/
theorem regAct_of_regDef_none {off : Nat} (h : regDef off = none) : regAct off = .plain := by
  have hoff {r : Nat} (hr : (regDef r).isSome) : off ≠ r := by rintro rfl; simp [h] at hr
  have hfind {r : Nat → Nat} {n i : Nat} (hr : ∀ l ∈ List.range n, (regDef (r l)).isSome) :
      (List.range n).find? (fun l => r l == off) ≠ some i := fun e => by simpa [h] using regDef_of_find hr e
  have hnone {r : Nat → Nat} {n : Nat} (hr : ∀ l ∈ List.range n, (regDef (r l)).isSome) :
      (List.range n).find? (fun l => r l == off) = none :=
    Option.eq_none_iff_forall_ne_some.2 fun _ => hfind hr
  have hbb : off ≠ rCfgBbctl := hoff (by decide +kernel)
  have hrb : off ≠ rCfgRbctl := hoff (by decide +kernel)
  have hdmp : off ≠ rDmpBase := hoff (by decide +kernel)
  have hm0 : off ≠ rEthMac 0 := hoff (regDef_rEthMac 0 (by decide))
  have hm1 : off ≠ rEthMac 1 := hoff (regDef_rEthMac 1 (by decide))
  unfold regAct
  simp [hbb, hrb, hdmp, hm0, hm1, h, hnone regDef_rLctl, hnone regDef_rEthPcfg, hnone regDef_rDdrTsel,
    hnone regDef_rNocTrctl, hnone regDef_rNocPrbctl, hnone regDef_rCfgBbkey, hnone regDef_rBrwCtl]

/-! ### A write of a register -/

theorem State.regWrite_reserved {s : State} {off : Nat} {v : W64} (h : regReserved off = true) : s.regWrite off v = s :=
  if_pos h

theorem State.regWrite_plain {s : State} {off : Nat} {v : W64} (hr : regReserved off = false)
    (ha : regAct off = .plain) : s.regWrite off v = s.regStore off v := by
  simp [State.regWrite, hr, ha]

theorem State.regWrite_mac {s : State} {off : Nat} {v : W64} (hr : regReserved off = false) (ha : regAct off = .mac) :
    s.regWrite off v = (s.regStore off v).releaseHeld := by
  simp [State.regWrite, hr, ha]

theorem State.regWrite_counts {s : State} {off : Nat} (hr : regReserved off = false) (ha : regAct off = .counts) :
    s.regWrite off (BitVec.ofNat 64 (2 ^ 63)) = s.setReg off 0 := by
  have hb : bf (BitVec.ofNat 64 (2 ^ 63)) 63 1 = 1 := by decide
  simp only [State.regWrite, hr, ha, hb, Bool.false_eq_true, if_false, if_true]

theorem State.regWrite_prbctl {s : State} {off p : Nat} {v : W64} (hr : regReserved off = false)
    (ha : regAct off = .prbctl p) : s.regWrite off v = s.writePrbctl p v := by
  simp [State.regWrite, hr, ha]

theorem State.regWrite_trctl {s : State} {off b : Nat} {v : W64} (hr : regReserved off = false)
    (ha : regAct off = .trctl b) : s.regWrite off v = s.writeTrctl b v := by
  simp [State.regWrite, hr, ha]

theorem State.regStore_none {s : State} {off : Nat} {v : W64} (h : regDef off = none) : s.regStore off v = s := by
  simp [State.regStore, h]

theorem State.regStore_some {s : State} {off : Nat} {v : W64} {d : RegDef} (h : regDef off = some d) :
    s.regStore off v = s.setReg off (mergeWrite d (s.reg off) v) := by
  simp [State.regStore, h]

/-- A write that finds no register without an action of its own changes nothing (R9). -/
theorem State.regWrite_regDef_none {s : State} {off : Nat} {v : W64} (h : regDef off = none) :
    s.regWrite off v = s := by
  by_cases hr : regReserved off = true
  · exact State.regWrite_reserved hr
  · rw [State.regWrite_plain (by simpa using hr) (regAct_of_regDef_none h), State.regStore_none h]

/-- Table 0.2, bit by bit: RW bits take the value, W1C bits written as 1 clear, every other bit stays. -/
theorem mergeWrite_getLsbD (d : RegDef) (old new : W64) {i : Nat} (hi : i < 64) :
    (mergeWrite d old new).getLsbD i =
      if d.rw.testBit i then new.getLsbD i
      else if d.w1c.testBit i then old.getLsbD i && !new.getLsbD i
      else old.getLsbD i := by
  simp only [mergeWrite, BitVec.getLsbD_or, BitVec.getLsbD_and, BitVec.getLsbD_not, BitVec.getLsbD_ofNat, hi,
    decide_true, Bool.true_and]
  cases d.rw.testBit i <;> cases d.w1c.testBit i <;> simp

theorem State.releaseHeld_regs_mem (s : State) : s.releaseHeld.regs = s.regs ∧ s.releaseHeld.mem = s.mem := by
  have h := fun (l : List (Nat × Out)) (t : State) =>
    foldl_proj (π := fun t : State => (t.regs, t.mem)) (f := fun t e => t.emit e.2) (fun _ _ => rfl) l t
  exact Prod.mk.inj (h _ _)

/-! ### Only some registers change -/

theorem State.onlyRegs_setReg (s : State) (off : Nat) (v : W64) : s.onlyRegs (s.setReg off v) [off] :=
  ⟨rfl, fun x hx => by rw [State.reg_setReg, if_neg (by simpa using hx)]⟩

theorem State.onlyRegs.trans {s t u : State} {a b c : List Nat} (h : s.onlyRegs t a) (h' : t.onlyRegs u b)
    (ha : a ⊆ c) (hb : b ⊆ c) : s.onlyRegs u c := by
  obtain ⟨e, f⟩ := h
  obtain ⟨e', f'⟩ := h'
  refine ⟨by rw [e', e], fun x hx => (f' x fun m => hx (hb m)).trans (f x fun m => hx (ha m))⟩

theorem State.onlyRegs.mem {s t : State} {a : List Nat} (h : s.onlyRegs t a) : t.mem = s.mem := by
  rw [h.1]

end Sys2Proof.Machine
end

section
/-! PROOFS. The fields of words, and the writes of registers: REGISTER_WRITE and the CLEAR writes. -/

namespace Sys2Proof.Machine

/-! ### Fields of words -/

theorem bf_testBit (w : W64) (lo n i : Nat) : (bf w lo n).testBit i = (decide (i < n) && w.getLsbD (lo + i)) := by
  simp [bf, bitsOf, Nat.testBit_mod_two_pow, Nat.testBit_shiftRight, BitVec.getLsbD]

theorem bset_getLsbD (w : W64) (lo n v : Nat) {i : Nat} (hi : i < 64) :
    (bset w lo n v).getLsbD i = if lo ≤ i ∧ i < lo + n then v.testBit (i - lo) else w.getLsbD i := by
  simp only [bset, fm, fv, BitVec.getLsbD_or, BitVec.getLsbD_and, BitVec.getLsbD_not, BitVec.getLsbD_ofNat, hi,
    Nat.testBit_shiftLeft, Nat.testBit_two_pow_sub_one, Nat.testBit_mod_two_pow, decide_true, Bool.true_and]
  by_cases h : lo ≤ i
  · have hl : i - lo < n ↔ i < lo + n := by omega
    by_cases h' : i < lo + n <;> simp [h, h', hl]
  · simp [h]

theorem bf_bset_self (w : W64) (v : Nat) {lo n : Nat} (h : lo + n ≤ 64) : bf (bset w lo n v) lo n = v % 2 ^ n := by
  refine Nat.eq_of_testBit_eq fun i => ?_
  rw [bf_testBit, Nat.testBit_mod_two_pow]
  by_cases hi : i < n
  · rw [bset_getLsbD _ _ _ _ (by omega), if_pos (by omega), Nat.add_sub_cancel_left]
  · simp [hi]

theorem bf_bset_disjoint (w : W64) (v : Nat) {lo n lo' n' : Nat} (h : lo + n ≤ lo' ∨ lo' + n' ≤ lo)
    (h64 : lo' + n' ≤ 64) : bf (bset w lo n v) lo' n' = bf w lo' n' := by
  refine Nat.eq_of_testBit_eq fun i => ?_
  rw [bf_testBit, bf_testBit]
  by_cases hi : i < n'
  · rw [bset_getLsbD _ _ _ _ (by omega), if_neg (by omega)]
  · simp [hi]

theorem fv_eq (lo n v : Nat) : fv lo n v = v % 2 ^ n * 2 ^ lo := Nat.shiftLeft_eq _ _

theorem bf_ofNat (x lo n : Nat) : bf (BitVec.ofNat 64 x) lo n = x % 2 ^ 64 / 2 ^ lo % 2 ^ n := by
  simp [bf, bitsOf, Nat.shiftRight_eq_div_pow]

theorem bf_lt (w : W64) (lo n : Nat) : bf w lo n < 2 ^ n := Nat.mod_lt _ (Nat.two_pow_pos n)

/-! ### The CLEAR writes (R87, R207, R232, R298, R306, R325, R326, R377) -/

theorem mtCkstat_counts : ∀ e : Fin 64, regReserved (rMtCkstat e) = false ∧ regAct (rMtCkstat e) = .counts := by
  decide +kernel
theorem hbmEcc_counts : regReserved rHbmEcc = false ∧ regAct rHbmEcc = .counts := by decide +kernel
theorem ddrEcc_counts : ∀ c : Fin 8, regReserved (rDdrEcc c) = false ∧ regAct (rDdrEcc c) = .counts := by
  decide +kernel
theorem ethFec_counts : ∀ (p : Fin 2) (k : Fin 4),
    regReserved (rEthFec p k) = false ∧ regAct (rEthFec p k) = .counts := by
  decide +kernel
theorem cxlErr_counts : ∀ p : Fin 2, regReserved (rCxlErr p) = false ∧ regAct (rCxlErr p) = .counts := by
  decide +kernel
theorem brwCnt_counts : ∀ u : Fin 2, regReserved (rBrwCnt u) = false ∧ regAct (rBrwCnt u) = .counts := by
  decide +kernel
theorem nocPrbctl_act : ∀ p : Fin 40, regReserved (rNocPrbctl p) = false ∧ regAct (rNocPrbctl p) = .prbctl p := by
  decide +kernel
theorem nocTrctl_act : ∀ b : Fin 3, regReserved (rNocTrctl b) = false ∧ regAct (rNocTrctl b) = .trctl b := by
  decide +kernel

/-- CLEAR of a register of counts zeroes it and changes nothing else. -/
theorem State.regWrite_clear (s : State) {off : Nat} (h : regReserved off = false ∧ regAct off = .counts) :
    s.onlyRegs (s.regWrite off (BitVec.ofNat 64 (2 ^ 63))) [off] ∧
      (s.regWrite off (BitVec.ofNat 64 (2 ^ 63))).reg off = 0 := by
  rw [State.regWrite_counts h.1 h.2]
  exact ⟨s.onlyRegs_setReg off 0, s.reg_setReg_self off 0⟩

theorem State.onlyRegs_regStore (s : State) (off : Nat) (v : W64) : s.onlyRegs (s.regStore off v) [off] := by
  unfold State.regStore
  split
  · exact ⟨rfl, fun _ _ => rfl⟩
  · exact s.onlyRegs_setReg off _

/-- CLEAR of a probe (R325): its packet and byte counts are zero, and only its own registers change. -/
theorem State.writePrbctl_clear (s : State) (p : Nat) {v : W64} (h : bf v 19 1 = 1) :
    s.onlyRegs (s.writePrbctl p v) [rNocPrbctl p, rNocPrbpkt p, rNocPrbbyte p] ∧
      (s.writePrbctl p v).reg (rNocPrbpkt p) = 0 ∧ (s.writePrbctl p v).reg (rNocPrbbyte p) = 0 := by
  have he : s.writePrbctl p v = ((s.regStore (rNocPrbctl p) v).setReg (rNocPrbpkt p) 0).setReg (rNocPrbbyte p) 0 :=
    if_pos h
  rw [he]
  refine ⟨?_, by simp [State.reg_setReg], State.reg_setReg_self _ _ _⟩
  exact ((s.onlyRegs_regStore _ v).trans (State.onlyRegs_setReg _ _ 0) (c := [rNocPrbctl p, rNocPrbpkt p])
    (by simp) (by simp)).trans (State.onlyRegs_setReg _ _ 0) (by simp) (by simp)

/-- The trace without buffer b has no record of it. -/
theorem oget_filter_buffer (t : Tab (List W64)) (b : Nat) {k : Nat} (h : k / 16384 = b) :
    oget (t.filter (fun e => e.1 / 16384 != b)) k = none := by
  induction t with
  | nil => rfl
  | cons x t ih =>
    rw [List.filter_cons]
    split
    next hx =>
      have hk : x.1 ≠ k := by rintro rfl; simp [h] at hx
      simpa [oget, hk] using ih
    · exact ih

/-- CLEAR of a trace buffer (R326): it is empty, its register keeps the stop mode alone. -/
theorem State.writeTrctl_clear (s : State) (b : Nat) {v : W64} (h : bf v 17 1 = 1) :
    (s.writeTrctl b v).reg (rNocTrctl b) = BitVec.ofNat 64 (fv 16 1 (bf v 16 1)) ∧
    (s.writeTrctl b v).mem = s.mem ∧ (∀ i, i < 16384 → oget (s.writeTrctl b v).noc.trace (b * 16384 + i) = none) ∧
    ∀ off, off ≠ rNocTrctl b → (s.writeTrctl b v).reg off = s.reg off := by
  unfold State.writeTrctl
  simp only [h, if_true]
  refine ⟨State.reg_setReg_self _ _ _, ?_, fun i hi => ?_, fun off ho => ?_⟩
  · rw [State.setReg_mem]
    exact (s.onlyRegs_regStore (rNocTrctl b) v).mem
  · rw [State.setReg_noc]
    exact oget_filter_buffer _ _ (by omega)
  · rw [State.reg_setReg, if_neg ho]
    exact (s.onlyRegs_regStore (rNocTrctl b) v).2 off (by simpa using ho)

/-! ### REGISTER_WRITE -/

theorem exec_registerWrite_of_bad {s : State} {off : Nat} {v : W64}
    (h : off % 8 ≠ 0 ∨ 2 ^ 24 ≤ off ∨ regReserved off = true ∨ regDef off = none) :
    exec (.registerWrite off v) s = .next s := by
  change execRegisterWrite off v s = _
  unfold execRegisterWrite
  split
  next hok =>
    obtain ⟨ha, hlt⟩ := hok
    rcases h with h | h | h | h
    · exact absurd ha h
    · omega
    · rw [State.regWrite_reserved h]
    · rw [State.regWrite_regDef_none h]
  · rfl

theorem exec_registerWrite_of_ok {s : State} {off : Nat} {v : W64} (ha : off % 8 = 0) (hlt : off < 2 ^ 24) :
    exec (.registerWrite off v) s = .next (s.regWrite off v) := if_pos ⟨ha, hlt⟩

/-- A plain register takes the merged value, and nothing else changes; one of ETH_MAC may also let answers leave. -/
theorem State.regWrite_merges {s : State} {off : Nat} {v : W64} {d : RegDef} (hr : regReserved off = false)
    (ha : regAct off = .plain ∨ regAct off = .mac) (hd : regDef off = some d) :
    (regAct off = .plain → s.onlyRegs (s.regWrite off v) [off]) ∧ (s.regWrite off v).mem = s.mem ∧
      (s.regWrite off v).regs = (s.setReg off (mergeWrite d (s.reg off) v)).regs := by
  rcases ha with ha | ha
  · rw [State.regWrite_plain hr ha, State.regStore_some hd]
    exact ⟨fun _ => s.onlyRegs_setReg off _, rfl, rfl⟩
  · rw [State.regWrite_mac hr ha, State.regStore_some hd]
    obtain ⟨h1, h2⟩ := State.releaseHeld_regs_mem (s.setReg off (mergeWrite d (s.reg off) v))
    exact ⟨fun hp => by simp [ha] at hp, h2, h1⟩

theorem State.reg_congr {s t : State} (h : s.regs = t.regs) (off : Nat) : s.reg off = t.reg off := by
  unfold State.reg; rw [h]

/-- Settles O57: a write finds no register, or merges its value, or is one of the CLEAR writes above. -/
theorem registerWrites : Obligations.RegisterWrites := by
  intro s
  refine ⟨fun off v => ⟨exec_registerWrite_of_bad, fun d ha hlt hr hact hd => ?_⟩,
    fun e => ⟨_, rfl, s.regWrite_clear (mtCkstat_counts e)⟩, ⟨_, rfl, s.regWrite_clear hbmEcc_counts⟩,
    fun c => ⟨_, rfl, s.regWrite_clear (ddrEcc_counts c)⟩, fun p k => ⟨_, rfl, s.regWrite_clear (ethFec_counts p k)⟩,
    fun p => ⟨_, rfl, s.regWrite_clear (cxlErr_counts p)⟩, fun u => ⟨_, rfl, s.regWrite_clear (brwCnt_counts u)⟩,
    fun p => ⟨_, rfl, ?_⟩, fun b => ⟨_, rfl, ?_⟩⟩
  · obtain ⟨honly, hmem, hregs⟩ := State.regWrite_merges (s := s) (v := v) hr hact hd
    refine ⟨_, exec_registerWrite_of_ok ha hlt, honly, hmem, fun x hx => ?_, fun i hi => ?_⟩
    · rw [State.reg_congr hregs, State.reg_setReg, if_neg hx]
    · rw [State.reg_congr hregs, State.reg_setReg_self]
      exact mergeWrite_getLsbD d (s.reg off) v hi
  · obtain ⟨hr, ha⟩ := nocPrbctl_act p
    rw [State.regWrite_prbctl hr ha]
    exact s.writePrbctl_clear p (bf_bset_self _ _ (by decide))
  · obtain ⟨hr, ha⟩ := nocTrctl_act b
    rw [State.regWrite_trctl hr ha]
    obtain ⟨hreg, hmem, htrace, hrest⟩ := s.writeTrctl_clear b
      (v := bset (s.reg (rNocTrctl b)) 17 1 1) (bf_bset_self _ _ (by decide))
    have hmode : bf (bset (s.reg (rNocTrctl b)) 17 1 1) 16 1 = s.fld (rNocTrctl b) 16 1 :=
      bf_bset_disjoint _ _ (by decide) (by decide)
    have hlt := bf_lt (s.reg (rNocTrctl b)) 16 1
    rw [hmode] at hreg
    unfold State.fld at hreg ⊢
    simp only [hreg, fv_eq, bf_ofNat]
    exact ⟨by omega, by omega, by omega, hmem, htrace, hrest⟩

end Sys2Proof.Machine
end

section
/-! PROOFS. The start of a queue's command: what is left unchanged until its own work begins, and how it finishes. -/

namespace Sys2Proof.Machine

/-! ### What the books of the command set leave unchanged -/

/-- From s to t nothing has changed but registers, the queues and commands, and the count of free values. -/
def State.booksOnly (s t : State) : Prop :=
  t = { s with free := t.free, regs := t.regs, queues := t.queues, cmds := t.cmds, nextCmd := t.nextCmd }

theorem State.booksOnly.trans {s t u : State} (h : s.booksOnly t) (h' : t.booksOnly u) : s.booksOnly u := by
  unfold State.booksOnly at *
  rw [h', h]

theorem State.booksOnly_foldl_updQueue (g : Queue → Queue) (l : List Nat) (s : State) :
    s.booksOnly (l.foldl (fun s j => s.updQueue j g) s) := by
  induction l generalizing s with
  | nil => rfl
  | cons j l ih => exact State.booksOnly.trans (t := s.updQueue j g) rfl (ih _)

section
variable {s t : State} (h : s.booksOnly t)
include h

theorem State.booksOnly.dt : t.dt = s.dt := by rw [h]
theorem State.booksOnly.mem : t.mem = s.mem := by rw [h]
theorem State.booksOnly.net : t.net = s.net := by rw [h]
theorem State.booksOnly.ctx (c : Nat) : t.ctx c = s.ctx c := by rw [h]; rfl
theorem State.booksOnly.part (p : Nat) : t.part p = s.part p := by rw [h]; rfl
theorem State.booksOnly.eng (n : Nat) : t.eng n = s.eng n := by rw [h]; rfl
theorem State.booksOnly.ent (i : Nat) : t.ent i = s.ent i := by rw [h]; rfl
theorem State.booksOnly.slotOf (n c : Nat) : t.slotOf n c = s.slotOf n c := by rw [h]; rfl

end

/-! ### The entry that a queue gives -/

theorem State.booksOnly_passEntry (s : State) (q : Nat) : s.booksOnly (s.passEntry q) := by
  unfold State.passEntry
  dsimp only
  split
  · exact (State.booksOnly_foldl_updQueue _ (s.classOf q) s).trans rfl
  · rfl

theorem State.passEntry_reg (s : State) (q : Nat) {o : Nat} (h : o ≠ rQpQ q) : (s.passEntry q).reg o = s.reg o := by
  unfold State.passEntry
  dsimp only
  split
  · refine ((State.reg_setReg _ _ _ _).trans (if_neg h)).trans ?_
    exact foldl_proj (π := fun t : State => t.reg o) (f := fun s j => s.updQueue j _) (fun _ _ => rfl) _ s
  · exact (State.reg_setReg _ _ _ _).trans (if_neg h)

theorem State.passEntry_cmds (s : State) (q : Nat) : (s.passEntry q).cmds = s.cmds := by
  unfold State.passEntry
  dsimp only
  split
  · exact foldl_proj (π := State.cmds) (f := fun s j => s.updQueue j _) (fun _ _ => rfl) _ s
  · rfl

/-- A test of Table 9.4 that an accepted entry has passed. -/
theorem status_of_passed {c : Prop} [Decidable c] {st : Nat} {froze : Bool} {x : Nat × Bool} (hst : st ≠ 0)
    (h : (if c then (st, froze) else x) = (0, false)) : x = (0, false) := by
  split at h
  · exact absurd (congrArg Prod.fst h) hst
  · exact h

/-- An accepted entry has passed its row's own check (Table 9.4). -/
theorem State.check_of_entryStatus {s : State} {r : CmdRow} {c : Cmd} {poison : Bool}
    (h : s.entryStatus r c poison = (0, false)) : r.check s c = 0 := by
  unfold State.entryStatus at h
  -- the tests of Table 9.4 before the row's own
  iterate 8 replace h := status_of_passed (by decide) h
  split at h
  · assumption
  · exact congrArg Prod.fst h

/-! ### The state in which its work begins -/

theorem State.booksOnly_running (s : State) (r : CmdRow) (q : Nat) : s.booksOnly (s.running r q) :=
  (s.booksOnly_passEntry q).trans (by rfl)

section
variable (s : State) (r : CmdRow) (q : Nat)

theorem State.running_reg {o : Nat} (h : o ≠ rQpQ q) : (s.running r q).reg o = s.reg o := s.passEntry_reg q h

theorem State.running_cmds : (s.running r q).cmds =
    (s.cmds ++ [s.taken r q]).map (fun c => if c.id = s.nextCmd then s.runningCmd r q else c) := by
  rw [← s.passEntry_cmds q]; rfl

theorem State.mem_running_cmds : s.runningCmd r q ∈ (s.running r q).cmds := by
  rw [s.running_cmds r q]
  exact List.mem_map.2 ⟨s.taken r q, by simp, if_pos rfl⟩

/-- No other command has the number of the one that begins. -/
theorem State.eq_of_mem_running_cmds {c : Cmd} (h : c ∈ (s.running r q).cmds) (hi : c.id = s.nextCmd) :
    c = s.runningCmd r q := by
  rw [s.running_cmds r q] at h
  obtain ⟨d, -, rfl⟩ := List.mem_map.1 h
  split at hi
  · exact if_pos ‹_›
  · contradiction

theorem State.running_cmd : (s.running r q).cmd s.nextCmd = some (s.runningCmd r q) := by
  unfold State.cmd
  cases hf : (s.running r q).cmds.find? (fun c => c.id == s.nextCmd) with
  | none => exact absurd (List.find?_eq_none.1 hf _ (s.mem_running_cmds r q)) (by simp; rfl)
  | some d => rw [s.eq_of_mem_running_cmds r q (List.mem_of_find?_eq_some hf) (by simpa using List.find?_some hf)]

theorem State.keepsRunning_of_cmds {t : State} (h : t.cmds = (s.running r q).cmds) : s.keepsRunning t q :=
  ⟨s.runningCmd r q, h ▸ s.mem_running_cmds r q, rfl, rfl, rfl⟩

end

/-- A command that nothing holds or refuses starts at once (R239, R243). -/
theorem acceptCmd_of_starts {s : State} {r : CmdRow} {q : Nat} (h : s.starts r q) :
    acceptCmd r q s = .next (r.start (s.running r q) (s.runningCmd r q)) := by
  obtain ⟨hserve, hop, hstatus, hhold⟩ := h
  have hdt : (s.queued r q).dt = s.dt := (s.booksOnly_passEntry q).dt
  have hrun : s.runningCmd r q = { s.taken r q with
      st := .running, started := true, start := if (s.taken r q).started then (s.taken r q).start else (s.queued r q).dt,
      engines := r.seats (s.queued r q) (s.taken r q) } := by
    rw [hdt]; rfl
  have hnext : (s.passEntry q).letIn r (s.readEntry q) = (s.queued r q).startCmd r (s.taken r q) :=
    if_neg (fun e => Bool.false_ne_true (hhold.symm.trans e))
  have hstart : (s.queued r q).startCmd r (s.taken r q) = r.start (s.running r q) (s.runningCmd r q) := by
    unfold State.running
    rw [hrun]
    rfl
  unfold acceptCmd
  rw [if_pos ⟨hserve, .inl hop⟩]
  unfold State.acceptEntry
  simp only [hstatus, hnext, hstart]

/-! ### How it finishes -/

theorem State.booksOnly_finishCmd (s : State) (i : Nat) : s.booksOnly (s.finishCmd i) := by
  unfold State.finishCmd
  split <;> rfl

@[simp] theorem State.reg_finishCmd (s : State) (i o : Nat) : (s.finishCmd i).reg o = s.reg o := by
  unfold State.finishCmd
  split <;> rfl

theorem State.queue_finishCmd {s : State} {i : Nat} {c : Cmd} (h : s.cmd i = some c) (j : Nat) :
    (s.finishCmd i).queue j = if j = c.q then
      { s.queue j with recs := (s.queue j).recs ++
          [{ c with st := .done, fin := s.dt, start := if c.started then c.start else s.dt }] }
    else s.queue j := by
  unfold State.finishCmd
  simp only [h, State.updQueue_eq, State.queue_setQueue]
  split
  · subst j; rfl
  · rfl

theorem State.mem_recs_finishCmd {s : State} {i : Nat} {c : Cmd} (h : s.cmd i = some c) :
    { c with st := .done, fin := s.dt, start := if c.started then c.start else s.dt } ∈
      ((s.finishCmd i).queue c.q).recs := by
  rw [State.queue_finishCmd h, if_pos rfl]
  simp

/-- Where the command that queue q gave still stands as it began, but for what its record waits for, its end at the same
DT finishes it. -/
theorem State.finishes_finishCmd {s t : State} {r : CmdRow} {q : Nat} {ops : List Nat} (hd : t.dt = s.dt)
    (hc : t.cmd s.nextCmd = some { s.runningCmd r q with ops := ops }) : s.finishes (t.finishCmd s.nextCmd) q 0 :=
  ⟨_, State.mem_recs_finishCmd hc, rfl, rfl, rfl, rfl, hd⟩

end Sys2Proof.Machine
end

section
/-! PROOFS. The work of the commands over partitions and registers (R8, R9, R233, R250, R450, R452). -/

namespace Sys2Proof.Machine

/-! ### A result of 8 bytes to the host (R241) -/

theorem State.cmd_updCmd (s : State) (i : Nat) {f : Cmd → Cmd} (hf : ∀ c, (f c).id = c.id) :
    (s.updCmd i f).cmd i = (s.cmd i).map f := by
  have hp : (fun c : Cmd => c.id == i) ∘ (fun c => if c.id = i then f c else c) = fun c => c.id == i := by
    funext c
    by_cases h : c.id = i <;> simp [h, hf]
  unfold State.cmd State.updCmd
  rw [List.find?_map, hp]
  refine Option.map_congr fun c hc => if_pos ?_
  simpa using List.find?_some hc

theorem State.mtu_ge (s : State) (i : Nat) : 1024 ≤ s.mtu i := by
  unfold State.mtu
  split <;> decide

/-- Eight bytes are one packet. -/
theorem State.dataPkts_word (s : State) (i kind : Nat) (base : Pkt) (a : Nat) {bs : List Byte} (h : bs.length = 8) :
    s.dataPkts i kind base a bs = [{ base with kind := kind, arg := a, body := bs, first := true, last := true }] := by
  have hm := s.mtu_ge i
  have hc : bs.length ≤ s.mtu i := by omega
  simp [State.dataPkts, cutBytes, firstLast, hc]

theorem State.hostResult_ctx (s : State) (c : Cmd) (a v x : Nat) : (s.hostResult c a v).ctx x = s.ctx x := by
  unfold State.hostResult State.postHost State.post
  split <;> rfl

/-- Where the partition's host entry takes it, a result is a packet for the host, and the command waits for one more
operation. -/
theorem State.hostResult_taken {s : State} {c : Cmd} (a v : Nat) (h : s.entRefuses (hostEnt c.part) = none) :
    (s.hostResult c a v).dt = s.dt ∧
    (s.hostResult c a v).cmd c.id = (s.cmd c.id).map (fun d => { d with ops := d.ops ++ [s.net.nextOp] }) ∧
    (s.hostResult c a v).toHost c.part a (leBytes 8 v) := by
  unfold State.hostResult State.postHost State.post
  simp only [h]
  refine ⟨rfl, State.cmd_updCmd _ _ fun _ => rfl, ?_⟩
  rw [State.dataPkts_word _ _ _ _ _ (by simp [leBytes])]
  refine ⟨{ p := { kind := 1, arg := a, body := leBytes 8 v, first := true, last := true }, op := s.net.nextOp }, ?_,
    rfl, rfl, rfl⟩
  have he := s.ent_setEnt_self (hostEnt c.part)
    { s.ent (hostEnt c.part) with tx := (s.ent (hostEnt c.part)).tx ++
        [{ p := { kind := 1, arg := a, body := leBytes 8 v, first := true, last := true }, op := s.net.nextOp }] }
  exact (congrArg Entry.tx he).symm ▸ (by simp)

/-! ### Commands that finish at once -/

theorem State.finishes_of_cmds {s t : State} {r : CmdRow} {q : Nat} (hd : t.dt = (s.running r q).dt)
    (hc : t.cmds = (s.running r q).cmds) : s.finishes (t.finishCmd s.nextCmd) q 0 := by
  refine State.finishes_finishCmd (r := r) (ops := (s.runningCmd r q).ops)
    (hd.trans (s.booksOnly_running r q).dt) ?_
  unfold State.cmd
  rw [hc]
  exact s.running_cmd r q

/-- NOP and XLATE_INVAL (R243, R186; log 13): nothing is left to do. -/
theorem State.running_finishes (s : State) (r : CmdRow) (q : Nat) :
    s.finishes ((s.running r q).finishCmd s.nextCmd) q 0 ∧ ((s.running r q).finishCmd s.nextCmd).mem = s.mem :=
  ⟨State.finishes_of_cmds (r := r) rfl rfl,
    (State.booksOnly_finishCmd _ _).mem.trans (s.booksOnly_running r q).mem⟩

/-! ### PART_CONFIG, PART_GRANT, PART_REGULATE (R233, R250, R452) -/

theorem opf_lt (c : Cmd) (n lo w : Nat) : c.opf n lo w < 2 ^ w := bf_lt _ _ _

/-- The word that PART_CONFIG writes to QP_PART. -/
theorem partConfigStart_reg (s : State) (c : Cmd) : (partConfigStart s c).reg (rQpPart (c.opf 0 0 3)) =
    BitVec.ofNat 64 (fv 63 1 (c.opf 0 3 1) + fv 52 11 (c.opf 1 16 11) + fv 42 10 (c.opf 1 0 10) +
      fv 14 15 (c.opf 0 32 15) + fv 0 14 (c.opf 0 16 14)) := by
  have hne : rQpPart (c.opf 0 0 3) ≠ rQpPevt (c.opf 0 0 3) := by unfold rQpPart rQpPevt; omega
  simp [partConfigStart, State.reg_setReg, hne]

theorem partConfigStart_evAddr (s : State) (c : Cmd) :
    ((partConfigStart s c).part (c.opf 0 0 3)).evAddr = (c.op 2).toNat := by
  unfold partConfigStart
  rw [(State.booksOnly_finishCmd _ _).part, State.updPart_eq, State.part_setPart_self]
  split
  · exact And.left ‹_›
  · rfl

theorem partConfig_effect (s : State) (q : Nat) :
    let c := s.taken partConfigRow q
    let t := partConfigStart (s.running partConfigRow q) (s.runningCmd partConfigRow q)
    s.finishes t q 0 ∧
      t.fld (rQpPart (c.opf 0 0 3)) 63 1 = c.opf 0 3 1 ∧ t.fld (rQpPart (c.opf 0 0 3)) 0 14 = c.opf 0 16 14 ∧
      t.fld (rQpPart (c.opf 0 0 3)) 14 15 = c.opf 0 32 15 ∧ t.fld (rQpPart (c.opf 0 0 3)) 42 10 = c.opf 1 0 10 ∧
      t.fld (rQpPart (c.opf 0 0 3)) 52 11 = c.opf 1 16 11 ∧ (t.part (c.opf 0 0 3)).evAddr = (c.op 2).toNat := by
  intro c t
  have hreg : t.reg (rQpPart (c.opf 0 0 3)) = BitVec.ofNat 64 (fv 63 1 (c.opf 0 3 1) + fv 52 11 (c.opf 1 16 11) +
      fv 42 10 (c.opf 1 0 10) + fv 14 15 (c.opf 0 32 15) + fv 0 14 (c.opf 0 16 14)) :=
    partConfigStart_reg _ (s.runningCmd partConfigRow q)
  have h1 := opf_lt c 0 3 1
  have h2 := opf_lt c 1 16 11
  have h3 := opf_lt c 1 0 10
  have h4 := opf_lt c 0 32 15
  have h5 := opf_lt c 0 16 14
  refine ⟨State.finishes_of_cmds (r := partConfigRow) rfl rfl, ?_, ?_, ?_, ?_, ?_,
    partConfigStart_evAddr _ (s.runningCmd partConfigRow q)⟩ <;>
    simp only [State.fld, hreg, bf_ofNat, fv_eq] <;> omega

/-- The commands that a revoke waits for are those of the state before it (R452). -/
theorem State.running_cmds_before (s : State) (r : CmdRow) (q p : Nat) :
    (s.running r q).cmds.filter (fun d => d.part == p && decide (d.id < s.nextCmd)) =
      s.cmds.filter (fun d => d.part == p && decide (d.id < s.nextCmd)) := by
  have hp : (fun d : Cmd => d.part == p && decide (d.id < s.nextCmd)) ∘
      (fun c => if c.id = s.nextCmd then s.runningCmd r q else c) =
      fun d => d.part == p && decide (d.id < s.nextCmd) := by
    funext c
    have hid : (s.runningCmd r q).id = s.nextCmd := rfl
    by_cases h : c.id = s.nextCmd <;> simp [h, hid]
  have hnew : (s.taken r q).id = s.nextCmd := rfl
  rw [s.running_cmds r q, List.filter_map, hp, List.filter_append]
  simp only [List.filter_cons, hnew, lt_irrefl, decide_false, Bool.and_false, Bool.false_eq_true, if_false,
    List.filter_nil, List.append_nil]
  refine (List.map_congr_left fun c hc => if_neg ?_).trans (List.map_id _)
  have := List.of_mem_filter hc
  simp only [Bool.and_eq_true, decide_eq_true_eq] at this
  omega

theorem State.showGrant_cmds (s : State) (g : Grant) (p : Nat) (on : Bool) : (s.showGrant g p on).cmds = s.cmds := by
  unfold State.showGrant; split <;> rfl

theorem State.booksOnly_showGrant (s : State) (g : Grant) (p : Nat) (on : Bool) : s.booksOnly (s.showGrant g p on) := by
  unfold State.showGrant; split <;> rfl

/-- A grant's own work: it is among the partition's grants afterwards. -/
theorem partGrantStart_grants {s : State} {c : Cmd} (h : c.opf 0 3 1 ≠ 1) :
    c.grant ∈ ((partGrantStart s c).part (c.opf 0 0 3)).grants := by
  unfold partGrantStart
  simp only [h, if_false]
  rw [(State.booksOnly_finishCmd _ _).part, (State.booksOnly_showGrant _ _ _ _).part, State.updPart_eq,
    State.part_setPart_self]
  split
  · exact List.contains_iff_mem.1 ‹_›
  · simp

theorem partGrant_effect (s : State) (q : Nat) :
    let c := s.taken partGrantRow q
    let t := partGrantStart (s.running partGrantRow q) (s.runningCmd partGrantRow q)
    if c.opf 0 3 1 = 1 then s.keepsRunning t q ∧ (t.part (c.opf 0 0 3)).grants = (s.part (c.opf 0 0 3)).grants ∧
        ∃ r ∈ (t.part (c.opf 0 0 3)).revoking, r.cmd = s.nextCmd ∧ r.grant = c.grant ∧
          r.waits = (s.cmds.filter (fun d => d.part == c.opf 0 0 3 && decide (d.id < s.nextCmd))).map Cmd.id
      else s.finishes t q 0 ∧ c.grant ∈ (t.part (c.opf 0 0 3)).grants := by
  intro c t
  by_cases h : c.opf 0 3 1 = 1
  · have ht : t = (s.running partGrantRow q).updPart (c.opf 0 0 3) (fun x => { x with revoking := x.revoking ++
        [{ cmd := s.nextCmd, grant := c.grant,
           waits := ((s.running partGrantRow q).cmds.filter
             (fun d => d.part == c.opf 0 0 3 && decide (d.id < s.nextCmd))).map Cmd.id }] }) := if_pos h
    rw [if_pos h, ht, State.running_cmds_before, State.updPart_eq, State.part_setPart_self]
    have hg : ((s.running partGrantRow q).part (c.opf 0 0 3)).grants = (s.part (c.opf 0 0 3)).grants := by
      rw [(s.booksOnly_running partGrantRow q).part]
    exact ⟨s.keepsRunning_of_cmds partGrantRow q rfl, hg, _,
      List.mem_append_right _ (List.mem_singleton.2 rfl), rfl, rfl, rfl⟩
  · rw [if_neg h]
    have ht : t = (((s.running partGrantRow q).updPart (c.opf 0 0 3) (fun x =>
        if x.grants.contains c.grant then x else { x with grants := x.grants ++ [c.grant] })).showGrant c.grant
          (c.opf 0 0 3) true).finishCmd s.nextCmd := if_neg h
    refine ⟨?_, partGrantStart_grants (c := s.runningCmd partGrantRow q) h⟩
    rw [ht]
    exact State.finishes_of_cmds (r := partGrantRow) (State.booksOnly_showGrant _ _ _ _).dt
      (State.showGrant_cmds _ _ _ _)

theorem partRegulate_effect (s : State) (q : Nat) :
    let c := s.taken partRegulateRow q
    let t := partRegulateRow.start (s.running partRegulateRow q) (s.runningCmd partRegulateRow q)
    s.finishes t q 0 ∧ t.reg (rQpPreg (c.opf 0 0 3)) = c.op 1 :=
  ⟨State.finishes_of_cmds (r := partRegulateRow) rfl rfl,
    (State.reg_finishCmd _ _ _).trans (State.reg_setReg_self _ _ _)⟩

/-! ### REG_READ and REG_WRITE (R8, R9, R450) -/

/-- Taking an entry of a queue changes no register of the transport. -/
theorem State.running_entRefuses (s : State) (r : CmdRow) (q : Nat) {p : Nat} (hp : p < 8) :
    (s.running r q).entRefuses (hostEnt p) = s.entRefuses (hostEnt p) := by
  have hne : entReg (hostEnt p) ≠ rQpQ q := by
    unfold entReg hostEnt rCtHost rQpQ
    rw [if_neg (by omega)]
    omega
  unfold State.entRefuses State.entState State.fld
  rw [s.running_reg r q hne]

/-- A result that the host entry takes is on its way, and its command finishes. -/
theorem State.hostResult_finishes {s t : State} {r : CmdRow} {q : Nat} (a v : Nat)
    (hd : t.dt = (s.running r q).dt) (hc : t.cmds = (s.running r q).cmds) (hr : t.regs = (s.running r q).regs)
    (h : s.entRefuses (hostEnt (s.taken r q).part) = none) :
    s.finishes ((t.hostResult (s.runningCmd r q) a v).finishCmd s.nextCmd) q 0 ∧
      ((t.hostResult (s.runningCmd r q) a v).finishCmd s.nextCmd).toHost (s.taken r q).part a (leBytes 8 v) := by
  have hp : (s.taken r q).part < 8 := bf_lt _ 55 3
  have ht : t.entRefuses (hostEnt (s.runningCmd r q).part) = none := by
    refine Eq.trans ?_ ((s.running_entRefuses r q hp).trans h)
    unfold State.entRefuses State.entState State.fld
    rw [State.reg_congr hr]
    rfl
  obtain ⟨hdt, hcmd, hhost⟩ := State.hostResult_taken a v ht
  have hrun : t.cmd s.nextCmd = some (s.runningCmd r q) := by
    unfold State.cmd
    rw [hc]
    exact s.running_cmd r q
  refine ⟨State.finishes_finishCmd (r := r) (ops := (s.runningCmd r q).ops ++ [t.net.nextOp])
    ((hdt.trans hd).trans (s.booksOnly_running r q).dt) (hcmd.trans ?_), ?_⟩
  · change (t.cmd s.nextCmd).map _ = _
    rw [hrun]
    rfl
  · unfold State.toHost
    rw [(State.booksOnly_finishCmd _ _).ent]
    exact hhost

theorem regRead_effect (s : State) (q : Nat) :
    let c := s.taken regReadRow q
    let t := regReadRow.start (s.running regReadRow q) (s.runningCmd regReadRow q)
    s.entRefuses (hostEnt c.part) = none → s.finishes t q 0 ∧ t.toHost c.part (c.op 1).toNat
      (leBytes 8 ((s.running regReadRow q).regRead ((c.op 0).toNat - regBase)).toNat) :=
  fun h => State.hostResult_finishes (r := regReadRow) _ _ rfl rfl rfl h

/-- REG_WRITE refuses the registers that only other commands write. -/
theorem regReserved_of_check {s : State} {c : Cmd} (h : regWriteRow.check s c = 0) :
    regReserved ((c.op 0).toNat - regBase) = false := by
  change (match regAddrCheck c with
    | 0 => if regReserved ((c.op 0).toNat - regBase) then stCmdFieldInvalid else 0
    | st => st) = 0 at h
  split at h
  · split at h
    next => exact absurd h (by decide)
    next hr => exact Bool.eq_false_iff.2 hr
  · contradiction

theorem regWriteRow_start_of_plain (s : State) {c : Cmd} {off : Nat} {d : RegDef} (ho : (c.op 0).toNat - regBase = off)
    (hr : regReserved off = false) (ha : regAct off = .plain) (hd : regDef off = some d) :
    regWriteRow.start s c = (s.setReg off (mergeWrite d (s.reg off) (c.op 1))).finishCmd c.id := by
  unfold regWriteRow
  dsimp only
  rw [ho, State.regWrite_plain hr ha, State.regStore_some hd]

theorem regWrite_effect {s : State} {q : Nat} (h : s.starts regWriteRow q) :
    let c := s.taken regWriteRow q
    let t := regWriteRow.start (s.running regWriteRow q) (s.runningCmd regWriteRow q)
    ∀ d, regDef ((c.op 0).toNat - regBase) = some d → regAct ((c.op 0).toNat - regBase) = .plain →
      s.finishes t q 0 ∧ t.reg ((c.op 0).toNat - regBase) =
        mergeWrite d ((s.running regWriteRow q).reg ((c.op 0).toNat - regBase)) (c.op 1) := by
  intro c t d hd ha
  obtain ⟨-, -, hstatus, -⟩ := h
  have hop : (s.readEntry q).op 0 = c.op 0 := rfl
  have hr := regReserved_of_check (State.check_of_entryStatus hstatus)
  rw [hop] at hr
  have ht := regWriteRow_start_of_plain (s.running regWriteRow q) (c := s.runningCmd regWriteRow q)
    (off := (c.op 0).toNat - regBase) rfl hr ha hd
  change s.finishes (regWriteRow.start _ _) q 0 ∧ (regWriteRow.start _ _).reg _ = _
  rw [ht]
  exact ⟨State.finishes_of_cmds (r := regWriteRow) rfl rfl,
    (State.reg_finishCmd _ _ _).trans (State.reg_setReg_self _ _ _)⟩

end Sys2Proof.Machine
end

section
/-! PROOFS. The work of the commands over queues and contexts (R235, R236, R248 to R252), and the family's statement. -/

namespace Sys2Proof.Machine

/-! ### QUEUE_CREATE and QUEUE_DELETE (R235, R236, R248, R249) -/

/-- What a command's end leaves of its queue but the record. -/
theorem State.queue_finishCmd_rings (s : State) (i q : Nat) :
    ((s.finishCmd i).queue q).ring = (s.queue q).ring ∧ ((s.finishCmd i).queue q).chost = (s.queue q).chost := by
  cases h : s.cmd i with
  | none => simp [State.finishCmd, h]
  | some c =>
    rw [State.queue_finishCmd h]
    split <;> exact ⟨rfl, rfl⟩

theorem rQpQ_ne_rQpQreg {q p : Nat} (h : q < 16384) : rQpQ q ≠ rQpQreg p := by unfold rQpQ rQpQreg; omega

theorem queueCreateStart_reg (s : State) (c : Cmd) : (queueCreateStart s c).reg (rQpQ (c.opf 0 0 14)) =
    BitVec.ofNat 64 (fv 61 1 1 + fv 55 3 c.part + fv 53 2 (c.opf 0 21 2) + fv 48 5 (c.opf 0 16 5)) := by
  have hne : rQpQ (c.opf 0 0 14) ≠ rQpQreg (c.opf 0 0 14) := rQpQ_ne_rQpQreg (opf_lt c 0 0 14)
  simp [queueCreateStart, State.reg_setReg, hne]

theorem queueCreateStart_rings (s : State) (c : Cmd) :
    ((queueCreateStart s c).queue (c.opf 0 0 14)).ring = (c.op 1).toNat ∧
      ((queueCreateStart s c).queue (c.opf 0 0 14)).chost = (c.op 2).toNat := by
  unfold queueCreateStart
  dsimp only
  rw [(State.queue_finishCmd_rings _ _ _).1, (State.queue_finishCmd_rings _ _ _).2, State.queue_setQueue_self]
  exact ⟨rfl, rfl⟩

theorem queueCreate_effect (s : State) (q : Nat) :
    let c := s.taken queueCreateRow q
    let t := queueCreateStart (s.running queueCreateRow q) (s.runningCmd queueCreateRow q)
    s.finishes t q 0 ∧
      t.reg (rQpQ (c.opf 0 0 14)) = BitVec.ofNat 64 (fv 61 1 1 + fv 55 3 c.part + fv 53 2 (c.opf 0 21 2) +
        fv 48 5 (c.opf 0 16 5)) ∧
      (t.queue (c.opf 0 0 14)).ring = (c.op 1).toNat ∧ (t.queue (c.opf 0 0 14)).chost = (c.op 2).toNat :=
  ⟨State.finishes_of_cmds (r := queueCreateRow) rfl rfl,
    queueCreateStart_reg _ (s.runningCmd queueCreateRow q), queueCreateStart_rings _ (s.runningCmd queueCreateRow q)⟩

theorem State.reg_closeQueue (s : State) {q : Nat} (h : q < 16384) : (s.closeQueue q).reg (rQpQ q) = 0 := by
  simp [State.closeQueue, State.reg_setReg, rQpQ_ne_rQpQreg h]

/-- A queue that another one deletes is closed before the command's record. -/
theorem queueDeleteStart_of_other {s : State} {c : Cmd} (h : c.opf 0 0 14 ≠ c.q) :
    queueDeleteStart s c = (s.closeQueue (c.opf 0 0 14)).finishCmd c.id := by
  simp [queueDeleteStart, h]

theorem queueDelete_effect (s : State) (q : Nat) :
    let c := s.taken queueDeleteRow q
    let t := queueDeleteStart (s.running queueDeleteRow q) (s.runningCmd queueDeleteRow q)
    s.finishes t q 0 ∧ (c.opf 0 0 14 ≠ q → t.reg (rQpQ (c.opf 0 0 14)) = 0 ∧ t.queue (c.opf 0 0 14) = {}) := by
  intro c t
  constructor
  · by_cases h : c.opf 0 0 14 = q
    · have ht : t = (s.running queueDeleteRow q).finishCmd s.nextCmd :=
        congrArg (State.finishCmd · s.nextCmd) (if_pos h)
      exact ht ▸ State.finishes_of_cmds (r := queueDeleteRow) rfl rfl
    · have ht : t = _ := queueDeleteStart_of_other (c := s.runningCmd queueDeleteRow q) h
      exact ht ▸ State.finishes_of_cmds (r := queueDeleteRow) rfl rfl
  · intro h
    have ht : t = ((s.running queueDeleteRow q).closeQueue (c.opf 0 0 14)).finishCmd s.nextCmd :=
      queueDeleteStart_of_other (c := s.runningCmd queueDeleteRow q) h
    have hcmd : ((s.running queueDeleteRow q).closeQueue (c.opf 0 0 14)).cmd s.nextCmd = _ :=
      s.running_cmd queueDeleteRow q
    rw [ht, State.reg_finishCmd, State.reg_closeQueue _ (opf_lt c 0 0 14), State.queue_finishCmd hcmd]
    exact ⟨rfl, (if_neg h).trans (State.queue_setQueue_self _ _ _)⟩

/-! ### CTX_CREATE (R251) -/

theorem ctxCreateStart_ctx (s : State) (c : Cmd) : (ctxCreateStart s c).ctx c.ctx =
    { live := true, gen := (s.ctx c.ctx).gen, root := some (c.op 1).toNat, seed := c.op 2,
      mtftz := c.opf 3 0 1 == 1, vtftz := c.opf 3 1 1 == 1, hcap := c.opf 3 16 12 } := by
  unfold ctxCreateStart
  dsimp only
  rw [(State.booksOnly_finishCmd _ _).ctx, State.hostResult_ctx, State.ctx_setCtx_self]

theorem ctxCreate_effect (s : State) (q : Nat) :
    let c := s.taken ctxCreateRow q
    let t := ctxCreateStart (s.running ctxCreateRow q) (s.runningCmd ctxCreateRow q)
    t.ctx c.ctx = { live := true, gen := (s.ctx c.ctx).gen, root := some (c.op 1).toNat, seed := c.op 2,
                    mtftz := c.opf 3 0 1 == 1, vtftz := c.opf 3 1 1 == 1, hcap := c.opf 3 16 12 } ∧
      (s.entRefuses (hostEnt c.part) = none →
        s.finishes t q 0 ∧ t.toHost c.part (c.op 4).toNat (leBytes 8 (s.ctx c.ctx).gen)) := by
  intro c t
  have hctx : t.ctx c.ctx = _ := ctxCreateStart_ctx _ (s.runningCmd ctxCreateRow q)
  have hgen := (s.booksOnly_running ctxCreateRow q).ctx c.ctx
  rw [hctx, ← hgen]
  exact ⟨rfl, fun h => State.hostResult_finishes (r := ctxCreateRow) _ _ rfl rfl rfl h⟩

/-! ### CTX_CONFIG (R251, R252) -/

/-- The three parts of CTX_CONFIG, each where its bit of OP0 names it: the root, the seed, the controls. -/
def State.configRoot (s : State) (c : Cmd) : State :=
  if c.opf 0 0 1 = 1 then s.updCtx c.ctx (fun y => { y with root := some (c.op 1).toNat }) else s

def State.configSeed (s : State) (c : Cmd) : State :=
  if c.opf 0 1 1 = 1 then
    (s.seatsOf c.ctx).foldl (fun s p => s.setSeeds c.ctx p.1 p.2) (s.updCtx c.ctx (fun y => { y with seed := c.op 2 }))
  else s

def State.configControls (s : State) (c : Cmd) : State :=
  if c.opf 0 2 1 = 1 then
    (s.seatsOf c.ctx).foldl (fun s p => s.setControls c.ctx p.1 p.2)
      (s.updCtx c.ctx (fun y =>
        { y with mtftz := c.opf 3 0 1 == 1, vtftz := c.opf 3 1 1 == 1, hcap := c.opf 3 16 12 }))
  else s

theorem ctxConfigStart_eq (s : State) (c : Cmd) :
    ctxConfigStart s c = (((s.configRoot c).configSeed c).configControls c).finishCmd c.id := rfl

/-- From s to t nothing has changed but registers and contexts. -/
def State.settingsOnly (s t : State) : Prop := t = { s with regs := t.regs, ctxs := t.ctxs }

theorem State.settingsOnly.trans {s t u : State} (h : s.settingsOnly t) (h' : t.settingsOnly u) : s.settingsOnly u := by
  unfold State.settingsOnly at *
  rw [h', h]

section
variable {s t : State} (h : s.settingsOnly t)
include h

theorem State.settingsOnly.dt : t.dt = s.dt := by rw [h]
theorem State.settingsOnly.cmds : t.cmds = s.cmds := by rw [h]
theorem State.settingsOnly.slotOf (n c : Nat) : t.slotOf n c = s.slotOf n c := by rw [h]; rfl

end

theorem State.settingsOnly_setSeeds (s : State) (c n k : Nat) : s.settingsOnly (s.setSeeds c n k) := rfl
theorem State.settingsOnly_setControls (s : State) (c n k : Nat) : s.settingsOnly (s.setControls c n k) := rfl

/-- Writing the settings into each seat changes registers alone. -/
theorem State.foldl_seats {f : State → Nat × Nat → State} (hf : ∀ (s : State) p, s.settingsOnly (f s p))
    (hc : ∀ s p, (f s p).ctxs = s.ctxs) (l : List (Nat × Nat)) (s : State) :
    s.settingsOnly (l.foldl f s) ∧ (l.foldl f s).ctxs = s.ctxs := by
  induction l generalizing s with
  | nil => exact ⟨rfl, rfl⟩
  | cons p l ih => exact ⟨(hf s p).trans (ih _).1, (ih _).2.trans (hc s p)⟩

theorem State.settingsOnly_configRoot (s : State) (c : Cmd) : s.settingsOnly (s.configRoot c) := by
  unfold State.configRoot
  split <;> rfl

theorem State.settingsOnly_configSeed (s : State) (c : Cmd) : s.settingsOnly (s.configSeed c) := by
  unfold State.configSeed
  split
  · exact State.settingsOnly.trans (t := s.updCtx c.ctx _) rfl
      (State.foldl_seats (fun s p => s.settingsOnly_setSeeds _ _ _) (fun _ _ => rfl) _ _).1
  · rfl

theorem State.settingsOnly_configControls (s : State) (c : Cmd) : s.settingsOnly (s.configControls c) := by
  unfold State.configControls
  split
  · exact State.settingsOnly.trans (t := s.updCtx c.ctx _) rfl
      (State.foldl_seats (fun s p => s.settingsOnly_setControls _ _ _) (fun _ _ => rfl) _ _).1
  · rfl

theorem State.ctx_configRoot (s : State) (c : Cmd) : (s.configRoot c).ctx c.ctx =
    { s.ctx c.ctx with root := if c.opf 0 0 1 = 1 then some (c.op 1).toNat else (s.ctx c.ctx).root } := by
  unfold State.configRoot
  split <;> simp

theorem State.ctx_configSeed (s : State) (c : Cmd) : (s.configSeed c).ctx c.ctx =
    { s.ctx c.ctx with seed := if c.opf 0 1 1 = 1 then c.op 2 else (s.ctx c.ctx).seed } := by
  unfold State.configSeed
  split
  · refine (congrArg (tget {} · c.ctx) (State.foldl_seats (fun s p => s.settingsOnly_setSeeds _ _ _)
      (fun _ _ => rfl) _ _).2).trans ?_
    exact State.ctx_setCtx_self _ _ _
  · rfl

theorem State.ctx_configControls (s : State) (c : Cmd) : (s.configControls c).ctx c.ctx =
    if c.opf 0 2 1 = 1 then
      { s.ctx c.ctx with mtftz := c.opf 3 0 1 == 1, vtftz := c.opf 3 1 1 == 1, hcap := c.opf 3 16 12 }
    else s.ctx c.ctx := by
  unfold State.configControls
  split
  · refine (congrArg (tget {} · c.ctx) (State.foldl_seats (fun s p => s.settingsOnly_setControls _ _ _)
      (fun _ _ => rfl) _ _).2).trans ?_
    exact State.ctx_setCtx_self _ _ _
  · rfl

theorem State.lt_of_slotOf {s : State} {n c k : Nat} (h : s.slotOf n c = some k) : k < 8 :=
  List.mem_range.1 (List.mem_of_find?_eq_some h)

theorem State.mem_seatsOf {s : State} {c n k : Nat} : (n, k) ∈ s.seatsOf c ↔ n < 64 ∧ s.slotOf n c = some k := by
  simp [State.seatsOf, List.mem_filterMap]

theorem State.reg_setSeeds (s : State) (x : Nat) {n k n' k' : Nat} (hk : k < 8) (hk' : k' < 8) :
    (s.setSeeds x n' k').reg (rVtSrm n k) =
      if n = n' ∧ k = k' then BitVec.ofNat 64 (seedState (s.ctx x).seed.toNat) else s.reg (rVtSrm n k) := by
  have hv : rVtSrm n k ≠ rVtSrv n' k' := by unfold rVtSrm rVtSrv; omega
  have hm : rVtSrm n k = rVtSrm n' k' ↔ n = n' ∧ k = k' := by unfold rVtSrm; omega
  simp only [State.setSeeds, State.reg_setReg, hv, if_false, hm]

theorem State.reg_setControls (s : State) (x : Nat) {n k n' k' : Nat} (hk : k < 8) (hk' : k' < 8) :
    (s.setControls x n' k').reg (rVtSrm n k) = s.reg (rVtSrm n k) := by
  have hm : rVtSrm n k ≠ rMtCtl n' k' := by unfold rVtSrm rMtCtl; omega
  have hv : rVtSrm n k ≠ rVtCtl n' k' := by unfold rVtSrm rVtCtl; omega
  simp only [State.setControls, State.reg_setReg, hm, hv, if_false]

/-- The seed's generator states stand in each seat, whatever seats follow it. -/
theorem State.reg_seeds {x n k : Nat} {l : List (Nat × Nat)} (hl : ∀ p ∈ l, p.2 < 8) (hk : k < 8) (s : State)
    (h : (n, k) ∈ l ∨ s.reg (rVtSrm n k) = BitVec.ofNat 64 (seedState (s.ctx x).seed.toNat)) :
    (l.foldl (fun s p => s.setSeeds x p.1 p.2) s).reg (rVtSrm n k) =
      BitVec.ofNat 64 (seedState (s.ctx x).seed.toNat) := by
  induction l generalizing s with
  | nil => exact h.resolve_left (by simp)
  | cons p l ih =>
    refine ih (fun p m => hl p (List.mem_cons_of_mem _ m)) (s.setSeeds x p.1 p.2) ?_
    rw [State.reg_setSeeds s x hk (hl p List.mem_cons_self)]
    split
    next => exact .inr rfl
    next hne =>
      refine h.imp_left fun m => (List.mem_cons.1 m).resolve_left fun e => hne ?_
      exact ⟨congrArg Prod.fst e, congrArg Prod.snd e⟩

theorem State.reg_configControls (s : State) (c : Cmd) {n k : Nat} (hk : k < 8) :
    (s.configControls c).reg (rVtSrm n k) = s.reg (rVtSrm n k) := by
  unfold State.configControls
  split
  · refine List.foldlRecOn (motive := fun t : State => t.reg (rVtSrm n k) = s.reg (rVtSrm n k)) _ _ rfl
      fun t ht p hp => ?_
    exact (State.reg_setControls t _ hk (State.lt_of_slotOf (State.mem_seatsOf.1 hp).2)).trans ht
  · rfl

theorem State.reg_configSeed {s : State} {c : Cmd} {n k : Nat} (h : c.opf 0 1 1 = 1) (hn : n < 64)
    (hs : s.slotOf n c.ctx = some k) :
    (s.configSeed c).reg (rVtSrm n k) = BitVec.ofNat 64 (seedState (c.op 2).toNat) := by
  have he : s.configSeed c = _ := if_pos h
  rw [he, State.reg_seeds (fun p hp => State.lt_of_slotOf (State.mem_seatsOf.1 hp).2) (State.lt_of_slotOf hs) _
    (.inl (State.mem_seatsOf.2 ⟨hn, hs⟩)), State.updCtx_eq, State.ctx_setCtx_self]

theorem ctxConfig_effect (s : State) (q : Nat) :
    let c := s.taken ctxConfigRow q
    let t := ctxConfigStart (s.running ctxConfigRow q) (s.runningCmd ctxConfigRow q)
    s.finishes t q 0 ∧
      (t.ctx c.ctx).root = (if c.opf 0 0 1 = 1 then some (c.op 1).toNat else (s.ctx c.ctx).root) ∧
      (t.ctx c.ctx).seed = (if c.opf 0 1 1 = 1 then c.op 2 else (s.ctx c.ctx).seed) ∧
      (t.ctx c.ctx).hcap = (if c.opf 0 2 1 = 1 then c.opf 3 16 12 else (s.ctx c.ctx).hcap) ∧
      (∀ n k, n < 64 → s.slotOf n c.ctx = some k → c.opf 0 1 1 = 1 →
        t.reg (rVtSrm n k) = BitVec.ofNat 64 (seedState (c.op 2).toNat)) := by
  intro c t
  let z := s.running ctxConfigRow q
  have hroot := z.settingsOnly_configRoot c
  have hset := (hroot.trans (State.settingsOnly_configSeed _ c)).trans (State.settingsOnly_configControls _ c)
  have ht : t = (((z.configRoot c).configSeed c).configControls c).finishCmd s.nextCmd := rfl
  have hz : z.ctx c.ctx = s.ctx c.ctx := (s.booksOnly_running ctxConfigRow q).ctx _
  have hctx : t.ctx c.ctx = (((z.configRoot c).configSeed c).configControls c).ctx c.ctx := by
    rw [ht, (State.booksOnly_finishCmd _ _).ctx]
  rw [State.ctx_configControls, State.ctx_configSeed, State.ctx_configRoot, hz] at hctx
  refine ⟨ht ▸ State.finishes_of_cmds (r := ctxConfigRow) hset.dt hset.cmds, ?_, ?_, ?_, fun n k hn hs hseed => ?_⟩
  · rw [hctx]; split <;> rfl
  · rw [hctx]; split <;> rfl
  · rw [hctx]; split <;> rfl
  · have hs' : (z.configRoot c).slotOf n c.ctx = some k :=
      ((hroot.slotOf n _).trans ((s.booksOnly_running ctxConfigRow q).slotOf n _)).trans hs
    rw [ht, State.reg_finishCmd, State.reg_configControls _ _ (State.lt_of_slotOf hs),
      State.reg_configSeed hseed hn hs']

/-! ### The family's statement -/

/-- Settles O33 (log 13, log 35): a command that starts at once runs its row's work (`acceptCmd_of_starts`), whose effect
the lemmas above state row by row. -/
theorem commandsOverPartitionsAndQueues : Obligations.CommandsOverPartitionsAndQueues := by
  intro s q
  exact ⟨fun h => ⟨_, acceptCmd_of_starts h, s.running_finishes nopRow q⟩,
    fun h => ⟨_, acceptCmd_of_starts h, s.running_finishes xlateInvalRow q⟩,
    fun h => ⟨_, acceptCmd_of_starts h, partConfig_effect s q⟩,
    fun h => ⟨_, acceptCmd_of_starts h, partGrant_effect s q⟩,
    fun h => ⟨_, acceptCmd_of_starts h, partRegulate_effect s q⟩,
    fun h => ⟨_, acceptCmd_of_starts h, regRead_effect s q⟩,
    fun h => ⟨_, acceptCmd_of_starts h, regWrite_effect h⟩,
    fun h => ⟨_, acceptCmd_of_starts h, queueCreate_effect s q⟩,
    fun h => ⟨_, acceptCmd_of_starts h, queueDelete_effect s q⟩,
    fun h => ⟨_, acceptCmd_of_starts h, ctxCreate_effect s q⟩,
    fun h => ⟨_, acceptCmd_of_starts h, ctxConfig_effect s q⟩⟩

end Sys2Proof.Machine
end

section
/-! PROOFS. The offsets of an engine's three blocks that no table lists (R87, R117, R156). -/

namespace Sys2Proof.Machine

/-- An offset that a definition holds is that of one of its words, for words of eight bytes. -/
theorem RegDef.eq_of_at {d : RegDef} {o : Nat} (h : d.at o = true) (h8 : d.stride = 8) :
    ∃ i, i < d.count ∧ o = d.base + 8 * i := by
  simp only [RegDef.at, h8, Bool.and_eq_true, decide_eq_true_eq] at h
  obtain ⟨⟨hle, hmod⟩, hlt⟩ := h
  exact ⟨(o - d.base) / 8, hlt, by omega⟩

/-- Every definition is of words of eight bytes that stand singly among `single`, or is one of the `arrays`, each a base
and a count. -/
def regsListed (ds : List RegDef) (single : List Nat) (arrays : List (Nat × Nat)) : Prop :=
  ∀ d ∈ ds, d.stride = 8 ∧ ((∀ i < d.count, d.base + 8 * i ∈ single) ∨ (d.base, d.count) ∈ arrays)

theorem not_at_of_not_listed {ds : List RegDef} {single : List Nat} {arrays : List (Nat × Nat)} {o : Nat}
    (hl : regsListed ds single arrays)
    (h : ¬ (o ∈ single ∨ ∃ a ∈ arrays, ∃ i, i < a.2 ∧ o = a.1 + 8 * i)) : ds.find? (fun d => d.at o) = none := by
  refine List.find?_eq_none.2 fun d hd hat => h ?_
  obtain ⟨h8, hlist⟩ := hl d hd
  obtain ⟨i, hi, rfl⟩ := RegDef.eq_of_at hat h8
  rcases hlist with hs | ha
  · exact .inl (hs i hi)
  · exact .inr ⟨_, ha, i, hi, rfl⟩

/-- Tables 3.8 to 3.17. -/
theorem mtDefs_listed : regsListed mtDefs [0, 8, 0x10, 0x18, 0x20, 0x28, 0x30, 0x80, 0x88, 0x90] [(0x40, 8)] := by
  unfold regsListed; decide

/-- Tables 4.10 to 4.18. -/
theorem vtDefs_listed : regsListed vtDefs [0, 8, 0x10, 0x18, 0x20]
    [(0x40, 8), (0x80, 8), (0xC0, 8), (0x100, 8), (0x140, 8)] := by
  unfold regsListed; decide

/-- Tables 5.12 to 5.23. -/
theorem esDefs_listed : regsListed esDefs [0, 8, 0x10, 0x18, 0x20, 0x28, 0x30, 0x38]
    [(0x40, 8), (0x80, 8), (0x800, 256)] := by
  unfold regsListed; decide +kernel

theorem regWindow_mt (n : Fin 64) (o : Fin 4096) : regWindow ((n : Nat) * 0x1000 + o) = (mtDefs, (o : Nat)) := by
  unfold regWindow
  rw [if_pos (by omega)]
  exact congrArg _ (by omega)

theorem regWindow_vt (n : Fin 64) (o : Fin 4096) :
    regWindow (0x40000 + (n : Nat) * 0x1000 + o) = (vtDefs, (o : Nat)) := by
  unfold regWindow
  rw [if_neg (by omega), if_pos (by omega)]
  exact congrArg _ (by omega)

theorem regWindow_es (n : Fin 64) (o : Fin 4096) :
    regWindow (0x80000 + (n : Nat) * 0x1000 + o) = (esDefs, (o : Nat)) := by
  unfold regWindow
  rw [if_neg (by omega), if_neg (by omega), if_pos (by omega)]
  exact congrArg _ (by omega)

/-- An offset that its window's definitions leave out reads zero and ignores writes (Table 0.2). -/
theorem reserved_of_not_listed (s : State) (v : W64) {off o : Nat} {ds : List RegDef} {single : List Nat}
    {arrays : List (Nat × Nat)} (hw : regWindow off = (ds, o)) (hl : regsListed ds single arrays)
    (h : ¬ (o ∈ single ∨ ∃ a ∈ arrays, ∃ i, i < a.2 ∧ o = a.1 + 8 * i)) :
    s.regRead off = 0 ∧ exec (.registerWrite off v) s = .next s := by
  have hd : regDef off = none := by
    unfold regDef
    rw [hw]
    exact not_at_of_not_listed hl h
  exact ⟨by simp only [State.regRead, hd], exec_registerWrite_of_bad (.inr (.inr (.inr hd)))⟩

/-- Settles O58: the definitions of each block are the registers that its tables list. -/
theorem reservedEngineOffsets : Obligations.ReservedEngineOffsets := by
  intro s n o v
  exact ⟨reserved_of_not_listed s v (regWindow_mt n o) mtDefs_listed,
    reserved_of_not_listed s v (regWindow_vt n o) vtDefs_listed,
    reserved_of_not_listed s v (regWindow_es n o) esDefs_listed⟩

end Sys2Proof.Machine
end

section
/-! PROOFS. Where memory lies and what a context's addresses lead to: the registers and fields of the state on which a memory
key, a region and a place depend (R180 to R185, R189 to R201, R211, R212). -/

namespace Sys2Proof.Machine

/-! ### The map of memory -/

/-- From s to t the map of memory is the same. The registers of the matrix tiles and the DDR_CHSTAT of the channels are no
part of it; a slice is asked for by field, since a re-key may name any number as its target. -/
structure State.sameMap (s t : State) : Prop where
  reg : ∀ o, 0x40000 ≤ o → (∀ c < 8, o ≠ rDdrChstat c) → t.reg o = s.reg o
  slice : ∀ r, t.fld (rHbmRgn r) 4 9 = s.fld (rHbmRgn r) 4 9
  hbmKeys : t.hbmKeys = s.hbmKeys
  rekeys : t.rekeys = s.rekeys
  pcRets : t.pcRets = s.pcRets
  rets : t.ddr.rets = s.ddr.rets

theorem State.sameMap.refl (s : State) : s.sameMap s := ⟨fun _ _ _ => rfl, fun _ => rfl, rfl, rfl, rfl, rfl⟩

theorem State.sameMap.trans {s t u : State} (h : s.sameMap t) (h' : t.sameMap u) : s.sameMap u where
  reg o ho hc := (h'.reg o ho hc).trans (h.reg o ho hc)
  slice r := (h'.slice r).trans (h.slice r)
  hbmKeys := h'.hbmKeys.trans h.hbmKeys
  rekeys := h'.rekeys.trans h.rekeys
  pcRets := h'.pcRets.trans h.pcRets
  rets := h'.rets.trans h.rets

/-- A register of a matrix tile is no part of the map. -/
theorem State.sameMap_setReg (s : State) {o : Nat} (v : W64) (h : o < 0x40000) : s.sameMap (s.setReg o v) where
  reg x hx _ := by rw [State.reg_setReg, if_neg (by omega)]
  slice r := by
    have hne : rHbmRgn r ≠ o := by unfold rHbmRgn; omega
    rw [State.fld, State.reg_setReg, if_neg hne, State.fld]
  hbmKeys := rfl
  rekeys := rfl
  pcRets := rfl
  rets := rfl

section
variable {s t : State} (h : s.sameMap t)
include h

theorem State.sameMap.reg_hbmRgn {r : Nat} (hr : r < 378) : t.reg (rHbmRgn r) = s.reg (rHbmRgn r) :=
  h.reg _ (by unfold rHbmRgn; omega) (by unfold rHbmRgn rDdrChstat; omega)

theorem State.sameMap.reg_ddrGeom : t.reg rDdrGeom = s.reg rDdrGeom :=
  h.reg _ (by decide) (by unfold rDdrGeom rDdrChstat; omega)

theorem State.sameMap.reg_ddrRankmap (c : Nat) : t.reg (rDdrRankmap c) = s.reg (rDdrRankmap c) :=
  h.reg _ (by unfold rDdrRankmap; omega) (by unfold rDdrRankmap rDdrChstat; omega)

theorem State.sameMap.reg_cxlCap (p : Nat) : t.reg (rCxlCap p) = s.reg (rCxlCap p) :=
  h.reg _ (by unfold rCxlCap rCxl; omega) (by unfold rCxlCap rCxl rDdrChstat; omega)

theorem State.sameMap.chList : t.chList = s.chList := by unfold State.chList State.fld; rw [h.reg_ddrGeom]
theorem State.sameMap.ddrNr : t.ddrNr = s.ddrNr := by unfold State.ddrNr State.fld; rw [h.reg_ddrGeom]
theorem State.sameMap.ddrRows : t.ddrRows = s.ddrRows := by unfold State.ddrRows State.fld; rw [h.reg_ddrGeom]
theorem State.sameMap.ddrRsvr : t.ddrRsvr = s.ddrRsvr := by unfold State.ddrRsvr State.fld; rw [h.reg_ddrGeom]

theorem State.sameMap.ddrDecode (a : Nat) : t.ddrDecode a = s.ddrDecode a := by
  unfold State.ddrDecode
  rw [h.chList, h.ddrNr]

theorem State.sameMap.spareLine (l : DdrLine) : t.spareLine l = s.spareLine l := by
  unfold State.spareLine State.physRank State.fld
  rw [h.rets, h.reg_ddrRankmap]

theorem State.sameMap.reserveLine (l : DdrLine) : t.reserveLine l = s.reserveLine l := by
  unfold State.reserveLine State.otherRanks
  rw [h.chList, h.ddrNr, h.ddrRows, h.ddrRsvr]

theorem State.sameMap.ddrLine (a : Nat) : t.ddrLine a = s.ddrLine a := by
  unfold State.ddrLine State.physLine
  simp only [h.rets, h.ddrDecode, h.spareLine, h.reserveLine]

theorem State.sameMap.hbmKey (k : Nat) : t.hbmKey k = s.hbmKey k := by unfold State.hbmKey; rw [h.hbmKeys]

theorem State.sameMap.oldPlace {r : Nat} (hr : r < 378) (a : Nat) : t.oldPlace r a = s.oldPlace r a := by
  unfold State.oldPlace
  simp only [h.reg_hbmRgn hr, h.hbmKey]

theorem State.sameMap.newPlace {k : Rekey} (hr : k.r < 378) (a : Nat) : t.newPlace k a = s.newPlace k a := by
  unfold State.newPlace
  rw [h.slice, h.hbmKey, State.fld, h.reg_hbmRgn hr, ← State.fld]

theorem State.sameMap.hbmReloc (pl : Nat × Nat) : t.hbmReloc pl = s.hbmReloc pl := by
  unfold State.hbmReloc
  rw [h.pcRets]

theorem State.sameMap.memKey (a : Nat) : t.memKey a = s.memKey a := by
  unfold State.memKey
  rw [h.rekeys, h.ddrLine]
  split
  next ha =>
    have hr : a / 2 ^ 30 < 378 := by omega
    dsimp only
    rw [h.hbmReloc]
    split
    next k hk =>
      have hk' := List.find?_some hk
      simp only [Bool.and_eq_true, beq_iff_eq] at hk'
      rw [h.newPlace (by omega)]
    · rw [h.oldPlace hr]
  · rfl

theorem State.sameMap.ddrCap : t.ddrCap = s.ddrCap := by
  unfold State.ddrCap
  rw [h.chList, h.ddrNr, h.ddrRows, h.ddrRsvr]

theorem State.sameMap.cxlCap (p : Nat) : t.cxlCap p = s.cxlCap p := by
  unfold State.cxlCap State.fld
  rw [h.reg_cxlCap]

theorem State.sameMap.region (a : Nat) : t.region a = s.region a := by
  unfold State.region
  rw [h.ddrCap, h.cxlCap, h.cxlCap]
  split
  · unfold State.fld
    dsimp only
    rw [h.reg_hbmRgn (by omega)]
  · rfl

end

/-! ### What an address leads to -/

/-- From s to t all that decides where a context's addresses lead is the same: registers outside the matrix tiles, memory,
contexts, partitions and commands. -/
structure State.sameView (s t : State) : Prop where
  reg : ∀ o, 0x40000 ≤ o → t.reg o = s.reg o
  map : s.sameMap t
  mem : t.mem = s.mem
  poison : t.poison = s.poison
  ctxs : t.ctxs = s.ctxs
  parts : t.parts = s.parts
  cmds : t.cmds = s.cmds

theorem State.sameView.trans {s t u : State} (h : s.sameView t) (h' : t.sameView u) : s.sameView u where
  reg o ho := (h'.reg o ho).trans (h.reg o ho)
  map := h.map.trans h'.map
  mem := h'.mem.trans h.mem
  poison := h'.poison.trans h.poison
  ctxs := h'.ctxs.trans h.ctxs
  parts := h'.parts.trans h.parts
  cmds := h'.cmds.trans h.cmds

theorem State.sameView_setReg (s : State) {o : Nat} (v : W64) (h : o < 0x40000) : s.sameView (s.setReg o v) where
  reg x hx := by rw [State.reg_setReg, if_neg (by omega)]
  map := s.sameMap_setReg v h
  mem := rfl
  poison := rfl
  ctxs := rfl
  parts := rfl
  cmds := rfl

theorem State.sameView_setEng (s : State) (n : Nat) (x : Engine) : s.sameView (s.setEng n x) :=
  ⟨fun _ _ => rfl, ⟨fun _ _ _ => rfl, fun _ => rfl, rfl, rfl, rfl, rfl⟩, rfl, rfl, rfl, rfl, rfl⟩

section
variable {s t : State} (h : s.sameView t)
include h

theorem State.sameView.fld {o : Nat} (ho : 0x40000 ≤ o) (lo n : Nat) : t.fld o lo n = s.fld o lo n := by
  unfold State.fld
  rw [h.reg o ho]

theorem State.sameView.ctx (c : Nat) : t.ctx c = s.ctx c := by unfold State.ctx; rw [h.ctxs]

theorem State.sameView.bytes (a n : Nat) : t.bytes a n = s.bytes a n := by
  induction n generalizing a with
  | zero => rfl
  | succ n ih =>
    unfold State.bytes State.byte
    rw [ih, h.mem, h.map.memKey]

theorem State.sameView.tableEntry (lv table i : Nat) : t.tableEntry lv table i = s.tableEntry lv table i := by
  unfold State.tableEntry State.word State.poisoned
  simp only [h.map.region, h.bytes, h.map.memKey, h.poison]

theorem State.sameView.granted (p a : Nat) : t.granted p a = s.granted p a := by
  unfold State.granted State.part State.revoked
  rw [h.parts, h.cmds]

theorem State.sameView.leafCheck (c p a : Nat) (allowed : Bool) :
    t.leafCheck c p a allowed = s.leafCheck c p a allowed := by
  unfold State.leafCheck
  rw [h.map.region, h.granted]

theorem State.sameView.walk (c p va : Nat) (write : Bool) (lv table : Nat) :
    t.walk c p va write lv table = s.walk c p va write lv table := by
  induction lv generalizing table with
  | zero => simp only [State.walk, State.leafAt, h.tableEntry, h.leafCheck]
  | succ lv ih => simp only [State.walk, State.leafAt, h.tableEntry, h.leafCheck, ih]

theorem State.sameView.partOfCtx (c : Nat) : t.partOfCtx c = s.partOfCtx c := by
  unfold State.partOfCtx
  have hq (p : Nat) : 0x40000 ≤ rQpPart p := by unfold rQpPart; omega
  simp only [h.fld (hq _)]

theorem State.sameView.translate (c : Nat) (va : Int) (write : Bool) :
    t.translate c va write = s.translate c va write := by
  unfold State.translate
  simp only [h.partOfCtx, h.ctx, h.walk, h.leafCheck]

theorem State.sameView.place (n k c : Nat) (isLoc : Bool) (a : Int) (write : Bool) :
    t.place n k c isLoc a write = s.place n k c isLoc a write := by
  unfold State.place State.localByte
  have hl : 0x40000 ≤ rVtLmwin n k := by unfold rVtLmwin; omega
  simp only [h.translate, h.map.region, h.reg _ hl]

theorem State.sameView.placesOf (n k c : Nat) (isLoc write : Bool) (as : List Int) :
    t.placesOf n k c isLoc write as = s.placesOf n k c isLoc write as := by
  induction as with
  | nil => rfl
  | cons a as ih => simp only [State.placesOf, h.place, ih]

theorem State.sameView.outFault (n : Nat) (p : Pass) : t.outFault n p = s.outFault n p := by
  unfold State.outFault
  simp only [h.placesOf]

end

end Sys2Proof.Machine
end

section
/-! PROOFS. What follows on a pass's event and leaves the passes, memory and the engines' registers as they are: the books of
the command, the channels that a request wakes, slots that go on, and the freezing of a context. -/

namespace Sys2Proof.Machine

/-! ### Books, wakes and slots -/

/-- From s to t memory is the same and lies where it lay, engines change in their slots alone, and of the registers only
the DDR_CHSTAT of a channel in self-refresh, which is not 0. -/
structure State.aftermath (s t : State) : Prop where
  mem : t.mem = s.mem
  poison : t.poison = s.poison
  eng : ∀ n, t.eng n = { s.eng n with slots := (t.eng n).slots }
  reg : ∀ o, t.reg o = s.reg o ∨ (∃ c < 8, o = rDdrChstat c) ∧ s.reg o ≠ 0
  map : s.sameMap t

theorem State.aftermath.refl (s : State) : s.aftermath s :=
  ⟨rfl, rfl, fun _ => rfl, fun _ => .inl rfl, .refl s⟩

theorem State.aftermath.trans {s t u : State} (h : s.aftermath t) (h' : t.aftermath u) : s.aftermath u where
  mem := h'.mem.trans h.mem
  poison := h'.poison.trans h.poison
  eng n := by rw [h'.eng n, h.eng n]
  reg o := by
    rcases h.reg o with e | hc
    · rw [← e]; exact h'.reg o
    · exact .inr hc
  map := h.map.trans h'.map

theorem State.aftermath_foldl {α : Type} {f : State → α → State} (hf : ∀ (s : State) a, s.aftermath (f s a)) (l : List α)
    (s : State) : s.aftermath (l.foldl f s) := by
  induction l generalizing s with
  | nil => exact .refl s
  | cons a l ih => exact (hf s a).trans (ih _)

section
variable {s t : State} (h : s.aftermath t)
include h

/-- The registers of the engines, among others, stay as they are. -/
theorem State.aftermath.reg_of_lt {o : Nat} (ho : o < 0x200000) : t.reg o = s.reg o := by
  rcases h.reg o with e | ⟨⟨c, _, rfl⟩, _⟩
  · exact e
  · unfold rDdrChstat at ho; omega

theorem State.aftermath.reg_zero {o : Nat} (ho : s.reg o = 0) : t.reg o = 0 := by
  rcases h.reg o with e | ⟨_, hne⟩
  · exact e.trans ho
  · exact absurd ho hne

theorem State.aftermath.passes (n : Nat) : (t.eng n).passes = (s.eng n).passes := by rw [h.eng n]
theorem State.aftermath.issued (n : Nat) : (t.eng n).issued = (s.eng n).issued := by rw [h.eng n]
theorem State.aftermath.sigs (n : Nat) : (t.eng n).sigs = (s.eng n).sigs := by rw [h.eng n]

end

theorem State.aftermath_updCmd (s : State) (i : Nat) (f : Cmd → Cmd) : s.aftermath (s.updCmd i f) :=
  ⟨rfl, rfl, fun _ => rfl, fun _ => .inl rfl, ⟨fun _ _ _ => rfl, fun _ => rfl, rfl, rfl, rfl, rfl⟩⟩

theorem State.aftermath_takeFree (s : State) : s.aftermath { s with free := s.free + 1 } :=
  ⟨rfl, rfl, fun _ => rfl, fun _ => .inl rfl, ⟨fun _ _ _ => rfl, fun _ => rfl, rfl, rfl, rfl, rfl⟩⟩

theorem State.aftermath_updDdr (s : State) {f : Ddr → Ddr} (hf : (f s.ddr).rets = s.ddr.rets) :
    s.aftermath (s.updDdr f) :=
  ⟨rfl, rfl, fun _ => rfl, fun _ => .inl rfl, ⟨fun _ _ _ => rfl, fun _ => rfl, rfl, rfl, rfl, hf⟩⟩

theorem State.aftermath_updChanBanks (s : State) (c : Nat) (f : DdrBank → DdrBank) :
    s.aftermath (s.updChanBanks c f) :=
  State.aftermath_foldl (fun s _ => s.aftermath_updDdr rfl) _ s

theorem State.aftermath_issue (s : State) (c : Nat) (cs : List DdrCmd) : s.aftermath (s.issue c cs) :=
  s.aftermath_updDdr rfl

theorem State.aftermath_srx (s : State) (c : Nat) : s.aftermath (s.srx c) :=
  (s.aftermath_updChanBanks c _).trans (State.aftermath_issue _ c _)

/-- STATE of a channel that was in self-refresh says that it serves. -/
theorem State.aftermath_chBack (s : State) {c : Nat} (hc : c < 8) (h4 : s.chState c = 4) : s.aftermath (s.chBack c) where
  mem := rfl
  poison := rfl
  eng _ := rfl
  reg o := by
    by_cases ho : o = rDdrChstat c
    · refine .inr ⟨⟨c, hc, ho⟩, fun h0 => ?_⟩
      rw [State.chState, State.fld, ← ho, h0] at h4
      exact absurd h4 (by decide)
    · exact .inl (by rw [State.chBack, State.setFld_eq, State.reg_setReg, if_neg ho])
  map := by
    refine ⟨fun o _ ho => ?_, fun r => ?_, rfl, rfl, rfl, rfl⟩
    · rw [State.chBack, State.setFld_eq, State.reg_setReg, if_neg (ho c hc)]
    · unfold State.chBack
      rw [State.setFld_eq, State.fld, State.fld, State.reg_setReg]
      split
      next he => rw [← he, bf_bset_disjoint _ _ (by decide) (by decide)]
      · rfl

theorem State.aftermath_wakeChannel (s : State) {c : Nat} (hc : c < 8) : s.aftermath (s.wakeChannel c) := by
  unfold State.wakeChannel
  split
  next h4 => exact (s.aftermath_chBack hc h4).trans (State.aftermath_srx _ c)
  · exact .refl s

/-- The channels of the tier are those of the two controllers (R208). -/
theorem State.ddrDecode_ch_lt (s : State) (a : Nat) : (s.ddrDecode a).ch < 8 := by
  have hl : ∀ c ∈ s.chList, c < 8 := fun c hc => List.mem_range.1 (List.mem_of_mem_filter hc)
  have hd (i : Nat) : s.chList.getD i 0 < 8 := by
    rw [List.getD_eq_getElem?_getD]
    cases hi : s.chList[i]? with
    | none => decide
    | some c => exact hl c (List.mem_of_getElem? hi)
  exact hd _

theorem State.aftermath_wakeAt (s : State) (a : Nat) : s.aftermath (s.wakeAt a) := by
  unfold State.wakeAt
  split
  · exact s.aftermath_wakeChannel (s.ddrDecode_ch_lt a)
  · exact .refl s

theorem State.aftermath_touchDev (s : State) (cmd a : Nat) : s.aftermath (s.touchDev cmd a) := by
  refine (s.aftermath_wakeAt a).trans ?_
  unfold State.touchDev
  dsimp only
  split
  · split
    · exact State.aftermath_updCmd _ _ _
    · exact .refl _
  · exact State.aftermath_updCmd _ _ _

theorem State.aftermath_touchVas (s : State) (c cmd : Nat) (as : List Int) : s.aftermath (s.touchVas c cmd as) := by
  refine State.aftermath_foldl (fun s a => ?_) as s
  unfold State.touchVa
  split
  · exact s.aftermath_touchDev cmd _
  · split
    · exact s.aftermath_touchDev cmd _
    · exact .refl s

theorem State.aftermath_setSlot (s : State) (n k : Nat) (x : Slot) : s.aftermath (s.setSlot n k x) where
  mem := rfl
  poison := rfl
  eng m := by
    rw [State.setSlot_eq, State.eng_setEng]
    split
    next hm => rw [hm]; rfl
    · rfl
  reg _ := .inl rfl
  map := ⟨fun _ _ _ => rfl, fun _ => rfl, rfl, rfl, rfl, rfl⟩

theorem State.aftermath_wake (s : State) (n : Nat) : s.aftermath (s.wake n) := by
  refine State.aftermath_foldl (fun s k => ?_) _ s
  dsimp only
  split_ifs
  · exact s.aftermath_setSlot n k _
  · exact s.aftermath_setSlot n k _
  · exact .refl s
  · exact .refl s

/-! ### The end of a command of the ROM -/

theorem tget_map_snd {α : Type} {d : α} {f : α → α} (hf : f d = d) (t : Tab α) (k : Nat) :
    tget d (t.map fun p => (p.1, f p.2)) k = f (tget d t k) := by
  induction t with
  | nil => exact hf.symm
  | cons p t ih =>
    simp only [List.map_cons, tget, ih]
    split <;> rfl

theorem State.aftermath_placeSlots (s : State) (id : Nat) : s.aftermath (s.placeSlots id) where
  mem := rfl
  poison := rfl
  eng n := by
    have h : (s.placeSlots id).eng n = _ := tget_map_snd (d := ({} : Engine)) (f := fun e : Engine => { e with slots := e.slots.map (fun x =>
      (x.1, if x.2.cmd = id ∧ x.2.st ≠ .empty then { x.2 with st := .placed, wait := .none, cmd := 0 } else x.2)) })
      rfl s.engs n
    rw [h]
    rfl
  reg _ := .inl rfl
  map := ⟨fun _ _ _ => rfl, fun _ => rfl, rfl, rfl, rfl, rfl⟩

theorem State.aftermath_finishCmd (s : State) (id : Nat) : s.aftermath (s.finishCmd id) := by
  unfold State.finishCmd
  split
  · exact .refl s
  · exact ⟨rfl, rfl, fun _ => rfl, fun _ => .inl rfl, ⟨fun _ _ _ => rfl, fun _ => rfl, rfl, rfl, rfl, rfl⟩⟩

theorem State.aftermath_finishRom (s : State) (id : Nat) : s.aftermath (s.finishRom id) := by
  unfold State.finishRom
  split
  · exact .refl s
  · split
    · exact (s.aftermath_placeSlots id).trans (State.aftermath_finishCmd _ id)
    · exact .refl s

/-- A command has no fix-up pass to run. -/
def State.noFixes (s : State) (id : Nat) : Prop := ∀ c, s.cmd id = some c → c.fixes = []

/-- Where a command has no fix-up pass to run, its settling ends the command or nothing. -/
theorem State.aftermath_settleRom {s : State} {id : Nat} (h : s.noFixes id) : s.aftermath (s.settleRom id) := by
  unfold State.settleRom
  split
  · exact .refl s
  next c hc =>
    simp only [h c hc, if_true, List.filter_nil, List.foldl_nil]
    split
    · exact s.aftermath_finishRom id
    · split
      · split
        · exact (s.aftermath_updCmd id _).trans (State.aftermath_finishRom _ id)
        · exact s.aftermath_updCmd id _
      · exact s.aftermath_updCmd id _

theorem State.noFixes.updCmd {s : State} {id : Nat} (h : s.noFixes id) {f : Cmd → Cmd}
    (hf : ∀ c, (f c).id = c.id ∧ (f c).fixes = c.fixes) : (s.updCmd id f).noFixes id := by
  intro c hc
  rw [State.cmd_updCmd _ _ fun c => (hf c).1] at hc
  obtain ⟨d, hd, rfl⟩ := Option.map_eq_some_iff.1 hc
  exact (hf d).2.trans (h d hd)

theorem State.noFixes.congr {s t : State} {id : Nat} (h : s.noFixes id) (hc : t.cmds = s.cmds) : t.noFixes id := by
  unfold State.noFixes State.cmd at *
  rwa [hc]

@[simp] theorem Cmd.meet_id (c : Cmd) (st : Nat) : (c.meet st).id = c.id := by unfold Cmd.meet; split_ifs <;> rfl
@[simp] theorem Cmd.meet_fixes (c : Cmd) (st : Nat) : (c.meet st).fixes = c.fixes := by
  unfold Cmd.meet; split_ifs <;> rfl

theorem State.updChanBanks_cmds (s : State) (c : Nat) (f : DdrBank → DdrBank) : (s.updChanBanks c f).cmds = s.cmds :=
  foldl_proj (π := State.cmds) (f := fun s i => s.updBank (c * 256 + i) f) (fun _ _ => rfl) _ s

theorem State.srx_cmds (s : State) (c : Nat) : (s.srx c).cmds = s.cmds := by
  unfold State.srx State.issue
  rw [State.updDdr_cmds, State.updChanBanks_cmds]

theorem State.wakeAt_cmds (s : State) (a : Nat) : (s.wakeAt a).cmds = s.cmds := by
  unfold State.wakeAt State.wakeChannel
  split
  · split
    · exact State.srx_cmds _ _
    · rfl
  · rfl

theorem State.noFixes.touchDev {s : State} {id : Nat} (h : s.noFixes id) (a : Nat) : (s.touchDev id a).noFixes id := by
  have hw := h.congr (s.wakeAt_cmds a)
  unfold State.touchDev
  dsimp only
  split
  · split
    · exact hw.updCmd fun c => ⟨c.meet_id _, c.meet_fixes _⟩
    · exact hw
  · exact hw.updCmd fun c => by constructor <;> split_ifs <;> simp

theorem State.noFixes.touchVas {s : State} {id : Nat} (h : s.noFixes id) (c : Nat) (as : List Int) :
    (s.touchVas c id as).noFixes id := by
  induction as generalizing s with
  | nil => exact h
  | cons a as ih =>
    refine ih (s := s.touchVa c id a) ?_
    unfold State.touchVa
    split
    · exact h.touchDev _
    · split
      · exact h.touchDev _
      · exact h

/-! ### A context freezes (R133, R151, R245) -/

/-- From s to t only queues, commands, the fabric and registers from the fabric's on change. -/
def State.stopOnly (s t : State) : Prop :=
  t = { s with regs := t.regs, queues := t.queues, cmds := t.cmds, fab := t.fab } ∧ ∀ o, o < 0x700000 → t.reg o = s.reg o

theorem State.stopOnly.refl (s : State) : s.stopOnly s := ⟨rfl, fun _ _ => rfl⟩

theorem State.stopOnly.trans {s t u : State} (h : s.stopOnly t) (h' : t.stopOnly u) : s.stopOnly u :=
  ⟨by rw [h'.1, h.1], fun o ho => (h'.2 o ho).trans (h.2 o ho)⟩

theorem State.stopOnly_finishCmd (s : State) (i : Nat) : s.stopOnly (s.finishCmd i) := by
  unfold State.finishCmd
  split
  · exact .refl s
  · exact ⟨rfl, fun _ _ => rfl⟩

theorem State.stopOnly_setRegSt (s : State) (f st stage : Nat) : s.stopOnly (s.setRegSt f st stage) := by
  have hs (o : Nat) (ho : o < 0x700000) : o ≠ rFabRstat f := by unfold rFabRstat; omega
  have hd (o : Nat) (ho : o < 0x700000) : o ≠ rFabRdt f := by unfold rFabRdt; omega
  unfold State.setRegSt
  simp only [State.setFld_eq]
  split_ifs <;> exact ⟨rfl, fun o ho => by simp [State.reg_setReg, hs o ho, hd o ho]⟩

theorem State.stopOnly_toBlank (s : State) (fs : List Nat) : s.stopOnly (s.toBlank fs) := by
  unfold State.toBlank
  induction fs generalizing s with
  | nil => exact .refl s
  | cons f fs ih =>
    refine State.stopOnly.trans ?_ (ih _)
    dsimp only
    split
    · exact .refl s
    · exact s.stopOnly_setRegSt f 5 0

theorem State.stopOnly_stopLoad (s : State) (l : FLoad) : s.stopOnly (s.stopLoad l) :=
  (s.stopOnly_toBlank _).trans ⟨rfl, fun _ _ => rfl⟩

theorem State.stopOnly_stopLoads (s : State) (c : Nat) : s.stopOnly (s.stopLoads c) := by
  unfold State.stopLoads
  generalize s.fab.loads.filter _ = ls
  induction ls generalizing s with
  | nil => exact .refl s
  | cons l ls ih => exact ((s.stopOnly_stopLoad l).trans (State.stopOnly_finishCmd _ l.cmd)).trans (ih _)

/-- From s to t context c freezes: memory, the engines and the registers before the fabric's stay as they are. -/
structure State.freezes (s t : State) (c : Nat) : Prop where
  mem : t.mem = s.mem
  engs : t.engs = s.engs
  reg : ∀ o, o < 0x700000 → t.reg o = s.reg o
  frozen : (t.ctx c).frozen.isSome = true

theorem State.freezeCtx_freezes (s : State) (c cause : Nat) : s.freezes (s.freezeCtx c cause) c := by
  unfold State.freezeCtx State.freezeArg
  split
  next hf => exact ⟨rfl, rfl, fun _ _ => rfl, hf⟩
  · obtain ⟨hrest, hreg⟩ := State.stopOnly_stopLoads (s.updCtx c fun x => { x with frozen := some cause }) c
    generalize (s.updCtx c fun x => { x with frozen := some cause }).stopLoads c = t at hrest hreg
    have hf : s.freezes t c := by
      refine ⟨by rw [hrest]; rfl, by rw [hrest]; rfl, hreg, ?_⟩
      rw [hrest]
      exact congrArg (fun x : Ctx => x.frozen.isSome) (State.ctx_setCtx_self s c _)
    dsimp only
    split
    · exact hf
    · exact ⟨hf.mem, hf.engs, hf.reg, hf.frozen⟩

theorem State.faultCtx_freezes (s : State) (c cmd cause : Nat) : s.freezes (s.faultCtx c cmd cause) c := by
  have hf := s.freezeCtx_freezes c cause
  unfold State.faultCtx
  dsimp only
  split
  · exact hf
  · exact ⟨hf.mem, hf.engs, hf.reg, hf.frozen⟩

/-- A stream fault of engine n (R133): its context is frozen and ES_SFAULTDT shows the time; memory and every engine stay. -/
theorem State.streamFault_spec (s : State) (n : Fin 64) (k c cmd se : Nat) (pass : Bool) (a : Int) (st : Nat) :
    let t := s.streamFault n k c cmd se pass a st
    t.mem = s.mem ∧ t.engs = s.engs ∧ (t.ctx c).frozen.isSome = true ∧ t.reg (rEsSfaultdt n) = s.dt := by
  have h (u : State) : u.freezes (u.faultCtx c cmd st) c := u.faultCtx_freezes c cmd st
  refine ⟨(h _).mem, (h _).engs, (h _).frozen, ((h _).reg _ ?_).trans (State.reg_setReg_self _ _ _)⟩
  unfold rEsSfaultdt
  omega

end Sys2Proof.Machine
end

section
/-! PROOFS. The passes of a tile: what an update of one leaves, and its issue, pre-emption and resumption (R62, R65, R80 to
R82, R133, R137). -/

namespace Sys2Proof.Machine

/-! ### Updates of passes -/

@[simp] theorem State.updPass_mem (s : State) (n seq : Nat) (f : Pass → Pass) : (s.updPass n seq f).mem = s.mem := by
  simp [State.updPass]

@[simp] theorem State.updPass_poison (s : State) (n seq : Nat) (f : Pass → Pass) :
    (s.updPass n seq f).poison = s.poison := by
  simp [State.updPass]

@[simp] theorem State.updPass_regs (s : State) (n seq : Nat) (f : Pass → Pass) : (s.updPass n seq f).regs = s.regs := by
  simp [State.updPass]

@[simp] theorem State.reg_updPass (s : State) (n seq : Nat) (f : Pass → Pass) (o : Nat) :
    (s.updPass n seq f).reg o = s.reg o := by
  simp [State.updPass]

theorem State.passes_updPass (s : State) (n seq : Nat) (f : Pass → Pass) :
    ((s.updPass n seq f).eng n).passes = (s.eng n).passes.map (fun p => if p.seq = seq then f p else p) := by
  simp [State.updPass, Engine.updPass]

@[simp] theorem State.issued_updPass (s : State) (n seq : Nat) (f : Pass → Pass) :
    ((s.updPass n seq f).eng n).issued = (s.eng n).issued := by
  simp [State.updPass, Engine.updPass]

/-- A pass of the number that an update names is one that the update has made. -/
theorem State.eq_of_mem_updPass {s : State} {n seq : Nat} {f : Pass → Pass} {q : Pass}
    (hq : q ∈ ((s.updPass n seq f).eng n).passes) (h : q.seq = seq) : ∃ p ∈ (s.eng n).passes, p.seq = seq ∧ q = f p := by
  rw [State.passes_updPass, List.mem_map] at hq
  obtain ⟨p, hp, rfl⟩ := hq
  by_cases hs : p.seq = seq
  · exact ⟨p, hp, hs, if_pos hs⟩
  · rw [if_neg hs] at h
    exact absurd h hs

theorem State.seq_ne_of_mem_dropPass {s : State} {n seq : Nat} {q : Pass}
    (hq : q ∈ ((s.dropPass n seq).eng n).passes) : q.seq ≠ seq := by
  have hm : q ∈ (s.eng n).passes.filter (fun p => p.seq != seq) := by simpa [State.dropPass] using hq
  simpa using (List.mem_filter.1 hm).2

@[simp] theorem State.issued_endIssue (s : State) (n : Nat) : ((s.endIssue n).eng n).issued = (s.eng n).issued := by
  simp [State.endIssue]

theorem State.replayWaits_eq_false {s : State} {n : Nat}
    (h : ∀ q ∈ (s.eng n).passes, q.phase = .failed → s.frozenOn n q.ctx = true) : s.replayWaits n = false := by
  refine List.any_eq_false.2 fun q hq => ?_
  by_cases hf : q.phase = .failed
  · simp [h q hq hf]
  · simp [hf]

/-! ### Issue -/

/-- The port is free and has counted one more issue. -/
def State.openPort (s : State) (n : Nat) : State :=
  (s.endIssue n).updEng n (fun en => { en with issued := ((s.endIssue n).eng n).issued + 1 })

@[simp] theorem State.issued_openPort (s : State) (n : Nat) : ((s.openPort n).eng n).issued = (s.eng n).issued + 1 := by
  simp [State.openPort]

@[simp] theorem State.openPort_mem (s : State) (n : Nat) : (s.openPort n).mem = s.mem := by
  simp [State.openPort, State.endIssue]

@[simp] theorem State.openPort_poison (s : State) (n : Nat) : (s.openPort n).poison = s.poison := by
  simp [State.openPort, State.endIssue]

theorem State.passes_openPort (s : State) (n : Nat) : ((s.openPort n).eng n).passes = ((s.endIssue n).eng n).passes := by
  simp [State.openPort]

/-- What the first step fixes of a pass: its issue number and the operands, time and tolerance of its run. -/
def Pass.issueWith (p : Pass) (x : PassIn) (no : Nat) (dt : W64) (tolsh : Nat) : Pass :=
  { p with phase := .issuing, issueNo := no, runNo := no, op := some x.op, grp := 0, acc := x.op.start, foldr := x.foldr,
           proFl := x.fl, poison := x.poison, runs := p.runs + 1, startDt := dt, tolsh := tolsh }

/-- A pass issues, with its bank's record cleared and its command begun. -/
def State.issuePass (s : State) (n : Nat) (p : Pass) (x : PassIn) : State :=
  ((((s.openPort n).updPass n p.seq
    (fun q => q.issueWith x (((s.endIssue n).eng n).issued + 1) s.dt (s.fld (rMtCktol n) 0 6))).setReg (rMtExc n p.bank) 0).beginCmd p.cmd)

theorem State.passes_issuePass (s : State) (n : Nat) (p : Pass) (x : PassIn) :
    ((s.issuePass n p x).eng n).passes = ((s.endIssue n).eng n).passes.map (fun q => if q.seq = p.seq then
      q.issueWith x ((s.eng n).issued + 1) s.dt (s.fld (rMtCktol n) 0 6) else q) := by
  simp only [State.issuePass, State.beginCmd, State.eng_updCmd, State.eng_setReg, State.passes_updPass,
    State.passes_openPort, State.issued_endIssue]

theorem State.issued_issuePass (s : State) (n : Nat) (p : Pass) (x : PassIn) :
    ((s.issuePass n p x).eng n).issued = (s.eng n).issued + 1 := by
  simp only [State.issuePass, State.beginCmd, State.eng_updCmd, State.eng_setReg, State.issued_updPass,
    State.issued_openPort]

theorem State.exc_issuePass (s : State) (n : Nat) (p : Pass) (x : PassIn) :
    (s.issuePass n p x).reg (rMtExc n p.bank) = 0 := by
  simp only [State.issuePass, State.beginCmd, State.reg_updCmd, State.reg_setReg_self]

theorem State.mem_issuePass (s : State) (n : Nat) (p : Pass) (x : PassIn) : (s.issuePass n p x).mem = s.mem := by
  simp [State.issuePass, State.beginCmd]

theorem State.poison_issuePass (s : State) (n : Nat) (p : Pass) (x : PassIn) :
    (s.issuePass n p x).poison = s.poison := by
  simp [State.issuePass, State.beginCmd]

section
variable {s : State} {e : Fin 64} {p : Pass} (hnext : s.nextPass e = some p) (hq : p.phase = .queued)
  (hopen : s.tileOpen e = true) (hfree : (s.endIssue e).bankFree e p.bank = true) (hwait : s.replayWaits e = false)
  (hmove : s.anyMoving p.ctx p.d.inAddrs = false)
include hnext hq hopen hfree hwait hmove

theorem exec_passIssue_of_ok {x : PassIn} (hx : (s.endIssue e).passIn e p = .ok x) :
    exec (.passIssue e) s = .next
      (({ s.issuePass e p x with free := (s.issuePass e p x).free + 1 }.touchVas p.ctx p.cmd p.d.inAddrs).wake e) := by
  change execPassIssue e s = _
  unfold execPassIssue
  simp only [hnext, hq, hopen, hfree, hwait, hmove, hx, ne_eq, not_true_eq_false, Bool.false_eq_true, or_self, if_false]
  rfl

theorem exec_passIssue_of_error {se st : Nat} {a : Int} (hx : (s.endIssue e).passIn e p = .error (se, a, st)) :
    exec (.passIssue e) s =
      .next (((s.endIssue e).dropPass e p.seq).streamFault e p.slot p.ctx p.cmd se true a st) := by
  change execPassIssue e s = _
  unfold execPassIssue
  simp only [hnext, hq, hopen, hfree, hwait, hmove, hx, ne_eq, not_true_eq_false, Bool.false_eq_true, or_self, if_false]

end

/-- Settles O27 (log 18, log 21): the issue sets the pass up, and what follows on it (the command's books, the channels that
its reads wake, slots that go on) leaves passes and memory; a stream that faults drops the pass and freezes its context. -/
theorem passIssues : Obligations.PassIssues := by
  intro s e p hnext hq hopen hfree hfail hmove
  have hwait : s.replayWaits e = false := State.replayWaits_eq_false hfail
  refine ⟨fun x hx => ?_, fun x hx => ?_⟩
  · refine ⟨_, exec_passIssue_of_ok hnext hq hopen hfree hwait hmove hx, ?_⟩
    have ha : (s.issuePass e p x).aftermath _ := ((State.aftermath_takeFree _).trans
      (State.aftermath_touchVas _ p.ctx p.cmd p.d.inAddrs)).trans (State.aftermath_wake _ e)
    exact ⟨(ha.passes e).trans (s.passes_issuePass e p x), (ha.issued e).trans (s.issued_issuePass e p x),
      ha.reg_zero (s.exc_issuePass e p x), ha.mem.trans (s.mem_issuePass e p x), ha.poison.trans (s.poison_issuePass e p x)⟩
  · obtain ⟨se, a, st⟩ := x
    obtain ⟨hmem, hengs, hfrozen, hdt⟩ := State.streamFault_spec ((s.endIssue e).dropPass e p.seq) e p.slot p.ctx p.cmd se true a st
    refine ⟨_, exec_passIssue_of_error hnext hq hopen hfree hwait hmove hx, fun q hm => ?_, hfrozen, hdt, hmem⟩
    unfold State.eng at hm
    rw [hengs] at hm
    exact State.seq_ne_of_mem_dropPass hm

/-! ### Pre-emption and resumption -/

/-- Groups add up: a pass that stops after g groups and goes on gives the bits of one that does not. -/
theorem PassOp.runGroups_add (o : PassOp) (g h i : Nat) (a : AccSt) :
    o.runGroups (g + h) i a = o.runGroups h (i + g) (o.runGroups g i a) := by
  induction g generalizing i a with
  | zero => simp [PassOp.runGroups]
  | succ g ih =>
    rw [Nat.add_right_comm, PassOp.runGroups, ih, PassOp.runGroups]
    congr 1
    omega

theorem execPassPreempt_of_due {s : State} {e : Fin 64} {p : Pass} {o : PassOp} {g : Nat}
    (hp : (s.eng e).passes.find? (fun q => q.phase == .issuing) = some p) (ho : p.op = some o)
    (hd : s.preemptDue e p = true) (hg : p.grp + g < o.groups) :
    exec (.passPreempt e g) s = .next ((s.updPass e p.seq fun _ => { p.advance g with phase := .saved }).setReg
      (rMtExc e p.bank) (BitVec.ofNat 64 (p.advance g).acc.exc.word)) := by
  change execPassPreempt e g s = _
  unfold execPassPreempt
  simp only [hp, ho, hd, hg, and_self, if_true]

theorem Pass.advance_of_op {p : Pass} {o : PassOp} (h : p.op = some o) (g : Nat) :
    p.advance g = { p with acc := o.runGroups g p.grp p.acc, grp := p.grp + g } := by
  unfold Pass.advance
  rw [h]

theorem State.keepsPlace_openPort (s : State) (n : Nat) (p : Pass) :
    (s.openPort n).keepsPlace n p = (s.endIssue n).keepsPlace n p := by
  unfold State.keepsPlace
  rw [State.passes_openPort]

/-- A saved pass goes on in bank b, with a new place in the release order unless it keeps its own (Table 3.7). -/
def State.resumed (s : State) (n b no : Nat) (p : Pass) : Pass :=
  { p with phase := .issuing, bank := b, runNo := no, issueNo := if s.keepsPlace n p then p.issueNo else no }

theorem execPassResume_of_saved {s : State} {e : Fin 64} {b : Fin 2} {p : Pass} (hnext : s.nextPass e = some p)
    (hsaved : p.phase = .saved) (hopen : s.tileOpen e = true) (hfree : (s.endIssue e).bankFree e b = true)
    (hwait : s.replayWaits e = false) :
    exec (.passResume e b) s = .next (((s.openPort e).updPass e p.seq
      ((s.openPort e).resumed e b (((s.endIssue e).eng e).issued + 1))).setReg (rMtExc e b)
        (BitVec.ofNat 64 p.acc.exc.word)) := by
  change execPassResume e b s = _
  unfold execPassResume
  simp only [hnext, hsaved, hopen, hfree, hwait, ne_eq, not_true_eq_false, Bool.false_eq_true, or_self, if_false]
  rfl

/-- Settles O30 (log 88): PASS_PREEMPT saves the pass as it stands after its groups, PASS_RESUME changes neither its
accumulators nor its next group, and groups add up. -/
theorem passPreemptionIsExact : Obligations.PassPreemptionIsExact := by
  refine ⟨fun s e p o g hp ho hd hg => ?_, fun s e b p hnext hsaved hopen hfree hwait => ?_, PassOp.runGroups_add⟩
  · refine ⟨_, execPassPreempt_of_due hp ho hd hg, by simp, fun q hq hseq => ?_⟩
    rw [State.eng_setReg] at hq
    obtain ⟨_, _, _, rfl⟩ := State.eq_of_mem_updPass hq hseq
    simp [Pass.advance_of_op ho]
  · refine ⟨_, execPassResume_of_saved hnext hsaved hopen hfree hwait, State.reg_setReg_self _ _ _, by simp, ?_⟩
    rw [State.eng_setReg, State.passes_updPass, State.passes_openPort, State.issued_endIssue]
    simp only [State.resumed, State.keepsPlace_openPort]

end Sys2Proof.Machine
end

section
/-! PROOFS. A failed pass: its replay, its partner run and the repair of a line (R77 to R79). -/

namespace Sys2Proof.Machine

/-! ### A judged pass -/

theorem State.judge_of_none {s : State} {n : Nat} {p : Pass} (h : s.outFault n p = none) (code : Nat) :
    s.judge n p code =
      (s.updPass n p.seq fun _ => { p with phase := .judged, verdict := code, verdictDt := s.dt }).passLog n p code := by
  unfold State.judge
  rw [h]

theorem State.aftermath_passLog (s : State) (n : Nat) (p : Pass) (code : Nat) : s.aftermath (s.passLog n p code) :=
  s.aftermath_setSlot n p.slot _

theorem State.passLog_regs (s : State) (n : Nat) (p : Pass) (code : Nat) : (s.passLog n p code).regs = s.regs := rfl

section
variable {s : State} {n : Nat} {p : Pass} (h : s.outFault n p = none) (code : Nat)
include h

theorem State.judge_mem : (s.judge n p code).mem = s.mem := by
  rw [State.judge_of_none h, (State.aftermath_passLog _ _ _ _).mem, State.updPass_mem]

theorem State.reg_judge (o : Nat) : (s.judge n p code).reg o = s.reg o := by
  rw [State.judge_of_none h, State.reg_congr (State.passLog_regs _ _ _ _), State.reg_updPass]

theorem State.repair_judge : ((s.judge n p code).eng n).repair = (s.eng n).repair := by
  rw [State.judge_of_none h, (State.aftermath_passLog _ _ _ _).eng n]
  simp [State.updPass, Engine.updPass]

/-- The pass of the number is held with its verdict. -/
theorem State.eq_of_mem_judge {q : Pass} (hq : q ∈ ((s.judge n p code).eng n).passes) (hs : q.seq = p.seq) :
    q = { p with phase := .judged, verdict := code, verdictDt := s.dt } := by
  rw [State.judge_of_none h, (State.aftermath_passLog _ _ _ _).passes] at hq
  obtain ⟨_, _, _, rfl⟩ := State.eq_of_mem_updPass hq hs
  rfl

end

/-! ### Replay -/

/-- A failed pass that runs again from step 0. -/
def Pass.replayWith (p : Pass) (o : PassOp) (no : Nat) (dt : W64) (tolsh : Nat) : Pass :=
  { p with phase := .issuing, runNo := no, replayOf := true, grp := 0, acc := o.start, drained := false,
           runs := p.runs + 1, startDt := dt, tolsh := tolsh }

theorem exec_replay_of_failed {s : State} {e : Fin 64} {p : Pass} {o : PassOp}
    (hp : leastBy Pass.issueNo ((s.eng e).passes.filter (fun q => q.phase == .failed && !s.frozenOn e q.ctx)) = some p)
    (ho : p.op = some o) (hopen : s.tileOpen e = true) (hfree : (s.endIssue e).bankFree e p.bank = true) :
    exec (.replay e) s = .next (((s.openPort e).updPass e p.seq fun q =>
      q.replayWith o (((s.endIssue e).eng e).issued + 1) s.dt (s.fld (rMtCktol e) 0 6)).setReg (rMtExc e p.bank) 0) := by
  change execReplay e s = _
  unfold execReplay
  simp only [hp, ho, hopen, hfree, not_true_eq_false, or_self, if_false]
  rfl

/-! ### Partner run -/

theorem State.partnerBank_lt (s : State) (m : Nat) : s.partnerBank m < 2 := by
  unfold State.partnerBank
  split <;> decide

/-- The partner is another engine of the device (R77). -/
theorem State.partnerOf_lt {s : State} {n m : Nat} (hn : n < 64) (h : s.partnerOf n = some m) : m < 64 := by
  unfold State.partnerOf at h
  have hm := List.mem_of_find?_eq_some h
  simp only [List.mem_append, List.mem_map, List.mem_range, List.mem_singleton] at hm
  rcases hm with ((rfl | ⟨d, hd, rfl⟩) | ⟨d, hd, rfl⟩) | ⟨d, hd, rfl⟩
  · exact Nat.xor_lt_two_pow (n := 6) hn (by decide)
  all_goals omega

/-- The partner's tile after a run with exceptions x: its own pass has yielded, and its bank shows them (log 24). -/
def State.ranOn (s : State) (m : Nat) (x : Exc) : State :=
  ((s.yieldTile m).setReg (rMtExc m ((s.yieldTile m).partnerBank m)) 0).setReg
    (rMtExc m ((s.yieldTile m).partnerBank m)) (BitVec.ofNat 64 x.word)

/-- A pass's run on the partner m, from step 0 (R77 step 3). -/
def Pass.onPartner (p : Pass) (o : PassOp) (m : Nat) (dt : W64) : Pass :=
  { p with grp := 0, acc := o.start, runs := p.runs + 1, startDt := dt, byPartner := true, partnerEng := m }

theorem State.reg_ranOn {s : State} {m : Nat} (x : Exc) {o : Nat} (ho : o % 0x1000 < 0x80) :
    (s.ranOn m x).reg o = s.reg o := by
  have hb := (s.yieldTile m).partnerBank_lt m
  have hne : o ≠ rMtExc m ((s.yieldTile m).partnerBank m) := by unfold rMtExc; omega
  rw [State.ranOn, State.reg_setReg, if_neg hne, State.reg_setReg, if_neg hne]
  rfl

theorem exec_partnerRun_of_ok {s : State} {e : Fin 64} {fs : List (Fin 129 × Fin 65 × W32)} {p q : Pass} {o : PassOp}
    {m : Nat} (hp : leastBy Pass.issueNo ((s.eng e).passes.filter (fun q => q.phase == .partner)) = some p)
    (ho : p.op = some o) (hm : s.partnerOf e = some m) (hmove : s.anyMoving p.ctx (p.d.epiAddrs ++ p.d.outAddrs) = false)
    (hq : ((s.yieldTile m).setReg (rMtExc m ((s.yieldTile m).partnerBank m)) 0).drainRun e (p.onPartner o m s.dt)
      (perturbs fs) (p.srm0.getD 0) = .ok q) :
    let t := o.tests q.acc q.faults (s.fld (rMtCktol m) 0 6)
    exec (.partnerRun e fs) s = .next ((s.ranOn m q.acc.exc).partnerOutcome e m o p q t.verdict t.loc) := by
  have hfld : (s.ranOn m q.acc.exc).fld (rMtCktol m) 0 6 = s.fld (rMtCktol m) 0 6 := by
    rw [State.fld, State.reg_ranOn _ (by unfold rMtCktol; omega), State.fld]
  have hdt : (s.yieldTile m).dt = s.dt := by simp [State.yieldTile]
  change execPartnerRun e fs s = _
  unfold execPartnerRun
  simp only [Pass.onPartner, ho] at hq
  unfold State.ranOn at hfld ⊢
  simp only [hp, ho, hm, hmove, State.setReg_dt, hdt, hq, hfld, Bool.false_eq_true, if_false]

@[simp] theorem Pass.advance_seq (p : Pass) (g : Nat) : (p.advance g).seq = p.seq := by
  unfold Pass.advance
  split <;> rfl

theorem State.seq_of_drainRun {s : State} {n srm : Nat} {p q : Pass} {fs : List Perturb}
    (h : s.drainRun n p fs srm = .ok q) : q.seq = p.seq := by
  unfold State.drainRun at h
  split at h
  next o ho =>
    cases hx : s.epiReads n p with
    | error x =>
      simp only [hx] at h
      cases h
    | ok x =>
      simp only [hx] at h
      cases h
      simp
  · cases h
    rfl

/-- The repairs of an engine with one more at l, behind those that are due already (R78). -/
def repairsWith (r : Option Repair) (l : Loc) : Option Repair :=
  match r with
  | none => some { loc := l }
  | some r => some { r with more := r.more ++ [l] }

/-- A persistent fault of engine n is counted and logged, and its repair is due (Table 3.4). -/
def State.foundFaulty (s : State) (n : Nat) (l : Loc × Nat × Nat) (isInt : Bool) (dt : W64) : State :=
  ((s.ckCount n 1).ckLog n l 1 isInt dt).startRepair n l.1

section
variable (s : State) (n : Nat) (l : Loc × Nat × Nat) (isInt : Bool) (dt : W64)

theorem State.ckCount_persistent : s.ckCount n 1 = s.setReg (rMtCkstat n) (bsat (s.reg (rMtCkstat n)) 16 16 1) := by
  unfold State.ckCount
  rw [State.updReg_eq, if_neg (by decide)]

/-- The three registers of MT_CKSTAT and its log are all that a fault found changes beside the engine. -/
theorem State.foundFaulty_eq : ∃ (w : W64) (x : Engine), s.foundFaulty n l isInt dt =
    (((s.setReg (rMtCkstat n) (bsat (s.reg (rMtCkstat n)) 16 16 1)).setReg (rMtCklog n) w).setReg (rMtCkdt n) dt).setEng n
      x ∧ x.repair = repairsWith (s.eng n).repair l.1 := by
  unfold State.foundFaulty State.startRepair State.ckLog
  rw [State.ckCount_persistent, State.updEng_eq, State.eng_setReg, State.eng_setReg, State.eng_setReg]
  exact ⟨_, _, rfl, rfl⟩

theorem State.mem_foundFaulty : (s.foundFaulty n l isInt dt).mem = s.mem := by
  obtain ⟨w, x, h, -⟩ := s.foundFaulty_eq n l isInt dt
  rw [h, State.setEng_mem, State.setReg_mem, State.setReg_mem, State.setReg_mem]

theorem State.repair_foundFaulty :
    ((s.foundFaulty n l isInt dt).eng n).repair = repairsWith (s.eng n).repair l.1 := by
  obtain ⟨w, x, h, hx⟩ := s.foundFaulty_eq n l isInt dt
  rw [h, State.eng_setEng_self, hx]

theorem State.reg_foundFaulty {o : Nat} (ho : 0x80 ≤ o % 0x1000) : (s.foundFaulty n l isInt dt).reg o = s.reg o := by
  have h1 : o ≠ rMtCkstat n := by unfold rMtCkstat; omega
  have h2 : o ≠ rMtCklog n := by unfold rMtCklog; omega
  have h3 : o ≠ rMtCkdt n := by unfold rMtCkdt; omega
  obtain ⟨w, x, h, -⟩ := s.foundFaulty_eq n l isInt dt
  rw [h, State.reg_setEng, State.reg_setReg, if_neg h3, State.reg_setReg, if_neg h2, State.reg_setReg, if_neg h1]

theorem State.ckstat_foundFaulty :
    (s.foundFaulty n l isInt dt).fld (rMtCkstat n) 16 16 = min 0xFFFF (s.fld (rMtCkstat n) 16 16 + 1) := by
  have h2 : rMtCkstat n ≠ rMtCklog n := by unfold rMtCkstat rMtCklog; omega
  have h3 : rMtCkstat n ≠ rMtCkdt n := by unfold rMtCkstat rMtCkdt; omega
  obtain ⟨w, x, h, -⟩ := s.foundFaulty_eq n l isInt dt
  rw [State.fld, h, State.reg_setEng, State.reg_setReg, if_neg h3, State.reg_setReg, if_neg h2, State.reg_setReg_self,
    bsat, bf_bset_self _ _ (by decide), ← State.fld]
  omega

theorem State.sameView_foundFaulty (hn : n < 64) : s.sameView (s.foundFaulty n l isInt dt) := by
  obtain ⟨w, x, h, -⟩ := s.foundFaulty_eq n l isInt dt
  rw [h]
  refine (((s.sameView_setReg _ ?_).trans (State.sameView_setReg _ _ ?_)).trans (State.sameView_setReg _ _ ?_)).trans
    (State.sameView_setEng _ n _)
  · unfold rMtCkstat; omega
  · unfold rMtCklog; omega
  · unfold rMtCkdt; omega

end

theorem State.sameView_ranOn (s : State) {m : Nat} (hm : m < 64) (x : Exc) : s.sameView (s.ranOn m x) := by
  have hb := (s.yieldTile m).partnerBank_lt m
  have hr : rMtExc m ((s.yieldTile m).partnerBank m) < 0x40000 := by unfold rMtExc; omega
  exact ((s.sameView_setEng m _).trans (State.sameView_setReg _ 0 hr)).trans (State.sameView_setReg _ _ hr)

theorem State.ranOn_mem (s : State) (m : Nat) (x : Exc) : (s.ranOn m x).mem = s.mem := by
  simp [State.ranOn, State.yieldTile]

theorem State.repair_ranOn (s : State) (m n : Nat) (x : Exc) : ((s.ranOn m x).eng n).repair = (s.eng n).repair := by
  simp only [State.ranOn, State.eng_setReg, State.yieldTile, State.updEng_eq, State.eng_setEng]
  split
  next h => rw [h]
  · rfl

/-! ### Repair of a line -/

/-- What LINE_REMAP leaves in MT_REMAP, and whether a spare has passed its test (R78 steps 2 to 4). -/
def remapTry (w : W64) (l : Loc) (ts : List Bool) : W64 × Bool :=
  if l = .unlocated then (w, false) else spareTry l 3 ts (spareDoubt w l)

/-- MT_REMAP shows x, and the next repair is due or, without a spare, the engine's retirement. -/
def State.remapped (s : State) (n : Nat) (r : Repair) (l : Loc) (x : W64 × Bool) : State :=
  (s.setReg (rMtRemap n) x.1).updEng n (fun en =>
    { en with repair := if x.2 then r.next l x.1 else none, retiring := if x.2 then en.retiring else some 0 })

theorem exec_lineRemap_of_quiet {s : State} {e : Fin 64} {r : Repair} {ts : List Bool}
    (hr : (s.eng e).repair = some r) (hquiet : s.tileQuiet e = true) :
    let l := repairLine (s.reg (rMtRemap e)) r.loc
    let x := remapTry (s.reg (rMtRemap e)) l ts
    exec (.lineRemap e ts) s = .next (if x.2 then
      ((s.remapped e r l x).healthRemap e x.1).event 0 stLineRemap none e x.1.toNat else s.remapped e r l x) := by
  change execLineRemap e ts s = _
  unfold execLineRemap
  simp only [hr, hquiet, not_true_eq_false, if_false]
  rfl

theorem State.reg_healthRemap (s : State) (n : Nat) (w : W64) {o : Nat} (h : o ≠ rRstHrec) :
    (s.healthRemap n w).reg o = s.reg o := by
  unfold State.healthRemap State.healthChange
  dsimp only
  rw [State.setFld_eq, State.reg_setReg, if_neg h]
  rfl

theorem State.healthRemap_mem (s : State) (n : Nat) (w : W64) : (s.healthRemap n w).mem = s.mem := rfl
theorem State.eng_healthRemap (s : State) (n : Nat) (w : W64) (m : Nat) : (s.healthRemap n w).eng m = s.eng m := rfl

section
variable (s : State) (p code : Nat) (c : Option Nat) (arg0 arg1 : Nat)

theorem State.reg_event (o : Nat) : (s.event p code c arg0 arg1).reg o = s.reg o := rfl
theorem State.event_mem : (s.event p code c arg0 arg1).mem = s.mem := rfl
theorem State.eng_event (n : Nat) : (s.event p code c arg0 arg1).eng n = s.eng n := rfl

end

theorem State.mem_events_event (s : State) (p code arg0 arg1 : Nat) :
    ∃ v ∈ ((s.event p code none arg0 arg1).part p).events,
      v.code = code ∧ v.arg0 = BitVec.ofNat 64 arg0 ∧ v.arg1 = BitVec.ofNat 64 arg1 := by
  unfold State.event
  rw [State.updPart_eq, State.part_setPart_self]
  exact ⟨_, List.mem_append_right _ (List.mem_singleton_self _), rfl, rfl, rfl⟩

section
variable (s : State) (n : Nat) (r : Repair) (l : Loc) (x : W64 × Bool)

theorem State.reg_remapped : (s.remapped n r l x).reg (rMtRemap n) = x.1 := State.reg_setReg_self s _ _
theorem State.remapped_mem : (s.remapped n r l x).mem = s.mem := rfl

theorem State.eng_remapped : (s.remapped n r l x).eng n = { s.eng n with
    repair := if x.2 then r.next l x.1 else none, retiring := if x.2 then (s.eng n).retiring else some 0 } := by
  rw [State.remapped, State.updEng_eq, State.eng_setEng_self, State.eng_setReg]

end

/-- Settles O29 (log 24, log 89): a replay and a partner run set the pass up anew and judge it, and a repair takes the spare
that `spareTry` finds. -/
theorem passRecovery : Obligations.PassRecovery := by
  intro s e p o
  refine ⟨fun hp ho hopen hfree => ?_, fun fs m q hp ho hm hmove => ?_, fun r ts hr hquiet => ?_⟩
  · refine ⟨_, exec_replay_of_failed hp ho hopen hfree, State.reg_setReg_self _ _ _, by simp, fun q hq hseq => ?_⟩
    rw [State.eng_setReg] at hq
    obtain ⟨_, _, _, rfl⟩ := State.eq_of_mem_updPass hq hseq
    simp [Pass.replayWith]
  · intro b p' hq hv hout
    have hexec := exec_partnerRun_of_ok hp ho hm hmove hq
    dsimp only at hexec
    rw [hv] at hexec
    have hview := (s.sameView_ranOn (State.partnerOf_lt e.isLt hm) q.acc.exc).trans
      (State.sameView_foundFaulty _ e p.loc o.isInt p.failDt e.isLt)
    have hnone := (hview.outFault e q).trans hout
    refine ⟨((s.ranOn m q.acc.exc).foundFaulty e p.loc o.isInt p.failDt).judge e q 0, hexec, ?_, ?_, ?_, ?_,
      fun r hr hseq => ?_⟩
    · rw [State.judge_mem hnone, State.mem_foundFaulty]
      exact State.ranOn_mem s m _
    · rw [State.fld, State.reg_judge hnone, ← State.fld, State.ckstat_foundFaulty, State.fld,
        State.reg_ranOn _ (by unfold rMtCkstat; omega), ← State.fld]
    · have hb := (s.yieldTile m).partnerBank_lt m
      rw [State.reg_judge hnone, State.reg_foundFaulty _ _ _ _ _ (by unfold rMtExc; omega)]
      exact State.reg_setReg_self _ _ _
    · have hrepair := (State.repair_judge hnone 0).trans (State.repair_foundFaulty _ _ _ _ _)
      rw [State.repair_ranOn] at hrepair
      exact hrepair
    · rw [State.eq_of_mem_judge hnone 0 hr (hseq.trans (State.seq_of_drainRun hq).symm)]
      exact ⟨rfl, rfl⟩
  · intro w l x
    have hexec := exec_lineRemap_of_quiet (ts := ts) hr hquiet
    change exec (.lineRemap e ts) s = .next (if x.2 then
      ((s.remapped e r l x).healthRemap e x.1).event 0 stLineRemap none e x.1.toNat else s.remapped e r l x) at hexec
    have hrepair := congrArg Engine.repair (s.eng_remapped e r l x)
    by_cases hx : x.2 = true
    · rw [if_pos hx] at hexec
      obtain ⟨v, hv, hcode, h0, h1⟩ := State.mem_events_event ((s.remapped e r l x).healthRemap e x.1) 0 stLineRemap e
        x.1.toNat
      refine ⟨_, hexec, ?_, ?_, ?_, fun _ => ⟨v, hv, hcode, h0, h1.trans (by simp)⟩, fun h => absurd hx (by simp [h])⟩
      · rw [State.reg_event, State.reg_healthRemap _ _ _ (by unfold rMtRemap rRstHrec; omega), State.reg_remapped]
      · rw [State.event_mem, State.healthRemap_mem, State.remapped_mem]
      · rw [State.eng_event, State.eng_healthRemap]
        exact hrepair
    · rw [if_neg hx] at hexec
      refine ⟨_, hexec, s.reg_remapped e r l x, s.remapped_mem e r l x, hrepair, fun h => absurd h hx, fun _ => ?_⟩
      rw [State.eng_remapped]
      simp [hx]

end Sys2Proof.Machine
end

section
/-! PROOFS. Drains and verdicts (R61, R66, R69, R72, R75). -/

namespace Sys2Proof.Machine

/-! ### Drains -/

/-- A pass drains: its outputs are held and its exception record is shown. -/
def State.drainInto (s : State) (n : Nat) (p q : Pass) (start : Nat) : State :=
  (s.updPass n p.seq fun _ => { q with phase := .drained, srm0 := some start }).setReg (rMtExc n p.bank)
    (BitVec.ofNat 64 q.acc.exc.word)

theorem exec_drainStart_of_ok {s : State} {e : Fin 64} {fs : List (Fin 129 × Fin 65 × W32)} {p q : Pass}
    (hp : s.drainNext e = some p) (hheld : s.heldCount e < 3) (hret : (s.eng e).retired = false)
    (hmove : s.anyMoving p.ctx p.d.epiAddrs = false) :
    let cur := (s.reg (rVtSrm e p.slot)).toNat
    let start := if p.replayOf = true then p.srm0.getD cur else cur
    s.drainRun e p (perturbs fs) start = .ok q →
    exec (.drainStart e fs) s = .next (if p.replayOf = true then s.drainInto e p q start
      else (s.drainInto e p q start).setReg (rVtSrm e p.slot) (BitVec.ofNat 64 (drawsFrom q.draws cur).2)) := by
  intro cur start hq
  have h3 : ¬ 3 ≤ s.heldCount e := by omega
  change execDrainStart e fs s = _
  unfold execDrainStart
  simp only [hp, h3, hret, hmove, Bool.false_eq_true, or_self, if_false]
  split
  next h => cases hq.symm.trans h
  next h => cases hq.symm.trans h; rfl

theorem State.reg_drainInto (s : State) (n : Nat) (p q : Pass) (start : Nat) {o : Nat} (h : o ≠ rMtExc n p.bank) :
    (s.drainInto n p q start).reg o = s.reg o := by
  rw [State.drainInto, State.reg_setReg, if_neg h, State.reg_updPass]

/-- What a drain holds, shows and leaves: SRM moves on by the draws unless the run is a replay. -/
theorem drainStart_spec {s : State} {e : Fin 64} {p : Pass} {fs : List (Fin 129 × Fin 65 × W32)} {q : Pass}
    (hp : s.drainNext e = some p) (hb : p.bank < 2) (hheld : s.heldCount e < 3) (hret : (s.eng e).retired = false)
    (hmove : s.anyMoving p.ctx p.d.epiAddrs = false) :
    let cur := (s.reg (rVtSrm e p.slot)).toNat
    let start := if p.replayOf = true then p.srm0.getD cur else cur
    s.drainRun e p (perturbs fs) start = .ok q →
    ∃ t, exec (.drainStart e fs) s = .next t ∧
      (t.eng e).passes = (s.eng e).passes.map (fun r =>
        if r.seq = p.seq then { q with phase := .drained, srm0 := some start } else r) ∧
      t.reg (rMtExc e p.bank) = BitVec.ofNat 64 q.acc.exc.word ∧ t.mem = s.mem ∧
      (p.replayOf = true → t.reg (rVtSrm e p.slot) = s.reg (rVtSrm e p.slot)) ∧
      (p.replayOf = false → t.reg (rVtSrm e p.slot) = BitVec.ofNat 64 (drawsFrom q.draws cur).2) := by
  intro cur start hq
  have hexec := exec_drainStart_of_ok hp hheld hret hmove hq
  have hne : rMtExc e p.bank ≠ rVtSrm e p.slot := by
    have := e.isLt
    unfold rMtExc rVtSrm
    omega
  have hpasses : ((s.drainInto e p q start).eng e).passes = _ :=
    State.passes_updPass s e p.seq fun _ => { q with phase := .drained, srm0 := some start }
  have hexc : (s.drainInto e p q start).reg (rMtExc e p.bank) = _ := State.reg_setReg_self _ _ _
  have hmem : (s.drainInto e p q start).mem = s.mem := by simp [State.drainInto]
  by_cases hr : p.replayOf = true
  · rw [if_pos hr] at hexec
    exact ⟨_, hexec, hpasses, hexc, hmem, fun _ => s.reg_drainInto e p q start hne.symm,
      fun h => absurd (hr.symm.trans h) (by decide)⟩
  · rw [if_neg hr] at hexec
    refine ⟨_, hexec, hpasses, ?_, hmem, fun h => absurd h hr, fun _ => State.reg_setReg_self _ _ _⟩
    rw [State.reg_setReg, if_neg hne, hexc]

/-! ### Verdicts -/

section
variable {s : State} {e : Fin 64} {p : Pass} {o : PassOp}
  (hp : leastBy Pass.runNo ((s.eng e).passes.filter (fun q => q.phase == .drained)) = some p) (ho : p.op = some o)
  (hr : p.replayOf = false)
include hp ho hr

theorem exec_verdict_of_pass (hv : (o.tests p.acc p.faults p.tolsh).verdict = .pass) :
    exec (.verdict e) s = .next (s.judge e p 0) := by
  change execVerdict e s = _
  unfold execVerdict
  simp only [hp, ho, hr, hv]

theorem exec_verdict_of_ckne (hv : (o.tests p.acc p.faults p.tolsh).verdict = .ckne) :
    exec (.verdict e) s = .next (s.judge e { p with ckne := true } 1) := by
  change execVerdict e s = _
  unfold execVerdict
  simp only [hp, ho, hr, hv]

theorem exec_verdict_of_fail (hv : (o.tests p.acc p.faults p.tolsh).verdict = .fail) :
    exec (.verdict e) s = .next (s.updPass e p.seq fun _ =>
      { p with phase := .failed, loc := (o.tests p.acc p.faults p.tolsh).loc, failDt := s.dt,
               failNo := (s.eng e).issued, held := {}, fl := {}, acc := {}, faults := [] }) := by
  change execVerdict e s = _
  unfold execVerdict
  simp only [hp, ho, hr, hv]

/-- PASS and CKNE make the pass deliverable with their verdict. -/
theorem verdict_deliverable (hf : s.outFault e p = none) :
    let v := (o.tests p.acc p.faults p.tolsh).verdict
    v ≠ .fail → ∃ t, exec (.verdict e) s = .next t ∧ t.mem = s.mem ∧
      (∀ q ∈ (t.eng e).passes, q.seq = p.seq → q.phase = .judged ∧ q.held = p.held ∧
        q.verdict = (if v = .ckne then 1 else 0) ∧ q.verdictDt = s.dt ∧ (v = .ckne → q.ckne = true)) := by
  intro v hne
  cases hv : v with
  | fail => exact absurd hv hne
  | pass =>
    refine ⟨_, exec_verdict_of_pass hp ho hr hv, State.judge_mem hf 0, fun q hq hs => ?_⟩
    rw [State.eq_of_mem_judge hf 0 hq hs]
    exact ⟨rfl, rfl, rfl, rfl, nofun⟩
  | ckne =>
    have hf' : s.outFault e { p with ckne := true } = none := hf
    refine ⟨_, exec_verdict_of_ckne hp ho hr hv, State.judge_mem hf' 1, fun q hq hs => ?_⟩
    rw [State.eq_of_mem_judge hf' 1 hq hs]
    exact ⟨rfl, rfl, rfl, rfl, fun _ => rfl⟩

/-- FAIL discards the results and leaves the pass waiting for its replay. -/
theorem verdict_failed (hv : (o.tests p.acc p.faults p.tolsh).verdict = .fail) :
    ∃ t, exec (.verdict e) s = .next t ∧ t.mem = s.mem ∧ t.regs = s.regs ∧
      (∀ q ∈ (t.eng e).passes, q.seq = p.seq → q.phase = .failed ∧ q.held = {} ∧ q.failDt = s.dt) := by
  refine ⟨_, exec_verdict_of_fail hp ho hr hv, State.updPass_mem _ _ _ _, State.updPass_regs _ _ _ _, fun q hq hs => ?_⟩
  obtain ⟨_, _, _, rfl⟩ := State.eq_of_mem_updPass hq hs
  exact ⟨rfl, rfl, rfl⟩

end

end Sys2Proof.Machine
end

section
/-! PROOFS. The release of a pass: its held outputs reach memory, and nothing else of memory changes (R74, R131, R134, R139). -/

namespace Sys2Proof.Machine

/-! ### Writes through a pattern -/

/-- From s to t only memory, its poison marks and the engines' local memories change. -/
structure State.writesOnly (s t : State) : Prop where
  rest : t = { s with mem := t.mem, poison := t.poison, engs := t.engs }
  eng : ∀ n, t.eng n = { s.eng n with lmem := (t.eng n).lmem, lpoison := (t.eng n).lpoison }

theorem State.writesOnly.refl (s : State) : s.writesOnly s := ⟨rfl, fun _ => rfl⟩

theorem State.writesOnly.trans {s t u : State} (h : s.writesOnly t) (h' : t.writesOnly u) : s.writesOnly u :=
  ⟨by rw [h'.rest, h.rest], fun n => by rw [h'.eng n, h.eng n]⟩

theorem State.writesOnly_foldl {α : Type} {f : State → α → State} (hf : ∀ (s : State) a, s.writesOnly (f s a))
    (l : List α) (s : State) : s.writesOnly (l.foldl f s) := by
  induction l generalizing s with
  | nil => exact .refl s
  | cons a l ih => exact (hf s a).trans (ih _)

section
variable {s t : State} (h : s.writesOnly t)
include h

theorem State.writesOnly.map : s.sameMap t := by
  rw [h.rest]
  exact ⟨fun _ _ _ => rfl, fun _ => rfl, rfl, rfl, rfl, rfl⟩

theorem State.writesOnly.reg (o : Nat) : t.reg o = s.reg o := by rw [h.rest]; rfl
theorem State.writesOnly.cmds : t.cmds = s.cmds := by rw [h.rest]
theorem State.writesOnly.hostOf (n c : Nat) : t.hostOf n c = s.hostOf n c := by
  unfold State.hostOf
  rw [h.eng n]

end

theorem State.writesOnly_setEng (s : State) (n : Nat) (m : Tab Byte) (l : Tab Bool) :
    s.writesOnly (s.setEng n { s.eng n with lmem := m, lpoison := l }) := by
  refine ⟨rfl, fun k => ?_⟩
  rw [State.eng_setEng]
  split
  next hk => rw [hk]
  · rfl

theorem State.writesOnly_wrPlace (s : State) (p : Place) (b : Byte) : s.writesOnly (s.wrPlace p b) := by
  cases p with
  | loc n a => exact s.writesOnly_setEng n _ _
  | dev a =>
    unfold State.wrPlace
    dsimp only
    split
    · exact .refl s
    · exact ⟨rfl, fun _ => rfl⟩

theorem State.writesOnly_setMark (s : State) (p : Place) (v : Bool) : s.writesOnly (s.setMark p v) := by
  cases p with
  | loc n a => exact s.writesOnly_setEng n _ _
  | dev a =>
    unfold State.setMark
    dsimp only
    split
    · exact .refl s
    · exact ⟨rfl, fun _ => rfl⟩

theorem State.setMark_mem (s : State) (p : Place) (v : Bool) : (s.setMark p v).mem = s.mem := by
  cases p with
  | loc n a => rfl
  | dev a =>
    unfold State.setMark
    dsimp only
    split <;> rfl

/-- What the marks of a run of writes do: a line that took poison is marked, one that was written whole is cleared. -/
def State.markAll (s : State) (bad : List (Nat × Nat)) (ps : List Place) : State :=
  ps.foldl (fun s p =>
    if bad.contains p.line then s.setMark p true
    else if coverCount ps p = 64 then s.setMark p false else s) s

theorem State.writesOnly_markAll (s : State) (bad : List (Nat × Nat)) (ps : List Place) :
    s.writesOnly (s.markAll bad ps) := by
  refine State.writesOnly_foldl (fun s p => ?_) ps s
  split_ifs
  · exact s.writesOnly_setMark p true
  · exact s.writesOnly_setMark p false
  · exact .refl s

theorem State.markAll_mem (s : State) (bad : List (Nat × Nat)) (ps : List Place) : (s.markAll bad ps).mem = s.mem := by
  refine foldl_proj (π := State.mem) (fun s p => ?_) ps s
  split_ifs
  · exact s.setMark_mem p true
  · exact s.setMark_mem p false
  · rfl

theorem State.wrAll_eq (s : State) (ws : List (Place × Byte × Bool)) :
    s.wrAll ws = (ws.foldl (fun s w => s.wrPlace w.1 w.2.1) s).markAll
      ((ws.filter (fun w => w.2.2)).map (fun w => w.1.line)) (ws.map Prod.fst) := rfl

theorem State.writesOnly_wrAll (s : State) (ws : List (Place × Byte × Bool)) : s.writesOnly (s.wrAll ws) := by
  rw [State.wrAll_eq]
  exact (State.writesOnly_foldl (fun s w => s.writesOnly_wrPlace w.1 w.2.1) ws s).trans (State.writesOnly_markAll _ _ _)

theorem State.writesOnly_putOut (s : State) (n : Nat) (p : Pass) (d : Option SDesc) (bs : List Byte) :
    s.writesOnly (s.putOut n p d bs) := by
  cases d with
  | none => exact .refl s
  | some d => exact s.writesOnly_wrAll _

/-! ### The bytes that no place names -/

theorem State.byte_wrPlace {s : State} {p : Place} {a : Nat} (b : Byte)
    (h : ∀ d, p = .dev d → s.memKey d ≠ s.memKey a) : (s.wrPlace p b).byte a = s.byte a := by
  cases p with
  | loc n x => rfl
  | dev d =>
    unfold State.wrPlace
    dsimp only
    split
    · rfl
    · rw [State.byte_setByte, if_neg (h d rfl).symm]

theorem State.byte_wrAll {s : State} {ws : List (Place × Byte × Bool)} {a : Nat}
    (h : ∀ d, .dev d ∈ ws.map Prod.fst → s.memKey d ≠ s.memKey a) : (s.wrAll ws).byte a = s.byte a := by
  have hm (u : State) (bad : List (Nat × Nat)) (ps : List Place) : (u.markAll bad ps).byte a = u.byte a := by
    unfold State.byte
    rw [State.markAll_mem, (u.writesOnly_markAll bad ps).map.memKey]
  rw [State.wrAll_eq, hm]
  induction ws generalizing s with
  | nil => rfl
  | cons w ws ih =>
    have hw := s.writesOnly_wrPlace w.1 w.2.1
    rw [List.foldl_cons, ih fun d hd => ?_, State.byte_wrPlace _ fun d hd => h d (by simp [← hd])]
    rw [hw.map.memKey, hw.map.memKey]
    exact h d (List.mem_cons_of_mem _ hd)

theorem State.byte_scatter {s : State} {n k c : Nat} {isLoc : Bool} {as : List Int} (bs : List Byte) (poison : Bool)
    {a : Nat} (h : ∀ d, .dev d ∈ (s.placesOf n k c isLoc true as).1 → s.memKey d ≠ s.memKey a) :
    (s.scatter n k c isLoc as bs poison).1.byte a = s.byte a := by
  refine State.byte_wrAll fun d hd => h d ?_
  rw [List.map_zipWith, ← List.map_uncurry_zip_eq_zipWith] at hd
  obtain ⟨⟨x, b⟩, hx, hxd⟩ := List.mem_map.1 hd
  cases hxd
  exact (List.of_mem_zip hx).1

/-! ### What a delivered pass leaves -/

/-- The held outputs of a pass, each with its pattern. -/
def Pass.heldOuts (p : Pass) : List (Option SDesc × List Byte) :=
  [(p.d.out, p.held.main), (p.d.scout, p.held.scales), (p.d.side, p.held.side), (p.d.tkout, p.held.cands)]

/-- The held outputs of a pass written through its four patterns, in order. -/
def State.putOuts (s : State) (n : Nat) (p : Pass) : State := p.heldOuts.foldl (fun s x => s.putOut n p x.1 x.2) s

theorem State.writesOnly_putOuts (s : State) (n : Nat) (p : Pass) : s.writesOnly (s.putOuts n p) :=
  State.writesOnly_foldl (fun s (x : Option SDesc × List Byte) => s.writesOnly_putOut n p x.1 x.2) p.heldOuts s

theorem State.foldl_putOut_of_none {n : Nat} {p : Pass} {xs : List (Option SDesc × List Byte)} (s : State)
    (h : xs.filterMap Prod.fst = []) : xs.foldl (fun s x => s.putOut n p x.1 x.2) s = s := by
  induction xs with
  | nil => rfl
  | cons x xs ih =>
    obtain ⟨_ | d, bs⟩ := x
    · exact ih h
    · cases h

/-- Where a single output has a pattern, the bytes that it does not name are unchanged. -/
theorem State.byte_foldl_putOut {s : State} {n : Nat} {p : Pass} {d : SDesc} {a : Nat}
    {xs : List (Option SDesc × List Byte)} (hd : xs.filterMap Prod.fst = [d])
    (h : ∀ b, .dev b ∈ (s.placesOf n p.slot p.ctx d.loc true d.addrs).1 → s.memKey b ≠ s.memKey a) :
    (xs.foldl (fun s x => s.putOut n p x.1 x.2) s).byte a = s.byte a := by
  induction xs with
  | nil => cases hd
  | cons x xs ih =>
    obtain ⟨_ | d', bs⟩ := x
    · exact ih hd
    · obtain ⟨rfl, hxs⟩ := List.cons.inj hd
      rw [List.foldl_cons, State.foldl_putOut_of_none _ hxs]
      exact State.byte_scatter bs p.poison h

theorem State.byte_putOuts {s : State} {n : Nat} {p : Pass} {d : SDesc} {a : Nat} (hd : p.d.outs = [d])
    (h : ∀ b, .dev b ∈ (s.placesOf n p.slot p.ctx d.loc true d.addrs).1 → s.memKey b ≠ s.memKey a) :
    (s.putOuts n p).byte a = s.byte a :=
  State.byte_foldl_putOut (xs := p.heldOuts) hd h

/-- The engine that ran a pass. -/
def Pass.runner (p : Pass) (n : Nat) : Nat := if p.byPartner = true then p.partnerEng else n

/-- The outputs are in memory, the flags with the command, and the pass is counted. -/
def State.counted (s : State) (n : Nat) (p : Pass) : State :=
  ((s.putOuts n p).releaseFlags p).updReg (rMtPasscnt (p.runner n)) (· + 1)

/-- The gate signal of a pass (R139). -/
def Pass.gateSig (p : Pass) (n : Nat) : Sig :=
  { gate := p.d.sigGate, ctx := p.ctx, gen := p.gen, src := passSrc n p.slot }

theorem State.deliverPass_of_no_stot {s : State} {p : Pass} (n : Nat) (h : p.d.stot = none) :
    s.deliverPass n p = if p.d.sig then (s.counted n p).sendSig n (p.gateSig n) else s.counted n p := by
  unfold State.deliverPass State.releaseStot
  simp only [h]
  rfl

theorem State.noFixes.releaseFlags {s : State} {p : Pass} (h : s.noFixes p.cmd) : (s.releaseFlags p).noFixes p.cmd := by
  refine h.updCmd fun c => ?_
  dsimp only
  split_ifs <;> simp [Cmd.addFlags]

section
variable {s : State} {n : Nat} {p : Pass} (hs : p.d.stot = none) (hr : p.runner n < 64)

theorem State.counted_mem (s : State) (n : Nat) (p : Pass) : (s.counted n p).mem = (s.putOuts n p).mem := by
  rw [State.counted, State.updReg_eq, State.setReg_mem, State.releaseFlags, State.updCmd_mem]

theorem State.reg_counted (s : State) (n : Nat) (p : Pass) :
    (s.counted n p).reg (rMtPasscnt (p.runner n)) = s.reg (rMtPasscnt (p.runner n)) + 1 := by
  rw [State.counted, State.updReg_eq, State.reg_setReg_self, State.releaseFlags, State.reg_updCmd,
    (s.writesOnly_putOuts n p).reg]

include hr in
theorem State.sameMap_counted : s.sameMap (s.counted n p) := by
  refine ((s.writesOnly_putOuts n p).map.trans (State.aftermath_updCmd _ _ _).map).trans (State.sameMap_setReg _ _ ?_)
  unfold rMtPasscnt
  omega

theorem State.noFixes.counted (h : s.noFixes p.cmd) : (s.counted n p).noFixes p.cmd :=
  (h.congr (s.writesOnly_putOuts n p).cmds).releaseFlags.congr rfl

theorem State.hostOf_counted (c : Nat) : (s.counted n p).hostOf n c = s.hostOf n c :=
  (s.writesOnly_putOuts n p).hostOf n c

include hs

/-- The delivered pass: its outputs are in memory, which lies where it lay, it is counted and its signal is sent. -/
theorem State.deliverPass_mem : (s.deliverPass n p).mem = (s.putOuts n p).mem := by
  rw [State.deliverPass_of_no_stot n hs]
  split
  · exact s.counted_mem n p
  · exact s.counted_mem n p

theorem State.reg_deliverPass : (s.deliverPass n p).reg (rMtPasscnt (p.runner n)) = s.reg (rMtPasscnt (p.runner n)) + 1 := by
  rw [State.deliverPass_of_no_stot n hs]
  split
  · exact s.reg_counted n p
  · exact s.reg_counted n p

include hr in
theorem State.sameMap_deliverPass : s.sameMap (s.deliverPass n p) := by
  rw [State.deliverPass_of_no_stot n hs]
  split
  · exact (State.sameMap_counted hr).trans (State.sameView_setEng _ _ _).map
  · exact State.sameMap_counted hr

theorem State.noFixes.deliverPass (h : s.noFixes p.cmd) : (s.deliverPass n p).noFixes p.cmd := by
  rw [State.deliverPass_of_no_stot n hs]
  split
  · exact h.counted
  · exact h.counted

theorem State.mem_sigs_deliverPass (h : p.d.sig = true) :
    p.gateSig n ∈ ((s.deliverPass n p).eng (s.hostOf n p.ctx)).sigs := by
  rw [State.deliverPass_of_no_stot n hs, if_pos h, State.sendSig, State.updEng_eq, Pass.gateSig, State.hostOf_counted,
    State.eng_setEng_self]
  exact List.mem_append_right _ (List.mem_singleton_self _)

end

/-! ### RELEASE -/

/-- A pass leaves its tile: it is dropped, its command settles, and slots of the engine go on. -/
def State.discharge (s : State) (n : Nat) (p : Pass) : State := ((s.dropPass n p.seq).settleRom p.cmd).wake n

theorem State.noFixes.dropPass {s : State} {n seq id : Nat} (h : s.noFixes id) : (s.dropPass n seq).noFixes id :=
  h.congr rfl

theorem State.aftermath_discharge {s : State} {n : Nat} {p : Pass} (h : s.noFixes p.cmd) :
    (s.dropPass n p.seq).aftermath (s.discharge n p) :=
  (State.aftermath_settleRom h.dropPass).trans (State.aftermath_wake _ n)

section
variable {s : State} {n : Nat} {p : Pass} (h : s.noFixes p.cmd)
include h

theorem State.seq_ne_of_mem_discharge {q : Pass} (hq : q ∈ ((s.discharge n p).eng n).passes) : q.seq ≠ p.seq := by
  rw [(State.aftermath_discharge h).passes] at hq
  exact State.seq_ne_of_mem_dropPass hq

theorem State.discharge_mem : (s.discharge n p).mem = s.mem :=
  (State.aftermath_discharge h).mem

theorem State.reg_discharge {o : Nat} (ho : o < 0x200000) : (s.discharge n p).reg o = s.reg o :=
  (State.aftermath_discharge h).reg_of_lt ho

theorem State.sameMap_discharge : s.sameMap (s.discharge n p) :=
  (State.sameView_setEng s n _).map.trans (State.aftermath_discharge h).map

theorem State.sigs_discharge (m : Nat) : ((s.discharge n p).eng m).sigs = (s.eng m).sigs := by
  rw [(State.aftermath_discharge h).sigs, State.dropPass, State.updEng_eq, State.eng_setEng]
  split
  next hm => rw [hm]
  · rfl

end

section
variable {s : State} {e : Fin 64} {p : Pass} (hp : leastBy Pass.issueNo ((s.eng e).passes.filter
  (fun q => q.phase != .queued && (q.phase != .saved || s.keepsPlace e q))) = some p)
include hp

theorem exec_release_of_dead (hd : p.phase = .dead) : exec (.release e) s = .next (s.discharge e p) := by
  change execRelease e s = _
  unfold execRelease
  simp only [hp, hd]
  rfl

theorem exec_release_of_judged (hj : p.phase = .judged) (hs : p.d.stot = none)
    (hmove : s.anyMoving p.ctx p.d.outAddrs = false) (hf : s.outFault e p = none) :
    exec (.release e) s = .next (((s.deliverPass e p).touchVas p.ctx p.cmd p.d.outAddrs).discharge e p) := by
  have hm : s.stotMoving p = false := by
    unfold State.stotMoving
    rw [hs]
  change execRelease e s = _
  unfold execRelease
  simp only [hp, hj, hmove, hm, hf, Bool.false_eq_true, or_self, if_false]
  rfl

end

theorem State.noFixes_of_released {s : State} {n : Nat} {p : Pass} (h : s.noFixes p.cmd) (hs : p.d.stot = none)
    (as : List Int) : ((s.deliverPass n p).touchVas p.ctx p.cmd as).noFixes p.cmd :=
  (State.noFixes.deliverPass hs h).touchVas p.ctx as

/-- The release of a deliverable pass without a stot, whose command has no fix-up pass to run. -/
theorem release_delivers {s : State} {e : Fin 64} {p : Pass} (hp : leastBy Pass.issueNo ((s.eng e).passes.filter
    (fun q => q.phase != .queued && (q.phase != .saved || s.keepsPlace e q))) = some p)
    (hfix : s.noFixes p.cmd) (hj : p.phase = .judged) (hr : p.runner e < 64) (hs : p.d.stot = none)
    (hmove : s.anyMoving p.ctx p.d.outAddrs = false) (hf : s.outFault e p = none) :
    ∃ t, exec (.release e) s = .next t ∧ (∀ q ∈ (t.eng e).passes, q.seq ≠ p.seq) ∧ t.mem = (s.putOuts e p).mem ∧
      t.reg (rMtPasscnt (p.runner e)) = s.reg (rMtPasscnt (p.runner e)) + 1 ∧ s.sameMap t ∧
      (p.d.sig = true → p.gateSig e ∈ (t.eng (s.hostOf e p.ctx)).sigs) := by
  have hd : (s.deliverPass e p).aftermath ((s.deliverPass e p).touchVas p.ctx p.cmd p.d.outAddrs) :=
    State.aftermath_touchVas _ _ _ _
  have hfix' := State.noFixes_of_released (n := e) hfix hs p.d.outAddrs
  have hlt : rMtPasscnt (p.runner e) < 0x200000 := by unfold rMtPasscnt; omega
  refine ⟨_, exec_release_of_judged hp hj hs hmove hf, fun q hq => State.seq_ne_of_mem_discharge hfix' hq, ?_, ?_, ?_,
    fun hsig => ?_⟩
  · rw [State.discharge_mem hfix', hd.mem, State.deliverPass_mem hs]
  · rw [State.reg_discharge hfix' hlt, hd.reg_of_lt hlt, State.reg_deliverPass hs]
  · exact ((State.sameMap_deliverPass hs hr).trans hd.map).trans (State.sameMap_discharge hfix')
  · rw [State.sigs_discharge hfix', hd.sigs]
    exact State.mem_sigs_deliverPass hs hsig

/-- Settles O28 (log 22, log 23, log 88): a drain and a verdict change the pass and the books alone; a release writes the held
outputs, and what follows on it leaves memory and where it lies as they are. -/
theorem passDrainVerdictRelease : Obligations.PassDrainVerdictRelease := by
  refine ⟨fun s e p => ⟨fun fs q hp hb hheld hret hmove => drainStart_spec hp hb hheld hret hmove,
    fun o hp ho hr => ⟨fun hne hf => verdict_deliverable hp ho hr hf hne, verdict_failed hp ho hr⟩⟩, fun s e p hp hfix => ?_⟩
  intro out runner
  refine ⟨fun hj hr hs hmove hf => ?_, fun hd => ?_⟩
  · obtain ⟨t, hexec, hgone, hmem, hcnt, hmap, hsig⟩ := release_delivers hp hfix hj hr hs hmove hf
    refine ⟨t, hexec, hgone, ?_, hcnt, fun d hd a ha => ?_, hsig⟩
    · have hput (u : State) (d : Option SDesc) (bs : List Byte) : out u d bs = u.putOut e p d bs := by
        cases d <;> rfl
      rw [hmem, hput, hput, hput, hput]
      rfl
    · rw [State.byte, hmem, hmap.memKey, ← (s.writesOnly_putOuts e p).map.memKey, ← State.byte]
      exact State.byte_putOuts hd ha
  · exact ⟨_, exec_release_of_dead hp hd, fun q hq => State.seq_ne_of_mem_discharge hfix hq, State.discharge_mem hfix⟩

end Sys2Proof.Machine
end

section
/-! PROOFS. The vector tile: its banks, what landing results leaves unchanged, and what one bundle does to the engine
(R90 to R96, R102, R105). -/

namespace Sys2Proof.Machine

/-! ### Banks -/

theorem Engine.bank_setBank (e : Engine) (k j : Nat) (b : Bank) :
    (e.setBank k b).bank j = if j = k then b else e.bank j := tget_tset _ _ _ _

@[simp] theorem Engine.bank_setBank_self (e : Engine) (k : Nat) (b : Bank) : (e.setBank k b).bank k = b := by
  simp [Engine.bank_setBank]

/-- The bank beside k is another bank. -/
theorem other_bank_ne (k : Nat) : 1 - k ≠ k := by omega

@[simp] theorem Engine.bank_setBank_other (e : Engine) (k : Nat) (b : Bank) : (e.setBank (1 - k) b).bank k = e.bank k := by
  rw [Engine.bank_setBank, if_neg (other_bank_ne k).symm]

/-! ### Landing (R90) -/

/-- From e to f nothing of the engine has changed but its banks and its local memory. -/
def Engine.tileOnly (e f : Engine) : Prop := f = { e with banks := f.banks, lmem := f.lmem }

theorem Engine.tileOnly.trans {e f g : Engine} (h : e.tileOnly f) (h' : f.tileOnly g) : e.tileOnly g := by
  unfold Engine.tileOnly at *; rw [h', h]

theorem Engine.tileOnly_landOne (e : Engine) (k : Nat) (t : VTarget) : e.tileOnly (e.landOne k t) := by
  cases t <;> rfl

theorem Engine.tileOnly_foldl {α : Type} {f : Engine → α → Engine} (hf : ∀ (e : Engine) a, e.tileOnly (f e a)) (l : List α)
    (e : Engine) : e.tileOnly (l.foldl f e) := by
  induction l generalizing e with
  | nil => rfl
  | cons a l ih => exact (hf e a).trans (ih (f e a))

theorem Engine.tileOnly_setBank (e : Engine) (k : Nat) (b : Bank) : e.tileOnly (e.setBank k b) := rfl

theorem Engine.tileOnly_landDue (e : Engine) (k t : Nat) : e.tileOnly (e.landDue k t) :=
  (Engine.tileOnly_foldl (fun e (p : Pend) => e.tileOnly_landOne k p.tgt) _ e).trans rfl

theorem Engine.tileOnly_landStores (e : Engine) (k : Nat) : e.tileOnly (e.landStores k) :=
  (Engine.tileOnly_foldl (fun e (p : Pend) => e.tileOnly_landOne k p.tgt) _ e).trans rfl

section
variable {e f : Engine} (h : e.tileOnly f)
include h
theorem Engine.tileOnly.tc : f.tc = e.tc := by rw [h]
theorem Engine.tileOnly.active : f.active = e.active := by rw [h]
theorem Engine.tileOnly.slots : f.slots = e.slots := by rw [h]
theorem Engine.tileOnly.sigs : f.sigs = e.sigs := by rw [h]
theorem Engine.tileOnly.hosts : f.hosts = e.hosts := by rw [h]
end

theorem Engine.bank_landOne_of_ne (e : Engine) (t : VTarget) {k j : Nat} (h : j ≠ k) :
    (e.landOne k t).bank j = e.bank j := by
  cases t with
  | mem a x => rfl
  | v r x => exact (e.bank_setBank k j _).trans (if_neg h)
  | s r x => exact (e.bank_setBank k j _).trans (if_neg h)

theorem Engine.bank_landDue_of_ne (e : Engine) (t : Nat) {k j : Nat} (h : j ≠ k) : (e.landDue k t).bank j = e.bank j := by
  unfold Engine.landDue
  rw [Engine.bank_setBank, if_neg h]
  exact foldl_proj (π := fun e : Engine => e.bank j) (fun e (p : Pend) => e.bank_landOne_of_ne p.tgt h) _ e

/-- Making stores visible leaves all of the bank but its results in flight. -/
theorem Engine.bank_landStores (e : Engine) (k : Nat) :
    (e.landStores k).bank k = { e.bank k with pend := ((e.landStores k).bank k).pend } := by
  have hfold (l : List Pend) (hl : ∀ p ∈ l, ∃ a x, p.tgt = .mem a x) (e : Engine) :
      (l.foldl (fun e p => e.landOne k p.tgt) e).bank k = e.bank k := by
    induction l generalizing e with
    | nil => rfl
    | cons p l ih =>
      obtain ⟨a, x, hp⟩ := hl p (by simp)
      rw [List.foldl_cons, ih (fun q hq => hl q (by simp [hq])), hp]
      rfl
  unfold Engine.landStores
  dsimp only
  rw [Engine.bank_setBank_self, hfold _ (fun p hp => ?_)]
  obtain ⟨-, hp⟩ := List.mem_filter.mp hp
  split at hp
  next a x hx => exact ⟨a, x, hx⟩
  · cases hp

/-- The bank beside k with its results landed, as VRETI's swap back leaves the engine before it goes on. -/
theorem Engine.swapBack_eq (e : Engine) (k : Nat) (b : Bank) : ∃ f : Engine, ∃ c : Bank,
    e.swapBack k b = { f.setBank (1 - k) c with active := 1 - k } ∧ e.tileOnly f ∧
      f.bank k = { b with st := .draining, ret := none } :=
  ⟨(e.setBank k { b with st := .draining, ret := none }).landDue (1 - k) (e.bank (1 - k)).lastDue, _, rfl,
    (e.tileOnly_setBank k _).trans (Engine.tileOnly_landDue _ _ _),
    by rw [Engine.bank_landDue_of_ne _ _ (other_bank_ne k).symm, Engine.bank_setBank_self]⟩

/-- VRETI's swap back leaves the handler's bank as it was but for the end of its return. -/
theorem Engine.bank_swapBack (e : Engine) (k : Nat) (b : Bank) :
    (e.swapBack k b).bank k = { b with st := .draining, ret := none } := by
  obtain ⟨f, c, heq, -, hb⟩ := e.swapBack_eq k b
  rw [heq, ← hb]
  exact f.bank_setBank_other k c

theorem Engine.slots_swapBack (e : Engine) (k : Nat) (b : Bank) : (e.swapBack k b).slots = e.slots := by
  obtain ⟨f, c, heq, hf, -⟩ := e.swapBack_eq k b
  rw [heq]
  exact hf.slots

theorem Engine.sigs_swapBack (e : Engine) (k : Nat) (b : Bank) : (e.swapBack k b).sigs = e.sigs := by
  obtain ⟨f, c, heq, hf, -⟩ := e.swapBack_eq k b
  rw [heq]
  exact hf.sigs

/-! ### The bank after a bundle -/

theorem mem_insertPend {p x : Pend} {l : List Pend} : x ∈ insertPend p l ↔ x = p ∨ x ∈ l := by
  induction l with
  | nil => simp [insertPend]
  | cons q l ih =>
    unfold insertPend
    split
    · simp
    · simp only [List.mem_cons, ih]
      tauto

theorem mem_foldl_insertPend {x : Pend} (tc : Nat) (rs : List (Nat × VTarget)) (l : List Pend) :
    x ∈ rs.foldl (fun l (p : Nat × VTarget) => insertPend { due := tc + p.1, tgt := p.2 } l) l ↔
      x ∈ l ∨ ∃ p ∈ rs, x = ⟨tc + p.1, p.2⟩ := by
  induction rs generalizing l with
  | nil => simp
  | cons p rs ih =>
    rw [List.foldl_cons, ih, mem_insertPend]
    simp only [List.mem_cons, exists_eq_or_imp]
    tauto

section
variable (b : Bank) (tc ctl : Nat) {r : VRes}

theorem Bank.pend_after : (b.after tc ctl r).pend =
    r.pend.foldl (fun l (p : Nat × VTarget) => insertPend { due := tc + p.1, tgt := p.2 } l) b.pend := by
  rcases r with ⟨pend, _ | ⟨f, k, v⟩⟩
  · rfl
  · unfold Bank.after; dsimp only; split_ifs <;> rfl

theorem Bank.mem_pend_after {p : Nat × VTarget} (h : p ∈ r.pend) : (⟨tc + p.1, p.2⟩ : Pend) ∈ (b.after tc ctl r).pend := by
  rw [Bank.pend_after, mem_foldl_insertPend]
  exact .inr ⟨p, h, rfl⟩

/-- What A, AB and AL of register k read after an LS operation that gives one of them a value. -/
theorem Bank.aregs_after {f k v : Nat} (h : r.areg = some (f, k, v)) (hf : f < 3) :
    (tget (0 : W32) (b.after tc ctl r).a k, tget (0 : W32) (b.after tc ctl r).ab k, tget (0 : W32) (b.after tc ctl r).al k) =
      (if f = 0 then BitVec.ofNat 32 v else tget (0 : W32) b.a k,
       if f = 1 then BitVec.ofNat 32 v else tget (0 : W32) b.ab k,
       if f = 2 then BitVec.ofNat 32 v else tget (0 : W32) b.al k) := by
  unfold Bank.after
  rw [h]
  interval_cases f <;> simp [tget_tset]

theorem Bank.br_after_of_none (h : b.br = none) : (b.after tc ctl r).br = r.br := by
  rcases r with ⟨pend, _ | ⟨f, k, v⟩⟩ <;> unfold Bank.after <;> dsimp only
  · rw [h]
  · split_ifs <;> simp only [h]

theorem Bank.pc_after_of_none (h : b.br = none) : (b.after tc ctl r).pc = pcWrap (b.pc + 1) := by
  rcases r with ⟨pend, _ | ⟨f, k, v⟩⟩ <;> unfold Bank.after <;> dsimp only
  · rw [h]
  · split_ifs <;> simp only [h]

/-- The second delay bundle goes to the branch's target. -/
theorem Bank.target_after {p : Nat} (h : b.br = some (1, p)) :
    (b.after tc ctl r).pc = p ∧ (b.after tc ctl r).br = none := by
  rcases r with ⟨pend, _ | ⟨f, k, v⟩⟩ <;> unfold Bank.after <;> dsimp only
  · rw [h]; exact ⟨rfl, rfl⟩
  · split_ifs <;> simp [h]

theorem Bank.ret_after_of_none (h : b.ret = none) : (b.after tc ctl r).ret = if r.ret then some 2 else none := by
  rcases r with ⟨pend, _ | ⟨f, k, v⟩⟩ <;> unfold Bank.after <;> dsimp only
  · rw [h]
  · split_ifs <;> simp_all
end

theorem pcWrap_succ (p : Nat) : pcWrap ((p : Int) + 1) = (p + 1) % 2 ^ 15 := by
  unfold pcWrap wrapInt; omega

/-! ### The gates and generators that a bundle changes -/

/-- The flags and the generator states after a bundle of slot k. -/
def State.sideRegs (s : State) (n k : Nat) (r : VRes) : State :=
  let s := if r.clear then s.setFld (rVtFlags n k) 0 4 0 else s
  let s := s.updReg (rVtFlags n k) (fun w => w ||| BitVec.ofNat 64 r.fl.bits)
  let s := match r.srm with | none => s | some v => s.setReg (rVtSrm n k) (BitVec.ofNat 64 v)
  match r.srv with | none => s | some v => s.setReg (rVtSrv n k) (BitVec.ofNat 64 v)

/-- The gates that a bundle arms and disarms. -/
def State.sideArms (s : State) (n k : Nat) (r : VRes) : State :=
  let s := match r.arm with
    | none => s
    | some (g, pc) => s.updSlot n k (fun x => { x with arms := armGate g pc x.arms })
  match r.disarm with
  | none => s
  | some g => s.updSlot n k (fun x => { x with arms := x.arms.filter (fun a => a.gate != g) })

/-- The arming table after a bundle. -/
def VRes.armsAfter (r : VRes) (l : List Arm) : List Arm :=
  let l := match r.arm with | none => l | some (g, pc) => armGate g pc l
  match r.disarm with | none => l | some g => l.filter (fun a => a.gate != g)

section
variable (s : State) (n k : Nat) (r : VRes)

theorem State.bundleSide_eq : s.bundleSide n k r = (s.sideRegs n k r).sideArms n k r := rfl

theorem State.engs_sideRegs : (s.sideRegs n k r).engs = s.engs := by
  unfold State.sideRegs
  cases r.clear <;> cases r.srm <;> cases r.srv <;> rfl

theorem State.eng_sideRegs (m : Nat) : (s.sideRegs n k r).eng m = s.eng m := by
  unfold State.eng; rw [State.engs_sideRegs]

theorem State.reg_sideArms (o : Nat) : (s.sideArms n k r).reg o = s.reg o := by
  unfold State.sideArms
  cases r.arm <;> cases r.disarm <;> rfl

theorem State.slot_sideArms :
    (s.sideArms n k r).slot n k = { s.slot n k with arms := r.armsAfter (s.slot n k).arms } := by
  unfold State.sideArms VRes.armsAfter
  cases r.arm <;> cases r.disarm <;> simp only [State.updSlot_slot]

theorem State.aftermath_sideArms : s.aftermath (s.sideArms n k r) := by
  have hset (t : State) (f : Slot → Slot) : t.aftermath (t.updSlot n k f) := t.aftermath_setSlot n k _
  unfold State.sideArms
  cases r.arm <;> cases r.disarm
  · exact .refl s
  · exact hset s _
  · exact hset s _
  · exact (hset s _).trans (hset _ _)

/-- A bundle's side effects change no engine but in its slots. -/
theorem State.eng_bundleSide (m : Nat) :
    (s.bundleSide n k r).eng m = { s.eng m with slots := ((s.bundleSide n k r).eng m).slots } := by
  rw [State.bundleSide_eq, (State.aftermath_sideArms _ n k r).eng m, State.eng_sideRegs]

theorem State.slot_bundleSide :
    (s.bundleSide n k r).slot n k = { s.slot n k with arms := r.armsAfter (s.slot n k).arms } := by
  rw [State.bundleSide_eq, State.slot_sideArms, State.slot, State.eng_sideRegs]
  rfl

variable {r}

theorem State.reg_bundleSide_srm {v : Nat} (h : r.srm = some v) (hv : r.srv = none) :
    (s.bundleSide n k r).reg (rVtSrm n k) = BitVec.ofNat 64 v := by
  rw [State.bundleSide_eq, State.reg_sideArms, State.sideRegs, h, hv]
  exact State.reg_setReg_self _ _ _

theorem State.reg_bundleSide_srv {v : Nat} (h : r.srv = some v) :
    (s.bundleSide n k r).reg (rVtSrv n k) = BitVec.ofNat 64 v := by
  rw [State.bundleSide_eq, State.reg_sideArms, State.sideRegs, h]
  exact State.reg_setReg_self _ _ _

/-- A bundle that clears the flags and raises none leaves none. -/
theorem State.fld_bundleSide_flags (h : r.clear = true) (hf : r.fl = {}) (hm : r.srm = none) (hv : r.srv = none) :
    (s.bundleSide n k r).fld (rVtFlags n k) 0 4 = 0 := by
  rw [State.fld, State.bundleSide_eq, State.reg_sideArms, State.sideRegs, h, hf, hm, hv]
  simp [Fl.bits, bf_bset_self]

end

/-! ### One bundle -/

/-- What the slots of bundle u of engine n do in state s. -/
def State.bundleRes (s : State) (n : Nat) (u : Bundle) : VRes :=
  (lsRun (s.eng n) (s.fld (rVtLmwin n (s.actBank n).slot) 0 7 * 4096) (s.actBank n) u.ls).join
    (aluRun (s.vtIn n) (s.actBank n) u.alu) (macRun (s.vtIn n) (s.actBank n) u.mac)

/-- The state in which the results of bundle u begin their way: VSIG has made the stores before it visible. -/
def State.signalled (s : State) (n : Nat) (u : Bundle) : State :=
  if (s.bundleRes n u).sig.isSome then s.updEng n (fun e => e.landStores (s.eng n).active) else s

/-- The active bank after bundle u. -/
def State.bankAfter (s : State) (n : Nat) (u : Bundle) : Bank :=
  (((s.signalled n u).eng n).bank (s.eng n).active).after (s.eng n).tc u.ctl (s.bundleRes n u)

/-- The state after bundle u of slot j but for its signal and for VRETI's swap back. -/
def State.bundleDone (s : State) (n : Nat) (u : Bundle) (j : Nat) : State :=
  let t := (s.signalled n u).updEng n (fun e => { e.setBank (s.eng n).active (s.bankAfter n u) with tc := e.tc + 1 })
  let t := (t.bundleSide n j (s.bundleRes n u)).updReg (rVtBundles n) (· + 1)
  { t with free := t.free + 32 }

/-- The state after bundle u of slot j but for VRETI's swap back. -/
def State.bundleSent (s : State) (n : Nat) (u : Bundle) (j : Nat) : State :=
  let x := s.slot n (s.actBank n).slot
  match (s.bundleRes n u).sig with
  | none => s.bundleDone n u j
  | some g => (s.bundleDone n u j).sendSig n { gate := g, ctx := x.ctx, gen := x.gen, src := threadSrc n j }

section
variable (s : State) (n : Nat) (u : Bundle)

/-- The bank that executes has what it had, but for stores that VSIG has made visible. -/
theorem State.bank_signalled : ∃ l, ((s.signalled n u).eng n).bank (s.eng n).active = { s.actBank n with pend := l } := by
  unfold State.signalled
  split
  · rw [State.updEng_eq, State.eng_setEng_self, Engine.bank_landStores]
    exact ⟨_, rfl⟩
  · exact ⟨_, rfl⟩

theorem State.tileOnly_signalled (m : Nat) : (s.eng m).tileOnly ((s.signalled n u).eng m) := by
  unfold State.signalled
  split
  · rw [State.updEng_eq, State.eng_setEng]
    split
    next h => rw [h]; exact Engine.tileOnly_landStores _ _
    · rfl
  · rfl

theorem State.runBundle_eq : s.runBundle n u =
    if (s.bankAfter n u).ret = some 0 then
      (s.bundleSent n u (s.actBank n).slot).updEng n (fun e => e.swapBack (s.eng n).active (s.bankAfter n u))
    else s.bundleSent n u (s.actBank n).slot := by
  obtain ⟨l, hl⟩ := s.bank_signalled n u
  have hj : (((s.signalled n u).eng n).bank (s.eng n).active).slot = (s.actBank n).slot := by rw [hl]
  rw [← hj]
  rfl

theorem State.bank_bundleDone (j : Nat) : ((s.bundleDone n u j).eng n).bank (s.eng n).active = s.bankAfter n u := by
  change (State.eng (State.bundleSide _ n j _) n).bank _ = _
  rw [State.eng_bundleSide, State.updEng_eq, State.eng_setEng_self]
  exact Engine.bank_setBank_self _ _ _

theorem State.sigs_bundleDone (j m : Nat) : ((s.bundleDone n u j).eng m).sigs = (s.eng m).sigs := by
  change (State.eng (State.bundleSide _ n j _) m).sigs = _
  rw [State.eng_bundleSide, State.updEng_eq, State.eng_setEng, ← (s.tileOnly_signalled n u m).sigs]
  split
  next h => rw [h]; rfl
  · rfl

theorem State.hostOf_bundleDone (j c : Nat) : (s.bundleDone n u j).hostOf n c = s.hostOf n c := by
  change (oget (State.eng (State.bundleSide _ n j _) n).hosts c).getD n = _
  rw [State.eng_bundleSide, State.updEng_eq, State.eng_setEng_self]
  change (oget ((s.signalled n u).eng n).hosts c).getD n = _
  rw [(s.tileOnly_signalled n u n).hosts]
  rfl

theorem State.slot_bundleDone (j : Nat) : (s.bundleDone n u j).slot n j =
    { s.slot n j with arms := (s.bundleRes n u).armsAfter (s.slot n j).arms } := by
  change (State.bundleSide _ n j _).slot n j = _
  have h (t : State) (f : Engine → Engine) : (t.updEng n f).slot n j = (f (t.eng n)).slot j := by
    rw [State.updEng_eq, State.slot_setEng, if_pos rfl]
  rw [State.slot_bundleSide, h]
  have hs : ((s.signalled n u).eng n).slot j = s.slot n j := by
    rw [Engine.slot, (s.tileOnly_signalled n u n).slots]; rfl
  rw [← hs]
  rfl

theorem State.sendSig_eng (g : Sig) (m : Nat) : (s.sendSig n g).eng m =
    { s.eng m with sigs := if m = s.hostOf n g.ctx then (s.eng m).sigs ++ [g] else (s.eng m).sigs } := by
  rw [State.sendSig, State.updEng_eq, State.eng_setEng]
  split
  next h => rw [h]
  · rfl

/-! ### What a bundle leaves -/

theorem State.eng_bundleSent (j m : Nat) : ∃ l, (s.bundleSent n u j).eng m = { (s.bundleDone n u j).eng m with sigs := l } := by
  unfold State.bundleSent
  dsimp only
  split
  · exact ⟨_, rfl⟩
  · exact ⟨_, State.sendSig_eng _ _ _ _⟩

/-- The bank that executed: what a swap back changes of it is its state and its return. -/
theorem State.bank_runBundle : ((s.runBundle n u).eng n).bank (s.eng n).active =
    if (s.bankAfter n u).ret = some 0 then { s.bankAfter n u with st := .draining, ret := none } else s.bankAfter n u := by
  rw [State.runBundle_eq]
  split
  · rw [State.updEng_eq, State.eng_setEng_self, Engine.bank_swapBack]
  · obtain ⟨l, hl⟩ := s.eng_bundleSent n u (s.actBank n).slot n
    rw [hl, ← s.bank_bundleDone n u (s.actBank n).slot]
    rfl

theorem State.slot_runBundle : (s.runBundle n u).slot n (s.actBank n).slot = { s.slot n (s.actBank n).slot with
    arms := (s.bundleRes n u).armsAfter (s.slot n (s.actBank n).slot).arms } := by
  rw [← State.slot_bundleDone]
  obtain ⟨l, hl⟩ := s.eng_bundleSent n u (s.actBank n).slot n
  have hsent : ((s.bundleSent n u (s.actBank n).slot).eng n).slots = ((s.bundleDone n u (s.actBank n).slot).eng n).slots := by
    rw [hl]
  rw [State.runBundle_eq, State.slot, State.slot, Engine.slot, Engine.slot, ← hsent]
  split
  · rw [State.updEng_eq, State.eng_setEng_self, Engine.slots_swapBack]
  · rfl

theorem State.regs_runBundle : (s.runBundle n u).regs = (s.bundleDone n u (s.actBank n).slot).regs := by
  have hsent (j : Nat) : (s.bundleSent n u j).regs = (s.bundleDone n u j).regs := by
    unfold State.bundleSent
    dsimp only
    split <;> rfl
  rw [State.runBundle_eq, ← hsent]
  split <;> rfl

theorem State.sigs_runBundle {g : Nat} (h : (s.bundleRes n u).sig = some g) :
    let x := s.slot n (s.actBank n).slot
    ((s.runBundle n u).eng (s.hostOf n x.ctx)).sigs = (s.eng (s.hostOf n x.ctx)).sigs ++
      [{ gate := g, value := 1, ctx := x.ctx, gen := x.gen, src := 8192 + 8 * n + (s.actBank n).slot }] := by
  intro x
  have hsent : ((s.bundleSent n u (s.actBank n).slot).eng (s.hostOf n x.ctx)).sigs = (s.eng (s.hostOf n x.ctx)).sigs ++
      [{ gate := g, value := 1, ctx := x.ctx, gen := x.gen, src := 8192 + 8 * n + (s.actBank n).slot }] := by
    unfold State.bundleSent
    dsimp only
    rw [h]
    dsimp only
    rw [State.sendSig_eng, State.hostOf_bundleDone]
    dsimp only
    rw [if_pos rfl, State.sigs_bundleDone]
    rfl
  rw [← hsent, State.runBundle_eq]
  split
  · rw [State.updEng_eq, State.eng_setEng]
    split
    next hm => rw [hm, Engine.sigs_swapBack]
    · rfl
  · rfl

end

end Sys2Proof.Machine
end

section
/-! PROOFS. A bundle that executes: its rows complete, its results are on their way, and what Table 4.9 leaves of it (R90, R93 to
R95). -/

namespace Sys2Proof.Machine

/-! ### The rows -/

theorem exec_vtRow (o : VOp) (e : Fin 64) (s : State) : exec (vtRow o e) s = vtRun e o s := by
  cases o <;> rfl

theorem Bundle.has_of_ls {u : Bundle} {o : VOp} (h : VOp.ofCode .ls u.ls.op = some o) : u.has o = true := by
  simp [Bundle.has, h]

theorem Bundle.has_of_alu {u : Bundle} {o : VOp} (h : VOp.ofCode .alu u.alu.op = some o) : u.has o = true := by
  simp [Bundle.has, h]

theorem Bundle.has_of_mac {u : Bundle} {o : VOp} (h : VOp.ofCode .mac u.mac.op = some o) : u.has o = true := by
  simp [Bundle.has, h]

theorem State.tileOnly_landed (s : State) (n : Nat) : (s.eng n).tileOnly ((s.landed n).eng n) := by
  unfold State.landed
  rw [State.updEng_eq, State.eng_setEng_self]
  exact (Engine.tileOnly_landDue _ _ _).trans (Engine.tileOnly_landDue _ _ _)

/-! ### What Table 4.9 leaves -/

theorem Bundle.illegal_eq_none {u : Bundle} {delay handler : Bool} (h : u.illegal delay handler = none) :
    slotIllegal .ls delay handler u.ls = none ∧ slotIllegal .alu delay handler u.alu = none ∧
      slotIllegal .mac delay handler u.mac = none := by
  unfold Bundle.illegal at h
  split at h
  · cases h
  · split at h
    next hl ha => exact ⟨hl, ha, h⟩
    · split at h
      next hr => rw [hr] at h; cases h
      · cases h
    · cases h

theorem State.illegal_of_bundleFault {s : State} {n : Nat} {b : Bank} {u : Bundle} (h : s.bundleFault n b u = none) :
    u.illegal (b.br.isSome || b.ret.isSome) b.handler = none := by
  unfold State.bundleFault at h
  dsimp only at h
  split at h
  · cases h
  next hu => exact hu

section
variable {delay handler : Bool} {i : VFields}

theorem amov_legal (h : slotIllegal .ls delay handler i = none) (ho : VOp.ofCode .ls i.op = some .amov) : i.d % 4 < 3 := by
  by_contra hge
  have hd : i.d % 4 = 3 := by omega
  simp [slotIllegal, ho, VOp.scalarDest, VOp.pairDest, VOp.isSpecial, bitsOf, hd] at h

theorem aget_legal (h : slotIllegal .ls delay handler i = none) (ho : VOp.ofCode .ls i.op = some .aget) : i.x % 4 < 3 := by
  by_contra hge
  have hx : i.x % 4 = 3 := by omega
  simp [slotIllegal, ho, VOp.scalarDest, VOp.pairDest, VOp.isSpecial, bitsOf, hx] at h

theorem br_legal (h : slotIllegal .alu delay handler i = none) (ho : VOp.ofCode .alu i.op = some .br) : delay = false := by
  cases hd : delay
  · rfl
  · simp [slotIllegal, ho, VOp.scalarDest, VOp.pairDest, VOp.isSpecial, hd] at h

theorem vreti_legal (h : slotIllegal .alu delay handler i = none) (ho : VOp.ofCode .alu i.op = some .vreti) :
    delay = false := by
  cases hd : delay
  · rfl
  · simp [slotIllegal, ho, VOp.scalarDest, VOp.pairDest, VOp.isSpecial, hd] at h

end

/-! ### Its results -/

section
variable {s : State} {e : Fin 64} {u : Bundle} (h : s.executes e u)
include h

theorem State.executes.exec_eq {o : VOp} (ho : u.has o = true) : exec (vtRow o e) s = .next ((s.landed e).runBundle e u) := by
  obtain ⟨hready, hfetch, hfault⟩ := h
  have hb : ((s.landed e).eng e).bank (s.eng e).active = (s.landed e).actBank e := by
    rw [State.actBank, (s.tileOnly_landed e).active]
  rw [exec_vtRow]
  unfold vtRun
  dsimp only
  rw [if_pos hready, ← State.landed, hb, hfetch]
  dsimp only
  rw [hfault]
  exact if_pos ho


theorem State.executes.slots_legal : let b := (s.landed e).actBank e
    slotIllegal .ls (b.br.isSome || b.ret.isSome) b.handler u.ls = none ∧
      slotIllegal .alu (b.br.isSome || b.ret.isSome) b.handler u.alu = none := by
  obtain ⟨-, -, hfault⟩ := h
  obtain ⟨hl, ha, -⟩ := Bundle.illegal_eq_none (State.illegal_of_bundleFault hfault)
  exact ⟨hl, ha⟩
end

section
variable {s : State} {e : Fin 64} {u : Bundle}

/-- What a bundle's slots give is in flight after it, from the bank that executed it. -/
theorem State.inFlight_of_mem {lat : Nat} {x : VTarget} (h : (lat, x) ∈ ((s.landed e).bundleRes e u).pend) :
    s.inFlight ((s.landed e).runBundle e u) e lat x := by
  have hb : (⟨((s.landed e).eng e).tc + lat, x⟩ : Pend) ∈ ((s.landed e).bankAfter e u).pend := Bank.mem_pend_after _ _ _ h
  unfold State.inFlight
  rw [← (s.tileOnly_landed e).active, ← (s.tileOnly_landed e).tc, State.bank_runBundle]
  split <;> exact hb

theorem State.inFlight_of_ls {lat : Nat} {x : VTarget} (h : (lat, x) ∈ (lsRun ((s.landed e).eng e)
    ((s.landed e).fld (rVtLmwin e ((s.landed e).actBank e).slot) 0 7 * 4096) ((s.landed e).actBank e) u.ls).pend) :
    s.inFlight ((s.landed e).runBundle e u) e lat x :=
  State.inFlight_of_mem (List.mem_append_left _ (List.mem_append_left _ h))

theorem State.inFlight_of_alu {lat : Nat} {x : VTarget}
    (h : (lat, x) ∈ (aluRun ((s.landed e).vtIn e) ((s.landed e).actBank e) u.alu).pend) :
    s.inFlight ((s.landed e).runBundle e u) e lat x :=
  State.inFlight_of_mem (List.mem_append_left _ (List.mem_append_right _ h))

theorem State.inFlight_of_mac {lat : Nat} {x : VTarget}
    (h : (lat, x) ∈ (macRun ((s.landed e).vtIn e) ((s.landed e).actBank e) u.mac).pend) :
    s.inFlight ((s.landed e).runBundle e u) e lat x :=
  State.inFlight_of_mem (List.mem_append_right _ h)

variable (h : s.executes e u)
include h

/-- The row of the ALU slot's operation completes, and every result of the slot is in flight. -/
theorem State.executes.alu_gives {o : VOp} (ho : VOp.ofCode .alu u.alu.op = some o) :
    ∃ t, exec (vtRow o e) s = .next t ∧
      ∀ r ∈ (aluRun ((s.landed e).vtIn e) ((s.landed e).actBank e) u.alu).pend, s.inFlight t e r.1 r.2 :=
  ⟨_, h.exec_eq (Bundle.has_of_alu ho), fun _ hr => State.inFlight_of_alu hr⟩

/-- The row of the MAC slot's operation completes, and every result of the slot is in flight. -/
theorem State.executes.mac_gives {o : VOp} (ho : VOp.ofCode .mac u.mac.op = some o) :
    ∃ t, exec (vtRow o e) s = .next t ∧
      ∀ r ∈ (macRun ((s.landed e).vtIn e) ((s.landed e).actBank e) u.mac).pend, s.inFlight t e r.1 r.2 :=
  ⟨_, h.exec_eq (Bundle.has_of_mac ho), fun _ hr => State.inFlight_of_mac hr⟩

theorem State.executes.alu_one {o : VOp} {lat : Nat} {r : VTarget} (hr : VOp.ofCode .alu u.alu.op = some o →
    (aluRun ((s.landed e).vtIn e) ((s.landed e).actBank e) u.alu).pend = [(lat, r)]) (ho : VOp.ofCode .alu u.alu.op = some o) :
    ∃ t, exec (vtRow o e) s = .next t ∧ s.inFlight t e lat r := by
  obtain ⟨t, ht, hf⟩ := h.alu_gives ho
  exact ⟨t, ht, hf (lat, r) (by rw [hr ho]; exact List.mem_singleton_self _)⟩

theorem State.executes.mac_one {o : VOp} {lat : Nat} {r : VTarget} (hr : VOp.ofCode .mac u.mac.op = some o →
    (macRun ((s.landed e).vtIn e) ((s.landed e).actBank e) u.mac).pend = [(lat, r)]) (ho : VOp.ofCode .mac u.mac.op = some o) :
    ∃ t, exec (vtRow o e) s = .next t ∧ s.inFlight t e lat r := by
  obtain ⟨t, ht, hf⟩ := h.mac_gives ho
  exact ⟨t, ht, hf (lat, r) (by rw [hr ho]; exact List.mem_singleton_self _)⟩

end

end Sys2Proof.Machine
end

section
/-! PROOFS. What each operation of Table 4.4 computes: the results of a slot, operation by operation (R90, R95, R97 to R100,
R107 to R109). -/

namespace Sys2Proof.Machine

/-! ### Fields and lanes -/

theorem bitsOf_eq (w lo n : Nat) : bitsOf w lo n = w / 2 ^ lo % 2 ^ n := by
  rw [bitsOf, Nat.shiftRight_eq_div_pow]

theorem bitsOf_one (w i : Nat) : (bitsOf w i 1 = 1) ↔ w.testBit i = true := by
  rw [bitsOf_eq, Nat.testBit_eq_decide_div_mod_eq, decide_eq_true_eq, pow_one]

theorem bitsOf_one_beq (w i : Nat) : (bitsOf w i 1 == 1) = w.testBit i := by
  rw [Bool.eq_iff_iff, beq_iff_eq, bitsOf_one]

theorem Vec.length_lanes (v : Vec) : v.lanes.length = 32 := by simp [Vec.lanes, fieldsOf]

theorem Vec.lane_lt {v : Vec} {w : Nat} (h : w ∈ v.lanes) : w < 2 ^ 32 := by
  obtain ⟨i, -, rfl⟩ := List.mem_map.mp h
  exact Nat.mod_lt _ (Nat.two_pow_pos 32)

/-! ### Lane-wise operations of the ALU slot -/

section
variable (v : VIn) (b : Bank) {i : VFields}

theorem pend_aluRun_vand (h : VOp.ofCode .alu i.op = some .vand) :
    (aluRun v b i).pend = [(1, .v i.d (b.vr i.a &&& b.vr i.b))] := by
  rw [aluRun, h]; rfl

theorem pend_aluRun_vor (h : VOp.ofCode .alu i.op = some .vor) :
    (aluRun v b i).pend = [(1, .v i.d (b.vr i.a ||| b.vr i.b))] := by
  rw [aluRun, h]; rfl

theorem pend_aluRun_vxor (h : VOp.ofCode .alu i.op = some .vxor) :
    (aluRun v b i).pend = [(1, .v i.d (b.vr i.a ^^^ b.vr i.b))] := by
  rw [aluRun, h]; rfl

/-- A shift by less than 32 does not look at the free value. -/
theorem map_shiftLane {n : Nat} (right : Bool) (g : Nat → Nat) (l : List Nat) (h : n < 32) :
    l.zipIdx.map (fun p => shiftLane right n (g p.2) p.1) =
      l.map (fun w => if right then w / 2 ^ n else w * 2 ^ n % 2 ^ 32) := by
  have hlane (f w : Nat) : shiftLane right n f w = if right then w / 2 ^ n else w * 2 ^ n % 2 ^ 32 := by
    rw [shiftLane, if_pos h, Nat.shiftRight_eq_div_pow, Nat.shiftLeft_eq]
  calc l.zipIdx.map (fun p => shiftLane right n (g p.2) p.1)
      = (l.zipIdx.map Prod.fst).map (fun w => if right then w / 2 ^ n else w * 2 ^ n % 2 ^ 32) := by
        rw [List.map_map]; exact List.map_congr_left fun p _ => hlane _ _
    _ = _ := by rw [List.zipIdx_map_fst]

theorem pend_aluRun_vshl (h : VOp.ofCode .alu i.op = some .vshl) (hn : b.sr i.b < 32) : (aluRun v b i).pend =
    [(1, .v i.d (Vec.ofLanes ((b.vr i.a).lanes.map (fun w => w * 2 ^ b.sr i.b % 2 ^ 32))))] := by
  rw [aluRun, h]
  change [(1, VTarget.v i.d (Vec.ofLanes _))] = _
  rw [map_shiftLane false (fun j => Config.freeNat (v.free + j)) _ hn]
  rfl

theorem pend_aluRun_vshr (h : VOp.ofCode .alu i.op = some .vshr) (hn : b.sr i.b < 32) : (aluRun v b i).pend =
    [(1, .v i.d (Vec.ofLanes ((b.vr i.a).lanes.map (fun w => w / 2 ^ b.sr i.b))))] := by
  rw [aluRun, h]
  change [(1, VTarget.v i.d (Vec.ofLanes _))] = _
  rw [map_shiftLane true (fun j => Config.freeNat (v.free + j)) _ hn]
  rfl

theorem pend_aluRun_vsel (h : VOp.ofCode .alu i.op = some .vsel) : (aluRun v b i).pend =
    [(1, .v i.d (Vec.ofLanes (((b.vr i.a).lanes.zip (b.vr i.b).lanes).zipIdx.map (fun p =>
      if (b.sr (i.x / 2 ^ 10 % 2 ^ 6)).testBit p.2 then p.1.1 else p.1.2))))] := by
  simp [aluRun, h, vres, bitsOf_one, bitsOf_eq i.x]

theorem pend_aluRun_vbcst (h : VOp.ofCode .alu i.op = some .vbcst) :
    (aluRun v b i).pend = [(1, .v i.d (Vec.ofLanes (List.replicate 32 (b.sr i.a))))] := by
  simp only [aluRun, h, vres]

theorem pend_aluRun_vperm (h : VOp.ofCode .alu i.op = some .vperm) : (aluRun v b i).pend =
    [(2, .v i.d (Vec.ofLanes ((b.vr i.b).lanes.map (fun k => (b.vr i.a).lanes.getD (k % 32) 0))))] := by
  simp only [aluRun, h, vres]

theorem pend_aluRun_vextr (h : VOp.ofCode .alu i.op = some .vextr) : (aluRun v b i).pend =
    [(2, .s i.d (BitVec.ofNat 32 ((b.vr i.a).lanes.getD (i.x % 32) 0)))] := by
  simp only [aluRun, h, sres, bitsOf_eq, pow_zero, Nat.div_one]
  rfl

end

/-- Settles O20: each operation's row completes, and the operation's equation says what is in flight then. -/
theorem vtLaneMoves : Obligations.VtLaneMoves := by
  intro s e u h b i x y gives
  exact ⟨h.alu_one (pend_aluRun_vand _ b), h.alu_one (pend_aluRun_vor _ b), h.alu_one (pend_aluRun_vxor _ b),
    fun hn => ⟨h.alu_one fun ho => pend_aluRun_vshl _ b ho hn, h.alu_one fun ho => pend_aluRun_vshr _ b ho hn⟩,
    h.alu_one (pend_aluRun_vsel _ b), h.alu_one (pend_aluRun_vbcst _ b), h.alu_one (pend_aluRun_vperm _ b),
    h.alu_one (pend_aluRun_vextr _ b)⟩

end Sys2Proof.Machine
end

section
/-! PROOFS. Typed arithmetic, special functions and conversion of the vector tile: INT32 lanes written out, and the operation of
each row of Table 4.4 (R95, R97 to R99, R109, R113). -/

namespace Sys2Proof.Machine

/-! ### Typed operations (R97) -/

theorem typed_int {ty : Nat} (h : ty = 3) (ftz : Bool) (f : List Val → Val) (g : List Int → Int) (vs : List Vec) :
    typed ty ftz f g vs = intMap g vs := by subst h; rfl

theorem typed_float {ty w : Nat} {t : Elem} (h : laneType ty = some (t, w)) (ftz : Bool) (f : List Val → Val)
    (g : List Int → Int) (vs : List Vec) : typed ty ftz f g vs = laneMap t w ftz f vs := by
  rw [typed, h]

theorem addLat_int {x : Nat} (h : x % 4 = 3) : addLat x = 1 := if_pos h

theorem addLat_float {x w : Nat} {t : Elem} (h : laneType (x % 4) = some (t, w)) : addLat x = 3 := by
  refine if_neg fun hx => ?_
  rw [hx] at h
  cases h

theorem wrapInt_sextNat {w : Nat} (h : w < 2 ^ 32) : wrapInt 32 (sextNat 32 w) = w := by
  unfold wrapInt sextNat
  dsimp only
  split <;> omega

theorem Vec.getD_lanes_lt (v : Vec) (l : Nat) : v.lanes.getD l 0 < 2 ^ 32 := by
  rw [List.getD_eq_getElem?_getD]
  cases h : v.lanes[l]? with
  | none => exact Nat.two_pow_pos 32
  | some w => exact Vec.lane_lt (List.mem_of_getElem? h)

/-- Two registers lane by lane. -/
theorem Vec.zipWith_lanes {α : Type} (f : Nat → Nat → α) (x y : Vec) :
    List.zipWith f x.lanes y.lanes = (List.range 32).map (fun l => f (x.lanes.getD l 0) (y.lanes.getD l 0)) := by
  refine List.ext_getElem (by simp [Vec.length_lanes]) fun l hx hr => ?_
  have hl : l < 32 := by simpa using hr
  simp [Vec.length_lanes, hl]

/-- VMAX and VMIN of INT32: the larger and the smaller lane. -/
theorem vMaxMin_int {ty : Nat} (h : ty = 3) (mini ftz : Bool) (x y : Vec) : vMaxMin mini ty ftz x y =
    Vec.ofLanes ((List.range 32).map (fun l => wrapInt 32
      (if mini then min (sextNat 32 (x.lanes.getD l 0)) (sextNat 32 (y.lanes.getD l 0))
        else max (sextNat 32 (x.lanes.getD l 0)) (sextNat 32 (y.lanes.getD l 0))))) := by
  subst h
  have hlane (p q : Nat) (hp : p < 2 ^ 32) (hq : q < 2 ^ 32) :
      (if (if mini then decide (sextNat 32 q < sextNat 32 p) else decide (sextNat 32 p < sextNat 32 q)) then q else p) =
        wrapInt 32 (if mini then min (sextNat 32 p) (sextNat 32 q) else max (sextNat 32 p) (sextNat 32 q)) := by
    have hp' := wrapInt_sextNat hp
    have hq' := wrapInt_sextNat hq
    cases mini <;> simp only [Bool.false_eq_true, if_true, if_false, decide_eq_true_eq] <;> split_ifs with hlt
    · rw [max_eq_right hlt.le, hq']
    · rw [max_eq_left (not_lt.mp hlt), hp']
    · rw [min_eq_right hlt.le, hq']
    · rw [min_eq_left (not_lt.mp hlt), hp']
  rw [vMaxMin, show laneType 3 = none from rfl]
  dsimp only
  rw [Vec.zipWith_lanes]
  exact congrArg Vec.ofLanes (List.map_congr_left fun l _ => hlane _ _ (x.getD_lanes_lt l) (y.getD_lanes_lt l))

/-! ### The ALU's arithmetic -/

section
variable (v : VIn) (b : Bank) {i : VFields}

theorem pend_aluRun_vadd (h : VOp.ofCode .alu i.op = some .vadd) : (aluRun v b i).pend =
    [(addLat i.x, .v i.d (typed (i.x % 4) v.ftz vAddOp iAddOp [b.vr i.a, b.vr i.b]).1)] := by
  rw [aluRun, h]; rfl

theorem pend_aluRun_vsub (h : VOp.ofCode .alu i.op = some .vsub) : (aluRun v b i).pend =
    [(addLat i.x, .v i.d (typed (i.x % 4) v.ftz vSubOp iSubOp [b.vr i.a, b.vr i.b]).1)] := by
  rw [aluRun, h]; rfl

theorem pend_aluRun_vmax (h : VOp.ofCode .alu i.op = some .vmax) : (aluRun v b i).pend =
    [(addLat i.x, .v i.d (vMaxMin false (i.x % 4) v.ftz (b.vr i.a) (b.vr i.b)))] := by
  rw [aluRun, h]; rfl

theorem pend_aluRun_vmin (h : VOp.ofCode .alu i.op = some .vmin) : (aluRun v b i).pend =
    [(addLat i.x, .v i.d (vMaxMin true (i.x % 4) v.ftz (b.vr i.a) (b.vr i.b)))] := by
  rw [aluRun, h]; rfl

/-! ### The MAC slot -/

theorem pend_macRun_vmul (h : VOp.ofCode .mac i.op = some .vmul) : (macRun v b i).pend =
    [(4, .v i.d (typed (i.x % 4) v.ftz vMulOp iMulOp [b.vr i.a, b.vr i.b]).1)] := by
  rw [macRun, h]; rfl

theorem pend_macRun_vfma (h : VOp.ofCode .mac i.op = some .vfma) : (macRun v b i).pend =
    [(4, .v i.d (typed (i.x % 4) v.ftz vFmaOp iFmaOp [b.vr i.a, b.vr i.b, b.vr (i.x / 2 ^ 10 % 2 ^ 6)]).1)] := by
  rw [macRun, h, bitsOf_eq]; rfl

theorem pend_macRun_vfms (h : VOp.ofCode .mac i.op = some .vfms) : (macRun v b i).pend =
    [(4, .v i.d (typed (i.x % 4) v.ftz vFmsOp iFmsOp [b.vr i.a, b.vr i.b, b.vr (i.x / 2 ^ 10 % 2 ^ 6)]).1)] := by
  rw [macRun, h, bitsOf_eq]; rfl

theorem pend_macRun_vfnma (h : VOp.ofCode .mac i.op = some .vfnma) : (macRun v b i).pend =
    [(4, .v i.d (typed (i.x % 4) v.ftz vFnmaOp iFnmaOp [b.vr i.a, b.vr i.b, b.vr (i.x / 2 ^ 10 % 2 ^ 6)]).1)] := by
  rw [macRun, h, bitsOf_eq]; rfl

end

/-- Settles O21: a typed operation is the lane map of its type, and of INT32 the wrapped lanes. -/
theorem vtArithmetic : Obligations.VtArithmetic := by
  intro s e u h b ftz gives int a m x y p q r
  refine ⟨fun hx => ⟨?_, ?_, ?_, ?_⟩, fun hx => ⟨?_, ?_, ?_, ?_⟩, fun t w hx => ⟨?_, ?_, ?_, ?_⟩,
    fun t w hx => ⟨?_, ?_, ?_, ?_⟩⟩
  · exact h.alu_one fun ho => by rw [pend_aluRun_vadd _ b ho, addLat_int hx, typed_int hx]; rfl
  · exact h.alu_one fun ho => by rw [pend_aluRun_vsub _ b ho, addLat_int hx, typed_int hx]; rfl
  · exact h.alu_one fun ho => by rw [pend_aluRun_vmax _ b ho, addLat_int hx, vMaxMin_int hx]; rfl
  · exact h.alu_one fun ho => by rw [pend_aluRun_vmin _ b ho, addLat_int hx, vMaxMin_int hx]; rfl
  · exact h.mac_one fun ho => by rw [pend_macRun_vmul _ b ho, typed_int hx]; rfl
  · exact h.mac_one fun ho => by rw [pend_macRun_vfma _ b ho, typed_int hx]; rfl
  · exact h.mac_one fun ho => by rw [pend_macRun_vfms _ b ho, typed_int hx]; rfl
  · exact h.mac_one fun ho => by rw [pend_macRun_vfnma _ b ho, typed_int hx]; rfl
  · exact h.alu_one fun ho => by rw [pend_aluRun_vadd _ b ho, addLat_float hx, typed_float hx]
  · exact h.alu_one fun ho => by rw [pend_aluRun_vsub _ b ho, addLat_float hx, typed_float hx]
  · exact h.alu_one fun ho => by rw [pend_aluRun_vmax _ b ho, addLat_float hx]
  · exact h.alu_one fun ho => by rw [pend_aluRun_vmin _ b ho, addLat_float hx]
  · exact h.mac_one fun ho => by rw [pend_macRun_vmul _ b ho, typed_float hx]
  · exact h.mac_one fun ho => by rw [pend_macRun_vfma _ b ho, typed_float hx]
  · exact h.mac_one fun ho => by rw [pend_macRun_vfms _ b ho, typed_float hx]
  · exact h.mac_one fun ho => by rw [pend_macRun_vfnma _ b ho, typed_float hx]

end Sys2Proof.Machine
end

section
/-! PROOFS. The dot product, the reduction, the special functions and the conversion of the vector tile (R95, R97 to R99, R109,
R113). -/

namespace Sys2Proof.Machine

/-! ### A bundle's registers -/

/-- The registers after a bundle are those that its side effects leave, but for the count of bundles. -/
theorem State.reg_runBundle (s : State) (n : Nat) (u : Bundle) {o : Nat} (h : o ≠ rVtBundles n) :
    ∃ t : State, (s.runBundle n u).reg o = (t.bundleSide n (s.actBank n).slot (s.bundleRes n u)).reg o :=
  ⟨_, ((State.reg_congr (s.regs_runBundle n u) o).trans (State.reg_setReg _ _ _ _)).trans (if_neg h)⟩

/-! ### The MAC slot's other operations -/

section
variable (v : VIn) (b : Bank) {i : VFields}

theorem pend_macRun_vdot2 (h : VOp.ofCode .mac i.op = some .vdot2) : (macRun v b i).pend =
    [(4, .v i.d (vDot2 (i.x % 2 == 1) v.ftz (b.vr i.a) (b.vr i.b) (b.vr (i.x / 2 ^ 10 % 2 ^ 6))).1)] := by
  rw [macRun, h, bitsOf_eq]; rfl

theorem pend_macRun_vrsum (h : VOp.ofCode .mac i.op = some .vrsum) : (macRun v b i).pend =
    [(6, .s i.d (BitVec.ofNat 32 (vRsum (i.x % 4 == 3) v.ftz (b.vr i.a)).code))] := by
  rw [macRun, h]; rfl

theorem vRsum_int {ty : Nat} (h : ty = 3) (ftz : Bool) (x : Vec) :
    (vRsum (ty == 3) ftz x).code = wrapInt 32 ((x.lanes.map (sextNat 32)).sum) := by
  subst h; rfl

theorem vRsum_float {ty : Nat} (h : ty = 0) (ftz : Bool) (x : Vec) : vRsum (ty == 3) ftz x = vRsum false ftz x := by
  subst h; rfl

/-- The special functions with their latencies (Table 4.4). -/
def specialRows : List (VOp × SpFn × Nat) :=
  [(.vexp2, .exp2, 8), (.vlog2, .log2, 8), (.vrcp, .rcp, 8), (.vrsqrt, .rsqrt, 8), (.vsilu, .silu, 12),
   (.vgelu, .gelu, 12), (.verf, .erf, 12)]

theorem pend_macRun_special {o : VOp} {fn : SpFn} {lat : Nat} (hrow : (o, fn, lat) ∈ specialRows)
    (h : VOp.ofCode .mac i.op = some o) : (macRun v b i).pend = [(lat, .v i.d (vSpecial fn v.ftz (b.vr i.a)).1)] := by
  rw [macRun, h]
  simp only [specialRows, List.mem_cons, Prod.mk.injEq, List.not_mem_nil, or_false] at hrow
  rcases hrow with ⟨rfl, rfl, rfl⟩ | ⟨rfl, rfl, rfl⟩ | ⟨rfl, rfl, rfl⟩ | ⟨rfl, rfl, rfl⟩ | ⟨rfl, rfl, rfl⟩ |
    ⟨rfl, rfl, rfl⟩ | ⟨rfl, rfl, rfl⟩ <;> rfl

theorem ofNat_wrapInt (z : Int) : BitVec.ofNat 32 (wrapInt 32 z) = BitVec.ofInt 32 z := by
  apply BitVec.eq_of_toNat_eq
  rw [BitVec.toNat_ofNat, BitVec.toNat_ofInt, wrapInt]
  omega

theorem cvtDraws_eq (c : Cvtc) (srv : Nat) : cvtDraws c srv =
    (if c.round = 2 then (drawsFrom 32 srv).1 else [], if c.round = 2 then some (drawsFrom 32 srv).2 else none) := by
  unfold cvtDraws
  split <;> rfl

/-- A VCVT with its control in the bundle. -/
theorem aluRun_vcvt {t f : Fmt} (h : VOp.ofCode .alu i.op = some .vcvt) (ht : Fmt.ofCode (bitsOf i.x 12 4) = some t)
    (hf : Fmt.ofCode (bitsOf i.x 8 4) = some f) (hb : i.b < 32) :
    let c := Cvtc.ofByte (bitsOf i.x 0 8)
    (aluRun v b i).pend = [(4, .v i.d (vCvt f t c (bitsOf i.b 4 1 == 1)
      (if c.round = 2 then (drawsFrom 32 v.srv).1 else []) (b.vr i.a)).1)] ∧
    (aluRun v b i).srv = if c.round = 2 then some (drawsFrom 32 v.srv).2 else none := by
  rw [aluRun, h]
  change (runVcvt v b i).pend = _ ∧ (runVcvt v b i).srv = _
  rw [runVcvt, ht, hf]
  dsimp only
  rw [if_neg (Nat.not_le.mpr hb), decide_eq_true hb, Bool.true_and, cvtDraws_eq]
  exact ⟨rfl, rfl⟩

end

/-- Settles O24: the lane procedure of each row, and the draws that a stochastic conversion takes from SRV. -/
theorem vtSpecialAndConvert : Obligations.VtSpecialAndConvert := by
  intro s e u h n b ftz m x c gives
  have special {o : VOp} {fn : SpFn} {lat : Nat} (hrow : (o, fn, lat) ∈ specialRows) :
      gives o lat (.v m.d (vSpecial fn ftz x).1) := h.mac_one (pend_macRun_special _ b hrow)
  refine ⟨h.mac_one (pend_macRun_vdot2 _ b), fun hx => h.mac_one fun ho => ?_, fun hx => h.mac_one fun ho => ?_,
    special (by simp [specialRows]), special (by simp [specialRows]), special (by simp [specialRows]),
    special (by simp [specialRows]), special (by simp [specialRows]), special (by simp [specialRows]),
    special (by simp [specialRows]), fun t f ho ht hf hb => ?_⟩
  · rw [pend_macRun_vrsum _ b ho, vRsum_int hx, ofNat_wrapInt]
  · rw [pend_macRun_vrsum _ b ho, vRsum_float hx]
  · intro ctl draws
    obtain ⟨hpend, hsrv⟩ := aluRun_vcvt (n.vtIn e) b ho ht hf hb
    refine ⟨_, h.exec_eq (Bundle.has_of_alu ho), State.inFlight_of_alu ?_, fun hr => ?_⟩
    · rw [hpend]
      exact List.mem_singleton_self _
    · have hne : rVtSrv e b.slot ≠ rVtBundles e := by unfold rVtSrv rVtBundles; omega
      obtain ⟨t, ht⟩ := n.reg_runBundle e u hne
      rw [ht]
      exact State.reg_bundleSide_srv _ _ _ (hsrv.trans (if_pos hr))

end Sys2Proof.Machine
end

section
/-! PROOFS. The scalar operations, the comparison and the searches of the vector tile (R95, R97, R107, R108). -/

namespace Sys2Proof.Machine

section
variable (v : VIn) (b : Bank) {i : VFields}

/-! ### Scalar operations -/

theorem pend_aluRun_sadd (h : VOp.ofCode .alu i.op = some .sadd) :
    (aluRun v b i).pend = [(1, .s i.d (BitVec.ofNat 32 (b.sr i.a + b.sr i.b)))] := by
  rw [aluRun, h]; rfl

theorem pend_aluRun_ssub (h : VOp.ofCode .alu i.op = some .ssub) : (aluRun v b i).pend =
    [(1, .s i.d (BitVec.ofNat 32 (b.sr i.a) - BitVec.ofNat 32 (b.sr i.b)))] := by
  have hsub : BitVec.ofNat 32 (wrapInt 32 ((b.sr i.a : Int) - (b.sr i.b : Int))) =
      BitVec.ofNat 32 (b.sr i.a) - BitVec.ofNat 32 (b.sr i.b) := by
    apply BitVec.eq_of_toNat_eq
    rw [BitVec.toNat_sub, BitVec.toNat_ofNat, BitVec.toNat_ofNat, BitVec.toNat_ofNat, wrapInt]
    omega
  rw [aluRun, h, ← hsub]; rfl

theorem pend_aluRun_smul (h : VOp.ofCode .alu i.op = some .smul) :
    (aluRun v b i).pend = [(2, .s i.d (BitVec.ofNat 32 (b.sr i.a * b.sr i.b)))] := by
  rw [aluRun, h]; rfl

theorem simm_eq (h : i.x < 2 ^ 16) : i.simm = if i.x < 2 ^ 15 then (i.x : Int) else (i.x : Int) - 2 ^ 16 := by
  rw [VFields.simm, sextNat, Nat.mod_eq_of_lt h]
  rfl

theorem pend_aluRun_smovi (h : VOp.ofCode .alu i.op = some .smovi) :
    (aluRun v b i).pend = [(1, .s i.d (BitVec.ofInt 32 i.simm))] := by
  rw [aluRun, h, ← ofNat_wrapInt]; rfl

theorem pend_aluRun_slui (h : VOp.ofCode .alu i.op = some .slui) :
    (aluRun v b i).pend = [(1, .s i.d (BitVec.ofNat 32 (b.sr i.d % 2 ^ 16 + 2 ^ 16 * i.x)))] := by
  rw [aluRun, h]; rfl

/-! ### Comparison and searches -/

theorem pend_aluRun_vcmp (h : VOp.ofCode .alu i.op = some .vcmp) : (aluRun v b i).pend =
    [(2, .s i.d (BitVec.ofNat 32 (vCmp (i.x % 4 == 3) v.ftz (i.x / 4 % 8) (b.vr i.a) (b.vr i.b))))] := by
  rw [aluRun, h]
  change [(2, VTarget.s i.d (BitVec.ofNat 32 (vCmp _ _ (bitsOf i.x 2 3) _ _)))] = _
  rw [bitsOf_eq]
  rfl

/-- The pair that CARRY adds to the lanes. -/
theorem pres_subset_runSearch (mini : Bool) : pres 4 i.d (vSearch mini (i.x.testBit 1)
    (if i.x.testBit 0 then some (b.sr i.d, b.sr (i.d + 1)) else none) (b.vr i.a) (b.sr i.b)).1 ⊆ (runSearch mini b i).pend := by
  unfold runSearch
  simp only [bitsOf_one, bitsOf_one_beq]
  exact List.subset_append_right _ _

theorem pend_runMerge (mini : Bool) : (runMerge mini b i).pend = pres 2 i.d (searchPairs (i.x.testBit 1) mini
    [(b.sr i.d, b.sr (i.d + 1)), (b.sr i.a, b.sr (i.a + 1))]).1 := by
  simp only [runMerge, bitsOf_one_beq]

theorem pend_runTopk :
    let l := vTopk (i.x.testBit 7) (i.x % 2 ^ 7) (if i.x.testBit 8 then [] else b.topkList i.d) (b.vr i.a) (b.sr i.b)
    (runTopk b i).pend =
      [(6, .v i.d (Vec.ofLanes ((l.map Prod.fst).take 32))), (6, .v (i.d + 1) (Vec.ofLanes ((l.map Prod.fst).drop 32))),
        (6, .v (i.d + 2) (Vec.ofLanes ((l.map Prod.snd).take 32))),
        (6, .v (i.d + 3) (Vec.ofLanes ((l.map Prod.snd).drop 32)))] := by
  simp only [runTopk, bitsOf_one, bitsOf_one_beq, bitsOf_eq i.x 0, pow_zero, Nat.div_one]

end

/-- Settles O22: each operation's row completes, and the operation's equation says what is in flight then. -/
theorem vtScalarsAndSearches : Obligations.VtScalarsAndSearches := by
  intro s e u h b ftz i gives one two imm carry pairs hx
  have alu {o : VOp} {rs : List (Nat × VTarget)} (hr : VOp.ofCode .alu i.op = some o →
      rs ⊆ (aluRun ((s.landed e).vtIn e) b i).pend) : gives o rs := fun ho => by
    obtain ⟨t, ht, hf⟩ := h.alu_gives ho
    exact ⟨t, ht, fun r hmem => hf r (hr ho hmem)⟩
  have all {o : VOp} {rs : List (Nat × VTarget)} (hr : VOp.ofCode .alu i.op = some o →
      (aluRun ((s.landed e).vtIn e) b i).pend = rs) : gives o rs := alu fun ho => hr ho ▸ List.Subset.refl _
  refine ⟨all (pend_aluRun_sadd _ b), all (pend_aluRun_ssub _ b), all (pend_aluRun_smul _ b), all fun ho => ?_,
    all (pend_aluRun_slui _ b), all (pend_aluRun_vcmp _ b), alu fun ho => ?_, alu fun ho => ?_, all fun ho => ?_,
    all fun ho => ?_, all fun ho => ?_⟩
  · rw [pend_aluRun_smovi _ b ho, simm_eq hx]
  · rw [aluRun, ho]; exact pres_subset_runSearch b false
  · rw [aluRun, ho]; exact pres_subset_runSearch b true
  · rw [aluRun, ho]; exact pend_runMerge b false
  · rw [aluRun, ho]; exact pend_runMerge b true
  · rw [aluRun, ho]; exact pend_runTopk b

end Sys2Proof.Machine
end

section
/-! PROOFS. Loads, stores and address registers of the vector tile (R89, R90, R95, R100). -/

namespace Sys2Proof.Machine

/-! ### Elements by their number -/

theorem map_eq_map_getD {α β : Type} (f : α → β) (d : α) {l : List α} {n : Nat} (h : l.length = n) :
    l.map f = (List.range n).map (fun j => f (l.getD j d)) := by
  subst h
  refine List.ext_getElem (by simp) fun j hj _ => ?_
  have hl : j < l.length := by simpa using hj
  simp [hl]

theorem zip_eq_map_getD {xs ys : List Nat} {n : Nat} (hx : xs.length = n) (hy : ys.length = n) :
    xs.zip ys = (List.range n).map (fun j => (xs.getD j 0, ys.getD j 0)) := by
  subst hx
  refine List.ext_getElem (by simp [hy]) fun j _ hj => ?_
  have hl : j < xs.length := by simpa using hj
  simp [hl, hy]

theorem zipIdx_map_range {α : Type} (g : Nat → α) (n : Nat) :
    ((List.range n).map g).zipIdx = (List.range n).map (fun j => (g j, j)) :=
  List.ext_getElem (by simp) fun j _ _ => by simp

theorem length_lsAddrs (o : VOp) (b : Bank) (i : VFields) : (lsAddrs o b i).length = lsCount o := by
  simp [lsAddrs, circAddrs]

/-! ### The results of the LS slot -/

section
variable (e : Engine) (base : Nat) (b : Bank) {i : VFields}

/-- The address of element j of an access of c elements. -/
def Bank.elemAddr (b : Bank) (i : VFields) (base c j : Nat) : Nat :=
  base + (circAddrs c (b.areg i).1 (b.areg i).2.1 (b.areg i).2.2).getD j 0

/-- The store of a value as element j of an access of c elements. -/
def Bank.elemStore (b : Bank) (i : VFields) (base c j v : Nat) : Nat × VTarget :=
  (2, .mem (b.elemAddr i base c j) (BitVec.ofNat 32 v))

theorem pend_lsRun_vld (h : VOp.ofCode .ls i.op = some .vld) : (lsRun e base b i).pend =
    [(5, .v i.d (Vec.ofLanes ((List.range 32).map (fun j => e.lmemWord (b.elemAddr i base 32 j)))))] := by
  rw [lsRun, h]
  change [(5, VTarget.v i.d (Vec.ofLanes ((lsAddrs .vld b i).map (fun a => e.lmemWord (base + a)))))] = _
  rw [map_eq_map_getD _ 0 (length_lsAddrs .vld b i)]
  rfl

theorem pend_lsRun_vlds (h : VOp.ofCode .ls i.op = some .vlds) : (lsRun e base b i).pend =
    [(5, .v i.d (Vec.ofLanes (List.replicate 32 (e.lmemWord (b.elemAddr i base 1 0)))))] := by
  rw [lsRun, h]; rfl

theorem pend_lsRun_sld (h : VOp.ofCode .ls i.op = some .sld) : (lsRun e base b i).pend =
    [(4, .s i.d (BitVec.ofNat 32 (e.lmemWord (b.elemAddr i base 1 0))))] := by
  rw [lsRun, h]; rfl

theorem pend_lsRun_sst (h : VOp.ofCode .ls i.op = some .sst) : (lsRun e base b i).pend =
    [b.elemStore i base 1 0 (b.sr i.b)] := by
  rw [lsRun, h]; rfl

theorem pend_lsRun_vst (h : VOp.ofCode .ls i.op = some .vst) : (lsRun e base b i).pend =
    (List.range 32).map (fun j => b.elemStore i base 32 j ((b.vr i.b).lanes.getD j 0)) := by
  rw [lsRun, h]
  dsimp only
  rw [zip_eq_map_getD (length_lsAddrs .vst b i) (Vec.length_lanes _), List.map_map]
  rfl

theorem pend_lsRun_vstm (h : VOp.ofCode .ls i.op = some .vstm) : (lsRun e base b i).pend =
    ((List.range 32).filter (fun j => (b.sr i.d).testBit j)).map
      (fun j => b.elemStore i base 32 j ((b.vr i.b).lanes.getD j 0)) := by
  rw [lsRun, h]
  dsimp only
  rw [zip_eq_map_getD (length_lsAddrs .vstm b i) (Vec.length_lanes _), zipIdx_map_range, List.filter_map, List.map_map,
    List.map_map]
  simp only [Function.comp_def, bitsOf_one_beq]
  rfl

/-- An access moves A of its register on. -/
theorem areg_lsRun {o : VOp} (hacc : o ∈ [VOp.vld, .vlds, .vst, .vstm, .sld, .sst]) (h : VOp.ofCode .ls i.op = some o) :
    (lsRun e base b i).areg = some (0, i.a % 8,
      circNext (tget (0 : W32) b.a (i.a % 8)).toNat (tget (0 : W32) b.al (i.a % 8)).toNat i.simm) := by
  rw [lsRun, h]
  simp only [List.mem_cons, List.not_mem_nil, or_false] at hacc
  rcases hacc with rfl | rfl | rfl | rfl | rfl | rfl <;> rfl

theorem areg_lsRun_amov (h : VOp.ofCode .ls i.op = some .amov) :
    (lsRun e base b i).areg = some (i.d % 4, i.a % 8, b.sr i.b) := by
  rw [lsRun, h]

theorem pend_lsRun_aget (h : VOp.ofCode .ls i.op = some .aget) (hx : i.x % 4 < 3) : (lsRun e base b i).pend =
    [(1, .s i.d (BitVec.ofNat 32 ([(b.areg i).1, (b.areg i).2.1, (b.areg i).2.2].getD (i.x % 4) 0)))] := by
  rw [lsRun, h]
  change [(1, VTarget.s i.d (BitVec.ofNat 32 (if i.x % 4 = 0 then _ else if i.x % 4 = 1 then _ else _)))] = _
  interval_cases i.x % 4 <;> rfl

end

/-! ### The address registers after a bundle -/

theorem State.aregs_runBundle (s : State) (n : Nat) (u : Bundle) {f k v : Nat}
    (h : (s.bundleRes n u).areg = some (f, k, v)) (hf : f < 3) :
    let b := s.actBank n
    let c := ((s.runBundle n u).eng n).bank (s.eng n).active
    (tget (0 : W32) c.a k, tget (0 : W32) c.ab k, tget (0 : W32) c.al k) =
      (if f = 0 then BitVec.ofNat 32 v else tget (0 : W32) b.a k,
       if f = 1 then BitVec.ofNat 32 v else tget (0 : W32) b.ab k,
       if f = 2 then BitVec.ofNat 32 v else tget (0 : W32) b.al k) := by
  intro b c
  have hb : (c.a, c.ab, c.al) = ((s.bankAfter n u).a, (s.bankAfter n u).ab, (s.bankAfter n u).al) := by
    unfold c
    rw [State.bank_runBundle]
    split <;> rfl
  obtain ⟨ha, hb⟩ := Prod.mk.inj hb
  obtain ⟨hab, hal⟩ := Prod.mk.inj hb
  obtain ⟨l, hl⟩ := s.bank_signalled n u
  rw [ha, hab, hal, State.bankAfter, Bank.aregs_after _ _ _ h hf, hl]

section
variable {s : State} {e : Fin 64} {u : Bundle} (h : s.executes e u)
include h

/-- The row of the LS slot's operation completes, every result of the slot is in flight, and the address register that it
gives a value has it. -/
theorem State.executes.ls_gives {n : State} {b : Bank} (hn : s.landed e = n) (hb : n.actBank e = b) {o : VOp}
    (ho : VOp.ofCode .ls u.ls.op = some o) :
    let r := lsRun (n.eng e) (n.fld (rVtLmwin e b.slot) 0 7 * 4096) b u.ls
    ∃ t, exec (vtRow o e) s = .next t ∧ (∀ x ∈ r.pend, s.inFlight t e x.1 x.2) ∧
      ∀ f k v, r.areg = some (f, k, v) → f < 3 →
        let c := (t.eng e).bank (s.eng e).active
        (tget (0 : W32) c.a k, tget (0 : W32) c.ab k, tget (0 : W32) c.al k) =
          (if f = 0 then BitVec.ofNat 32 v else tget (0 : W32) b.a k,
           if f = 1 then BitVec.ofNat 32 v else tget (0 : W32) b.ab k,
           if f = 2 then BitVec.ofNat 32 v else tget (0 : W32) b.al k) := by
  subst hn hb
  refine ⟨_, h.exec_eq (Bundle.has_of_ls ho), fun _ hx => State.inFlight_of_ls hx, fun f k v hr hf => ?_⟩
  have ha := (s.landed e).aregs_runBundle e u hr hf
  rwa [(s.tileOnly_landed e).active] at ha

end

/-- Settles O23: what the LS slot gives is in flight, and its address register has moved on. -/
theorem vtMemoryAccess : Obligations.VtMemoryAccess := by
  intro s e u h n b i k base av ab al word moved gives store
  have hn : s.landed e = n := rfl
  have hb : n.actBank e = b := rfl
  clear_value n b
  have hlegal := h.slots_legal.1
  have access {o : VOp} {rs : List (Nat × VTarget)} (hacc : o ∈ [VOp.vld, .vlds, .vst, .vstm, .sld, .sst])
      (hr : VOp.ofCode .ls i.op = some o → (lsRun (n.eng e) base b i).pend = rs) : gives o rs := fun ho => by
    obtain ⟨t, ht, hpend, hareg⟩ := h.ls_gives hn hb ho
    have ha := hareg _ _ _ (areg_lsRun _ _ _ hacc ho) (by decide)
    exact ⟨t, ht, fun x hx => hpend x ((hr ho).symm ▸ hx), (Prod.mk.inj ha).1⟩
  refine ⟨access (by simp) (pend_lsRun_vld _ _ b), access (by simp) (pend_lsRun_vlds _ _ b),
    access (by simp) (pend_lsRun_sld _ _ b), access (by simp) (pend_lsRun_vst _ _ b),
    access (by simp) (pend_lsRun_vstm _ _ b), access (by simp) (pend_lsRun_sst _ _ b), fun ho => ?_, fun ho => ?_⟩
  · obtain ⟨t, ht, -, hareg⟩ := h.ls_gives hn hb ho
    exact ⟨t, ht, hareg _ _ _ (areg_lsRun_amov _ _ _ ho) (amov_legal hlegal ho)⟩
  · obtain ⟨t, ht, hpend, -⟩ := h.ls_gives hn hb ho
    refine ⟨t, ht, hpend (1, _) ?_⟩
    rw [pend_lsRun_aget _ _ _ ho (aget_legal hlegal ho)]
    exact List.mem_singleton_self _

end Sys2Proof.Machine
end

section
/-! PROOFS. Branches, gates, generators and flags of the vector tile (R95, R96, R105, R113). -/

namespace Sys2Proof.Machine

/-! ### The flow of a thread after a bundle -/

section
variable (s : State) (n : Nat) (u : Bundle)

theorem State.flow_runBundle : ∃ l, let c := ((s.runBundle n u).eng n).bank (s.eng n).active
    let d := ({ s.actBank n with pend := l } : Bank).after (s.eng n).tc u.ctl (s.bundleRes n u)
    c.br = d.br ∧ c.pc = d.pc ∧ (d.ret ≠ some 0 → c.ret = d.ret) := by
  obtain ⟨l, hl⟩ := s.bank_signalled n u
  refine ⟨l, ?_⟩
  rw [← hl, ← State.bankAfter, State.bank_runBundle]
  split
  next h0 => exact ⟨rfl, rfl, fun h => absurd h0 h⟩
  · exact ⟨rfl, rfl, fun _ => rfl⟩

/-- Where no branch waits, the thread goes on with the next bundle, and a branch of this one waits. -/
theorem State.branch_runBundle (h : (s.actBank n).br = none) :
    let c := ((s.runBundle n u).eng n).bank (s.eng n).active
    c.br = (s.bundleRes n u).br ∧ c.pc = ((s.actBank n).pc + 1) % 2 ^ 15 := by
  obtain ⟨l, hbr, hpc, -⟩ := s.flow_runBundle n u
  have hnext := Bank.pc_after_of_none { s.actBank n with pend := l } (s.eng n).tc u.ctl (r := s.bundleRes n u) h
  exact ⟨hbr.trans (Bank.br_after_of_none _ _ _ h), hpc.trans (hnext.trans (pcWrap_succ _))⟩

theorem State.target_runBundle {p : Nat} (h : (s.actBank n).br = some (1, p)) :
    let c := ((s.runBundle n u).eng n).bank (s.eng n).active
    c.pc = p ∧ c.br = none := by
  obtain ⟨l, hbr, hpc, -⟩ := s.flow_runBundle n u
  obtain ⟨hp, hb⟩ := Bank.target_after ({ s.actBank n with pend := l } : Bank) (s.eng n).tc u.ctl (r := s.bundleRes n u) h
  exact ⟨hpc.trans hp, hbr.trans hb⟩

theorem State.return_runBundle (h : (s.actBank n).ret = none) (hr : (s.bundleRes n u).ret = true) :
    (((s.runBundle n u).eng n).bank (s.eng n).active).ret = some 2 := by
  obtain ⟨l, -, -, hret⟩ := s.flow_runBundle n u
  have hd := Bank.ret_after_of_none ({ s.actBank n with pend := l } : Bank) (s.eng n).tc u.ctl (r := s.bundleRes n u) h
  rw [if_pos hr] at hd
  rw [hret (by rw [hd]; decide), hd]

end

/-! ### What the control operations give -/

section
variable (v : VIn) (b : Bank) {i : VFields}

theorem aluRun_br (h : VOp.ofCode .alu i.op = some .br) : (aluRun v b i).br =
    some (2, if brHolds (i.d % 4) (b.sr i.a) then pcWrap (v.pc + i.simm) else pcWrap (v.pc + 3)) := by
  rw [aluRun, h]

theorem aluRun_varm (h : VOp.ofCode .alu i.op = some .varm) :
    (aluRun v b i).arm = some (i.x % 256, b.sr i.a % 2 ^ 15) ∧ (aluRun v b i).disarm = none := by
  rw [aluRun, h]; exact ⟨rfl, rfl⟩

theorem aluRun_vdisarm (h : VOp.ofCode .alu i.op = some .vdisarm) :
    (aluRun v b i).arm = none ∧ (aluRun v b i).disarm = some (i.x % 256) := by
  rw [aluRun, h]; exact ⟨rfl, rfl⟩

theorem aluRun_vsig (h : VOp.ofCode .alu i.op = some .vsig) : (aluRun v b i).sig = some (i.x % 256) := by
  rw [aluRun, h]

theorem aluRun_vreti (h : VOp.ofCode .alu i.op = some .vreti) : (aluRun v b i).ret = true := by
  rw [aluRun, h]

theorem pend_aluRun_vsrrd (h : VOp.ofCode .alu i.op = some .vsrrd) {g : W64}
    (hg : g.toNat = if i.x % 2 = 0 then v.srm else v.srv) : (aluRun v b i).pend =
    [(1, .s i.d (g.setWidth 32)), (1, .s (i.d + 1) ((g >>> 32).setWidth 32))] := by
  have hlo : BitVec.ofNat 32 (g.toNat % 2 ^ 32) = g.setWidth 32 := by
    apply BitVec.eq_of_toNat_eq
    rw [BitVec.toNat_ofNat, BitVec.toNat_setWidth, Nat.mod_mod]
  have hhi : BitVec.ofNat 32 (g.toNat / 2 ^ 32) = (g >>> 32).setWidth 32 := by
    apply BitVec.eq_of_toNat_eq
    rw [BitVec.toNat_ofNat, BitVec.toNat_setWidth, BitVec.toNat_ushiftRight, Nat.shiftRight_eq_div_pow]
  rw [aluRun, h, ← hlo, ← hhi, hg]
  rfl

theorem aluRun_vsrwr (h : VOp.ofCode .alu i.op = some .vsrwr) :
    let w := seedState (b.sr i.a + 2 ^ 32 * b.sr (i.a + 1))
    (aluRun v b i).srm = (if i.x % 2 = 0 then some w else none) ∧
      (aluRun v b i).srv = (if i.x % 2 = 0 then none else some w) := by
  rw [aluRun, h]
  dsimp only
  split <;> exact ⟨rfl, rfl⟩

theorem aluRun_vflags (h : VOp.ofCode .alu i.op = some .vflags) :
    aluRun v b i = { sres 1 i.d v.flags with clear := i.x % 2 == 1 } := by
  rw [aluRun, h]

theorem fl_lsRun (e : Engine) (base : Nat) : (lsRun e base b i).fl = {} := by
  unfold lsRun
  split
  · rfl
  · dsimp only
    split <;> rfl

theorem fl_macRun_nop (h : VOp.ofCode .mac i.op = some .nop) : (macRun v b i).fl = {} := by
  rw [macRun, h]

end

theorem mem_armGate (g pc : Nat) (l : List Arm) : ∃ a ∈ armGate g pc l, a.gate = g ∧ a.pc = pc := by
  unfold armGate
  split
  next h =>
    obtain ⟨a, ha, hg⟩ := List.any_eq_true.mp h
    have hg : a.gate = g := by simpa using hg
    exact ⟨{ a with pc := pc }, List.mem_map.mpr ⟨a, ha, if_pos hg⟩, hg, rfl⟩
  · exact ⟨{ gate := g, pc := pc }, by simp, rfl, rfl⟩

theorem VRes.armsAfter_of_arm {r : VRes} {g pc : Nat} (h : r.arm = some (g, pc)) (hd : r.disarm = none) (l : List Arm) :
    r.armsAfter l = armGate g pc l := by
  rw [VRes.armsAfter, h, hd]

theorem VRes.armsAfter_of_disarm {r : VRes} {g : Nat} (h : r.arm = none) (hd : r.disarm = some g) (l : List Arm) :
    r.armsAfter l = l.filter (fun a => a.gate != g) := by
  rw [VRes.armsAfter, h, hd]

/-- A seed that VSRWR writes is in its register after the bundle. -/
theorem State.seed_runBundle (n : State) (e : Nat) (u : Bundle) (h : VOp.ofCode .alu u.alu.op = some .vsrwr) :
    let b := n.actBank e
    (n.runBundle e u).reg (if u.alu.x % 2 = 0 then rVtSrm e b.slot else rVtSrv e b.slot) =
      BitVec.ofNat 64 (seedState (b.sr u.alu.a + 2 ^ 32 * b.sr (u.alu.a + 1))) := by
  intro b
  obtain ⟨hm, hv⟩ := aluRun_vsrwr (n.vtIn e) b h
  by_cases hx : u.alu.x % 2 = 0
  · rw [if_pos hx] at hm hv ⊢
    have hne : rVtSrm e b.slot ≠ rVtBundles e := by unfold rVtSrm rVtBundles; omega
    obtain ⟨t, ht⟩ := n.reg_runBundle e u hne
    rw [ht]
    exact State.reg_bundleSide_srm _ _ _ hm hv
  · rw [if_neg hx] at hm hv ⊢
    have hne : rVtSrv e b.slot ≠ rVtBundles e := by unfold rVtSrv rVtBundles; omega
    obtain ⟨t, ht⟩ := n.reg_runBundle e u hne
    rw [ht]
    exact State.reg_bundleSide_srv _ _ _ hv

/-- A VFLAGS that clears leaves no flag where the MAC slot is idle. -/
theorem State.flags_runBundle (n : State) (e : Nat) (u : Bundle) (h : VOp.ofCode .alu u.alu.op = some .vflags)
    (hx : u.alu.x % 2 = 1) (hmac : VOp.ofCode .mac u.mac.op = some .nop) :
    (n.runBundle e u).fld (rVtFlags e (n.actBank e).slot) 0 4 = 0 := by
  have hne : rVtFlags e (n.actBank e).slot ≠ rVtBundles e := by unfold rVtFlags rVtBundles; omega
  obtain ⟨t, ht⟩ := n.reg_runBundle e u hne
  have halu := aluRun_vflags (n.vtIn e) (n.actBank e) h
  have hfl : (n.bundleRes e u).fl = {} := by
    change ((lsRun _ _ _ _).fl.or (aluRun _ _ _).fl).or (macRun _ _ _).fl = _
    rw [fl_lsRun, halu, fl_macRun_nop _ _ hmac]
    rfl
  rw [State.fld, ht]
  refine State.fld_bundleSide_flags t e _ ?_ hfl ?_ ?_
  · change (aluRun _ _ _).clear = true
    rw [halu, hx]
    rfl
  · change (aluRun _ _ _).srm = none
    rw [halu]
    rfl
  · change (aluRun _ _ _).srv = none
    rw [halu]
    rfl

/-- Neither BR nor VRETI stands in a delay bundle. -/
theorem State.executes.no_delay {s : State} {e : Fin 64} {u : Bundle} (h : s.executes e u)
    (ho : VOp.ofCode .alu u.alu.op = some .br ∨ VOp.ofCode .alu u.alu.op = some .vreti) :
    ((s.landed e).actBank e).br = none ∧ ((s.landed e).actBank e).ret = none := by
  have hlegal := h.slots_legal.2
  have hd := ho.elim (br_legal hlegal) (vreti_legal hlegal)
  simpa using hd

/-- Settles O25 (log 26): each operation's equation, carried through the bundle. -/
theorem vtControl : Obligations.VtControl := by
  intro s e u h n b i x op bank _
  have runs {o : VOp} (ho : u.has o = true) : exec (vtRow o e) s = .next (n.runBundle e u) := h.exec_eq ho
  have alu {o : VOp} (ho : op = some o) := runs (Bundle.has_of_alu ho)
  have flies {r : Nat × VTarget} (hr : r ∈ (aluRun (n.vtIn e) b i).pend) : s.inFlight (n.runBundle e u) e r.1 r.2 :=
    State.inFlight_of_alu hr
  have hbank (t : State) : bank t = (t.eng e).bank (n.eng e).active := by rw [(s.tileOnly_landed e).active]
  have hnodelay : op = some .br ∨ op = some .vreti → b.br = none ∧ b.ret = none := h.no_delay
  clear_value n
  have harms := congrArg Slot.arms (n.slot_runBundle e u)
  refine ⟨fun ho => ⟨_, alu ho, ?_⟩, fun o p ho hp => ⟨_, runs ho, ?_⟩, fun ho => ⟨_, alu ho, ?_⟩, fun ho => ⟨_, alu ho, ?_⟩,
    fun ho => ⟨_, alu ho, ?_⟩, fun ho => ⟨_, alu ho, ?_⟩, fun ho => ⟨_, alu ho, ?_⟩, fun ho => ⟨_, alu ho, ?_⟩,
    fun ho => ⟨_, alu ho, ?_⟩⟩
  case refine_1 =>
    obtain ⟨hbr, hpc⟩ := n.branch_runBundle e u (hnodelay (.inl ho)).1
    rw [hbank]
    exact ⟨hbr.trans (aluRun_br _ _ ho), hpc⟩
  case refine_2 =>
    rw [hbank]
    exact n.target_runBundle e u hp
  case refine_3 =>
    obtain ⟨harm, hdis⟩ := aluRun_varm (n.vtIn e) b ho
    rw [harms.trans (VRes.armsAfter_of_arm (r := n.bundleRes e u) harm hdis _)]
    exact mem_armGate _ _ _
  case refine_4 =>
    obtain ⟨harm, hdis⟩ := aluRun_vdisarm (n.vtIn e) b ho
    exact harms.trans (VRes.armsAfter_of_disarm (r := n.bundleRes e u) harm hdis _)
  case refine_5 => exact n.sigs_runBundle e u (aluRun_vsig _ _ ho)
  case refine_6 =>
    intro g
    have hg : g.toNat = if i.x % 2 = 0 then (n.vtIn e).srm else (n.vtIn e).srv := by
      unfold g
      split <;> rfl
    have hpend := pend_aluRun_vsrrd (n.vtIn e) b ho hg
    exact ⟨flies (hpend ▸ List.mem_cons_self), flies (hpend ▸ List.mem_cons_of_mem _ List.mem_cons_self)⟩
  case refine_7 => exact n.seed_runBundle e u ho
  case refine_8 =>
    refine ⟨flies (r := (1, _)) ?_, n.flags_runBundle e u ho⟩
    rw [aluRun_vflags _ _ ho]
    exact List.mem_singleton_self _
  case refine_9 =>
    rw [hbank]
    exact n.return_runBundle e u (hnodelay (.inr ho)).2 (aluRun_vreti _ _ ho)

end Sys2Proof.Machine
end

section
/-! PROOFS. The events of the vector tile's threads: results land, banks drain, threads end, and handlers and threads get the
tile (R90, R102, R104, R105, R148). -/

namespace Sys2Proof.Machine

section
variable {s : State} {e : Fin 64}

/-! ### Results and banks -/

/-- Nothing holds results back once their time has come, or while the tile does not issue. -/
theorem not_held {d : Nat} (h : s.vtReady e = false ∨ d ≤ (s.eng e).tc) :
    ¬ (s.vtReady e = true ∧ (s.eng e).tc < d) := by
  rintro ⟨hready, hlt⟩
  rcases h with h | h
  · rw [hready] at h; cases h
  · omega

theorem exec_resultLand {d : Nat} (hd : (s.eng e).nextDue = some d) (hr : s.vtReady e = false ∨ d ≤ (s.eng e).tc) :
    exec (.resultLand e) s =
      .next (s.setEng e { ((s.eng e).landDue 0 d).landDue 1 d with tc := max (s.eng e).tc d }) := by
  change execResultLand e s = _
  rw [execResultLand, hd]
  exact if_neg (not_held hr)

/-- The state in which bank j has been drained, with a thread's image saved. -/
def State.drained (s : State) (n j : Nat) : State :=
  let t := s.setEng n ((s.eng n).drainBank j)
  let b := ((s.eng n).drainBank j).bank j
  if b.handler then t else t.updSlot n b.slot (fun x => { x with image := some { b with st := .free } })

theorem exec_bankDrained {j : Fin 2} (hst : ((s.eng e).bank j).st = .draining)
    (hr : s.vtReady e = false ∨ ((s.eng e).bank j).lastDue ≤ (s.eng e).tc) :
    exec (.bankDrained e j) s = .next ((s.drained e j).updEng e (fun x => x.setBank j {})) := by
  change execBankDrained e j s = _
  unfold execBankDrained State.drained
  dsimp only
  rw [if_pos ⟨hst, not_held hr⟩]
  simp only [State.updEng_eq, State.eng_setEng_self]

theorem State.slot_drained {n j : Nat} (h : (((s.eng n).drainBank j).bank j).handler = false) :
    ∃ i, ((s.drained n j).slot n (((s.eng n).drainBank j).bank j).slot).image = some i ∧ i.st = .free := by
  unfold State.drained
  dsimp only
  rw [h, if_neg (by decide), State.updSlot_slot]
  exact ⟨_, rfl, rfl⟩

theorem State.slot_updEng_setBank (t : State) (n j k : Nat) (b : Bank) :
    (t.updEng n (fun x => x.setBank j b)).slot n k = t.slot n k := by
  rw [State.updEng_eq, State.slot_setEng, if_pos rfl]
  rfl

/-! ### The end of a thread -/

/-- Waking slots leaves their threads as they are. -/
theorem State.thread_wake (t : State) (n k : Nat) :
    (((t.wake n).slot n k).live, ((t.wake n).slot n k).image, ((t.wake n).slot n k).arms) =
      ((t.slot n k).live, (t.slot n k).image, (t.slot n k).arms) := by
  have hset (t : State) (j : Nat) (x : Slot) (hx : (x.live, x.image, x.arms) = ((t.slot n j).live, (t.slot n j).image,
      (t.slot n j).arms)) : (((t.setSlot n j x).slot n k).live, ((t.setSlot n j x).slot n k).image,
        ((t.setSlot n j x).slot n k).arms) = ((t.slot n k).live, (t.slot n k).image, (t.slot n k).arms) := by
    rw [State.setSlot_eq, State.slot_setEng, if_pos rfl, Engine.slot_setSlot]
    split
    next h => rw [h, hx]
    · rfl
  refine foldl_proj (π := fun t : State => ((t.slot n k).live, (t.slot n k).image, (t.slot n k).arms)) (fun t j => ?_) _ t
  dsimp only
  split_ifs
  · exact hset t j _ rfl
  · exact hset t j _ rfl
  · rfl
  · rfl

theorem State.bank_wake (t : State) (n k : Nat) : ((t.wake n).eng n).bank k = (t.eng n).bank k := by
  have hbanks : ((t.wake n).eng n).banks = (t.eng n).banks := by rw [(t.aftermath_wake n).eng n]
  rw [Engine.bank, Engine.bank, hbanks]

/-- The state in which the running thread of bank k has ended. -/
def State.threadOver (s : State) (n : Nat) : State :=
  let k := (s.eng n).active
  let b := (s.eng n).bank k
  let x := ((s.eng n).drainBank k).setBank k {}
  (s.setEng n (if b.handler then x.setBank (1 - k) {} else x)).updSlot n b.slot
    (fun x => { x with live := false, image := none, himage := none, arms := [] })

theorem exec_threadEnd (hst : ((s.eng e).bank (s.eng e).active).st = .run)
    (hend : ((s.eng e).bank (s.eng e).active).ended = true) : exec (.threadEnd e) s = .next ((s.threadOver e).wake e) := by
  change execThreadEnd e s = _
  unfold execThreadEnd
  exact if_pos ⟨hst, hend⟩

theorem State.bank_threadOver (s : State) (n : Nat) : ((s.threadOver n).eng n).bank (s.eng n).active = {} := by
  unfold State.threadOver
  rw [State.updSlot_eq, State.eng_setEng_self, State.eng_setEng_self]
  change Engine.bank (if ((s.eng n).bank (s.eng n).active).handler then _ else _) _ = _
  split
  · rw [Engine.bank_setBank_other, Engine.bank_setBank_self]
  · rw [Engine.bank_setBank_self]

theorem State.slot_threadOver (s : State) (n : Nat) : let j := ((s.eng n).bank (s.eng n).active).slot
    ((s.threadOver n).slot n j).live = false ∧ ((s.threadOver n).slot n j).image = none ∧
      ((s.threadOver n).slot n j).arms = [] := by
  intro j
  unfold State.threadOver
  rw [State.updSlot_slot]
  exact ⟨rfl, rfl, rfl⟩

/-! ### Handlers and switches -/

/-- Bank i takes the tile with contents b. -/
def Engine.giveTile (x : Engine) (i : Nat) (b : Bank) : Engine := { x.setBank i b with active := i }

theorem Engine.bank_giveTile (x : Engine) (i : Nat) (b : Bank) : (x.giveTile i b).bank i = b := x.bank_setBank_self i b

theorem Engine.bank_giveTile_other (x : Engine) (k : Nat) (b : Bank) : (x.giveTile (1 - k) b).bank k = x.bank k :=
  x.bank_setBank_other k b

/-- The bank in which the handler of an armed gate of slot j begins. -/
def handlerBank (j : Nat) (a : Arm) : Bank :=
  { st := .run, slot := j, s := tset 0 [] 0 (BitVec.ofNat 32 a.gate), pc := a.pc, handler := true }

/-- GATE_HANDLER_ENTRY for armed gate a: the thread's bank parks and the handler's runs. -/
def Engine.enterHandler (x : Engine) (k : Nat) (b : Bank) (a : Arm) : Engine :=
  (x.setBank k { b with st := .parked }).giveTile (1 - k) (handlerBank b.slot a)

theorem Engine.bank_enterHandler (x : Engine) (k : Nat) (b : Bank) (a : Arm) :
    (x.enterHandler k b a).bank k = { b with st := .parked } ∧
      (x.enterHandler k b a).bank (1 - k) = handlerBank b.slot a :=
  ⟨(Engine.bank_giveTile_other _ k _).trans (x.bank_setBank_self k _), Engine.bank_giveTile _ (1 - k) _⟩

theorem sr_handlerBank (j : Nat) (a : Arm) : (handlerBank j a).sr 0 = a.gate % 2 ^ 32 := by
  rw [Bank.sr, handlerBank, tget_tset]
  exact BitVec.toNat_ofNat _ _

theorem exec_gateHandlerEntry {a : Arm} (hdue : s.handlerDue e = true)
    (ha : (s.slot e ((s.eng e).bank (s.eng e).active).slot).pendingGate = some a) :
    ∃ t : State, exec (.gateHandlerEntry e) s =
      .next (t.updEng e (fun x => x.enterHandler (s.eng e).active ((s.eng e).bank (s.eng e).active) a)) := by
  change ∃ t : State, execGateHandlerEntry e s = _
  unfold execGateHandlerEntry
  dsimp only
  rw [if_pos hdue, ha]
  exact ⟨_, rfl⟩

theorem exec_threadSwitch_of_idle {j : Nat} (hruns : s.runs = true) (hret : (s.eng e).retired = false)
    (hhung : (s.eng e).hung = false) (hfree : ((s.eng e).bank (s.eng e).active).st = .free)
    (hother : ((s.eng e).bank (1 - (s.eng e).active)).st = .free) (hw : s.wantThread e = some j) :
    exec (.threadSwitch e) s = .next (s.swapIn e (1 - (s.eng e).active) j) := by
  change execThreadSwitch e s = _
  unfold execThreadSwitch
  simp [hruns, hret, hhung, hfree, hother, hw]

/-- The bank of a thread that gets the tile. -/
def Slot.mainBank (x : Slot) (j : Nat) : Bank := { (x.image.getD {}) with slot := j, st := .run, pend := [] }

theorem State.swapIn_of_no_handler (s : State) (n i : Nat) {j : Nat} (h : (s.slot n j).himage = none) :
    s.swapIn n i j = (s.setSlot n j { s.slot n j with image := none, himage := none }).updEng n
      (fun e => e.giveTile i ((s.slot n j).mainBank j)) := by
  unfold State.swapIn
  dsimp only
  rw [h]
  rfl

/-- The thread that gets the tile runs in the bank it is put into, and its image is spent. -/
theorem State.swapIn_spec (s : State) (n i : Nat) {j : Nat} (h : (s.slot n j).himage = none) :
    ((s.swapIn n i j).eng n).active = i ∧ (((s.swapIn n i j).eng n).bank i).st = .run ∧
      (((s.swapIn n i j).eng n).bank i).slot = j ∧ ((s.swapIn n i j).slot n j).image = none := by
  have hbank : ((s.swapIn n i j).eng n).bank i = (s.slot n j).mainBank j := by
    rw [s.swapIn_of_no_handler n i h, State.updEng_eq, State.eng_setEng_self, Engine.bank_giveTile]
  have hslot : (s.swapIn n i j).slot n j = { s.slot n j with image := none, himage := none } := by
    rw [s.swapIn_of_no_handler n i h, State.updEng_eq, State.slot_setEng, if_pos rfl]
    exact State.updSlot_slot s n j (fun x => { x with image := none, himage := none })
  refine ⟨?_, by rw [hbank]; rfl, by rw [hbank]; rfl, by rw [hslot]⟩
  rw [s.swapIn_of_no_handler n i h, State.updEng_eq, State.eng_setEng_self]
  rfl

end

/-- Settles O26 (log 78): each event's row leaves its state, and the laws of banks and slots read the claims off it. -/
theorem vtThreadEvents : Obligations.VtThreadEvents := by
  intro s e k b
  refine ⟨fun d hd hr => ⟨_, exec_resultLand hd hr, ?_, ?_, rfl⟩, fun j hst hr => ⟨_, exec_bankDrained hst hr, ?_, fun hh => ?_⟩,
    fun hst hend => ⟨_, exec_threadEnd hst hend, ?_, ?_⟩, fun a hdue ha _ => ?_, fun j hruns hret hhung hst _ ho hw hi => ?_⟩
  · rw [State.eng_setEng_self]
  · rw [State.eng_setEng_self]
  · rw [State.updEng_eq, State.eng_setEng_self, Engine.bank_setBank_self]
  · rw [State.slot_updEng_setBank]
    exact State.slot_drained hh
  · rw [State.bank_wake]
    exact s.bank_threadOver e
  · have hthread := (s.threadOver e).thread_wake e b.slot
    obtain ⟨hlive, hrest⟩ := Prod.mk.inj hthread
    obtain ⟨himage, harms⟩ := Prod.mk.inj hrest
    rw [hlive, himage, harms]
    exact s.slot_threadOver e
  · obtain ⟨t, ht⟩ := exec_gateHandlerEntry hdue ha
    obtain ⟨hpark, hrun⟩ := (t.eng e).bank_enterHandler k b a
    refine ⟨_, ht, ?_⟩
    rw [State.updEng_eq, State.eng_setEng_self, hpark, hrun]
    exact ⟨rfl, rfl, rfl, rfl, sr_handlerBank b.slot a⟩
  · exact ⟨_, exec_threadSwitch_of_idle hruns hret hhung hst ho hw, s.swapIn_spec e (1 - k) hi⟩

end Sys2Proof.Machine
end

section
/-! PROOFS. A return whose delay bundles are spent and that has not swapped the banks back (R91, R105). -/

namespace Sys2Proof.Machine

/-- Engine 0 with a bundle of three NOPs at index 0 of its window: the return of the running bank counts 0 delay bundles, and the
other bank has a store in flight that is due at tc 1. No run leads here, since the swap back takes a return away as it comes
to 0. -/
def spentReturn : State :=
  { State.reset with
    engs := [(0, { slots := [(0, { st := .ready, live := true })],
                   banks := [(0, { st := .run, ret := some 0 }), (1, { pend := [⟨1, .mem 0 1⟩] })] })],
    regs := [(rVtLmwin 0 0, 0x100)] }

theorem spentReturn_executes : spentReturn.executes 0 (Bundle.ofBits 0) := by
  unfold State.executes; decide +kernel

theorem spentReturn_bank : ((spentReturn.landed 0).actBank 0).slot < 8 ∧
    ((spentReturn.landed 0).actBank 0).ret ≠ some 1 := by decide +kernel

theorem nops_ofBits : (Bundle.ofBits 0).has .nop = true ∧ VOp.ofCode .alu (Bundle.ofBits 0).alu.op ≠ some .vsig := by
  decide +kernel

theorem lmem_spentReturn :
    (((spentReturn.landed 0).runBundle 0 (Bundle.ofBits 0)).eng 0).lmem ≠ ((spentReturn.landed 0).eng 0).lmem := by
  decide +kernel

/-- Refutes O19: the statement excepts from "local memory is that after the results that were due have landed" a bank whose return
counts 1 delay bundle, and the swap back comes as well where it counts 0; it lands a store of the other bank that is not due. -/
theorem not_vtBundles : ¬ Obligations.VtBundles := by
  intro h
  obtain ⟨hslot, hret⟩ := spentReturn_bank
  obtain ⟨hnop, hsig⟩ := nops_ofBits
  obtain ⟨hrows, -⟩ := h.1 spentReturn 0 (Bundle.ofBits 0) spentReturn_executes hslot
  obtain ⟨t, hexec, -, -, -, -, hlmem, -⟩ := hrows .nop hnop
  have hrun := State.executes.exec_eq (e := 0) spentReturn_executes hnop
  obtain rfl : (spentReturn.landed 0).runBundle 0 (Bundle.ofBits 0) = t := by
    rw [hrun] at hexec
    injection hexec
  exact lmem_spentReturn (hlmem hsig hret)

end Sys2Proof.Machine
end

section
/-! PROOFS. The sequencer's words (Tables 5.1 and 5.2): what the fields of each form read, and that words and instructions stand
for each other (R120 to R122). -/

namespace Sys2Proof.Machine

/-! ### The fields of a form -/

theorem formR_bits {op d a b fn : Nat} (ho : op < 64) (hd : d < 32) (ha : a < 32) (hb : b < 32) (hf : fn < 2048) :
    let x := (formR op d a b fn).toNat
    bitsOf x 26 6 = op ∧ bitsOf x 21 5 = d ∧ bitsOf x 16 5 = a ∧ bitsOf x 11 5 = b ∧ bitsOf x 0 11 = fn ∧
      bitsOf x 0 21 = a * 2 ^ 16 + b * 2 ^ 11 + fn := by
  simp only [formR, BitVec.toNat_ofNat, bitsOf_eq]
  omega

theorem formI_bits {op d a i : Nat} (ho : op < 64) (hd : d < 32) (ha : a < 32) (hi : i < 65536) :
    let x := (formI op d a i).toNat
    bitsOf x 26 6 = op ∧ bitsOf x 21 5 = d ∧ bitsOf x 16 5 = a ∧ bitsOf x 0 16 = i := by
  simp only [formI, BitVec.toNat_ofNat, bitsOf_eq]
  omega

theorem formJ_bits {op d j : Nat} (ho : op < 64) (hd : d < 32) (hj : j < 2097152) :
    let x := (formJ op d j).toNat
    bitsOf x 26 6 = op ∧ bitsOf x 21 5 = d ∧ bitsOf x 0 21 = j := by
  simp only [formJ, BitVec.toNat_ofNat, bitsOf_eq]
  omega

section
variable {w : W32} {op d : Nat} (hop : bitsOf w.toNat 26 6 = op) (hd : bitsOf w.toNat 21 5 = d)
include hop hd

/-! A word is its fields, read in any of the three forms. -/

theorem formR_eq {a b fn : Nat} (ha : bitsOf w.toNat 16 5 = a) (hb : bitsOf w.toNat 11 5 = b)
    (hf : bitsOf w.toNat 0 11 = fn) : formR op d a b fn = w := by
  have hw : w.toNat < 4294967296 := w.isLt
  simp only [bitsOf_eq] at hop hd ha hb hf
  simp only [formR, ← BitVec.toNat_inj, BitVec.toNat_ofNat]
  omega

theorem formI_eq {a i : Nat} (ha : bitsOf w.toNat 16 5 = a) (hi : bitsOf w.toNat 0 16 = i) : formI op d a i = w := by
  have hw : w.toNat < 4294967296 := w.isLt
  simp only [bitsOf_eq] at hop hd ha hi
  simp only [formI, ← BitVec.toNat_inj, BitVec.toNat_ofNat]
  omega

theorem formJ_eq {j : Nat} (hj : bitsOf w.toNat 0 21 = j) : formJ op d j = w := by
  have hw : w.toNat < 4294967296 := w.isLt
  simp only [bitsOf_eq] at hop hd hj
  simp only [formJ, ← BitVec.toNat_inj, BitVec.toNat_ofNat]
  omega

/-- A word of form R whose fields beside its opcode and Xd are zero is one of form J. -/
theorem formR_zero_eq (hj : bitsOf w.toNat 0 21 = 0) : formR op d 0 0 0 = w := by
  have hw : w.toNat < 4294967296 := w.isLt
  simp only [bitsOf_eq] at hop hd hj
  simp only [formR, ← BitVec.toNat_inj, BitVec.toNat_ofNat]
  omega

end

/-- A field read into an operand of its width, or of a smaller one that it fits, is the operand. -/
theorem field_eq_toNat {x lo n m : Nat} (h : bitsOf x lo n < 2 ^ m) :
    bitsOf x lo n = (BitVec.ofNat m (bitsOf x lo n)).toNat := by
  rw [BitVec.toNat_ofNat, Nat.mod_eq_of_lt h]

theorem bitsOf_lt (x lo n : Nat) : bitsOf x lo n < 2 ^ n := Nat.mod_lt _ (Nat.two_pow_pos n)

@[simp] theorem Alu.ofFn_fn (f : Alu) : Alu.ofFn f.fn = some f := by cases f <;> rfl
theorem Alu.fn_lt (f : Alu) : f.fn < 2048 := by cases f <;> decide

theorem Alu.fn_of_ofFn {n : Nat} {f : Alu} (h : Alu.ofFn n = some f) : f.fn = n := by
  unfold Alu.ofFn at h
  split at h <;> cases h <;> rfl

theorem ofNat_add_256 (g : BitVec 8) : BitVec.ofNat 8 (g.toNat + 256) = g :=
  BitVec.eq_of_toNat_eq (by rw [BitVec.toNat_ofNat]; omega)

/-! ### Decoding and encoding -/

/-- Settles O8: an instruction of each form has its fields where the decoder reads them. -/
theorem esDecodeEncode : Obligations.EsDecodeEncode := by
  intro i hi
  cases i with
  | nop => rfl
  -- form I
  | imm f d a i => cases f <;> simp (disch := omega) [EsInsn.decode, EsInsn.encode, ImmOp.op, formI_bits]
  | mem f d a i => cases f <;> simp (disch := omega) [EsInsn.decode, EsInsn.encode, MemOp.op, formI_bits]
  | br f d a i => cases f <;> simp (disch := omega) [EsInsn.decode, EsInsn.encode, BrOp.op, formI_bits]
  | shi r d a n => cases r <;> simp (disch := omega) [EsInsn.decode, EsInsn.encode, formI_bits] <;> omega
  | movk d h i => simp (disch := omega) [EsInsn.decode, EsInsn.encode, formI_bits]; omega
  | gwait a g c =>
    cases c <;> simp (disch := omega) [EsInsn.decode, EsInsn.encode, formI_bits, ofNat_add_256] <;> omega
  | gset a g => simp (disch := omega) [EsInsn.decode, EsInsn.encode, formI_bits]; omega
  | grd d g => simp (disch := omega) [EsInsn.decode, EsInsn.encode, formI_bits]; omega
  | rdsr d r => simpa (disch := omega) [EsInsn.decode, EsInsn.encode, formI_bits, EsInsn.wf] using hi
  -- form J
  | movi d i => simp (disch := omega) [EsInsn.decode, EsInsn.encode, formJ_bits]
  | jmp d i => simp (disch := omega) [EsInsn.decode, EsInsn.encode, formJ_bits]
  -- form R
  | alu f d a b =>
    have hf := f.fn_lt
    simp (disch := omega) [EsInsn.decode, EsInsn.encode, formR_bits]
  | strm a se => simp (disch := omega) [EsInsn.decode, EsInsn.encode, formR_bits]; omega
  | swait se => simp (disch := omega) [EsInsn.decode, EsInsn.encode, formR_bits]; omega
  | plrd d a w => simp (disch := omega) [EsInsn.decode, EsInsn.encode, formR_bits]; omega
  | _ => simp (disch := omega) [EsInsn.decode, EsInsn.encode, formR_bits]

/-- Settles O9: the tests of the row that a word's opcode names leave no bit of the word unread, so that the row's instruction has
the word's own fields. -/
theorem esEncodeDecode : Obligations.EsEncodeDecode := by
  intro w i h
  have hD := field_eq_toNat (bitsOf_lt w.toNat 21 5)
  have hA := field_eq_toNat (bitsOf_lt w.toNat 16 5)
  have hB := field_eq_toNat (bitsOf_lt w.toNat 11 5)
  have hI := field_eq_toNat (bitsOf_lt w.toNat 0 16)
  have hJ := field_eq_toNat (bitsOf_lt w.toNat 0 21)
  unfold EsInsn.decode at h
  dsimp only at h
  split at h
  all_goals
    simp only [Option.map_eq_some_iff, Option.ite_none_right_eq_some, Option.some.injEq, reduceCtorEq] at h
  case h_1 =>
    obtain ⟨hw, rfl⟩ := h
    exact ⟨rfl, BitVec.eq_of_toNat_eq hw.symm⟩
  case h_2 hop =>
    obtain ⟨f, hf, rfl⟩ := h
    exact ⟨rfl, formR_eq hop hD hA hB (Alu.fn_of_ofFn hf).symm⟩
  -- an immediate that fills its field
  case h_3 hop | h_4 hop | h_5 hop | h_6 hop | h_11 hop | h_12 hop | h_13 hop | h_14 hop | h_15 hop | h_16 hop | h_17 hop |
      h_18 hop | h_19 hop =>
    exact h ▸ ⟨rfl, formI_eq hop hD hA hI⟩
  case h_9 hop | h_20 hop => exact h ▸ ⟨rfl, formJ_eq hop hD hJ⟩
  -- an immediate that leaves bits of its field zero
  case h_7 hop | h_8 hop =>
    obtain ⟨hi, rfl⟩ := h
    exact ⟨rfl, formI_eq hop hD hA (field_eq_toNat hi)⟩
  case h_10 hop =>
    obtain ⟨ha, rfl⟩ := h
    exact ⟨rfl, formI_eq hop hD (field_eq_toNat ha) hI⟩
  case h_29 hop =>
    obtain ⟨⟨hd, hi⟩, rfl⟩ := h
    refine ⟨rfl, formI_eq hop hd hA ?_⟩
    rw [BitVec.toNat_ofNat]
    simp only [decide_eq_true_eq]
    split <;> omega
  case h_30 hop =>
    obtain ⟨⟨hd, hi⟩, rfl⟩ := h
    exact ⟨rfl, formI_eq hop hd hA (field_eq_toNat hi)⟩
  case h_31 hop =>
    obtain ⟨⟨ha, hi⟩, rfl⟩ := h
    exact ⟨rfl, formI_eq hop hD ha (field_eq_toNat hi)⟩
  case h_33 hop =>
    obtain ⟨⟨ha, hi⟩, rfl⟩ := h
    have hr := field_eq_toNat (m := 3) (lt_trans hi (by decide))
    exact ⟨decide_eq_true (hr ▸ hi), formI_eq hop hD ha hr⟩
  -- registers and small fields
  case h_21 hop =>
    obtain ⟨⟨hb, hf⟩, rfl⟩ := h
    exact ⟨rfl, formR_eq hop hD hA hb hf⟩
  case h_22 hop =>
    obtain ⟨⟨hd, hb, hf⟩, rfl⟩ := h
    exact ⟨rfl, formR_eq hop hd hA hb hf⟩
  case h_23 hop =>
    obtain ⟨⟨hd, hb, hf⟩, rfl⟩ := h
    exact ⟨rfl, formR_eq hop hd hA hb (field_eq_toNat hf)⟩
  case h_24 hop =>
    obtain ⟨⟨hd, ha, hb, hf⟩, rfl⟩ := h
    exact ⟨rfl, formR_eq hop hd ha hb (field_eq_toNat hf)⟩
  case h_26 hop =>
    obtain ⟨hf, rfl⟩ := h
    exact ⟨rfl, formR_eq hop hD hA hB hf⟩
  case h_28 hop =>
    obtain ⟨⟨hd, hf⟩, rfl⟩ := h
    exact ⟨rfl, formR_eq hop hd hA hB hf⟩
  case h_34 hop =>
    obtain ⟨⟨hb, hf⟩, rfl⟩ := h
    exact ⟨rfl, formR_eq hop hD hA hb (field_eq_toNat hf)⟩
  case h_32 hop =>
    obtain ⟨hj, rfl⟩ := h
    exact ⟨rfl, formR_zero_eq hop hD hj⟩
  -- no operand
  case h_25 hop | h_27 hop | h_35 hop | h_36 hop =>
    obtain ⟨⟨hj, hd⟩, rfl⟩ := h
    exact ⟨rfl, formR_zero_eq hop hd hj⟩

/-- Settles O10. -/
theorem esWords : Obligations.EsWords := by
  unfold Obligations.EsWords
  decide +kernel

/-- Settles O1. -/
theorem stepRunsFrontCommand : Obligations.StepRunsFrontCommand := by
  intro s c cs h
  simp only [step, h]

end Sys2Proof.Machine
end

section
/-! PROOFS. The sequencer's instructions on its own slot: results, branches, reads, and the faults of a fetch (R118 to R124,
R140, R150, R153). -/

namespace Sys2Proof.Machine

/-! ### Register results -/

section
variable {s : State} {e : Fin 64} {sl : Fin 8} {d a b : BitVec 5}

theorem exec_aluRow {f : Alu} (h : s.issues e sl (.alu f d a b)) :
    exec (aluRow f e sl) s = .next (s.retireX e sl d (aluOp f ((s.slot e sl).x a) ((s.slot e sl).x b))) := by
  have hrow : exec (aluRow f e sl) s = esAlu e sl f s := by cases f <;> rfl
  rw [hrow, esAlu, esRun_issues h (if_pos rfl)]

theorem exec_immRow {f : ImmOp} {i : BitVec 16} (h : s.issues e sl (.imm f d a i)) :
    exec (immRow f e sl) s = .next (s.retireX e sl d (immOp f ((s.slot e sl).x a) i)) := by
  have hrow : exec (immRow f e sl) s = esImm e sl f s := by cases f <;> rfl
  rw [hrow, esImm, esRun_issues h (if_pos rfl)]

theorem exec_shli {n : BitVec 6} (h : s.issues e sl (.shi false d a n)) :
    exec (.shli e sl) s = .next (s.retireX e sl d ((s.slot e sl).x a <<< n.toNat)) := by
  change esShi e sl false s = _
  rw [esShi, esRun_issues h rfl]
  rfl

theorem exec_shri {n : BitVec 6} (h : s.issues e sl (.shi true d a n)) :
    exec (.shri e sl) s = .next (s.retireX e sl d ((s.slot e sl).x a >>> n.toNat)) := by
  change esShi e sl true s = _
  rw [esShi, esRun_issues h rfl]
  rfl

theorem exec_movi {i : BitVec 21} (h : s.issues e sl (.movi d i)) :
    exec (.movi e sl) s = .next (s.retireX e sl d (i.signExtend 64)) := by
  change execMovi e sl s = _
  rw [execMovi, esRun_issues h rfl]

theorem exec_movk {c : BitVec 2} {i : BitVec 16} (h : s.issues e sl (.movk d c i)) :
    exec (.movk e sl) s = .next (s.retireX e sl d (movkWord ((s.slot e sl).x d) c i)) := by
  change execMovk e sl s = _
  rw [execMovk, esRun_issues h rfl]

end

/-- MOVK replaces 16 bits of a word: they are cleared, and the immediate is put there. -/
theorem movkWord_eq (x : W64) (h : BitVec 2) (i : BitVec 16) :
    movkWord x h i = (x &&& ~~~((0xFFFF : W64) <<< (16 * h.toNat))) ||| (i.setWidth 64 <<< (16 * h.toNat)) := by
  have hmask : BitVec.ofNat 64 (fm (16 * h.toNat) 16) = (0xFFFF : W64) <<< (16 * h.toNat) :=
    BitVec.eq_of_toNat_eq (by simp [fm])
  have hval : BitVec.ofNat 64 (fv (16 * h.toNat) 16 i.toNat) = i.setWidth 64 <<< (16 * h.toNat) := by
    refine BitVec.eq_of_toNat_eq ?_
    have hi : i.toNat < 2 ^ 16 := i.isLt
    rw [BitVec.toNat_shiftLeft, BitVec.toNat_setWidth, BitVec.toNat_ofNat, fv, Nat.mod_eq_of_lt hi,
      Nat.mod_eq_of_lt (lt_trans hi (by decide : 2 ^ 16 < 2 ^ 64))]
  rw [movkWord, bset, hmask, hval]

/-- Settles O11. -/
theorem esResults : Obligations.EsResults := by
  constructor
  · intro s e sl f d a b h x y
    exact State.writesX_of (exec_aluRow h)
  · intro s e sl d a x
    exact ⟨fun f i h => State.writesX_of (exec_immRow h), fun n h => State.writesX_of (exec_shli h),
      fun n h => State.writesX_of (exec_shri h), fun i h => State.writesX_of (exec_movi h),
      fun c i h => movkWord_eq _ c i ▸ State.writesX_of (exec_movk h)⟩

/-! ### Branches and jumps -/

section
variable {s : State} {e : Fin 64} {sl : Fin 8} {d a : BitVec 5}

theorem exec_brRow {f : BrOp} {i : BitVec 16} (h : s.issues e sl (.br f d a i)) :
    let x := s.slot e sl
    let p : Int := x.pc + i.toInt
    exec (brRow f e sl) s = .next
      (if brTaken f (x.x d) (x.x a) ∨ ¬ s.inWindow e sl p then s.goTo e sl p 0 else s.retire e sl id) := by
  have hrow : exec (brRow f e sl) s = esBranch e sl f s := by cases f <;> rfl
  rw [hrow, esBranch, esRun_issues h (if_pos rfl)]

theorem exec_jmp {i : BitVec 21} (h : s.issues e sl (.jmp d i)) :
    exec (.jmp e sl) s = .next (s.goTo e sl ((s.slot e sl).pc + i.toInt) d) := by
  change execJmp e sl s = _
  rw [execJmp, esRun_issues h rfl]

theorem exec_jr (h : s.issues e sl (.jr d a)) :
    exec (.jr e sl) s = .next (s.goTo e sl ((s.slot e sl).x a).toNat d) := by
  change execJr e sl s = _
  rw [execJr, esRun_issues h rfl]

theorem State.inWindow_iff {n k : Nat} {p : Int} :
    s.inWindow n k p = true ↔ 0 ≤ p ∧ p < (s.fld (rEsImwin n k) 16 9 * 256 : Nat) := by
  simp [State.inWindow]

theorem State.goTo_of_outside {n k : Nat} {p : Int} (h : ¬ s.inWindow n k p = true) :
    s.goTo n k p d = s.esFault n k stEsImemRange := if_neg h

/-- A change of the PC alone. -/
theorem State.jumps_of_retire {c : Instr} (h : exec c s = .next (s.retire e sl id)) :
    s.jumps c e sl 0 ((s.slot e sl).pc + 1) := by
  refine ⟨_, h, s.retire_frame e sl id, ?_, by rw [State.retire_slot]; rfl, fun h0 => absurd rfl h0⟩
  rw [State.retire_slot]
  exact Slot.setX_frame _ 0 0 _

end

/-- Settles O12 (log 83). -/
theorem esBranches : Obligations.EsBranches := by
  intro s e sl x size goes
  have hgoes {c : Instr} {d : BitVec 5} {p : Int} (h : exec c s = .next (s.goTo e sl p d)) : goes c d p :=
    ⟨fun hw => State.jumps_of h (State.inWindow_iff.2 hw),
      fun hw => State.goTo_of_outside (mt State.inWindow_iff.1 hw) ▸ h⟩
  refine ⟨fun f d a i h => ?_, fun d i h => hgoes (exec_jmp h), fun d a h => hgoes (exec_jr h)⟩
  intro taken p
  have htaken : taken = brTaken f (x.x d) (x.x a) := by cases f <;> rfl
  have hrun := exec_brRow h
  refine ⟨fun ht => hgoes ?_, fun ht hw => State.jumps_of_retire ?_, fun ht hw => ?_⟩
  · rw [hrun, if_pos (.inl (htaken ▸ ht))]
  · rw [hrun, if_neg]
    rintro (h1 | h2)
    · exact Bool.false_ne_true (ht.symm.trans (htaken.trans h1))
    · exact h2 (State.inWindow_iff.2 hw)
  · have hout : ¬ s.inWindow e sl p = true := mt State.inWindow_iff.1 hw
    rw [hrun, if_pos (.inr hout), State.goTo_of_outside hout]

/-! ### Reads and turns -/

section
variable {s : State} {e : Fin 64} {sl : Fin 8} {d a : BitVec 5}

theorem exec_esNop (h : s.issues e sl .nop) : exec (.esNop e sl) s = .next (s.retire e sl id) := by
  change execEsNop e sl s = _
  rw [execEsNop, esRun_issues h rfl]

theorem exec_yield (h : s.issues e sl .yield) : exec (.yield e sl) s =
    .next (if s.holder e = some (sl : Nat) then (s.retire e sl id).passTurn e sl else s.retire e sl id) := by
  change execYield e sl s = _
  rw [execYield, esRun_issues h rfl]

theorem exec_rddt (h : s.issues e sl (.rddt d)) : exec (.rddt e sl) s = .next (s.retireX e sl d s.dt) := by
  change execRddt e sl s = _
  rw [execRddt, esRun_issues h rfl]

theorem exec_rdsr {r : BitVec 3} (h : s.issues e sl (.rdsr d r)) : exec (.rdsr e sl) s =
    .next (s.retireX e sl d (BitVec.ofNat 64 (slotReg e sl (s.slot e sl) r.toNat))) := by
  change execRdsr e sl s = _
  rw [execRdsr, esRun_issues h rfl]

theorem exec_plrd {w : BitVec 2} (h : s.issues e sl (.plrd d a w)) :
    let x := s.slot e sl
    exec (.plrd e sl) s = .next (s.retireX e sl d (tget 0 x.plog ((x.x a).toNat % 16 * 4 + w.toNat))) := by
  change execPlrd e sl s = _
  rw [execPlrd, esRun_issues h rfl]

end

/-- The slot registers in the order of Table 5.21. -/
theorem slotReg_eq_getD (n k : Nat) (x : Slot) (r : BitVec 3) :
    slotReg n k x r.toNat = [k, x.ctx, x.gen, x.cls, n, x.plhead % 2 ^ 32].getD r.toNat 0 := by
  have hr : r.toNat < 8 := r.isLt
  interval_cases r.toNat <;> rfl

/-- The holder's issue makes it the last of its class. -/
theorem State.last_issueBooks {s : State} {n k : Nat} (h : s.holder n = some k) :
    tget 0 ((s.issueBooks n k).eng n).last (s.slot n k).cls = k := by
  unfold State.issueBooks
  simp [h, tget_tset]

/-- Where a slot issued last in its class, its turn passes on. -/
theorem State.yielded_passTurn {s : State} {n k : Nat} (h : tget 0 (s.eng n).last (s.slot n k).cls = k) :
    tget false ((s.passTurn n k).eng n).yielded (s.slot n k).cls = true := by
  unfold State.passTurn
  simp [h, tget_tset]

/-- Settles O18. -/
theorem esReadsAndYield : Obligations.EsReadsAndYield := by
  intro s e sl x
  refine ⟨fun h => ⟨_, exec_esNop h, s.retire_frame e sl id, s.retire_slot e sl id⟩, fun h => ?_,
    fun d h => State.writesX_of (exec_rddt h),
    fun d r h => slotReg_eq_getD e sl x r ▸ State.writesX_of (exec_rdsr h),
    fun d a w h => State.writesX_of (exec_plrd h)⟩
  have hrun := exec_yield h
  split at hrun
  next hh =>
    refine ⟨_, hrun, State.passTurn_frame (s.retire_frame e sl id), ?_, fun _ => ?_⟩
    · rw [State.passTurn_slot, State.retire_slot]
      rfl
    · have hcls : ((s.retire e sl id).slot e sl).cls = x.cls := by rw [State.retire_slot]; rfl
      have hlast : tget 0 ((s.retire e sl id).eng e).last x.cls = sl := by
        unfold State.retire
        rw [State.updSlot_eq, State.eng_setEng_self]
        exact State.last_issueBooks hh
      rw [← hcls] at hlast ⊢
      exact State.yielded_passTurn hlast
  next hh => exact ⟨_, hrun, s.retire_frame e sl id, s.retire_slot e sl id, fun h' => absurd h' hh⟩

/-! ### Faults of a fetch -/

/-- Every row of the sequencer runs the instruction at the chosen slot's PC. -/
theorem exec_esRow (i : EsInsn) (e : Fin 64) (sl : Fin 8) (s : State) :
    ∃ body, exec (esRow i e sl) s = esRun e sl body s := by
  cases i with
  | alu f d a b => cases f <;> exact ⟨_, rfl⟩
  | imm f d a v => cases f <;> exact ⟨_, rfl⟩
  | shi r d a n => cases r <;> exact ⟨_, rfl⟩
  | mem f d a v => cases f <;> exact ⟨_, rfl⟩
  | br f d a v => cases f <;> exact ⟨_, rfl⟩
  | _ => exact ⟨_, rfl⟩

theorem esRun_range {s : State} {n k : Nat} (body : EsInsn → Option (State → State)) (hc : s.chosen n = some k)
    (hf : s.fetch n k = .range) : esRun n k body s = .next (s.esFault n k stEsImemRange) := by
  simp [esRun, hc, hf]

theorem esRun_illegal {s : State} {n k : Nat} (body : EsInsn → Option (State → State)) (hc : s.chosen n = some k)
    (hf : s.fetch n k = .illegal) : esRun n k body s = .next (s.esFault n k stEsIllegalInsn) := by
  simp [esRun, hc, hf]

theorem State.frozen_freezeCtx {s : State} {c cause : Nat} (h : (s.ctx c).frozen = none) :
    ((s.freezeCtx c cause).ctx c).frozen = some cause := by
  have hstop := (State.stopOnly_stopLoads (s.updCtx c fun x => { x with frozen := some cause }) c).1
  have hfroz : (((s.updCtx c fun x => { x with frozen := some cause }).stopLoads c).ctx c).frozen = some cause := by
    rw [hstop]
    exact congrArg Ctx.frozen (State.ctx_setCtx_self s c _)
  unfold State.freezeCtx State.freezeArg
  rw [if_neg (by simp [h])]
  dsimp only
  split
  · exact hfroz
  · exact hfroz

theorem State.frozen_faultCtx {s : State} {c : Nat} (cmd cause : Nat) (h : (s.ctx c).frozen = none) :
    ((s.faultCtx c cmd cause).ctx c).frozen = some cause := by
  unfold State.faultCtx
  dsimp only
  split
  · exact State.frozen_freezeCtx h
  · exact State.frozen_freezeCtx h

theorem State.freezes.eng {s t : State} {c : Nat} (h : s.freezes t c) (n : Nat) : t.eng n = s.eng n := by
  unfold State.eng
  rw [h.engs]

theorem State.freezes.slot {s t : State} {c : Nat} (h : s.freezes t c) (n k : Nat) : t.slot n k = s.slot n k :=
  congrArg (Engine.slot · k) (h.eng n)

/-- What ES_FAULT shows of a fault (Table 5.14): its status and VALID. -/
theorem bf_faultWord (old : W64) {st pc k : Nat} (hst : st < 2 ^ 16) :
    bf (logWord old (fv 48 16 st + fv 32 16 pc + fv 4 3 k)) 48 16 = st ∧
      bf (logWord old (fv 48 16 st + fv 32 16 pc + fv 4 3 k)) 0 1 = 1 := by
  have hb : (if bf old 0 1 = 1 then 1 else bf old 1 1) < 2 := by
    split
    · decide
    · exact bf_lt old 1 1
  unfold logWord
  generalize (if bf old 0 1 = 1 then 1 else bf old 1 1) = b at hb
  simp only [bf_ofNat, fv_eq]
  omega

/-- A sequencer fault (R153): ES_FAULT shows it with VALID, ES_FAULTDT the time, and its context freezes. -/
theorem State.esFault_spec (s : State) (n : Fin 64) (k : Fin 8) {st : Nat} (hst : st < 2 ^ 16) :
    let t := s.esFault n k st
    t.fld (rEsFault n) 48 16 = st ∧ t.fld (rEsFault n) 0 1 = 1 ∧ t.reg (rEsFaultdt n) = s.dt ∧
      t.slot n k = s.slot n k ∧ t.mem = s.mem ∧
      ((s.ctx (s.slot n k).ctx).frozen = none → (t.ctx (s.slot n k).ctx).frozen = some st) := by
  have h (u : State) : u.freezes (u.faultCtx (s.slot n k).ctx (s.slot n k).cmd st) (s.slot n k).ctx :=
    u.faultCtx_freezes _ _ st
  have hreg {o : Nat} (u : State) (ho : o = rEsFault n ∨ o = rEsFaultdt n) :
      (u.faultCtx (s.slot n k).ctx (s.slot n k).cmd st).reg o = u.reg o := by
    refine (h u).reg o ?_
    unfold rEsFault rEsFaultdt at ho
    omega
  have hne : rEsFault n ≠ rEsFaultdt n := by unfold rEsFault rEsFaultdt; omega
  obtain ⟨hstatus, hvalid⟩ := bf_faultWord (s.reg (rEsFault n)) (pc := (s.slot n k).pc) (k := k) hst
  unfold State.esFault State.fld
  dsimp only
  rw [hreg _ (.inl rfl), hreg _ (.inr rfl), State.reg_setReg, if_neg hne, State.reg_setReg_self, State.reg_setReg_self]
  exact ⟨hstatus, hvalid, rfl, (h _).slot n k, (h _).mem, fun hf => State.frozen_faultCtx _ _ hf⟩

/-- Settles O13. -/
theorem esFetchFaults : Obligations.EsFetchFaults := by
  intro s e sl i st hc hf
  obtain ⟨body, hrun⟩ := exec_esRow i e sl s
  rcases hf with ⟨hf, rfl⟩ | ⟨hf, rfl⟩
  · exact ⟨_, hrun.trans (esRun_range body hc hf), s.esFault_spec e sl (by decide)⟩
  · exact ⟨_, hrun.trans (esRun_illegal body hc hf), s.esFault_spec e sl (by decide)⟩

end Sys2Proof.Machine
end

section
/-! PROOFS. What a slot puts in the engine's queues, and what it waits for (R121, R123, R125, R126, R129, R136, R137, R147). -/

namespace Sys2Proof.Machine

/-! ### Each row -/

section
variable {s : State} {e : Fin 64} {sl : Fin 8}

theorem exec_mpass {a : BitVec 5} {m : MDesc} (h : s.issues e sl (.mpass a)) (hq : s.queuedPasses e sl < 32)
    (hm : s.anyMoving (s.slot e sl).ctx (spanFrom ((s.slot e sl).x a).toNat 128) = false)
    (hp : s.parsePass e sl (s.slot e sl).ctx ((s.slot e sl).x a).toNat false = .ok m) :
    exec (.mpass e sl) s = .next ((s.enqueuePass e sl m (s.slot e sl).cmd 0).retire e sl id) := by
  change execMpass e sl s = _
  rw [execMpass, esRun_issues h rfl]
  simp [Nat.not_le.2 hq, hm, hp]

/-- A stream descriptor that a slot submits (R126, R129). -/
def State.submitStream (s : State) (n k se : Nat) (d : SDesc) : State :=
  let x := s.slot n k
  s.updEng n (fun en => { en with
    seq := en.seq + 1,
    streams := en.streams ++
      [{ seq := en.seq, slot := k, ctx := x.ctx, gen := x.gen, cls := x.cls, cmd := x.cmd, se := se, d := d }] })

theorem exec_strm {a : BitVec 5} {se : BitVec 2} {ws : List W64} {d : SDesc} (h : s.issues e sl (.strm a se))
    (hq : (s.slotStreams e sl se.toNat).length < 8)
    (hm : s.anyMoving (s.slot e sl).ctx (spanFrom ((s.slot e sl).x a).toNat 64) = false)
    (ha : ((s.slot e sl).x a).toNat % 64 = 0)
    (hw : s.vwords e sl (s.slot e sl).ctx ((s.slot e sl).x a).toNat 8 = .inl (ws, false))
    (hd : SDesc.ofWords ws = some d) (hmode : strmMode d.mode se.toNat = true) :
    exec (.strm e sl) s = .next ((s.submitStream e sl se.toNat d).retire e sl id) := by
  change execStrm e sl s = _
  rw [execStrm, esRun_issues h rfl]
  simp [Nat.not_le.2 hq, hm, ha, hw, hd, hmode, State.submitStream]

/-- The state in which a slot's thread is launched: the launch has its number, and the slot's command has begun. -/
def State.launching (s : State) (n k : Nat) : State :=
  (s.updEng n (fun en => { en with seq := en.seq + 1 })).beginCmd (s.slot n k).cmd

/-- A slot whose thread is launched with a bank. -/
def Slot.launched (x : Slot) (no : Nat) (b : Bank) : Slot :=
  { x with live := true, launch := no, image := some b, himage := none, arms := [] }

theorem exec_vlaunch {d a b : BitVec 5} (h : s.issues e sl (.vlaunch d a b)) (hl : (s.slot e sl).live = false)
    (hw : 16 * bf ((s.slot e sl).x d) 0 15 < s.fld (rVtLmwin e sl) 8 8 * 4096) :
    let x := s.slot e sl
    exec (.vlaunch e sl) s = .next ((s.launching e sl).retire e sl
      (fun y => y.launched (s.eng e).seq (launchBank sl (x.x d) (x.x a) (x.x b)))) := by
  change execVlaunch e sl s = _
  have hw' : ¬ s.fld (rVtLmwin e sl) 8 8 * 4096 ≤ 16 * (launchBank sl ((s.slot e sl).x d) ((s.slot e sl).x a)
      ((s.slot e sl).x b)).pc := Nat.not_le.2 hw
  rw [execVlaunch, esRun_issues h rfl]
  simp only [hl, hw', Bool.false_eq_true, if_false]
  rfl

theorem exec_swait {se : BitVec 2} (h : s.issues e sl (.swait se)) : exec (.swait e sl) s = .next
    (if s.slotStreams e sl se.toNat = [] then s.retire e sl id else s.block e sl (.swait se.toNat)) := by
  change execSwait e sl s = _
  rw [execSwait, esRun_issues h rfl]

theorem exec_fence (h : s.issues e sl .fence) : exec (.fence e sl) s = .next
    (if (s.eng e).streams.all (fun t => t.slot != (sl : Nat)) then s.retire e sl id else s.block e sl .fence) := by
  change execFence e sl s = _
  rw [execFence, esRun_issues h rfl]

theorem exec_vwait (h : s.issues e sl .vwait) : exec (.vwait e sl) s = .next
    (if (s.slot e sl).live then s.block e sl .vwait else s.retire e sl id) := by
  change execVwait e sl s = _
  rw [execVwait, esRun_issues h rfl]

theorem exec_halt (h : s.issues e sl .halt) : exec (.halt e sl) s = .next (s.block e sl .halt) := by
  change execHalt e sl s = _
  rw [execHalt, esRun_issues h rfl]

theorem exec_slotHalted (hb : (s.slot e sl).st = .blocked) (hw : (s.slot e sl).wait = .halt)
    (hf : s.slotFrozen e sl = false) (hd : s.workDone e sl = true) (hc : s.cmd (s.slot e sl).cmd = none) :
    exec (.slotHalted e sl) s = .next (s.setSlot e sl { s.slot e sl with st := .halted, wait := .none }) := by
  change execSlotHalted e sl s = _
  unfold execSlotHalted
  simp [hb, hw, hf, hd, hc]

end

/-! ### What an issue leaves of the engine -/

/-- An instruction's issue changes the books of the sequencer and its slot alone. -/
theorem State.eng_retire (s : State) (n : Fin 64) (k : Nat) (f : Slot → Slot) :
    ((s.retire n k f).eng n).passes = (s.eng n).passes ∧ ((s.retire n k f).eng n).streams = (s.eng n).streams := by
  have h := (s.retire_frame n k f).engine
  rw [← h]
  exact ⟨rfl, rfl⟩

theorem State.slot_enqueuePass (s : State) (n k : Nat) (m : MDesc) (cmd stage : Nat) (j : Nat) :
    (s.enqueuePass n k m cmd stage).slot n j = s.slot n j := by
  unfold State.enqueuePass
  rw [State.updEng_eq, State.slot_setEng, if_pos rfl]
  rfl

theorem State.slot_submitStream (s : State) (n k se : Nat) (d : SDesc) (j : Nat) :
    (s.submitStream n k se d).slot n j = s.slot n j := by
  unfold State.submitStream
  rw [State.updEng_eq, State.slot_setEng, if_pos rfl]
  rfl

theorem State.slot_launching (s : State) (n k j : Nat) : (s.launching n k).slot n j = s.slot n j := by
  unfold State.launching State.beginCmd
  rw [State.slot_updCmd, State.updEng_eq, State.slot_setEng, if_pos rfl]
  rfl

/-- The S registers that a launch sets (R147). -/
theorem Bank.sr_launchBank (k : Nat) (d a b : W64) :
    (launchBank k d a b).sr 0 = bf a 0 32 ∧ (launchBank k d a b).sr 1 = bf a 32 32 ∧
      (launchBank k d a b).sr 2 = bf b 0 32 ∧ (launchBank k d a b).sr 3 = bf b 32 32 := by
  simp only [launchBank, Bank.sr, tget_tset]
  exact ⟨Nat.mod_eq_of_lt (bf_lt a 0 32), Nat.mod_eq_of_lt (bf_lt a 32 32), Nat.mod_eq_of_lt (bf_lt b 0 32),
    Nat.mod_eq_of_lt (bf_lt b 32 32)⟩

/-! ### The statement -/

/-- Settles O16. -/
theorem esQueuesAndWaits : Obligations.EsQueuesAndWaits := by
  constructor
  · intro s e sl x
    refine ⟨fun a m h hq hm hp => ?_, fun a se ws d h hq hm ha hw hd hmode => ?_, fun d a b h hl hw => ?_⟩
    · refine ⟨_, exec_mpass h hq hm hp, ?_, ?_, (State.eng_retire _ e sl id).1.trans ?_⟩
      · rw [State.retire_slot, State.slot_enqueuePass]; rfl
      · rw [State.retire_slot, State.slot_enqueuePass]; rfl
      · rw [State.enqueuePass, State.updEng_eq, State.eng_setEng_self]
    · refine ⟨_, exec_strm h hq hm ha hw hd hmode, ?_, ?_, (State.eng_retire _ e sl id).2.trans ?_⟩
      · rw [State.retire_slot, State.slot_submitStream]; rfl
      · rw [State.retire_slot, State.slot_submitStream]; rfl
      · rw [State.submitStream, State.updEng_eq, State.eng_setEng_self]
    · obtain ⟨h0, h1, h2, h3⟩ := Bank.sr_launchBank sl (x.x d) (x.x a) (x.x b)
      refine ⟨_, exec_vlaunch h hl hw, ?_⟩
      rw [State.retire_slot, State.slot_launching]
      exact ⟨rfl, rfl, rfl, _, rfl, rfl, h0, h1, h2, h3, fun r => rfl⟩
  · intro s e sl x waits on
    have hwaits {c : Instr} {w : Wait} (h : exec c s = .next (s.block e sl w)) : waits c w :=
      ⟨_, h, s.block_frame e sl w, s.block_slot e sl w⟩
    have hon {c : Instr} (h : exec c s = .next (s.retire e sl id)) : on c :=
      ⟨_, h, s.retire_frame e sl id, s.retire_slot e sl id⟩
    refine ⟨fun se h => ?_, fun h => ?_, fun h => ?_, fun h => hwaits (exec_halt h), fun hb hw hf hd hc =>
      ⟨_, exec_slotHalted hb hw hf hd hc, ?_, rfl⟩⟩
    · have hrun := exec_swait h
      split at hrun
      next hs => exact (if_pos hs).mpr (hon hrun)
      next hs => exact (if_neg hs).mpr (hwaits hrun)
    · have hrun := exec_fence h
      have hall : (s.eng e).streams.all (fun t => t.slot != (sl : Nat)) = true ↔
          ∀ u ∈ (s.eng e).streams, u.slot ≠ (sl : Nat) := by simp
      split at hrun
      next hs => exact (if_pos (hall.1 hs)).mpr (hon hrun)
      next hs => exact (if_neg (mt hall.2 hs)).mpr (hwaits hrun)
    · have hrun := exec_vwait h
      split at hrun
      next hl => exact (if_pos hl).mpr (hwaits hrun)
      next hl => exact (if_neg hl).mpr (hon hrun)
    · rw [State.setSlot_eq, State.slot_setEng, if_pos rfl, Engine.slot_setSlot_self]

end Sys2Proof.Machine
end

section
/-! PROOFS. Gates and signals of the sequencer (R141 to R146). -/

namespace Sys2Proof.Machine

/-! ### A gate's count -/

theorem rEsGate_inj {n g h : Nat} : rEsGate n h = rEsGate n g ↔ h = g := by unfold rEsGate; omega
theorem rEsGate_ne_rEsInsns (n g : Nat) : rEsGate n g ≠ rEsInsns n := by unfold rEsGate rEsInsns; omega

theorem State.gateCount_setGateCount (s : State) (n g v : Nat) : (s.setGateCount n g v).gateCount n g = v % 2 ^ 32 := by
  rw [State.gateCount, State.fld, State.setGateCount, State.setFld_eq, State.reg_setReg_self, bf_bset_self _ _ (by decide)]

theorem State.gateCount_lt (s : State) (n g : Nat) : s.gateCount n g < 2 ^ 32 := bf_lt _ _ _

theorem State.reg_setGateCount (s : State) (n v : Nat) {g h : Nat} (hne : h ≠ g) :
    (s.setGateCount n g v).reg (rEsGate n h) = s.reg (rEsGate n h) := by
  rw [State.setGateCount, State.setFld_eq, State.reg_setReg, if_neg (mt rEsGate_inj.1 hne)]

theorem State.ownsGate_setGateCount (s : State) (n g v c : Nat) :
    (s.setGateCount n g v).ownsGate n g c = s.ownsGate n g c := by
  unfold State.ownsGate
  rw [State.setGateCount, State.setFld_eq, State.reg_setReg_self]
  simp only [bf_bset_disjoint _ _ (.inl (by decide : 0 + 32 ≤ 63)) (by decide : 63 + 1 ≤ 64),
    bf_bset_disjoint _ _ (.inl (by decide : 0 + 32 ≤ 40)) (by decide : 40 + 10 ≤ 64),
    bf_bset_disjoint _ _ (.inl (by decide : 0 + 32 ≤ 50)) (by decide : 50 + 12 ≤ 64), State.ctx_setReg]

@[simp] theorem State.slot_setGateCount (s : State) (n g v m k : Nat) : (s.setGateCount n g v).slot m k = s.slot m k := rfl
@[simp] theorem State.setGateCount_mem (s : State) (n g v : Nat) : (s.setGateCount n g v).mem = s.mem := rfl

/-! ### An issue and the gates -/

section
variable {s t : State} {n : Fin 64} {k : Nat} (h : EsFrame s t n k)
include h

theorem EsFrame.gate (g : Nat) : t.reg (rEsGate n g) = s.reg (rEsGate n g) := h.regs _ (rEsGate_ne_rEsInsns n g)
theorem EsFrame.gateCount (g : Nat) : t.gateCount n g = s.gateCount n g := by
  unfold State.gateCount State.fld
  rw [h.gate]
theorem EsFrame.mem : t.mem = s.mem := by have x := congrArg State.mem h.rest; exact x
theorem EsFrame.ctx (c : Nat) : t.ctx c = s.ctx c := by
  have x := congrArg State.ctxs h.rest
  exact congrArg (tget {} · c) x
theorem EsFrame.ownsGate (g c : Nat) : t.ownsGate n g c = s.ownsGate n g c := by
  unfold State.ownsGate
  rw [h.gate, h.ctx]
theorem EsFrame.sigs (m : Nat) : (t.eng m).sigs = (s.eng m).sigs := by
  by_cases hm : m = n
  · subst hm
    rw [← h.engine]
  · rw [h.others m hm]

end

/-! ### Each row -/

section
variable {s : State} {e : Fin 64} {sl : Fin 8} {a b d : BitVec 5} {g : BitVec 8}

theorem exec_gset (h : s.issues e sl (.gset a g)) :
    exec (.gset e sl) s = .next (if s.ownsGate e g.toNat (s.slot e sl).ctx then
      (s.setGateCount e g.toNat (if a = 0 then 0 else ((s.slot e sl).x a).toNat % 2 ^ 32)).retire e sl id
      else s.faultCtx (s.slot e sl).ctx (s.slot e sl).cmd stGateNotOwned) := by
  change execGset e sl s = _
  rw [execGset, esRun_issues h rfl]

theorem exec_grd (h : s.issues e sl (.grd d g)) :
    exec (.grd e sl) s = .next (if s.ownsGate e g.toNat (s.slot e sl).ctx then
      s.retireX e sl d (BitVec.ofNat 64 (s.gateCount e g.toNat)) else s.faultCtx (s.slot e sl).ctx (s.slot e sl).cmd stGateNotOwned) := by
  change execGrd e sl s = _
  rw [execGrd, esRun_issues h rfl]

/-- The signal that a GSIG sends (R143). -/
def Slot.gsig (x : Slot) (n k : Nat) (a b : BitVec 5) : Sig :=
  { gate := bf (x.x a) 0 8, value := if b = 0 then 1 else (x.x b).toNat % 2 ^ 32, ctx := x.ctx, gen := x.gen,
    src := 8 * n + k }

theorem exec_gsig (h : s.issues e sl (.gsig a b)) :
    exec (.gsig e sl) s = .next (if 2 ^ 14 ≤ ((s.slot e sl).x a).toNat then s.esFault e sl stEsIllegalInsn
      else (s.sendSig (bf ((s.slot e sl).x a) 8 6) ((s.slot e sl).gsig e sl a b)).retire e sl id) := by
  change execGsig e sl s = _
  rw [execGsig, esRun_issues h rfl]
  rfl

/-- The threshold of a GWAIT (R142). -/
def Slot.threshold (x : Slot) (a : BitVec 5) : Nat := if a = 0 then 1 else (x.x a).toNat

/-- A GWAIT that goes on takes its threshold off the count where it consumes. -/
def State.consume (s : State) (n g thr : Nat) (c : Bool) : State :=
  if c then s.setGateCount n g (s.gateCount n g - thr) else s

theorem exec_gwait {c : Bool} (h : s.issues e sl (.gwait a g c)) (ho : s.ownsGate e g.toNat (s.slot e sl).ctx = true) :
    exec (.gwait e sl) s = .next (if (s.slot e sl).threshold a ≤ s.gateCount e g.toNat then (s.consume e g.toNat ((s.slot e sl).threshold a) c).retire e sl id
      else s.block e sl (.gwait g.toNat ((s.slot e sl).threshold a) c)) := by
  change execGwait e sl s = _
  rw [execGwait, esRun_issues h rfl]
  simp only [ho, not_true_eq_false, if_false]
  rfl

theorem exec_gwaitReturn {g thr : Nat} {c : Bool} (hb : (s.slot e sl).st = .blocked)
    (hw : (s.slot e sl).wait = .gwait g thr c) (hf : s.slotFrozen e sl = false) (ht : thr ≤ s.gateCount e g) :
    exec (.gwaitReturn e sl) s = .next ((s.consume e g thr c).setSlot e sl
      { s.slot e sl with st := .ready, wait := .none, pc := (s.slot e sl).pc + 1 }) := by
  change execGwaitReturn e sl s = _
  unfold execGwaitReturn
  simp only [hw, hb, hf, ht, Bool.false_eq_true, not_false_eq_true, and_self, if_true]
  rfl

theorem State.slot_consume (s : State) (n g thr : Nat) (c : Bool) (m k : Nat) :
    (s.consume n g thr c).slot m k = s.slot m k := by
  unfold State.consume
  split <;> rfl

theorem State.consume_mem (s : State) (n g thr : Nat) (c : Bool) : (s.consume n g thr c).mem = s.mem := by
  unfold State.consume
  split <;> rfl

theorem State.gateCount_consume (s : State) (n g thr : Nat) (c : Bool) :
    (s.consume n g thr c).gateCount n g = s.gateCount n g - (if c then thr else 0) := by
  unfold State.consume
  split
  · rw [State.gateCount_setGateCount, Nat.mod_eq_of_lt (lt_of_le_of_lt (Nat.sub_le _ _) (s.gateCount_lt n g))]
  · rfl

/-- Signal k of those on their way has left for its gate. -/
def State.signalGone (s : State) (n k : Nat) : State := s.updEng n (fun y => { y with sigs := y.sigs.eraseIdx k })

theorem exec_gateSignalArrival {k : Nat} {g : Sig} (hr : sigReady (s.eng e).sigs k = true)
    (hg : (s.eng e).sigs[k]? = some g) : exec (.gateSignalArrival e k) s = .next
      (if (s.ctx g.ctx).gen ≠ g.gen ∨ ¬ (s.ctx g.ctx).live then s.signalGone e k
       else if s.ownsGate e g.gate g.ctx then (s.signalGone e k).addGate e g.gate g.ctx g.value
       else (s.signalGone e k).freezeSource g) := by
  change execGateSignalArrival e k s = _
  unfold execGateSignalArrival
  simp only [hr, hg, if_true]
  rw [apply_ite Host.Outcome.next, apply_ite Host.Outcome.next]
  rfl

end

/-! ### What an arrival leaves -/

theorem State.gateCount_raiseArmed (s : State) (n c g m h : Nat) :
    (s.raiseArmed n c g).gateCount m h = s.gateCount m h := by
  unfold State.raiseArmed
  split <;> rfl

theorem State.raiseArmed_mem (s : State) (n c g : Nat) : (s.raiseArmed n c g).mem = s.mem := by
  unfold State.raiseArmed
  split <;> rfl

theorem State.sigs_raiseArmed (s : State) (n c g m : Nat) : ((s.raiseArmed n c g).eng m).sigs = (s.eng m).sigs := by
  unfold State.raiseArmed
  split
  · rfl
  · rw [State.updSlot_eq, State.eng_setEng]
    split
    next hm => rw [hm]; rfl
    · rfl

/-- From s to t nothing has changed but registers from the power controller's on. -/
def State.powerOnly (s t : State) : Prop := t = { s with regs := t.regs } ∧ ∀ o, o < 0xC00000 → t.reg o = s.reg o

theorem State.powerOnly.refl (s : State) : s.powerOnly s := ⟨rfl, fun _ _ => rfl⟩

theorem State.powerOnly.trans {s t u : State} (h : s.powerOnly t) (h' : t.powerOnly u) : s.powerOnly u :=
  ⟨by rw [h'.1, h.1], fun o ho => (h'.2 o ho).trans (h.2 o ho)⟩

theorem State.powerOnly_setFld_pwrEng (s : State) (k v : Nat) : s.powerOnly (s.setFld (rPwrEng k) 12 2 v) := by
  refine ⟨rfl, fun o ho => ?_⟩
  have hne : o ≠ rPwrEng k := by unfold rPwrEng; omega
  rw [State.setFld_eq, State.reg_setReg, if_neg hne]

theorem State.powerOnly_wakeEngine (s : State) (n : Nat) : s.powerOnly (s.wakeEngine n) := by
  unfold State.wakeEngine
  dsimp only
  split
  · exact s.powerOnly_setFld_pwrEng _ _
  · split
    · refine List.foldlRecOn (motive := s.powerOnly) _ _ (.refl s) fun t ht i _ => ?_
      split
      · exact ht.trans (t.powerOnly_setFld_pwrEng _ _)
      · exact ht
    · exact .refl s

/-- A signal's value joins a count that it does not overflow, and nothing of memory or of the other signals changes. -/
theorem State.addGate_spec (s : State) (n : Fin 64) {g : Nat} (hg : g < 256) (c : Nat) {v : Nat}
    (h : s.gateCount n g + v < 2 ^ 32) :
    let t := s.addGate n g c v
    t.gateCount n g = s.gateCount n g + v ∧ (∀ m, (t.eng m).sigs = (s.eng m).sigs) ∧ t.mem = s.mem := by
  have hle : ¬ 0xFFFFFFFF < s.gateCount n g + v := by omega
  have hlt : rEsGate n g < 0xC00000 := by unfold rEsGate; omega
  unfold State.addGate
  simp only [hle, if_false]
  obtain ⟨hrest, hreg⟩ := State.powerOnly_wakeEngine ((s.setGateCount n g (s.gateCount n g + v)).raiseArmed n c g) n
  refine ⟨?_, fun m => ?_, ?_⟩
  · rw [State.gateCount, State.fld, hreg _ hlt]
    exact (State.gateCount_raiseArmed _ _ _ _ _ _).trans ((State.gateCount_setGateCount _ _ _ _).trans (Nat.mod_eq_of_lt h))
  · rw [hrest]
    exact State.sigs_raiseArmed _ _ _ _ m
  · rw [hrest]
    exact State.raiseArmed_mem _ _ _ _

/-! ### The statement -/

/-- GSIG's test of the bits above a gate's name. -/
theorem lt_gateName_iff (w : W64) : w < 2 ^ 14 ↔ ¬ 2 ^ 14 ≤ w.toNat := by
  rw [Nat.not_le, BitVec.lt_def]
  rfl

/-- A signal sent is the last of those on their way to its engine. -/
theorem State.sigs_sendSig (s : State) (n : Nat) (g : Sig) (k : Nat) : ((s.sendSig n g).eng k).sigs =
    (s.eng k).sigs ++ if k = s.hostOf n g.ctx then [g] else [] := by
  rw [State.sendSig, State.updEng_eq, State.eng_setEng]
  split
  next hk => rw [hk]
  · rw [List.append_nil]

theorem State.slot_sendSig (s : State) (n : Nat) (g : Sig) (m k : Nat) : (s.sendSig n g).slot m k = s.slot m k := by
  rw [State.sendSig, State.updEng_eq, State.slot_setEng]
  split
  next hm => rw [hm]; rfl
  · rfl

/-- Settles O17. -/
theorem esGates : Obligations.EsGates := by
  constructor
  · intro s e sl
    dsimp only
    refine ⟨fun a g h => ?_, fun d g h => ?_, fun a b h => ?_⟩
    · have hrun := exec_gset h
      by_cases ho : s.ownsGate e g.toNat (s.slot e sl).ctx = true
      · rw [if_pos ho] at hrun ⊢
        have hframe := State.retire_frame (s.setGateCount e g.toNat (if a = 0 then 0 else ((s.slot e sl).x a).toNat % 2 ^ 32)) e sl id
        refine ⟨_, hrun, (hframe.gateCount _).trans ?_, (hframe.ownsGate _ _).trans ?_, State.retire_slot _ e sl id,
          fun j hj => (hframe.gate _).trans (State.reg_setGateCount _ _ _ (mt BitVec.eq_of_toNat_eq hj)), hframe.mem⟩
        · rw [State.gateCount_setGateCount]
          split
          · rfl
          · exact Nat.mod_mod _ _
        · rw [State.ownsGate_setGateCount, ho]
      · rw [if_neg ho] at hrun ⊢
        exact hrun
    · have hrun := exec_grd h
      by_cases ho : s.ownsGate e g.toNat (s.slot e sl).ctx = true
      · rw [if_pos ho] at hrun ⊢
        exact State.writesX_of hrun
      · rw [if_neg ho] at hrun ⊢
        exact hrun
    · have hrun := exec_gsig h
      by_cases ht : (s.slot e sl).x a < 2 ^ 14
      · rw [if_neg ((lt_gateName_iff _).1 ht)] at hrun
        rw [if_pos ht]
        have hframe := State.retire_frame (s.sendSig (bf ((s.slot e sl).x a) 8 6) ((s.slot e sl).gsig e sl a b)) e sl id
        refine ⟨_, hrun, (hframe.sigs _).trans ?_, fun k hk => (hframe.sigs k).trans ?_, ?_, hframe.mem⟩
        · exact (State.sigs_sendSig _ _ _ _).trans (congrArg _ (if_pos rfl))
        · exact (State.sigs_sendSig _ _ _ _).trans ((congrArg _ (if_neg hk)).trans (List.append_nil _))
        · rw [State.retire_slot, State.slot_sendSig]
          rfl
      · rw [if_pos (Decidable.not_not.1 (mt (lt_gateName_iff _).2 ht))] at hrun
        rw [if_neg ht]
        exact hrun
  · intro s e sl
    dsimp only
    refine ⟨fun a g c h ho => ?_, fun g thr c hg hb hw hf ht => ?_,
      fun k g hr hg hlt => ⟨fun hs => ?_, fun hgen hlive ho hsum => ?_⟩⟩
    · have hrun := exec_gwait h ho
      unfold Slot.threshold at hrun
      by_cases ht : (if a = 0 then 1 else ((s.slot e sl).x a).toNat) ≤ s.gateCount e g.toNat
      · rw [if_pos ht] at hrun
        have hframe := State.retire_frame (s.consume e g.toNat (if a = 0 then 1 else ((s.slot e sl).x a).toNat) c) e sl id
        refine ⟨_, hrun, hframe.mem.trans (s.consume_mem _ _ _ _), ?_⟩
        rw [if_pos ht, State.retire_slot, State.slot_consume]
        exact ⟨rfl, (hframe.gateCount _).trans (s.gateCount_consume _ _ _ _)⟩
      · rw [if_neg ht] at hrun
        refine ⟨_, hrun, (s.block_frame e sl _).mem, ?_⟩
        rw [if_neg ht]
        exact ⟨s.block_slot e sl _, (s.block_frame e sl _).gateCount _⟩
    · refine ⟨_, exec_gwaitReturn hb hw hf ht, ?_, s.gateCount_consume e g thr c⟩
      rw [State.setSlot_eq, State.slot_setEng, if_pos rfl, Engine.slot_setSlot_self]
    · rw [exec_gateSignalArrival hr hg, if_pos (hs.imp_right Bool.eq_false_iff.1)]
      rfl
    · have hgo : ¬ ((s.ctx g.ctx).gen ≠ g.gen ∨ ¬ (s.ctx g.ctx).live = true) := by simp [hgen, hlive]
      obtain ⟨hcount, hsigs, hmem⟩ := (s.signalGone e k).addGate_spec e hlt g.ctx hsum
      refine ⟨_, (exec_gateSignalArrival hr hg).trans (by rw [if_neg hgo, if_pos ho]), hcount, (hsigs e).trans ?_, hmem⟩
      rw [State.signalGone, State.updEng_eq, State.eng_setEng_self]

end Sys2Proof.Machine
end

section
/-! PROOFS. Loads and stores of the sequencer (R118, R119, R121, R122, R132, R134, R203). -/

namespace Sys2Proof.Machine

/-! ### What a command's touch of an address changes -/

/-- From s to t only registers, the DDR5 controllers and commands change. -/
def State.touchOnly (s t : State) : Prop := t = { s with regs := t.regs, ddr := t.ddr, cmds := t.cmds }

theorem State.touchOnly.trans {s t u : State} (h : s.touchOnly t) (h' : t.touchOnly u) : s.touchOnly u := by
  unfold State.touchOnly at *
  rw [h', h]

theorem State.touchOnly.eng {s t : State} (h : s.touchOnly t) (n : Nat) : t.eng n = s.eng n := by rw [h]; rfl
theorem State.touchOnly.slot {s t : State} (h : s.touchOnly t) (n k : Nat) : t.slot n k = s.slot n k := by rw [h]; rfl

theorem State.touchOnly_foldl {α : Type} {f : State → α → State} (hf : ∀ (s : State) a, s.touchOnly (f s a)) (l : List α)
    (s : State) : s.touchOnly (l.foldl f s) := by
  induction l generalizing s with
  | nil => rfl
  | cons a l ih => exact (hf s a).trans (ih _)

theorem State.touchOnly_wakeAt (s : State) (a : Nat) : s.touchOnly (s.wakeAt a) := by
  have hbanks (s : State) (c : Nat) (f : DdrBank → DdrBank) : s.touchOnly (s.updChanBanks c f) :=
    State.touchOnly_foldl (f := fun s i => s.updBank (c * 256 + i) f) (fun _ _ => rfl) _ s
  have hback (s : State) (c : Nat) : s.touchOnly (s.chBack c) := rfl
  have hissue (s : State) (c : Nat) (cs : List DdrCmd) : s.touchOnly (s.issue c cs) := rfl
  unfold State.wakeAt State.wakeChannel
  split
  · split
    · exact (hback s _).trans ((hbanks _ _ _).trans (hissue _ _ _))
    · rfl
  · rfl

theorem State.touchOnly_touchDev (s : State) (cmd a : Nat) : s.touchOnly (s.touchDev cmd a) := by
  refine (s.touchOnly_wakeAt a).trans ?_
  unfold State.touchDev
  dsimp only
  split
  · split <;> rfl
  · rfl

/-- A byte lies where it lay, and is what it was. -/
theorem State.aftermath.byte {s t : State} (h : s.aftermath t) (a : Nat) : t.byte a = s.byte a := by
  unfold State.byte
  rw [h.mem, h.map.memKey]

/-! ### Loads -/

section
variable {s : State} {e : Fin 64} {sl : Fin 8} {d a : BitVec 5} {i : BitVec 16}

/-- The state in which a load of a device address issues: a free value is taken, and the address is touched. -/
def State.loading (s : State) (n k v : Nat) : State := { s with free := s.free + 1 }.touchDev (s.slot n k).cmd v

/-- The load that is then outstanding (R119). -/
def State.loadOf (s : State) (d : BitVec 5) (v n : Nat) : Load :=
  { rd := d.toNat, data := BitVec.ofNat 64 (s.dataRead v n).1, poison := (s.dataRead v n).2 }

theorem esLoad_of_inl {n v : Nat} {f : MemOp} (h : s.issues e sl (.mem f d a i))
    (hm : s.anyMoving (s.slot e sl).ctx [(((s.slot e sl).x a + i.signExtend 64).toNat : Int)] = false)
    (hv : s.dataAddr (s.slot e sl).ctx ((s.slot e sl).x a + i.signExtend 64) n false = .inl v) :
    esLoad e sl n f s = .next ((s.loading e sl v).retire e sl
      (fun x => { x with loads := x.loads ++ [s.loadOf d v n] })) := by
  rw [esLoad, esRun_issues h (if_pos rfl)]
  simp only [hm, hv, Bool.false_eq_true, if_false]
  rfl

theorem State.touchOnly_loading (n k v : Nat) : { s with free := s.free + 1 }.touchOnly (s.loading n k v) :=
  State.touchOnly_touchDev _ _ _

theorem State.aftermath_loading (s : State) (n k v : Nat) : s.aftermath (s.loading n k v) :=
  s.aftermath_takeFree.trans (State.aftermath_touchDev _ _ _)

end

theorem execLoadDataReturn_of_clean {s : State} {e : Fin 64} {sl : Fin 8} {k : Nat} {l : Load}
    (hl : (s.slot e sl).loads[k]? = some l) (hf : s.slotFrozen e sl = false) (hp : l.poison = false) :
    exec (.loadDataReturn e sl k) s = .next (s.setSlot e sl
      { (s.slot e sl).setX (BitVec.ofNat 5 l.rd) l.data with loads := (s.slot e sl).loads.eraseIdx k }) := by
  change execLoadDataReturn e sl k s = _
  unfold execLoadDataReturn
  simp [hl, hf, hp]

theorem execLoadDataReturn_of_poison {s : State} {e : Fin 64} {sl : Fin 8} {k : Nat} {l : Load}
    (hl : (s.slot e sl).loads[k]? = some l) (hf : s.slotFrozen e sl = false) (hp : l.poison = true) :
    exec (.loadDataReturn e sl k) s = .next (s.faultCtx (s.slot e sl).ctx (s.slot e sl).cmd stPoison) := by
  change execLoadDataReturn e sl k s = _
  unfold execLoadDataReturn
  simp [hl, hf, hp]

/-- Settles O14 (log 12, log 79). -/
theorem esLoads : Obligations.EsLoads := by
  constructor
  · intro s e sl d a i wide v
    dsimp only
    intro h hm hv
    have hrun : exec (if wide then .ld e sl else .ldw e sl) s = _ := (by cases wide <;> rfl : _ =
      esLoad e sl (if wide then 8 else 4) (if wide then .ld else .ldw) s).trans (esLoad_of_inl h hm hv)
    have hframe := State.retire_frame (s.loading e sl v) e sl
      (fun x => { x with loads := x.loads ++ [s.loadOf d v (if wide then 8 else 4)] })
    have htouch := s.touchOnly_loading e sl v
    refine ⟨_, hrun, ?_, fun m hm => (hframe.others m hm).trans (htouch.eng m),
      fun j hj => (hframe.slots j hj).trans (htouch.slot e j),
      fun q => (hframe.bytes q).trans ((s.aftermath_loading e sl v).byte q)⟩
    rw [State.retire_slot, htouch.slot]
    rfl
  · intro s e sl k l
    dsimp only
    intro hl hf
    refine ⟨fun hp => ⟨_, execLoadDataReturn_of_clean hl hf hp, ?_⟩,
      fun hp => ⟨_, execLoadDataReturn_of_poison hl hf hp, rfl, (s.faultCtx_freezes _ _ _).slot e sl⟩⟩
    rw [State.setSlot_eq, State.slot_setEng, if_pos rfl, Engine.slot_setSlot_self]
    refine ⟨rfl, Slot.x_zero _, fun r hr => ?_, ?_, rfl, fun m hm => ?_, fun j hj => ?_⟩
    · exact (Slot.x_setX _ _ _ _).trans (if_neg hr)
    · unfold Slot.setX
      split <;> rfl
    · rw [State.eng_setEng, if_neg hm]
    · rw [State.slot_setEng, if_pos rfl, Engine.slot_setSlot, if_neg hj]
      rfl

/-! ### Stores -/

/-- Writes of bytes at places of the device, in order. -/
def State.writeDev (s : State) (ws : List (Nat × Byte)) : State := ws.foldl (fun s w => s.wrPlace (.dev w.1) w.2) s

/-- From s to t only memory changes. -/
def State.memOnly (s t : State) : Prop := t = { s with mem := t.mem }

theorem State.memOnly.trans {s t u : State} (h : s.memOnly t) (h' : t.memOnly u) : s.memOnly u := by
  unfold State.memOnly at *
  rw [h', h]

theorem State.memOnly.memKey {s t : State} (h : s.memOnly t) (a : Nat) : t.memKey a = s.memKey a := by rw [h]; rfl
theorem State.memOnly.lost {s t : State} (h : s.memOnly t) (a : Nat) : t.lost a = s.lost a := by rw [h]; rfl
theorem State.memOnly.eng {s t : State} (h : s.memOnly t) (n : Nat) : t.eng n = s.eng n := by rw [h]; rfl

theorem State.memOnly.slot {s t : State} (h : s.memOnly t) (n k : Nat) : t.slot n k = s.slot n k := by rw [h]; rfl

theorem State.memOnly_wrDev (s : State) (a : Nat) (b : Byte) : s.memOnly (s.wrPlace (.dev a) b) := by
  unfold State.wrPlace
  dsimp only
  split <;> rfl

theorem State.memOnly_writeDev (s : State) (ws : List (Nat × Byte)) : s.memOnly (s.writeDev ws) := by
  induction ws generalizing s with
  | nil => rfl
  | cons w ws ih => exact (s.memOnly_wrDev w.1 w.2).trans (ih _)

theorem State.byte_writeDev_of_ne {s : State} {ws : List (Nat × Byte)} {q : Nat}
    (h : ∀ w ∈ ws, s.memKey w.1 ≠ s.memKey q) : (s.writeDev ws).byte q = s.byte q := by
  induction ws generalizing s with
  | nil => rfl
  | cons w ws ih =>
    obtain ⟨hw, hws⟩ := List.forall_mem_cons.1 h
    have hone := s.memOnly_wrDev w.1 w.2
    refine (ih fun x hx => ?_).trans (State.byte_wrPlace _ fun d hd => ?_)
    · rw [hone.memKey, hone.memKey]
      exact hws x hx
    · cases hd
      exact hw

/-- A byte of memory that a run of writes gives a place lies there, unless a later one goes to the same place. -/
theorem State.byte_writeDev {s : State} {ws : List (Nat × Byte)} {k : Nat} {w : Nat × Byte} (hk : ws[k]? = some w)
    (hf : isFabric w.1 = false) (hl : s.lost w.1 = false)
    (hlast : ∀ j x, k < j → ws[j]? = some x → s.memKey x.1 ≠ s.memKey w.1) : (s.writeDev ws).byte w.1 = w.2 := by
  induction ws generalizing s k with
  | nil => cases hk
  | cons y ws ih =>
    have hone := s.memOnly_wrDev y.1 y.2
    cases k with
    | zero =>
      obtain rfl : y = w := Option.some.inj hk
      change ((s.wrPlace (.dev y.1) y.2).writeDev ws).byte y.1 = y.2
      refine (State.byte_writeDev_of_ne fun x hx => ?_).trans ?_
      · obtain ⟨j, hj⟩ := List.mem_iff_getElem?.1 hx
        rw [hone.memKey, hone.memKey]
        exact hlast (j + 1) x (Nat.succ_pos j) hj
      · unfold State.wrPlace
        simp [hf, hl, State.byte_setByte]
    | succ k =>
      refine ih hk (by rw [hone.lost, hl]) fun j x hj hx => ?_
      rw [hone.memKey, hone.memKey]
      exact hlast (j + 1) x (Nat.succ_lt_succ hj) hx

/-- Fewer than 64 writes without poison cover no line, and so change no mark. -/
theorem State.wrAll_dev {s : State} {ws : List (Nat × Byte)} (h : ws.length < 64) :
    s.wrAll (ws.map fun w => (.dev w.1, w.2, false)) = s.writeDev ws := by
  have hbad : ((ws.map fun w => ((.dev w.1 : Place), w.2, false)).filter (fun w => w.2.2)) = [] := by
    rw [List.filter_map]
    simp
  have hcover (ps : List Place) (p : Place) (hp : ps.length < 64) : coverCount ps p ≠ 64 := by
    have h1 := (List.dedup_sublist (ps.filter fun q => q.line == p.line)).length_le
    have h2 := List.length_filter_le (fun q : Place => q.line == p.line) ps
    unfold coverCount
    omega
  have hmarks (u : State) (ps qs : List Place) (hp : ps.length < 64) : qs.foldl (fun s p =>
      if ([] : List (Nat × Nat)).contains p.line then s.setMark p true
      else if coverCount ps p = 64 then s.setMark p false else s) u = u := by
    induction qs generalizing u with
    | nil => rfl
    | cons q qs ih =>
      rw [List.foldl_cons, if_neg (by simp), if_neg (hcover ps q hp)]
      exact ih u
  rw [State.wrAll_eq, hbad, State.markAll, List.map_nil, hmarks _ _ _ (by simpa using h), List.foldl_map]
  rfl

/-- The bytes of a word at the addresses from a on. -/
def storeBytesAt (a n v : Nat) : List (Nat × Byte) := (List.range n).map fun i => (a + i, BitVec.ofNat 8 (v >>> (8 * i)))

theorem State.dataWrite_of_memory {s : State} {a n : Nat} (v : Nat) (hr : s.region a ≠ .regs) (hn : n < 64) :
    s.dataWrite a n v = s.writeDev (storeBytesAt a n v) := by
  have hws : (leBytes n v).zipIdx.map (fun p => (Place.dev (a + p.2), p.1, false)) =
      (storeBytesAt a n v).map fun w => (.dev w.1, w.2, false) := by
    refine List.ext_getElem (by simp [leBytes, storeBytesAt]) fun j h1 h2 => ?_
    simp [leBytes, storeBytesAt]
  unfold State.dataWrite
  rw [if_neg hr, hws, State.wrAll_dev (by simpa [storeBytesAt] using hn)]

theorem getElem?_storeBytesAt {a n v k : Nat} (h : k < n) :
    (storeBytesAt a n v)[k]? = some (a + k, BitVec.ofNat 8 (v >>> (8 * k))) := by
  simp [storeBytesAt, h]

/-- A byte of a word, as a store of the word's low bytes has it. -/
theorem storeByte_eq (w : W64) {n k : Nat} (h : k < n) :
    BitVec.ofNat 8 ((w.toNat % 2 ^ (8 * n)) >>> (8 * k)) = (w >>> (8 * k)).setWidth 8 := by
  refine BitVec.eq_of_toNat_eq (Nat.eq_of_testBit_eq fun j => ?_)
  rw [BitVec.toNat_ofNat, BitVec.toNat_setWidth, BitVec.toNat_ushiftRight]
  simp only [Nat.testBit_mod_two_pow, Nat.testBit_shiftRight]
  by_cases hj : j < 8
  · rw [decide_eq_true (by omega : 8 * k + j < 8 * n), Bool.true_and]
  · simp [hj]

section
variable {s : State} {e : Fin 64} {sl : Fin 8} {d a : BitVec 5} {i : BitVec 16}

/-- The state in which a store issues: its bytes are in memory, and the address is touched. -/
def State.storing (s : State) (n k : Nat) (d : BitVec 5) (v len : Nat) : State :=
  (s.dataWrite v len (((s.slot n k).x d).toNat % 2 ^ (8 * len))).touchDev (s.slot n k).cmd v

theorem esStore_of_inl {n v : Nat} {f : MemOp} (h : s.issues e sl (.mem f d a i))
    (hm : s.anyMoving (s.slot e sl).ctx [(((s.slot e sl).x a + i.signExtend 64).toNat : Int)] = false)
    (hv : s.dataAddr (s.slot e sl).ctx ((s.slot e sl).x a + i.signExtend 64) n true = .inl v) :
    esStore e sl n f s = .next ((s.storing e sl d v n).retire e sl id) := by
  rw [esStore, esRun_issues h (if_pos rfl)]
  simp only [hm, hv, Bool.false_eq_true, if_false]
  rfl

end

/-- Settles O15 (log 12). -/
theorem esStores : Obligations.EsStores := by
  intro s e sl d a i wide v
  dsimp only
  intro h hm hv hr hmem
  generalize hn : (if wide = true then 8 else 4) = n at hv hmem ⊢
  have hn8 : n ≤ 8 := by subst hn; split <;> decide
  have hrun : exec (if wide then .st e sl else .stw e sl) s = _ := (by subst hn; cases wide <;> rfl : _ =
    esStore e sl n (if wide then .st else .stw) s).trans (esStore_of_inl h hm hv)
  have hframe := State.retire_frame (s.storing e sl d v n) e sl id
  generalize hx : ((s.slot e sl).x d).toNat % 2 ^ (8 * n) = x
  have hw : s.dataWrite v n x = s.writeDev (storeBytesAt v n x) := s.dataWrite_of_memory x hr (by omega)
  have honly : s.memOnly (s.dataWrite v n x) := hw ▸ s.memOnly_writeDev _
  have htouch : (s.dataWrite v n x).touchOnly (s.storing e sl d v n) := by
    subst hx
    exact State.touchOnly_touchDev _ _ _
  have hafter : (s.dataWrite v n x).aftermath (s.storing e sl d v n) := by
    subst hx
    exact State.aftermath_touchDev _ _ _
  have heng (m : Nat) : (s.storing e sl d v n).eng m = s.eng m := (htouch.eng m).trans (honly.eng m)
  have hbyte (q : Nat) : ((s.storing e sl d v n).retire e sl id).byte q = (s.writeDev (storeBytesAt v n x)).byte q :=
    ((hframe.bytes q).trans (hafter.byte q)).trans (by rw [hw])
  refine ⟨_, hrun, fun k hk hlast => ?_, fun q hq => ?_, ?_, ?_, fun m hm => (hframe.others m hm).trans (heng m),
    fun j hj => (hframe.slots j hj).trans (congrArg (Engine.slot · j) (heng e))⟩
  · obtain ⟨hfab, hlost⟩ := hmem k hk
    rw [hbyte, ← storeByte_eq _ hk, hx]
    refine State.byte_writeDev (w := (v + k, _)) (getElem?_storeBytesAt hk) hfab hlost fun j y hj hy => ?_
    have hjn : j < n := by
      have := (List.getElem?_eq_some_iff.1 hy).1
      simpa [storeBytesAt] using this
    rw [getElem?_storeBytesAt hjn] at hy
    obtain rfl := Option.some.inj hy
    exact hlast j hj hjn
  · rw [hbyte]
    refine State.byte_writeDev_of_ne fun w hw => ?_
    obtain ⟨j, hj, rfl⟩ := List.mem_map.1 hw
    exact (hq j (List.mem_range.1 hj)).symm
  · have hp : ((s.storing e sl d v n).retire e sl id).poison = (s.storing e sl d v n).poison := by
      have x := congrArg State.poison hframe.rest; exact x
    rw [hp, hafter.poison, honly]
  · rw [State.retire_slot, htouch.slot, honly.slot]
    rfl

end Sys2Proof.Machine
end

section
/-! PROOFS. Stream descriptors: what the moving of bytes finds and leaves (R128, R129, R133, R134, R139, R272). -/

namespace Sys2Proof.Machine

/-! ### A change of commands moves no address -/

section
variable (s : State) (i : Nat) {f : Cmd → Cmd} (hf : ∀ c, (f c).id = c.id)
include hf

theorem State.granted_updCmd (p a : Nat) : (s.updCmd i f).granted p a = s.granted p a := by
  have hr (r : Revoke) : (s.updCmd i f).revoked r = s.revoked r := by
    unfold State.revoked State.updCmd
    simp only [List.all_map]
    congr 1
    funext c
    simp only [Function.comp]
    split <;> simp [hf]
  unfold State.granted
  simp only [hr, State.part_updCmd]

theorem State.leafCheck_updCmd (c p a : Nat) (allowed : Bool) :
    (s.updCmd i f).leafCheck c p a allowed = s.leafCheck c p a allowed := by
  unfold State.leafCheck
  rw [State.granted_updCmd s i hf]
  rfl

theorem State.walk_updCmd (c p va : Nat) (write : Bool) (lv table : Nat) :
    (s.updCmd i f).walk c p va write lv table = s.walk c p va write lv table := by
  have ht (lv table j : Nat) : (s.updCmd i f).tableEntry lv table j = s.tableEntry lv table j := rfl
  induction lv generalizing table with
  | zero => simp only [State.walk, State.leafAt, ht, State.leafCheck_updCmd s i hf]
  | succ lv ih => simp only [State.walk, State.leafAt, ht, State.leafCheck_updCmd s i hf, ih]

theorem State.place_updCmd (n k c : Nat) (isLoc : Bool) (a : Int) (write : Bool) :
    (s.updCmd i f).place n k c isLoc a write = s.place n k c isLoc a write := by
  have ht : (s.updCmd i f).translate c a write = s.translate c a write := by
    unfold State.translate
    simp only [State.walk_updCmd s i hf, State.leafCheck_updCmd s i hf]
    rfl
  unfold State.place
  rw [ht]
  rfl

end

/-! ### What moving finds -/

section
variable {n k c : Nat} {peer : Bool}

theorem State.moveScan_congr {s t : State} (h : ∀ isLoc a write, t.place n k c isLoc a write = s.place n k c isLoc a write)
    (bs : List ((Bool × Int) × (Bool × Int))) : t.moveScan n k c peer bs = s.moveScan n k c peer bs := by
  induction bs with
  | nil => rfl
  | cons b bs ih => simp only [State.moveScan, h, ih]

variable {s : State}

/-- The places of one byte of a descriptor, where neither faults. -/
theorem State.moveScan_cons_none {b : (Bool × Int) × (Bool × Int)} {bs : List ((Bool × Int) × (Bool × Int))}
    (h : (s.moveScan n k c peer (b :: bs)).2 = none) : ∃ x, (s.moveScan n k c peer bs).2 = none ∧
      ∀ cs, s.moveScan n k c peer (b :: cs) = (x :: (s.moveScan n k c peer cs).1, (s.moveScan n k c peer cs).2) := by
  simp only [State.moveScan] at h ⊢
  split at h
  · cases h
  · split at h
    · cases h
    · exact ⟨(_, _), h, fun _ => rfl⟩

/-- A descriptor that meets no fault moves all of its bytes, and so does any first part of it. -/
theorem State.moveScan_take {bs : List ((Bool × Int) × (Bool × Int))} (h : (s.moveScan n k c peer bs).2 = none) (m : Nat) :
    (s.moveScan n k c peer (bs.take m)).2 = none ∧
      (s.moveScan n k c peer (bs.take m)).1.length = min m bs.length := by
  induction bs generalizing m with
  | nil => simp [State.moveScan]
  | cons b bs ih =>
    obtain ⟨x, hrest, hcons⟩ := State.moveScan_cons_none h
    cases m with
    | zero => simp [State.moveScan]
    | succ m =>
      obtain ⟨h2, hlen⟩ := ih hrest m
      rw [List.take_succ_cons, hcons]
      exact ⟨h2, by simp [hlen]⟩

end

theorem SDesc.length_addrs (d : SDesc) : d.addrs.length = d.size := by
  simp [SDesc.addrs, SDesc.size, List.length_flatMap]
  ring

theorem SDesc.length_ends (d : SDesc) : d.ends.length = d.size := by
  simp [SDesc.ends, SDesc.length_addrs]

/-- The rest of a descriptor is at most its size. -/
theorem SDesc.take_drop_ends (d : SDesc) (pos : Nat) : (d.ends.drop pos).take d.size = d.ends.drop pos :=
  List.take_of_length_le (by simp [SDesc.length_ends])

/-! ### Steps of one descriptor -/

/-- From s to t the descriptors of engine n that have a number change as g says; time, the map of memory and the engines that
answer for others stay as they are. -/
structure State.streamStep (s t : State) (n seq : Nat) (g : Stream → Stream) : Prop where
  streams : (t.eng n).streams = (s.eng n).streams.map (fun x => if x.seq = seq then g x else x)
  dt : t.dt = s.dt
  map : s.sameMap t
  hostOf : ∀ m c, t.hostOf m c = s.hostOf m c

section
variable {s t u : State} {n seq : Nat} {g g' : Stream → Stream}

theorem State.streamStep.trans (h : s.streamStep t n seq g) (h' : t.streamStep u n seq g')
    (hg : ∀ x, (g x).seq = x.seq) : s.streamStep u n seq (fun x => g' (g x)) where
  streams := by
    rw [h'.streams, h.streams, List.map_map]
    refine List.map_congr_left fun x _ => ?_
    by_cases hx : x.seq = seq
    · simp [hx, hg]
    · simp [hx]
  dt := h'.dt.trans h.dt
  map := h.map.trans h'.map
  hostOf m c := (h'.hostOf m c).trans (h.hostOf m c)

/-- A step that leaves the descriptors alone. -/
theorem State.streamStep.of_same (hs : (t.eng n).streams = (s.eng n).streams)
    (hh : ∀ m, (t.eng m).hosts = (s.eng m).hosts) (hd : t.dt = s.dt) (hm : s.sameMap t) :
    s.streamStep t n seq (fun x => x) where
  streams := by simp [hs]
  dt := hd
  map := hm
  hostOf m c := by unfold State.hostOf; rw [hh]

/-- The descriptors of another number stay. -/
theorem State.streamStep.mem_of_ne (h : s.streamStep t n seq g) {v : Stream} (hv : v ∈ (s.eng n).streams)
    (hne : v.seq ≠ seq) : v ∈ (t.eng n).streams := by
  rw [h.streams]
  exact List.mem_map.2 ⟨v, hv, if_neg hne⟩

theorem State.streamStep.mem_of_eq (h : s.streamStep t n seq g) {v : Stream} (hv : v ∈ (s.eng n).streams)
    (he : v.seq = seq) : g v ∈ (t.eng n).streams := by
  rw [h.streams]
  exact List.mem_map.2 ⟨v, hv, if_pos he⟩

/-- A descriptor of that number is one that the step changed. -/
theorem State.streamStep.eq_of_mem (h : s.streamStep t n seq g) {v : Stream}
    (hv : v ∈ (t.eng n).streams) (he : v.seq = seq) : ∃ x ∈ (s.eng n).streams, x.seq = seq ∧ v = g x := by
  rw [h.streams] at hv
  obtain ⟨x, hx, rfl⟩ := List.mem_map.1 hv
  split at he
  next hs => exact ⟨x, hx, hs, if_pos hs⟩
  next hs => exact absurd he hs

end

theorem State.streamStep_updStream (s : State) (n seq : Nat) (f : Stream → Stream) :
    s.streamStep (s.updStream n seq f) n seq f where
  streams := by rw [State.updStream, State.updEng_eq, State.eng_setEng_self]
  dt := rfl
  map := (s.sameView_setEng n _).map
  hostOf m c := by
    unfold State.hostOf
    rw [State.updStream, State.updEng_eq, State.eng_setEng]
    split
    next hm => rw [hm]
    · rfl

section
variable (s : State) (n seq : Nat)

theorem State.streamStep_updCmd (i : Nat) (f : Cmd → Cmd) : s.streamStep (s.updCmd i f) n seq (fun x => x) :=
  .of_same rfl (fun _ => rfl) rfl (s.aftermath_updCmd i f).map

theorem State.streamStep_takeFree : s.streamStep { s with free := s.free + 1 } n seq (fun x => x) :=
  .of_same rfl (fun _ => rfl) rfl s.aftermath_takeFree.map

theorem State.streamStep_touchDev (cmd a : Nat) : s.streamStep (s.touchDev cmd a) n seq (fun x => x) :=
  have h := s.touchOnly_touchDev cmd a
  .of_same (by rw [h.eng]) (fun m => by rw [h.eng]) (by rw [h]) (s.aftermath_touchDev cmd a).map

theorem State.streamStep_wrAll (ws : List (Place × Byte × Bool)) : s.streamStep (s.wrAll ws) n seq (fun x => x) :=
  have h := s.writesOnly_wrAll ws
  .of_same (by rw [h.eng]) (fun m => by rw [h.eng]) (by rw [h.rest]) h.map

theorem State.streamStep_post (i cmd ctx : Nat) (ps : List Pkt) :
    s.streamStep (s.post i cmd ctx ps).1 n seq (fun x => x) := by
  unfold State.post
  split <;> exact .of_same rfl (fun _ => rfl) rfl ⟨fun _ _ _ => rfl, fun _ => rfl, rfl, rfl, rfl, rfl⟩

theorem State.post_mem (i cmd ctx : Nat) (ps : List Pkt) : (s.post i cmd ctx ps).1.mem = s.mem := by
  unfold State.post
  split <;> rfl

end

/-- The touch of a place by a stream. -/
def State.touchPlace (s : State) (cmd : Nat) (p : Place) : State :=
  match p with | .dev a => s.touchDev cmd a | .loc _ _ => s

/-- The touches of the places between which a stream has moved bytes. -/
def State.touchPlaces (s : State) (cmd : Nat) (ps : List (Place × Place)) : State :=
  ps.foldl (fun s p => (s.touchPlace cmd p.1).touchPlace cmd p.2) s

theorem State.touchPlaces_spec (s : State) (n seq cmd : Nat) (ps : List (Place × Place)) :
    s.streamStep (s.touchPlaces cmd ps) n seq (fun x => x) ∧ (s.touchPlaces cmd ps).mem = s.mem := by
  have hone (s : State) (p : Place) : s.streamStep (s.touchPlace cmd p) n seq (fun x => x) ∧ (s.touchPlace cmd p).mem = s.mem := by
    cases p with
    | dev a => exact ⟨s.streamStep_touchDev n seq cmd a, (s.aftermath_touchDev cmd a).mem⟩
    | loc m a => exact ⟨.of_same rfl (fun _ => rfl) rfl (.refl s), rfl⟩
  induction ps generalizing s with
  | nil => exact ⟨.of_same rfl (fun _ => rfl) rfl (.refl s), rfl⟩
  | cons p ps ih =>
    obtain ⟨h1, m1⟩ := hone s p.1
    obtain ⟨h2, m2⟩ := hone (s.touchPlace cmd p.1) p.2
    obtain ⟨h3, m3⟩ := ih ((s.touchPlace cmd p.1).touchPlace cmd p.2)
    exact ⟨(h1.trans h2 fun _ => rfl).trans h3 fun _ => rfl, (m3.trans m2).trans m1⟩

/-- The places up to which a run of a descriptor moves, and its fault. -/
def State.runScan (s : State) (n cnt : Nat) (t : Stream) : List (Place × Place) × Option (Int × Nat) :=
  s.moveScan n t.slot t.ctx (t.d.mode == 5) ((t.d.ends.drop t.pos).take cnt)

/-- What a run of a descriptor moves, before its places are touched. -/
def State.runMoved (s : State) (n : Nat) (t : Stream) (ps : List (Place × Place)) : State :=
  if t.d.mode = 5 then s.postPeer n t ps
  else (s.moveBytes ps).1.updStream n t.seq (fun x => { x with poison := x.poison || (s.moveBytes ps).2 })

theorem State.runStream_eq (s : State) (n cnt : Nat) (t : Stream) : s.runStream n cnt t =
    (((s.runMoved n t (s.runScan n cnt t).1).touchPlaces t.cmd (s.runScan n cnt t).1).updStream n t.seq
      (fun x => { x with pos := x.pos + (s.runScan n cnt t).1.length }), (s.runScan n cnt t).2) := rfl

/-- A change of a descriptor's poison mark and operation. -/
def Stream.marksOnly (g : Stream → Stream) : Prop := ∀ x, g x = { x with op := (g x).op, poison := (g x).poison }

theorem State.postPeer_spec (s : State) (n : Nat) (t : Stream) (ps : List (Place × Place)) :
    (∃ g, s.streamStep (s.postPeer n t ps) n t.seq g ∧ Stream.marksOnly g) ∧ (s.postPeer n t ps).mem = s.mem := by
  have hfree := s.streamStep_takeFree n t.seq
  unfold State.postPeer
  dsimp only
  split
  · exact ⟨⟨_, hfree.trans (State.streamStep_updCmd _ _ _ _ _) fun _ => rfl, fun _ => rfl⟩, rfl⟩
  · split
    · refine ⟨⟨_, (hfree.trans (State.streamStep_post _ _ _ _ _ _ _) fun _ => rfl).trans
        (State.streamStep_updStream _ _ _ _) fun _ => rfl, fun _ => rfl⟩, ?_⟩
      exact State.post_mem _ _ _ _ _
    · refine ⟨⟨_, (hfree.trans (State.streamStep_post _ _ _ _ _ _ _) fun _ => rfl).trans
        (State.streamStep_updCmd _ _ _ _ _) fun _ => rfl, fun _ => rfl⟩, ?_⟩
      exact State.post_mem _ _ _ _ _

theorem State.runMoved_spec (s : State) (n : Nat) (t : Stream) (ps : List (Place × Place)) :
    ∃ g, s.streamStep (s.runMoved n t ps) n t.seq g ∧ Stream.marksOnly g := by
  unfold State.runMoved
  split
  · exact (s.postPeer_spec n t ps).1
  · exact ⟨_, ((State.streamStep_wrAll s n t.seq _).trans (State.streamStep_takeFree _ _ _) fun _ => rfl).trans
      (State.streamStep_updStream _ _ _ _) fun _ => rfl, fun _ => rfl⟩

/-- A run of a descriptor changes its position, its poison mark and its operation. -/
theorem State.runStream_step (s : State) (n cnt : Nat) (t : Stream) :
    ∃ g, s.streamStep (s.runStream n cnt t).1 n t.seq g ∧
      ∀ x, g x = { x with pos := x.pos + (s.runScan n cnt t).1.length, op := (g x).op, poison := (g x).poison } := by
  obtain ⟨g, hg, hm⟩ := s.runMoved_spec n t (s.runScan n cnt t).1
  have hseq (x : Stream) : (g x).seq = x.seq := by rw [hm x]
  rw [State.runStream_eq]
  refine ⟨_, (hg.trans (State.touchPlaces_spec _ n t.seq t.cmd _).1 hseq).trans (State.streamStep_updStream _ _ _ _) hseq,
    fun x => ?_⟩
  dsimp only
  rw [hm x]

theorem State.runStream_mem (s : State) (n cnt : Nat) (t : Stream) :
    (s.runStream n cnt t).1.mem = (s.runMoved n t (s.runScan n cnt t).1).mem :=
  (State.touchPlaces_spec (s.runMoved n t (s.runScan n cnt t).1) n t.seq t.cmd _).2

theorem State.runStream_mem_peer {s : State} {n cnt : Nat} {t : Stream} (h : t.d.mode = 5) :
    (s.runStream n cnt t).1.mem = s.mem := by
  rw [State.runStream_mem, State.runMoved, if_pos h, (s.postPeer_spec n t _).2]

/-- The bytes whose place a run does not name as a target keep their content. -/
theorem State.runStream_byte {s : State} {n cnt : Nat} {t : Stream} (h : t.d.mode ≠ 5) {a : Nat}
    (ha : ∀ b, .dev b ∈ (s.runScan n cnt t).1.map Prod.snd → s.memKey b ≠ s.memKey a) :
    tget emptyByte (s.runStream n cnt t).1.mem (s.memKey a) = s.byte a := by
  rw [State.runStream_mem, State.runMoved, if_neg h]
  unfold State.moveBytes
  generalize hws : ((s.runScan n cnt t).1.map fun p => (p.2, (s.rdPlace p.1).1, (s.rdPlace p.1).2)) = ws
  have hfst : ws.map Prod.fst = (s.runScan n cnt t).1.map Prod.snd := by
    rw [← hws, List.map_map]
    rfl
  have hb : (s.wrAll ws).byte a = s.byte a := State.byte_wrAll fun d hd => ha d (hfst ▸ hd)
  rw [State.byte, (s.writesOnly_wrAll ws).map.memKey] at hb
  exact hb

end Sys2Proof.Machine
end

section
/-! PROOFS. Stream descriptors: their turn, their start, their yield, their end and their stop (R128, R129, R133, R139, R151). -/

namespace Sys2Proof.Machine

/-! ### Whose turn it is -/

theorem leastStream_mem {l : List Stream} {t : Stream} (h : leastStream l = some t) : t ∈ l := by
  induction l generalizing t with
  | nil => cases h
  | cons x xs ih =>
    simp only [leastStream] at h
    split at h
    · cases h
      exact List.mem_cons_self
    next u hu =>
      split at h <;> cases h
      · exact List.mem_cons_of_mem _ (ih hu)
      · exact List.mem_cons_self

theorem leastStream_eq_none {l : List Stream} (h : leastStream l = none) : l = [] := by
  cases l with
  | nil => rfl
  | cons x xs =>
    simp only [leastStream] at h
    split at h
    · cases h
    · split at h <;> cases h

/-- No descriptor has a higher class than the one that is served: a lower number is a higher class. -/
theorem leastStream_cls_le {l : List Stream} {t u : Stream} (h : leastStream l = some t) (hu : u ∈ l) : t.cls ≤ u.cls := by
  induction l generalizing t with
  | nil => cases hu
  | cons x xs ih =>
    simp only [leastStream] at h
    rcases List.mem_cons.1 hu with rfl | hu
    · split at h
      · cases h
        exact le_rfl
      · split at h <;> cases h <;> omega
    · split at h
      next hn => rw [leastStream_eq_none hn] at hu; cases hu
      next v hv =>
        have := ih hv hu
        split at h <;> cases h <;> omega

section
variable {s : State} {n se : Nat} {fr : Bool} {t : Stream}

theorem State.mem_streams_of_headsOf (h : t ∈ s.headsOf n se fr) : t ∈ (s.eng n).streams := List.mem_of_mem_filter h

/-- A started descriptor that is served stands in its engine's list. -/
theorem State.mem_of_leastStream {p : Stream → Bool} (h : leastStream ((s.headsOf n se fr).filter p) = some t) :
    t ∈ (s.eng n).streams ∧ p t = true :=
  have hm := List.mem_filter.1 (leastStream_mem h)
  ⟨State.mem_streams_of_headsOf hm.1, hm.2⟩

end

/-! ### A run of a descriptor -/

section
variable {s : State} {n : Nat} {t : Stream}

/-- A run moves at most what is left: with all of the size to move, it finds what the descriptor's rest finds. -/
theorem State.runScan_size (s : State) (n : Nat) (t : Stream) : s.runScan n t.d.size t =
    s.moveScan n t.slot t.ctx (t.d.mode == 5) (t.d.ends.drop t.pos) := by
  rw [State.runScan, SDesc.take_drop_ends]

/-- The other descriptors stay as they are while one runs. -/
theorem State.runStream_mem_of_ne {cnt : Nat} {v : Stream} (hv : v ∈ (s.eng n).streams) (hne : v.seq ≠ t.seq) :
    v ∈ ((s.runStream n cnt t).1.eng n).streams :=
  have ⟨_, hg, _⟩ := s.runStream_step n cnt t
  hg.mem_of_ne hv hne

/-- The rest of the state where a descriptor has stopped. -/
theorem State.stopStream_spec (s : State) (n : Fin 64) (t : Stream) (f : Int × Nat) :
    (s.stopStream n t f).mem = s.mem ∧
      ((s.stopStream n t f).eng n).streams =
        (s.eng n).streams.map (fun x => if x.seq = t.seq then { x with started := false } else x) ∧
      ((s.stopStream n t f).ctx t.ctx).frozen.isSome = true ∧ (s.stopStream n t f).reg (rEsSfaultdt n) = s.dt := by
  obtain ⟨hmem, hengs, hfrozen, hdt⟩ := State.streamFault_spec
    (s.updStream n t.seq (fun x => { x with started := false })) n t.slot t.ctx t.cmd t.se false f.1 f.2
  refine ⟨hmem, ?_, hfrozen, hdt⟩
  rw [State.stopStream, State.eng, hengs]
  exact (s.streamStep_updStream n t.seq _).streams

theorem State.stopStream_mem_of_ne {n : Fin 64} {v : Stream} (f : Int × Nat) (hv : v ∈ (s.eng n).streams)
    (hne : v.seq ≠ t.seq) : v ∈ ((s.stopStream n t f).eng n).streams := by
  rw [(s.stopStream_spec n t f).2.1]
  exact List.mem_map.2 ⟨v, hv, if_neg hne⟩

/-- A descriptor that has stopped does not run. -/
theorem State.stopStream_started {n : Fin 64} (f : Int × Nat) :
    ∀ u ∈ ((s.stopStream n t f).eng n).streams, u.seq = t.seq → u.started = false := by
  rw [(s.stopStream_spec n t f).2.1]
  intro u hu he
  obtain ⟨x, _, rfl⟩ := List.mem_map.1 hu
  split at he
  next hx => rw [if_pos hx]
  next hx => exact absurd he hx

end

/-! ### The start -/

/-- The state in which descriptor t has been marked as running. -/
def State.started (s : State) (n : Nat) (t : Stream) : State :=
  (s.updStream n t.seq (fun x => { x with started := true })).beginCmd t.cmd

section
variable {s : State} {n : Nat} {t : Stream}

theorem State.streamStep_started (s : State) (n : Nat) (t : Stream) :
    s.streamStep (s.started n t) n t.seq (fun x => { x with started := true }) :=
  (s.streamStep_updStream n t.seq _).trans (State.streamStep_updCmd _ _ _ _ _) fun _ => rfl

/-- The marking moves no address. -/
theorem State.started_moveScan (k c : Nat) (peer : Bool) (bs : List ((Bool × Int) × (Bool × Int))) :
    (s.started n t).moveScan n k c peer bs = s.moveScan n k c peer bs := by
  refine State.moveScan_congr (fun isLoc a write => ?_) bs
  refine (State.place_updCmd _ _ (fun c => ?_) n k c isLoc a write).trans ((s.sameView_setEng n _).place n k c isLoc a write)
  split <;> rfl

theorem State.startStream_of_moves (h : (s.moveScan n t.slot t.ctx (t.d.mode == 5) (t.d.ends.drop t.pos)).2 = none) :
    s.startStream n t = if t.d.mode = 5 then ((s.started n t).runStream n t.d.size t).1 else s.started n t := by
  rw [← State.started_moveScan (s := s) (n := n) (t := t)] at h
  change (match ((s.started n t).moveScan n t.slot t.ctx (t.d.mode == 5) (t.d.ends.drop t.pos)).2 with
    | some _ => _ | none => _) = _
  rw [h]
  rfl

/-- The start of a descriptor leaves the others as they are. -/
theorem State.startStream_mem_of_ne {n : Fin 64} {v : Stream} (hv : v ∈ (s.eng n).streams) (hne : v.seq ≠ t.seq) :
    v ∈ ((s.startStream n t).eng n).streams := by
  have hs : v ∈ ((s.started n t).eng n).streams := (s.streamStep_started n t).mem_of_ne hv hne
  have hr : v ∈ (((s.started n t).runStream n t.d.size t).1.eng n).streams := State.runStream_mem_of_ne hs hne
  unfold State.startStream
  dsimp only
  split
  · split
    next f _ => exact State.stopStream_mem_of_ne f hr hne
    · exact hr
  · split
    · exact hr
    · exact hs

/-- A descriptor that meets no fault runs once it has started; memory stays as it is, and where it is no PEER_WRITE it has
moved nothing. -/
theorem State.startStream_spec (hm : t ∈ (s.eng n).streams)
    (h : (s.moveScan n t.slot t.ctx (t.d.mode == 5) (t.d.ends.drop t.pos)).2 = none) :
    (s.startStream n t).mem = s.mem ∧
      (∃ u ∈ ((s.startStream n t).eng n).streams, u.seq = t.seq ∧ u.started = true) ∧
      (t.d.mode ≠ 5 → ((s.startStream n t).eng n).streams =
        (s.eng n).streams.map (fun u => if u.seq = t.seq then { u with started := true } else u)) := by
  have hs := (s.streamStep_started n t).mem_of_eq hm rfl
  rw [State.startStream_of_moves h]
  split
  next h5 =>
    obtain ⟨g, hg, hgx⟩ := (s.started n t).runStream_step n t.d.size t
    refine ⟨State.runStream_mem_peer h5, ⟨_, hg.mem_of_eq hs rfl, ?_⟩, fun hn => absurd h5 hn⟩
    rw [hgx]
    exact ⟨rfl, rfl⟩
  · exact ⟨rfl, ⟨_, hs, rfl, rfl⟩, fun _ => (s.streamStep_started n t).streams⟩

end

/-! ### The yield -/

/-- What moving bytes finds does not hang on the count of free values. -/
theorem State.moveScan_takeFree (s : State) (n k c : Nat) (peer : Bool) (bs : List ((Bool × Int) × (Bool × Int))) :
    State.moveScan { s with free := s.free + 1 } n k c peer bs = s.moveScan n k c peer bs :=
  have hview : s.sameView { s with free := s.free + 1 } := ⟨fun _ _ => rfl, s.aftermath_takeFree.map, rfl, rfl, rfl, rfl, rfl⟩
  State.moveScan_congr (hview.place n k c) bs

theorem Stream.boundary_lt {u : Stream} {k : Nat} (h : k < u.pieces) : 4096 * k < u.d.size - u.pos := by
  unfold Stream.pieces at h
  omega

section
variable {s : State} {n : Nat} {u : Stream}

/-- A descriptor that meets no fault stands, after k whole pieces of its rest, 4096 k bytes on. -/
theorem State.toBoundary_spec {k : Nat} {on : Bool} (hu : u ∈ (s.eng n).streams) (hk : k < u.pieces)
    (h : (s.moveScan n u.slot u.ctx (u.d.mode == 5) (u.d.ends.drop u.pos)).2 = none) :
    (s.toBoundary n k on u).2 = true ∧
      ∃ v ∈ ((s.toBoundary n k on u).1.eng n).streams, v.seq = u.seq ∧ v.started = on ∧ v.pos = u.pos + 4096 * k := by
  obtain ⟨hnone, hlen⟩ := State.moveScan_take h (4096 * k)
  have hb := Stream.boundary_lt hk
  rw [List.length_drop, SDesc.length_ends, min_eq_left hb.le] at hlen
  obtain ⟨g, hg, hgx⟩ := s.runStream_step n (4096 * k) u
  have hrun : (s.runStream n (4096 * k) u).2 = none := hnone
  have hlen' : (s.runScan n (4096 * k) u).1.length = 4096 * k := hlen
  unfold State.toBoundary
  simp only [hrun]
  refine ⟨trivial, _, (State.streamStep_updStream _ n u.seq _).mem_of_eq (hg.mem_of_eq hu rfl) ?_, ?_⟩ <;> rw [hgx]
  exact ⟨rfl, rfl, by rw [hlen']⟩

end

/-! ### The end -/

section
variable {s : State} {n : Nat} {t : Stream}

/-- The gate signal that a descriptor sends at its end. -/
def Stream.gateSig (t : Stream) (n : Nat) : Sig :=
  { gate := t.d.sigGate, ctx := t.ctx, gen := t.gen, src := streamSrc n t.slot t.se }

/-- The state in which a descriptor that has ended is off its engine's list. -/
def State.dropStream (s : State) (n : Nat) (t : Stream) : State :=
  s.updEng n (fun e => { e with streams := e.streams.filter (fun u => u.seq != t.seq) })

/-- The state in which its command has its poison mark. -/
def State.poisonMark (s : State) (t : Stream) : State :=
  if t.poison then s.updCmd t.cmd (fun c => { c with poison := true }) else s

/-- The state in which its signal has left. -/
def State.sigSent (s : State) (n : Nat) (t : Stream) : State :=
  if t.d.sig && (t.d.mode != 5 || t.op.isSome) then s.sendSig t.d.sigEng (t.gateSig n) else s

theorem State.endStream_eq (s : State) (n : Nat) (t : Stream) : s.endStream n t =
    ((((s.dropStream n t).poisonMark t).sigSent n t).wake n).finishRom t.cmd := rfl

theorem State.hostOf_marked (m c : Nat) : ((s.dropStream n t).poisonMark t).hostOf m c = s.hostOf m c := by
  have hd : (s.dropStream n t).hostOf m c = s.hostOf m c := by
    unfold State.hostOf State.dropStream
    rw [State.updEng_eq, State.eng_setEng]
    split
    next hm => rw [hm]
    · rfl
  unfold State.poisonMark
  split <;> exact hd

theorem State.aftermath_poisonMark (s : State) (t : Stream) : s.aftermath (s.poisonMark t) := by
  unfold State.poisonMark
  split
  · exact s.aftermath_updCmd _ _
  · exact .refl s

theorem State.streams_sendSig (s : State) (m : Nat) (g : Sig) (j : Nat) : ((s.sendSig m g).eng j).streams = (s.eng j).streams := by
  rw [State.sendSig, State.updEng_eq, State.eng_setEng]
  split
  next hj => rw [hj]
  · rfl

theorem State.sigSent_streams (s : State) (n : Nat) (t : Stream) (j : Nat) :
    ((s.sigSent n t).eng j).streams = (s.eng j).streams := by
  unfold State.sigSent
  split
  · exact s.streams_sendSig _ _ _
  · rfl

theorem State.sigSent_map (s : State) (n : Nat) (t : Stream) : (s.sigSent n t).mem = s.mem ∧ s.sameMap (s.sigSent n t) := by
  unfold State.sigSent
  split
  · exact ⟨rfl, (s.sameView_setEng _ _).map⟩
  · exact ⟨rfl, .refl s⟩

theorem State.aftermath.streams {s t : State} (h : s.aftermath t) (j : Nat) : (t.eng j).streams = (s.eng j).streams := by rw [h.eng j]

/-- A descriptor that has ended is off the list, its signal is on its way, and memory stays as it is. -/
theorem State.endStream_spec (s : State) (n : Nat) (t : Stream) :
    (s.endStream n t).mem = s.mem ∧ s.sameMap (s.endStream n t) ∧ (∀ u ∈ ((s.endStream n t).eng n).streams, u.seq ≠ t.seq) ∧
      (t.d.sig = true → (t.d.mode ≠ 5 ∨ t.op.isSome = true) →
        t.gateSig n ∈ ((s.endStream n t).eng (s.hostOf t.d.sigEng t.ctx)).sigs) := by
  have hp := (s.dropStream n t).aftermath_poisonMark t
  have hs := ((s.dropStream n t).poisonMark t).sigSent_map n t
  have ha := (State.aftermath_wake (((s.dropStream n t).poisonMark t).sigSent n t) n).trans (State.aftermath_finishRom _ t.cmd)
  rw [State.endStream_eq]
  refine ⟨(ha.mem.trans hs.1).trans hp.mem, (((s.sameView_setEng n _).map.trans hp.map).trans hs.2).trans ha.map, ?_, ?_⟩
  · rw [ha.streams, State.sigSent_streams, hp.streams, State.dropStream, State.updEng_eq, State.eng_setEng_self]
    intro u hu
    simpa using (List.mem_filter.1 hu).2
  · intro hsig hm
    rw [ha.sigs, State.sigSent, if_pos, State.sigs_sendSig]
    · refine List.mem_append_right _ ?_
      rw [show (t.gateSig n).ctx = t.ctx from rfl, if_pos (State.hostOf_marked _ _).symm]
      exact List.mem_singleton.2 rfl
    · simpa [hsig] using hm

/-- What a running descriptor that is no PEER_WRITE does at its end. -/
theorem State.completeStream_spec {n : Fin 64} (hmv : s.streamMoving t = false) (h5 : t.d.mode ≠ 5)
    (hm : t ∈ (s.eng n).streams) (huniq : ∀ u ∈ (s.eng n).streams, u.seq = t.seq → u = t) :
    (∀ f, (s.runScan n t.d.size t).2 = some f →
        s.completeStream n t = (s.runStream n t.d.size t).1.stopStream n t f) ∧
      ((s.runScan n t.d.size t).2 = none → ∃ po : Stream, s.completeStream n t = (s.runStream n t.d.size t).1.endStream n po ∧
        po.seq = t.seq ∧ po.d = t.d ∧ po.gateSig n = t.gateSig n ∧ po.ctx = t.ctx) := by
  obtain ⟨g, hg, hgx⟩ := s.runStream_step n t.d.size t
  have hrun : s.completeStream n t = match (s.runScan n t.d.size t).2 with
      | some f => (s.runStream n t.d.size t).1.stopStream n t f
      | none => match ((s.runStream n t.d.size t).1.eng n).streams.find? (fun u => u.seq == t.seq) with
        | none => (s.runStream n t.d.size t).1
        | some u => (s.runStream n t.d.size t).1.endStream n u := by
    unfold State.completeStream
    rw [if_neg (by simp [hmv]), if_neg h5]
    rfl
  refine ⟨fun f hf => by rw [hrun, hf], fun hnone => ?_⟩
  rw [hrun, hnone]
  have hfound : ∃ u, ((s.runStream n t.d.size t).1.eng n).streams.find? (fun u => u.seq == t.seq) = some u := by
    refine Option.isSome_iff_exists.1 (List.find?_isSome.2 ⟨_, hg.mem_of_eq hm rfl, ?_⟩)
    rw [hgx]
    exact beq_self_eq_true _
  obtain ⟨u, hu⟩ := hfound
  have hseq : u.seq = t.seq := by simpa using List.find?_some hu
  obtain ⟨x, hx, hxs, rfl⟩ := hg.eq_of_mem (List.mem_of_find?_eq_some hu) hseq
  obtain rfl := huniq x hx hxs
  refine ⟨g x, by rw [hu], hseq, ?_⟩
  rw [hgx]
  exact ⟨rfl, rfl, rfl⟩

/-- A PEER_WRITE completes once its operation has. -/
theorem State.completeStream_peer (hmv : s.streamMoving t = false) (h5 : t.d.mode = 5) :
    s.completeStream n t = if ∃ o ∈ s.net.ops, t.op = some o.id then s else s.endStream n t := by
  unfold State.completeStream
  rw [if_neg (by simp [hmv]), if_pos h5]
  split
  next id hid =>
    refine if_congr ?_ rfl rfl
    rw [List.any_eq_true]
    exact exists_congr fun o => and_congr_right fun _ => by rw [hid, beq_iff_eq, Option.some_inj, eq_comm]
  next hid => rw [if_neg fun ⟨o, _, ho⟩ => by rw [hid] at ho; cases ho]

end

/-! ### The rows -/

section
variable {s : State} {e : Fin 64} {se : Fin 4} {t : Stream}

/-- The conditions under which the waiting descriptor t of a stream engine may start. -/
structure State.mayStart (s : State) (e : Fin 64) (se : Fin 4) (t : Stream) : Prop where
  still : s.streamMoving t = false
  first : leastStream ((s.streamHeads e se).filter (fun u => !u.started)) = some t
  live : (s.eng e).retired = false
  up : (s.eng e).hung = false
  runs : s.runs = true

theorem exec_streamDescriptorStart_idle (h : s.mayStart e se t) (hidle : ∀ u ∈ s.streamHeads e se, u.started = false) :
    exec (.streamDescriptorStart e se) s = .next (s.startStream e t) := by
  obtain ⟨hstill, hfirst, hlive, hup, hruns⟩ := h
  have hnone : (s.streamHeads e se).filter Stream.started = [] :=
    List.filter_eq_nil_iff.2 fun u hu => by simp [hidle u hu]
  have hany : (s.streamHeads e se).any (fun u => u.started && decide (u.cls ≤ t.cls)) = false :=
    List.any_eq_false.2 fun u hu => by simp [hidle u hu]
  change execStreamDescriptorStart e se s = _
  unfold execStreamDescriptorStart
  simp only [hfirst, hany, hlive, hup, hruns, hstill, hnone, leastStream]
  rfl

/-- Where one of a lower class runs, it yields first. -/
theorem exec_streamDescriptorStart_busy {u : Stream} (h : s.mayStart e se t)
    (hu : leastStream ((s.streamHeads e se).filter Stream.started) = some u) (hcls : t.cls < u.cls) :
    exec (.streamDescriptorStart e se) s = match s.yieldStream e u with
      | none => .next s
      | some (s, ok) => .next (if ok then s.startStream e t else s) := by
  obtain ⟨hstill, hfirst, hlive, hup, hruns⟩ := h
  have hany : (s.streamHeads e se).any (fun v => v.started && decide (v.cls ≤ t.cls)) = false := by
    refine List.any_eq_false.2 fun v hv => ?_
    cases hvs : v.started with
    | false => simp
    | true =>
      have := leastStream_cls_le hu (List.mem_filter.2 ⟨hv, hvs⟩)
      simp only [Bool.true_and, decide_eq_true_eq]
      omega
  change execStreamDescriptorStart e se s = _
  unfold execStreamDescriptorStart
  simp only [hfirst, hany, hlive, hup, hruns, hstill, hu]
  rfl

/-- The running descriptor yields at a whole number of 4 KiB pieces and keeps running from there, beside the one that
starts; one in its last piece goes on alone. -/
theorem exec_streamDescriptorStart_yields {u : Stream} (h : s.mayStart e se t)
    (hu : leastStream ((s.streamHeads e se).filter Stream.started) = some u) (hcls : t.cls < u.cls) (h5 : u.d.mode ≠ 5)
    (hmv : s.streamMoving u = false) (huniq : ∀ v ∈ (s.eng e).streams, v.seq = t.seq → v = t)
    (hscan : (s.moveScan e u.slot u.ctx false (u.d.ends.drop u.pos)).2 = none) :
    (u.pieces ≤ 1 → exec (.streamDescriptorStart e se) s = .next s) ∧
      (1 < u.pieces → ∃ r k v, exec (.streamDescriptorStart e se) s = .next r ∧ 0 < k ∧ k < u.pieces ∧
        v ∈ (r.eng e).streams ∧ v.seq = u.seq ∧ v.started = true ∧ v.pos = u.pos + 4096 * k) := by
  have hrun := exec_streamDescriptorStart_busy h hu hcls
  have hmem := (State.mem_of_leastStream hu).1
  have hne : u.seq ≠ t.seq := fun he => absurd hcls (huniq u hmem he ▸ lt_irrefl _)
  have hpeer : (u.d.mode == 5) = false := beq_eq_false_iff_ne.2 h5
  unfold State.yieldStream at hrun
  rw [if_neg (by simp [hmv, h5])] at hrun
  refine ⟨fun hp => by rw [hrun, if_pos hp], fun hp => ?_⟩
  rw [if_neg (by omega)] at hrun
  have hk : Config.freeNat s.free % (u.pieces - 1) + 1 < u.pieces := by
    have := Nat.mod_lt (Config.freeNat s.free) (show 0 < u.pieces - 1 by omega)
    omega
  obtain ⟨hok, v, hv, hseq, hst, hpos⟩ := State.toBoundary_spec (s := { s with free := s.free + 1 }) (on := true) hmem hk
    (by rw [hpeer, State.moveScan_takeFree]; exact hscan)
  refine ⟨_, _, v, ?_, Nat.succ_pos _, hk, State.startStream_mem_of_ne hv (hseq ▸ hne), hseq, hst, hpos⟩
  rw [hrun]
  simp only [hok, if_true]

theorem exec_streamDescriptorComplete (h : leastStream ((s.streamHeads e se).filter Stream.started) = some t) :
    exec (.streamDescriptorComplete e se) s = .next (s.completeStream e t) := by
  change execStreamDescriptorComplete e se s = _
  unfold execStreamDescriptorComplete
  simp only [h]

theorem exec_streamDescriptorComplete_frozen (h0 : (s.streamHeads e se).filter Stream.started = [])
    (h : leastStream ((s.headsOf e se true).filter Stream.started) = some t) :
    exec (.streamDescriptorComplete e se) s = .next (s.haltStream e t) := by
  change execStreamDescriptorComplete e se s = _
  unfold execStreamDescriptorComplete
  simp only [h0, h, leastStream]

/-- At the end of a descriptor that is no PEER_WRITE the bytes whose place it does not name keep their content. -/
theorem State.completeStream_byte (hmv : s.streamMoving t = false) (h5 : t.d.mode ≠ 5) (hm : t ∈ (s.eng e).streams)
    (huniq : ∀ u ∈ (s.eng e).streams, u.seq = t.seq → u = t) {a : Nat}
    (ha : ∀ b, .dev b ∈ (s.runScan e t.d.size t).1.map Prod.snd → s.memKey b ≠ s.memKey a) :
    tget emptyByte (s.completeStream e t).mem (s.memKey a) = s.byte a ∧
      ((s.runScan e t.d.size t).2 = none → (s.completeStream e t).byte a = s.byte a) := by
  obtain ⟨hbad, hgood⟩ := State.completeStream_spec hmv h5 hm huniq
  have hb := State.runStream_byte h5 ha
  cases hf : (s.runScan e t.d.size t).2 with
  | some f =>
    rw [hbad f hf, (State.stopStream_spec _ e t f).1]
    exact ⟨hb, fun h => by cases h⟩
  | none =>
    obtain ⟨g, hg, _⟩ := s.runStream_step e t.d.size t
    obtain ⟨u, hu, _⟩ := hgood hf
    obtain ⟨hmem, hmap, _⟩ := State.endStream_spec (s.runStream e t.d.size t).1 e u
    have hkey : (s.completeStream e t).memKey a = s.memKey a := by
      rw [hu, hmap.memKey, hg.map.memKey]
    have hbyte : tget emptyByte (s.completeStream e t).mem (s.memKey a) = s.byte a := by rw [hu, hmem, hb]
    exact ⟨hbyte, fun _ => by rw [State.byte, hkey, hbyte]⟩

/-- A descriptor without a fault is off the list and its signal is sent. -/
theorem State.completeStream_ended (hmv : s.streamMoving t = false) (h5 : t.d.mode ≠ 5) (hm : t ∈ (s.eng e).streams)
    (huniq : ∀ u ∈ (s.eng e).streams, u.seq = t.seq → u = t) (hscan : (s.runScan e t.d.size t).2 = none) :
    (∀ u ∈ ((s.completeStream e t).eng e).streams, u.seq ≠ t.seq) ∧
      (t.d.sig = true → t.gateSig e ∈ ((s.completeStream e t).eng (s.hostOf t.d.sigEng t.ctx)).sigs) := by
  obtain ⟨u, hu, hseq, hd, hsig, hctx⟩ := (State.completeStream_spec hmv h5 hm huniq).2 hscan
  obtain ⟨g, hg, _⟩ := s.runStream_step e t.d.size t
  obtain ⟨_, _, hoff, hsent⟩ := State.endStream_spec (s.runStream e t.d.size t).1 e u
  rw [hu]
  refine ⟨hseq ▸ hoff, fun h => ?_⟩
  have := hsent (hd.symm ▸ h) (.inl (hd.symm ▸ h5))
  rwa [hsig, hd, hctx, hg.hostOf] at this

/-- A descriptor with a fault stops; its context is frozen. -/
theorem State.completeStream_stopped (hmv : s.streamMoving t = false) (h5 : t.d.mode ≠ 5) (hm : t ∈ (s.eng e).streams)
    (huniq : ∀ u ∈ (s.eng e).streams, u.seq = t.seq → u = t) {f : Int × Nat} (hscan : (s.runScan e t.d.size t).2 = some f) :
    ((s.completeStream e t).ctx t.ctx).frozen.isSome = true ∧ (s.completeStream e t).reg (rEsSfaultdt e) = s.dt ∧
      ∀ u ∈ ((s.completeStream e t).eng e).streams, u.seq = t.seq → u.started = false := by
  obtain ⟨g, hg, _⟩ := s.runStream_step e t.d.size t
  rw [(State.completeStream_spec hmv h5 hm huniq).1 f hscan]
  obtain ⟨_, _, hfrozen, hdt⟩ := State.stopStream_spec (s.runStream e t.d.size t).1 e t f
  exact ⟨hfrozen, hdt.trans hg.dt, State.stopStream_started f⟩

/-- Once a descriptor has completed, it does not run. -/
theorem State.completeStream_started (hmv : s.streamMoving t = false) (h5 : t.d.mode ≠ 5) (hm : t ∈ (s.eng e).streams)
    (huniq : ∀ u ∈ (s.eng e).streams, u.seq = t.seq → u = t) :
    ∀ u ∈ ((s.completeStream e t).eng e).streams, u.seq = t.seq → u.started = false := by
  cases hf : (s.runScan e t.d.size t).2 with
  | none => exact fun u hu he => absurd he ((State.completeStream_ended hmv h5 hm huniq hf).1 u hu)
  | some f => exact (State.completeStream_stopped hmv h5 hm huniq hf).2.2

/-- A descriptor that has come to a boundary without its stream engine does not run. -/
theorem State.toBoundary_off {k : Nat} :
    ∀ u ∈ ((s.toBoundary e k false t).1.eng e).streams, u.seq = t.seq → u.started = false := by
  unfold State.toBoundary
  dsimp only
  split
  next f _ => exact State.stopStream_started f
  · intro u hu he
    obtain ⟨x, _, _, rfl⟩ := (State.streamStep_updStream _ e t.seq _).eq_of_mem hu he
    rfl

/-- The descriptor of a frozen context that is halted does not run. -/
theorem State.haltStream_started (hmv : s.streamMoving t = false) (h5 : t.d.mode ≠ 5) (hm : t ∈ (s.eng e).streams)
    (huniq : ∀ u ∈ (s.eng e).streams, u.seq = t.seq → u = t) :
    ∀ u ∈ ((s.haltStream e t).eng e).streams, u.seq = t.seq → u.started = false := by
  unfold State.haltStream
  dsimp only
  rw [if_neg h5, if_neg (by simp [hmv])]
  split
  · exact State.completeStream_started (s := { s with free := s.free + 1 }) hmv h5 hm huniq
  · exact State.toBoundary_off

end

/-- Settles O31. -/
theorem streamDescriptorsRun : Obligations.StreamDescriptorsRun := by
  intro s e se t hmv huniq
  dsimp only
  rw [← State.runScan_size]
  refine ⟨fun hfirst hlive hup hruns hscan => ?_, fun hfirst => ?_, fun h0 hfirst h5 => ?_⟩
  · have hmay : s.mayStart e se t := ⟨hmv, hfirst, hlive, hup, hruns⟩
    rw [State.runScan_size] at hscan
    exact ⟨fun hidle => ⟨_, exec_streamDescriptorStart_idle hmay hidle,
        State.startStream_spec (State.mem_of_leastStream hfirst).1 hscan⟩,
      fun u hu hcls h5 humv _ huscan => exec_streamDescriptorStart_yields hmay hu hcls h5 humv huniq huscan⟩
  · have hm := (State.mem_of_leastStream hfirst).1
    have hrun := exec_streamDescriptorComplete hfirst
    refine ⟨fun h5 => ⟨_, hrun, fun a ha => State.completeStream_byte hmv h5 hm huniq ha,
        State.completeStream_ended hmv h5 hm huniq, fun f hf => ?_⟩, fun h5 hops => ?_, fun h5 hops => ?_⟩
    · obtain ⟨hfrozen, hdt, _⟩ := State.completeStream_stopped hmv h5 hm huniq hf
      exact ⟨hfrozen, hdt⟩
    · rw [State.completeStream_peer hmv h5, if_neg fun ⟨o, ho, he⟩ => hops o ho he] at hrun
      obtain ⟨hmem, _, hoff, hsent⟩ := s.endStream_spec e t
      exact ⟨_, hrun, hmem, hoff, fun hsig hop => hsent hsig (.inr hop)⟩
    · rwa [State.completeStream_peer hmv h5, if_pos hops] at hrun
  · exact ⟨_, exec_streamDescriptorComplete_frozen h0 hfirst,
      State.haltStream_started hmv h5 (State.mem_of_leastStream hfirst).1 huniq⟩

end Sys2Proof.Machine
end

section
/-! PROOFS. The work of the commands over gates, reductions, masters and memory (R142, R177, R189, R195, R200, R201, R259). -/

namespace Sys2Proof.Machine

section
variable {s t : State} (h : s.booksOnly t)
include h

theorem State.booksOnly.hostOf (n c : Nat) : t.hostOf n c = s.hostOf n c := by unfold State.hostOf; rw [h.eng]
theorem State.booksOnly.reds : t.reds = s.reds := by rw [h]
theorem State.booksOnly.rekeys : t.rekeys = s.rekeys := by rw [h]
theorem State.booksOnly.pcRets : t.pcRets = s.pcRets := by rw [h]

end

/-! ### GATE_SIGNAL -/

/-- Taking an entry of a queue changes no gate. -/
theorem State.running_gate (s : State) (r : CmdRow) (q : Nat) {n g : Nat} (hn : n < 64) (hg : g < 256) :
    (s.running r q).reg (rEsGate n g) = s.reg (rEsGate n g) :=
  s.running_reg r q (by unfold rEsGate rQpQ; omega)

theorem State.running_ownsGate (s : State) (r : CmdRow) (q : Nat) {n g : Nat} (hn : n < 64) (hg : g < 256) (c : Nat) :
    (s.running r q).ownsGate n g c = s.ownsGate n g c := by
  unfold State.ownsGate
  rw [s.running_gate r q hn hg, (s.booksOnly_running r q).ctx]

theorem State.powerOnly.cmds {s t : State} (h : s.powerOnly t) : t.cmds = s.cmds ∧ t.dt = s.dt := by rw [h.1]; exact ⟨rfl, rfl⟩

/-- A signal's value reaches a gate without any command's help. -/
theorem State.addGate_cmds {s : State} {n g v : Nat} (c : Nat) (h : s.gateCount n g + v < 2 ^ 32) :
    (s.addGate n g c v).cmds = s.cmds ∧ (s.addGate n g c v).dt = s.dt := by
  have hle : ¬ 0xFFFFFFFF < s.gateCount n g + v := by omega
  have hr (u : State) : (u.raiseArmed n c g).cmds = u.cmds ∧ (u.raiseArmed n c g).dt = u.dt := by
    unfold State.raiseArmed
    split <;> exact ⟨rfl, rfl⟩
  obtain ⟨hc, hd⟩ := (State.powerOnly_wakeEngine ((s.setGateCount n g (s.gateCount n g + v)).raiseArmed n c g) n).cmds
  unfold State.addGate
  simp only [hle, if_false]
  exact ⟨hc.trans (hr _).1, hd.trans (hr _).2⟩

theorem gateSignal_effect (s : State) (q : Nat) :
    let c := s.taken gateSignalRow q
    let t := gateSignalStart (s.running gateSignalRow q) (s.runningCmd gateSignalRow q)
    let n := s.hostOf (c.opf 0 0 6) c.ctx
    let g := c.opf 0 8 8
    (s.ownsGate n g c.ctx = true → n < 64 → s.gateCount n g + c.opf 1 0 32 < 2 ^ 32 →
        s.finishes t q 0 ∧ t.gateCount n g = s.gateCount n g + c.opf 1 0 32) ∧
      (s.ownsGate n g c.ctx = false → n < 64 → (t.ctx c.ctx).frozen.isSome = true) := by
  intro c t n g
  have hg : g < 256 := opf_lt _ _ _ _
  have hhost : (s.running gateSignalRow q).hostOf (c.opf 0 0 6) c.ctx = n := (s.booksOnly_running gateSignalRow q).hostOf _ _
  have ht : t = if ¬ (s.running gateSignalRow q).ownsGate n g c.ctx then
      ((s.running gateSignalRow q).faultCtx c.ctx s.nextCmd stGateNotOwned).finishCmd s.nextCmd
    else if 0xFFFFFFFF < (s.running gateSignalRow q).gateCount n g + c.opf 1 0 32 then
      (((((s.running gateSignalRow q).setGateCount n g 0xFFFFFFFF).setFld (rEsGate n g) 62 1 1).raiseArmed n c.ctx g).faultCtx
        c.ctx s.nextCmd stGateOverflow).finishCmd s.nextCmd
    else ((s.running gateSignalRow q).addGate n g c.ctx (c.opf 1 0 32)).finishCmd s.nextCmd := by
    rw [← hhost]
    rfl
  refine ⟨fun ho hn hv => ?_, fun ho hn => ?_⟩
  · have hcount : (s.running gateSignalRow q).gateCount n g = s.gateCount n g := by
      rw [State.gateCount, State.fld, s.running_gate gateSignalRow q hn hg, State.gateCount, State.fld]
    have hv' : (s.running gateSignalRow q).gateCount n g + c.opf 1 0 32 < 2 ^ 32 := hcount.symm ▸ hv
    rw [s.running_ownsGate gateSignalRow q hn hg, if_neg (not_not.2 ho), if_neg (by omega)] at ht
    obtain ⟨hcmds, hdt⟩ := State.addGate_cmds c.ctx hv'
    rw [ht]
    refine ⟨State.finishes_of_cmds hdt hcmds, ?_⟩
    rw [State.gateCount, State.fld, State.reg_finishCmd]
    exact ((State.addGate_spec _ ⟨n, hn⟩ hg c.ctx hv').1).trans (congrArg (· + c.opf 1 0 32) hcount)
  · rw [s.running_ownsGate gateSignalRow q hn hg, if_pos (by simp [ho])] at ht
    rw [ht, (State.booksOnly_finishCmd _ _).ctx]
    exact (State.faultCtx_freezes _ _ _ _).frozen

/-! ### STOT_DISCARD -/

theorem stotDiscard_effect (s : State) (q : Nat) :
    let c := s.taken stotDiscardRow q
    let t := stotDiscardRow.start (s.running stotDiscardRow q) (s.runningCmd stotDiscardRow q)
    s.finishes t q 0 ∧ t.reds = s.reds.filter (fun r => !c.discards r) := by
  intro c t
  refine ⟨State.finishes_of_cmds (r := stotDiscardRow) (t := { s.running stotDiscardRow q with
    reds := (s.running stotDiscardRow q).reds.filter (fun r => !c.discards r) }) rfl rfl, ?_⟩
  rw [← (s.booksOnly_running stotDiscardRow q).reds]
  exact (State.booksOnly_finishCmd _ _).reds

/-! ### FREEZE and UNFREEZE -/

/-- From s to t only engines, commands, queues and the transport's operations change. -/
def State.opsOnly (s t : State) : Prop :=
  t = { s with engs := t.engs, cmds := t.cmds, queues := t.queues, net := { s.net with ops := t.net.ops } }

theorem State.opsOnly.trans {s t u : State} (h : s.opsOnly t) (h' : t.opsOnly u) : s.opsOnly u := by
  unfold State.opsOnly at *
  rw [h', h]

section
variable {s t : State} (h : s.opsOnly t)
include h

theorem State.opsOnly.mem : t.mem = s.mem := by rw [h]
theorem State.opsOnly.dt : t.dt = s.dt := by rw [h]
theorem State.opsOnly.part (p : Nat) : t.part p = s.part p := by rw [h]; rfl
theorem State.opsOnly.ent (i : Nat) : t.ent i = s.ent i := by rw [h]; rfl
theorem State.opsOnly.entState (i : Nat) : t.entState i = s.entState i := by rw [h]; rfl

end

theorem State.opsOnly_opDone (s : State) (id st : Nat) : s.opsOnly (s.opDone id st) := by
  unfold State.opDone
  split <;> rfl

/-- The operations of an entry fail: no entry changes, and no memory. -/
theorem State.opsOnly_opsFail (s : State) (i st : Nat) : s.opsOnly (s.opsFail i st) := by
  unfold State.opsFail
  generalize s.net.ops.filter _ = os
  induction os generalizing s with
  | nil => rfl
  | cons o os ih => exact (s.opsOnly_opDone o.id st).trans (ih _)

theorem State.entState_setEntState (s : State) (i v : Nat) : (s.setEntState i v).entState i = v % 8 := by
  rw [State.setEntState, State.setFld_eq, State.entState, State.fld, State.reg_setReg_self, bf_bset_self _ _ (by decide)]
  rfl

theorem State.entState_iceEnt (s : State) (i : Nat) : (s.iceEnt i).entState i = 2 := by
  unfold State.iceEnt
  split
  · assumption
  · exact State.entState_setEntState _ i 2

theorem State.iceEnt_mem (s : State) (i : Nat) : (s.iceEnt i).mem = s.mem := by
  unfold State.iceEnt
  split <;> rfl

/-- A frozen master is frozen. -/
theorem State.masterFrozen_freezeMaster (s : State) (k n : Nat) :
    (s.freezeMaster k n).masterFrozen k n = true ∧ (s.freezeMaster k n).mem = s.mem := by
  unfold State.freezeMaster State.masterFrozen
  match k with
  | 0 =>
    refine ⟨?_, rfl⟩
    simp only [State.setFld_eq, State.fld, State.reg_setReg_self]
    rw [bf_bset_self _ _ (by decide)]
    rfl
  | 1 =>
    obtain ⟨hrest, -⟩ := State.stopOnly_stopLoads (s.updCtx n fun x => { x with frozen := some 0 }) n
    rw [hrest]
    refine ⟨?_, rfl⟩
    exact congrArg (fun x : Ctx => x.frozen.isSome) (State.ctx_setCtx_self s n _)
  | 2 =>
    refine ⟨?_, rfl⟩
    simp only [State.updEng_eq, State.eng_setEng_self]
    rfl
  | 3 =>
    refine ⟨?_, rfl⟩
    simp only [State.setFld_eq, State.fld, State.reg_setReg_self]
    rw [bf_bset_disjoint _ _ (by decide) (by decide), bf_bset_self _ _ (by decide)]
    rfl
  | 4 =>
    have hops := (s.iceEnt n).opsOnly_opsFail n stPeerFrozen
    exact ⟨beq_iff_eq.2 ((hops.entState n).trans (s.entState_iceEnt n)), hops.mem.trans (s.iceEnt_mem n)⟩
  | k + 5 => exact ⟨beq_iff_eq.2 (s.entState_iceEnt (hostEnt n)), s.iceEnt_mem _⟩

/-- Whether a master is frozen does not hang on the books. -/
theorem State.masterFrozen_finishCmd (s : State) (i k n : Nat) : (s.finishCmd i).masterFrozen k n = s.masterFrozen k n := by
  unfold State.masterFrozen State.entState State.fld
  simp only [State.reg_finishCmd, (s.booksOnly_finishCmd i).ctx, (s.booksOnly_finishCmd i).eng]

theorem freeze_effect (s : State) (q : Nat) :
    let c := s.taken freezeRow q
    let t := freezeRow.start (s.running freezeRow q) (s.runningCmd freezeRow q)
    t.masterFrozen (c.opf 0 0 3) (c.opf 0 16 14) = true ∧ t.mem = s.mem := by
  intro c t
  obtain ⟨z, hz, ht⟩ : ∃ z : State, z.mem = s.mem ∧ t = (if z.masterFrozen (c.opf 0 0 3) (c.opf 0 16 14) then z
      else z.freezeMaster (c.opf 0 0 3) (c.opf 0 16 14)).finishCmd s.nextCmd := by
    refine ⟨_, ?_, rfl⟩
    refine Eq.trans ?_ (s.booksOnly_running freezeRow q).mem
    split <;> rfl
  rw [ht, State.masterFrozen_finishCmd, (State.booksOnly_finishCmd _ _).mem]
  split
  · exact ⟨‹_›, hz⟩
  · obtain ⟨hf, hm⟩ := z.masterFrozen_freezeMaster (c.opf 0 0 3) (c.opf 0 16 14)
    exact ⟨hf, hm.trans hz⟩

/-- From s to t slots alone change. -/
structure State.slotsOnly (s t : State) : Prop where
  rest : t = { s with engs := t.engs }
  eng : ∀ n, t.eng n = { s.eng n with slots := (t.eng n).slots }

theorem State.slotsOnly.refl (s : State) : s.slotsOnly s := ⟨rfl, fun _ => rfl⟩

theorem State.slotsOnly.trans {s t u : State} (h : s.slotsOnly t) (h' : t.slotsOnly u) : s.slotsOnly u where
  rest := by rw [h'.rest, h.rest]
  eng n := by rw [h'.eng n, h.eng n]

theorem State.slotsOnly_foldl {α : Type} {f : State → α → State} (hf : ∀ (s : State) a, s.slotsOnly (f s a)) (l : List α)
    (s : State) : s.slotsOnly (l.foldl f s) := by
  induction l generalizing s with
  | nil => exact .refl s
  | cons a l ih => exact (hf s a).trans (ih _)

theorem State.slotsOnly_setSlot (s : State) (n k : Nat) (x : Slot) : s.slotsOnly (s.setSlot n k x) :=
  ⟨rfl, (s.aftermath_setSlot n k x).eng⟩

theorem State.slotsOnly_wake (s : State) (n : Nat) : s.slotsOnly (s.wake n) := by
  refine State.slotsOnly_foldl (fun s k => ?_) _ s
  dsimp only
  split_ifs
  · exact s.slotsOnly_setSlot n k _
  · exact s.slotsOnly_setSlot n k _
  · exact .refl s
  · exact .refl s

/-- Where no command of the ROM's programs is there, a thaw wakes slots and does no more. -/
theorem State.slotsOnly_resume {s : State} (h : ∀ d ∈ s.cmds, d.isRom = false) : s.slotsOnly s.resume := by
  have hw := State.slotsOnly_foldl (fun (s : State) n => s.slotsOnly_wake n) (s.engs.map Prod.fst) s
  have hcmds : ((s.engs.map Prod.fst).foldl (fun s n => s.wake n) s).cmds = s.cmds :=
    (congrArg State.cmds hw.rest :)
  have hnil : ((s.engs.map Prod.fst).foldl (fun s n => s.wake n) s).cmds.filter (fun c => c.st == .running && c.isRom) = [] := by
    rw [hcmds]
    exact List.filter_eq_nil_iff.2 fun d hd => by simp [h d hd]
  unfold State.resume
  simp only [hnil, List.map_nil, List.foldl_nil]
  exact hw

/-- What slots are about decides on no master. -/
theorem State.slotsOnly.masterFrozen {s t : State} (h : s.slotsOnly t) (k n : Nat) : t.masterFrozen k n = s.masterFrozen k n := by
  have hr (o lo w : Nat) : t.fld o lo w = s.fld o lo w := by rw [h.rest]; rfl
  have hc : t.ctx n = s.ctx n := by rw [h.rest]; rfl
  unfold State.masterFrozen State.entState
  rw [h.eng n, hc]
  simp only [hr]

theorem State.returnCredits_rest (s : State) (src : Nat) : s.returnCredits src = { s with noc := (s.returnCredits src).noc } := by
  have hf (l : List (Nat × Nat)) (s : State) : l.foldl (fun s k => s.creditBack k.1) s =
      { s with noc := (l.foldl (fun s k => s.creditBack k.1) s).noc } := by
    induction l generalizing s with
    | nil => rfl
    | cons k l ih => exact (ih _).trans rfl
  unfold State.returnCredits State.updNoc
  dsimp only
  rw [hf]

theorem Entry.thawState_ne (e : Entry) : e.thawState % 8 ≠ 2 := by
  unfold Entry.thawState
  split
  next h => omega
  · decide

/-- In t a master of s is not frozen; no command and no memory has changed. -/
structure State.thaws (s t : State) (k n : Nat) : Prop where
  free : t.masterFrozen k n = false
  mem : t.mem = s.mem
  cmds : t.cmds = s.cmds
  dt : t.dt = s.dt

/-- Slots that wake thereupon change nothing of it. -/
theorem State.thaws.resume {s t : State} {k n : Nat} (h : s.thaws t k n) (hrom : ∀ d ∈ s.cmds, d.isRom = false) :
    s.thaws t.resume k n :=
  have hs : t.slotsOnly t.resume := State.slotsOnly_resume (h.cmds ▸ hrom)
  ⟨(hs.masterFrozen k n).trans h.free, (congrArg State.mem hs.rest :).trans h.mem, (congrArg State.cmds hs.rest :).trans h.cmds,
    (congrArg State.dt hs.rest :).trans h.dt⟩

/-- Nor do credits that go back. -/
theorem State.thaws.returnCredits {s t : State} {k n : Nat} (h : s.thaws t k n) (src : Nat) :
    s.thaws (t.returnCredits src) k n := by
  rw [State.returnCredits_rest]
  exact ⟨h.free, h.mem, h.cmds, h.dt⟩

theorem State.thaws_setEntState {s : State} {k n i : Nat}
    (h : (s.setEntState i (s.ent i).thawState).masterFrozen k n = ((s.setEntState i (s.ent i).thawState).entState i == 2)) :
    s.thaws (s.setEntState i (s.ent i).thawState) k n := by
  refine ⟨h.trans ?_, rfl, rfl, rfl⟩
  rw [State.entState_setEntState]
  exact beq_eq_false_iff_ne.2 (s.ent i).thawState_ne

theorem State.thaws_setFld {s : State} {k n o lo : Nat} (hlo : lo + 1 ≤ 64)
    (h : (s.setFld o lo 1 0).masterFrozen k n = ((s.setFld o lo 1 0).fld o lo 1 == 1)) : s.thaws (s.setFld o lo 1 0) k n := by
  refine ⟨h.trans ?_, rfl, rfl, rfl⟩
  rw [State.setFld_eq, State.fld, State.reg_setReg_self, bf_bset_self _ _ hlo]
  rfl

/-- A master that is unfrozen is not frozen. -/
theorem State.thaws_thawMaster {s : State} (hrom : ∀ d ∈ s.cmds, d.isRom = false) (k n : Nat) :
    s.thaws (s.thawMaster k n) k n := by
  match k with
  | 0 => exact State.thaws_setFld (by decide) rfl
  | 1 =>
    refine State.thaws.resume (t := s.updCtx n fun x => { x with frozen := none }) ⟨?_, rfl, rfl, rfl⟩ hrom
    exact congrArg (fun x : Ctx => x.frozen.isSome) (State.ctx_setCtx_self s n _)
  | 2 =>
    have hfree : s.thaws (s.updEng n fun e => { e with frozen := none, hung := false }) 2 n := by
      refine ⟨?_, rfl, rfl, rfl⟩
      exact congrArg (fun x : Engine => x.frozen.isSome || x.hung) (s.eng_setEng_self n { s.eng n with frozen := none, hung := false })
    exact (hfree.returnCredits n).resume hrom
  | 3 => exact State.thaws.returnCredits (t := s.setFld (rFabPort n) 32 1 0) (State.thaws_setFld (by decide) rfl) (0x40 + n)
  | 4 => exact State.thaws_setEntState rfl
  | k + 5 => exact State.thaws_setEntState rfl

theorem Cmd.isRom_of_opcode {c : Cmd} {op : Nat} (h : c.opcode = op) (h9 : op ≠ 0x29) (hA : op ≠ 0x2A) (hB : op ≠ 0x2B) :
    c.isRom = false := by
  simp [Cmd.isRom, h, h9, hA, hB]

/-- Where no command of the ROM's programs was there, none is after an UNFREEZE has begun. -/
theorem unfreeze_noRom {s : State} {q : Nat} (hop : (s.readEntry q).opcode = unfreezeRow.op) (h : ∀ d ∈ s.cmds, d.isRom = false) :
    ∀ d ∈ (s.running unfreezeRow q).cmds, d.isRom = false := by
  have hnew : (s.runningCmd unfreezeRow q).isRom = false :=
    Cmd.isRom_of_opcode (c := s.runningCmd unfreezeRow q) hop (by decide) (by decide) (by decide)
  have htaken : (s.taken unfreezeRow q).isRom = false :=
    Cmd.isRom_of_opcode (c := s.taken unfreezeRow q) hop (by decide) (by decide) (by decide)
  intro d hd
  rw [State.running_cmds] at hd
  obtain ⟨c, hc, rfl⟩ := List.mem_map.1 hd
  split
  · exact hnew
  · rcases List.mem_append.1 hc with hc | hc
    · exact h c hc
    · rw [List.mem_singleton.1 hc, htaken]

theorem unfreeze_effect {s : State} {q : Nat} (hop : (s.readEntry q).opcode = unfreezeRow.op) :
    let c := s.taken unfreezeRow q
    let t := unfreezeRow.start (s.running unfreezeRow q) (s.runningCmd unfreezeRow q)
    (∀ d ∈ s.cmds, d.isRom = false) → s.tornPort (c.opf 0 0 3) (c.opf 0 16 14) = false →
      s.finishes t q 0 ∧ t.masterFrozen (c.opf 0 0 3) (c.opf 0 16 14) = false ∧ t.mem = s.mem := by
  intro c t hrom htorn
  have hreg : (s.running unfreezeRow q).reg (rFabPort (c.opf 0 16 14)) = s.reg (rFabPort (c.opf 0 16 14)) := by
    have hn := opf_lt c 0 16 14
    exact s.running_reg unfreezeRow q (by unfold rFabPort rQpQ; omega)
  have htorn' : ¬ (s.running unfreezeRow q).tornPort (c.opf 0 0 3) (c.opf 0 16 14) = true := by
    unfold State.tornPort State.fld at htorn ⊢
    rw [hreg, htorn]
    exact Bool.false_ne_true
  have ht : t = (if (s.running unfreezeRow q).masterFrozen (c.opf 0 0 3) (c.opf 0 16 14) then
      (s.running unfreezeRow q).thawMaster (c.opf 0 0 3) (c.opf 0 16 14) else s.running unfreezeRow q).finishCmd s.nextCmd :=
    if_neg htorn'
  have hmem := (s.booksOnly_running unfreezeRow q).mem
  rw [ht, State.masterFrozen_finishCmd, (State.booksOnly_finishCmd _ _).mem]
  split
  · obtain ⟨hf, hm, hcmds, hdt⟩ := State.thaws_thawMaster (unfreeze_noRom hop hrom) (c.opf 0 0 3) (c.opf 0 16 14)
    exact ⟨State.finishes_of_cmds hdt hcmds, hf, hm.trans hmem⟩
  · exact ⟨State.finishes_of_cmds rfl rfl, Bool.eq_false_iff.2 ‹_›, hmem⟩

/-! ### HBM_REGION and REKEY -/

/-- The fields of the word that HBM_REGION writes. -/
theorem bf_regionWord (c : Cmd) :
    bf (BitVec.ofNat 64 (regionWord c)) 14 1 = c.opf 0 9 1 ∧ bf (BitVec.ofNat 64 (regionWord c)) 0 2 = c.opf 0 10 2 ∧
      bf (BitVec.ofNat 64 (regionWord c)) 2 2 = c.opf 0 12 2 ∧ bf (BitVec.ofNat 64 (regionWord c)) 4 9 = c.opf 0 14 9 := by
  have h1 := opf_lt c 0 9 1
  have h2 := opf_lt c 0 10 2
  have h3 := opf_lt c 0 12 2
  have h4 := opf_lt c 0 14 9
  simp only [bf_ofNat, regionWord, fv_eq]
  omega

theorem hbmRegion_effect (s : State) (q : Nat) :
    let c := s.taken hbmRegionRow q
    let t := hbmRegionRow.start (s.running hbmRegionRow q) (s.runningCmd hbmRegionRow q)
    s.finishes t q 0 ∧ t.fld (rHbmRgn (c.opf 0 0 9)) 14 1 = c.opf 0 9 1 ∧
      t.fld (rHbmRgn (c.opf 0 0 9)) 0 2 = c.opf 0 10 2 ∧ t.fld (rHbmRgn (c.opf 0 0 9)) 2 2 = c.opf 0 12 2 ∧
      t.fld (rHbmRgn (c.opf 0 0 9)) 4 9 = c.opf 0 14 9 := by
  intro c t
  have hreg : t.reg (rHbmRgn (c.opf 0 0 9)) = BitVec.ofNat 64 (regionWord c) :=
    (State.reg_finishCmd _ _ _).trans (State.reg_setReg_self _ _ _)
  unfold State.fld
  rw [hreg]
  exact ⟨State.finishes_of_cmds (r := hbmRegionRow) (t := (s.running hbmRegionRow q).setReg _ _) rfl rfl, bf_regionWord c⟩

theorem rekey_effect (s : State) (q : Nat) :
    let c := s.taken rekeyRow q
    let t := rekeyStart (s.running rekeyRow q) (s.runningCmd rekeyRow q)
    s.keepsRunning t q ∧ t.fld (rHbmRgn (c.opf 0 0 9)) 13 1 = 1 ∧ t.mem = s.mem ∧
      t.rekeys = s.rekeys ++ [{ r := c.opf 0 0 9, t := c.opf 0 9 9, key := c.opf 0 18 2, cmd := s.nextCmd }] := by
  intro c t
  have hz := s.booksOnly_running rekeyRow q
  have hreg : t.reg (rHbmRgn (c.opf 0 0 9)) = bset ((s.running rekeyRow q).reg (rHbmRgn (c.opf 0 0 9))) 13 1 1 :=
    State.reg_setReg_self _ _ _
  have hcmds : t.cmds = (s.running rekeyRow q).cmds := rfl
  have hmem : t.mem = (s.running rekeyRow q).mem := rfl
  refine ⟨s.keepsRunning_of_cmds rekeyRow q hcmds, ?_, hmem.trans hz.mem, ?_⟩
  · rw [State.fld, hreg, bf_bset_self _ _ (by decide)]
    rfl
  · rw [← hz.rekeys]
    rfl

/-! ### RETIRE -/

/-- From s to t no command has ended but, at the end, perhaps command id. -/
def State.mayFinish (s t : State) (id : Nat) : Prop :=
  ∃ u : State, u.cmds = s.cmds ∧ u.dt = s.dt ∧ (t = u ∨ t = u.finishCmd id)

theorem State.mayFinish.of_same {s t : State} {id : Nat} (hc : t.cmds = s.cmds) (hd : t.dt = s.dt) : s.mayFinish t id :=
  ⟨t, hc, hd, .inl rfl⟩

theorem State.mayFinish.of_finish {s u : State} {id : Nat} (hc : u.cmds = s.cmds) (hd : u.dt = s.dt) :
    s.mayFinish (u.finishCmd id) id :=
  ⟨u, hc, hd, .inr rfl⟩

theorem State.mayFinish.finish_ite {s u v : State} {id : Nat} {c : Prop} [Decidable c] (hu : u.cmds = s.cmds ∧ u.dt = s.dt)
    (hv : v.cmds = s.cmds ∧ v.dt = s.dt) : s.mayFinish ((if c then u else v).finishCmd id) id := by
  split
  · exact .of_finish hu.1 hu.2
  · exact .of_finish hv.1 hv.2

theorem State.updChanBanks_dt (s : State) (c : Nat) (f : DdrBank → DdrBank) : (s.updChanBanks c f).dt = s.dt :=
  foldl_proj (π := State.dt) (f := fun s i => s.updBank (c * 256 + i) f) (fun _ _ => rfl) _ s

theorem State.srx_dt (s : State) (c : Nat) : (s.srx c).dt = s.dt := by
  have hu (s : State) (f : Ddr → Ddr) : (s.updDdr f).dt = s.dt := rfl
  unfold State.srx State.issue
  rw [hu, State.updChanBanks_dt]

theorem State.wakeChannel_cmds (s : State) (c : Nat) : (s.wakeChannel c).cmds = s.cmds ∧ (s.wakeChannel c).dt = s.dt := by
  unfold State.wakeChannel
  split
  · exact ⟨State.srx_cmds _ _, State.srx_dt _ _⟩
  · exact ⟨rfl, rfl⟩

/-- A channel that comes back into service ends no command. -/
theorem State.served_cmds (s : State) (c : Nat) :
    (if s.chServes c then s.chBack c else s).cmds = s.cmds ∧ (if s.chServes c then s.chBack c else s).dt = s.dt := by
  split <;> exact ⟨rfl, rfl⟩

/-- The state in which it is told that no destination is left for a rank. -/
def State.rankTold (s : State) (w : RankWait) : State :=
  ((s.setReg (rDdrRret w.ch) (rretWord 0 2 w.phys 1 0)).setFld rDdrStatus (8 + w.ch) 1 1).event 0 stDdrExhausted none 0 0

theorem State.rankExhausted_eq (s : State) (w : RankWait) : s.rankExhausted w =
    (if w.parity then ((s.rankTold w).setFld rDdrStatus (16 + w.ch) 1 1).updDdr
      (fun d => { d with offline := d.offline ++ [(w.ch, w.phys)] }) else s.rankTold w).finishCmd w.cmd := rfl

theorem State.mayFinish_rankExhausted (s : State) (w : RankWait) : s.mayFinish (s.rankExhausted w) w.cmd := by
  have htold : (s.rankTold w).cmds = s.cmds ∧ (s.rankTold w).dt = s.dt := ⟨rfl, rfl⟩
  have hoff (u : State) (o v : Nat) (f : Ddr → Ddr) : ((u.setFld rDdrStatus o v 1).updDdr f).cmds = u.cmds ∧
      ((u.setFld rDdrStatus o v 1).updDdr f).dt = u.dt := ⟨rfl, rfl⟩
  obtain ⟨hc, hd⟩ := hoff (s.rankTold w) (16 + w.ch) 1 (fun d => { d with offline := d.offline ++ [(w.ch, w.phys)] })
  rw [State.rankExhausted_eq]
  exact .finish_ite ⟨hc.trans htold.1, hd.trans htold.2⟩ htold

/-- The state in which a rank's retirement is entered. -/
def State.rankEntered (s : State) (w : RankWait) (q dest : Nat) : State :=
  (((s.wakeChannel w.ch).setReg (rDdrRret w.ch) (rretWord 0 dest w.phys 1 1)).setFld rDdrStatus
    (if dest = 0 then w.ch else 24) 1 1).updDdr (fun d =>
      { d with rets := d.rets ++ [{ ch := w.ch, q := q, phys := w.phys, dest := dest, spare := s.ddrPr - 1, cmd := w.cmd,
                                    parity := w.parity, cls := w.cls }] })

theorem State.rankCopy_eq (s : State) (w : RankWait) (q dest : Nat) : s.rankCopy w q dest =
    ((if (s.rankEntered w q dest).chServes w.ch then (s.rankEntered w q dest).chBack w.ch else s.rankEntered w q dest).event
      0 stRankRetire none 0 0).addWork (.rankRet w.ch) w.cls := rfl

theorem State.mayFinish_rankCopy (s : State) (w : RankWait) (q dest : Nat) : s.mayFinish (s.rankCopy w q dest) w.cmd := by
  have hin : (s.rankEntered w q dest).cmds = (s.wakeChannel w.ch).cmds ∧
      (s.rankEntered w q dest).dt = (s.wakeChannel w.ch).dt := ⟨rfl, rfl⟩
  have hout (u : State) (k : WorkKind) : ((u.event 0 stRankRetire none 0 0).addWork k w.cls).cmds = u.cmds ∧
      ((u.event 0 stRankRetire none 0 0).addWork k w.cls).dt = u.dt := ⟨rfl, rfl⟩
  obtain ⟨hc, hd⟩ := s.wakeChannel_cmds w.ch
  obtain ⟨hc', hd'⟩ := (s.rankEntered w q dest).served_cmds w.ch
  rw [State.rankCopy_eq]
  exact .of_same ((hout _ _).1.trans (hc'.trans (hin.1.trans hc))) ((hout _ _).2.trans (hd'.trans (hin.2.trans hd)))

theorem State.mayFinish_retireRank (s : State) (w : RankWait) : s.mayFinish (s.retireRank w) w.cmd := by
  unfold State.retireRank
  split
  · exact .of_same rfl rfl
  · split
    · exact .of_finish rfl rfl
    · split
      · exact .of_finish rfl rfl
      · split
        · exact s.mayFinish_rankExhausted w
        · exact s.mayFinish_rankCopy w _ _

theorem State.mayFinish_retirePc (s : State) (pc cmd : Nat) : s.mayFinish (s.retirePc pc cmd) cmd := by
  unfold State.retirePc
  dsimp only
  split
  · exact .of_finish rfl rfl
  · exact .of_same rfl rfl

/-- A retirement's command runs on or finishes. -/
theorem State.mayFinish.outcome {s t : State} {r : CmdRow} {q : Nat} (h : (s.running r q).mayFinish t s.nextCmd) :
    s.keepsRunning t q ∨ s.finishes t q 0 := by
  obtain ⟨u, hc, hd, rfl | rfl⟩ := h
  · exact .inl (s.keepsRunning_of_cmds r q hc)
  · exact .inr (State.finishes_of_cmds hd hc)

theorem State.pcRets_retirePc {s : State} {pc : Nat} (cmd : Nat) (h : ∀ r ∈ s.pcRets, r.pc / 64 ≠ pc / 64) :
    (s.retirePc pc cmd).pcRets = s.pcRets ++ [{ pc := pc, cmd := cmd }] := by
  have hno : ¬ (s.pcRets.any fun r => r.pc / 64 == pc / 64) = true := by simpa using h
  unfold State.retirePc
  dsimp only
  rw [if_neg hno]
  rfl

theorem retire_effect (s : State) (q : Nat) :
    let c := s.taken retireRow q
    let t := retireStart (s.running retireRow q) (s.runningCmd retireRow q)
    (s.keepsRunning t q ∨ s.finishes t q 0) ∧
      (c.opf 0 0 2 = 0 → (t.eng (c.opf 0 8 10)).retiring = some 3) ∧
      (c.opf 0 0 2 = 1 → (∀ r ∈ s.pcRets, r.pc / 64 ≠ c.opf 0 8 10 / 64) →
        t.pcRets = s.pcRets ++ [{ pc := c.opf 0 8 10, cmd := s.nextCmd }]) := by
  intro c t
  have ht : t = match c.opf 0 0 2 with
      | 0 => (s.running retireRow q).updEng (c.opf 0 8 10) (fun e => { e with retiring := some 3 })
      | 1 => (s.running retireRow q).retirePc (c.opf 0 8 10) s.nextCmd
      | _ => (s.running retireRow q).retireRank { ch := c.opf 0 8 10 / 4, phys := c.opf 0 8 10 % 4, cmd := s.nextCmd,
                                                   cls := (s.running retireRow q).queueClass q } := rfl
  match hk : c.opf 0 0 2 with
  | 0 =>
    rw [hk] at ht
    refine ⟨.inl (s.keepsRunning_of_cmds retireRow q (by rw [ht]; rfl)), fun _ => ?_, fun h => absurd h (by decide)⟩
    rw [ht]
    simp only [State.updEng_eq, State.eng_setEng_self]
  | 1 =>
    rw [hk] at ht
    refine ⟨(ht ▸ State.mayFinish_retirePc _ _ _ : (s.running retireRow q).mayFinish t s.nextCmd).outcome, fun h => absurd h (by decide),
      fun _ hr => ?_⟩
    have hp := (s.booksOnly_running retireRow q).pcRets
    rw [ht, ← hp]
    exact State.pcRets_retirePc _ (hp.symm ▸ hr)
  | k + 2 =>
    rw [hk] at ht
    exact ⟨(ht ▸ State.mayFinish_retireRank _ _ : (s.running retireRow q).mayFinish t s.nextCmd).outcome,
      fun h => by omega, fun h => by omega⟩

/-! ### PAGE_MOVE -/

theorem pageMove_effect (s : State) (q : Nat) {l : List (Nat × Nat × Nat)}
    (h : (s.running pageMoveRow q).pageList (s.runningCmd pageMoveRow q) = .ok l) :
    let t := pageMoveStart (s.running pageMoveRow q) (s.runningCmd pageMoveRow q)
    t.mem = s.mem ∧ (∃ d ∈ t.cmds, d.id = s.nextCmd ∧ d.todo = l.map (fun x => [x.1, x.2.1, x.2.2])) ∧
      ∃ w ∈ t.works, w.kind = .pages s.nextCmd := by
  intro t
  have ht : t = ((s.running pageMoveRow q).updCmd s.nextCmd
      (fun d => { d with todo := l.map (fun x => [x.1, x.2.1, x.2.2]), aux := [0, 0] })).addWork
        (.pages s.nextCmd) ((s.running pageMoveRow q).queueClass q) := by
    have hs : t = match (s.running pageMoveRow q).pageList (s.runningCmd pageMoveRow q) with
      | .error st => (s.running pageMoveRow q).endCmd s.nextCmd st
      | .ok l => _ := rfl
    rw [hs, h]
    rfl
  rw [ht]
  exact ⟨(s.booksOnly_running pageMoveRow q).mem,
    ⟨_, List.mem_map.2 ⟨_, s.mem_running_cmds pageMoveRow q, if_pos rfl⟩, rfl, rfl⟩,
    ⟨_, List.mem_append_right _ (List.mem_singleton.2 rfl), rfl⟩⟩

/-- Settles O35: a command that starts at once runs its row's work (`acceptCmd_of_starts`), whose effect the lemmas above
state row by row. -/
theorem commandsOnMastersAndMemory : Obligations.CommandsOnMastersAndMemory := by
  intro s q
  exact ⟨fun h => ⟨_, acceptCmd_of_starts h, gateSignal_effect s q⟩,
    fun h => ⟨_, acceptCmd_of_starts h, stotDiscard_effect s q⟩,
    fun h => ⟨_, acceptCmd_of_starts h, freeze_effect s q⟩,
    fun h => ⟨_, acceptCmd_of_starts h, unfreeze_effect h.2.1⟩,
    fun h => ⟨_, acceptCmd_of_starts h, hbmRegion_effect s q⟩,
    fun h => ⟨_, acceptCmd_of_starts h, rekey_effect s q⟩,
    fun h => ⟨_, acceptCmd_of_starts h, retire_effect s q⟩,
    fun h => ⟨_, acceptCmd_of_starts h, fun _ hl => pageMove_effect s q hl⟩⟩

end Sys2Proof.Machine
end

section
/-! PROOFS. The delivery of a packet and what each kind does (R142, R176, R177, R237, R272, R277, R281). -/

namespace Sys2Proof.Machine

/-! ### A packet leaves the reorder buffer -/

/-- From s to t the transport alone changes, and of entry i neither what it has to send nor the context it stands for. -/
structure State.received (s t : State) (i : Nat) : Prop where
  rest : t = { s with net := t.net }
  tx : (t.ent i).tx = (s.ent i).tx
  tctx : (t.ent i).tctx = (s.ent i).tctx
  tgen : (t.ent i).tgen = (s.ent i).tgen

theorem State.received.trans {s t u : State} {i : Nat} (h : s.received t i) (h' : t.received u i) : s.received u i where
  rest := by rw [h'.rest, h.rest]
  tx := h'.tx.trans h.tx
  tctx := h'.tctx.trans h.tctx
  tgen := h'.tgen.trans h.tgen

theorem Entry.taken_keeps (e : Entry) : e.taken.tx = e.tx ∧ e.taken.tctx = e.tctx ∧ e.taken.tgen = e.tgen := by
  unfold Entry.taken
  split <;> exact ⟨rfl, rfl, rfl⟩

/-- The state in which the next packet of an entry takes effect. -/
def State.taking (s : State) (i : Nat) (p : Pkt) : State := (s.takeRx i p).noteOp i p true

theorem State.received_takeRx (s : State) (i : Nat) (p : Pkt) : s.received (s.takeRx i p) i := by
  obtain ⟨htx, htctx, htgen⟩ := (s.ent i).taken_keeps
  have he : (s.takeRx i p).ent i = (s.ent i).taken := State.ent_setEnt_self _ _ _
  exact ⟨rfl, he ▸ htx, he ▸ htctx, he ▸ htgen⟩

theorem State.received_noteOp (s : State) (i : Nat) (p : Pkt) (d : Bool) : s.received (s.noteOp i p d) i := by
  unfold State.noteOp
  split
  · exact ⟨rfl, rfl, rfl, rfl⟩
  · dsimp only
    rw [State.updEnt_eq]
    refine ⟨rfl, ?_, ?_, ?_⟩ <;> rw [State.ent_setEnt_self]

theorem State.received_taking (s : State) (i : Nat) (p : Pkt) : s.received (s.taking i p) i :=
  (s.received_takeRx i p).trans (State.received_noteOp _ i p true)

section
variable {s t : State} {i : Nat} (h : s.received t i)
include h

theorem State.received.mem : t.mem = s.mem := by rw [h.rest]
theorem State.received.reds : t.reds = s.reds := by rw [h.rest]
theorem State.received.regs : t.regs = s.regs := by rw [h.rest]
theorem State.received.queues : t.queues = s.queues := by rw [h.rest]
theorem State.received.eng (n : Nat) : t.eng n = s.eng n := by rw [h.rest]; rfl
theorem State.received.hostOf (n c : Nat) : t.hostOf n c = s.hostOf n c := by rw [h.rest]; rfl
theorem State.received.fld (o lo n : Nat) : t.fld o lo n = s.fld o lo n := by rw [h.rest]; rfl
theorem State.received.entState (j : Nat) : t.entState j = s.entState j := by rw [h.rest]; rfl
theorem State.received.entPart (j : Nat) : t.entPart j = s.entPart j := by rw [h.rest]; rfl
theorem State.received.partOfQueue (q : Nat) : t.partOfQueue q = s.partOfQueue q := by rw [h.rest]; rfl
theorem State.received.partOfCtx (c : Nat) : t.partOfCtx c = s.partOfCtx c := by rw [h.rest]; rfl
theorem State.received.ownsGate (n g c : Nat) : t.ownsGate n g c = s.ownsGate n g c := by rw [h.rest]; rfl
theorem State.received.getAt (ds : List Nat) : t.getAt ds = s.getAt ds := by rw [h.rest]; rfl

theorem State.received.redCount (p : Nat) : t.redCount p = s.redCount p := by
  unfold State.redCount
  simp only [h.reds, h.partOfCtx]

theorem State.received.sameView : s.sameView t := by
  rw [h.rest]
  exact ⟨fun _ _ => rfl, ⟨fun _ _ _ => rfl, fun _ => rfl, rfl, rfl, rfl, rfl⟩, rfl, rfl, rfl, rfl, rfl⟩

end

/-- Where a packet leads hangs on what decides where its context's addresses lead. -/
theorem State.sameView.pktAddrs {s t : State} (h : s.sameView t) (i : Nat) (p : Pkt) (a n : Nat) (write : Bool) :
    t.pktAddrs i p a n write = s.pktAddrs i p a n write := by
  unfold State.pktAddrs State.devCheck
  simp only [h.translate, h.map.region, h.granted]

/-- The row that delivers a packet runs its effect, where the packet is neither refused nor held. -/
theorem State.deliverOne_of {s : State} {i : Nat} {p : Pkt} {want : Pkt → Bool} {eff : State → Pkt → State}
    (h : s.delivers i p) (hw : want p = true) (hf : s.entState i ≠ 2) (hs : s.stalePkt i p = false) :
    s.deliverOne i want eff = eff (s.taking i p) p := by
  obtain ⟨hdue, hruns, h0, hmov, -⟩ := h
  obtain ⟨hdrop, hctx⟩ := Bool.or_eq_false_iff.1 hs
  have hstate : (s.takeRx i p).entState i ≠ 2 := by rwa [(s.received_takeRx i p).entState]
  have hcur : ¬ (p.toCtx ∧ ¬ (s.takeRx i p).ctxCurrent i p) := by
    have he : (s.takeRx i p).ctxCurrent i p = s.ctxCurrent i p := rfl
    rw [he]
    simpa using hctx
  unfold State.deliverOne
  simp only [hdue]
  rw [if_neg (by simp [hruns, hw, h0]), if_neg (by simp [hmov]), if_neg hstate, if_neg (by simpa using hdrop), if_neg hcur]
  rfl

/-! ### A refusal that freezes -/

theorem State.ent_refusePkt (s : State) (i : Nat) (p : Pkt) (st : Nat) : (s.refusePkt i p st).refusedWith i p st := by
  have he : (s.refusePkt i p st).ent i = { s.ent i with refused := (s.ent i).refused ++ [(p.seq, st)], unacked := max 1 (s.ent i).unacked } :=
    State.ent_setEnt_self _ _ _
  unfold State.refusedWith
  rw [he]
  exact ⟨by simp, by simp⟩

theorem State.told_event (s : State) (p code : Nat) (c : Option Nat) (x y : Nat) : (s.event p code c x y).told p code := by
  unfold State.told State.event
  rw [State.updPart_eq, State.part_setPart_self]
  exact ⟨_, List.mem_append_right _ (List.mem_singleton.2 rfl), rfl, rfl⟩

theorem State.freezeEnt_spec (s : State) (i cause : Nat) : (s.freezeEnt i cause).mem = s.mem ∧
    (s.freezeEnt i cause).entState i = 2 ∧ (s.freezeEnt i cause).told (s.entPart i) stFrozen := by
  have hmem := s.iceEnt_mem i
  have hice := s.entState_iceEnt i
  unfold State.freezeEnt State.frozenEvent
  dsimp only
  generalize (fv 0 3 _ + fv 16 14 _ + fv 32 16 cause) = arg
  have htold := (s.iceEnt i).told_event (s.entPart i) stFrozen none arg 0
  split
  · have hops := ((s.iceEnt i).event (s.entPart i) stFrozen none arg 0).opsOnly_opsFail i stPeerFrozen
    refine ⟨hops.mem.trans hmem, (hops.entState i).trans hice, ?_⟩
    unfold State.told at htold ⊢
    rwa [hops.part, hops.dt]
  · exact ⟨hmem, hice, htold⟩

/-- A failed check freezes the entry and refuses the packet; memory stays as it is. -/
theorem State.violate_spec (s : State) (i : Nat) (p : Pkt) (st : Nat) :
    (s.violate i p st).mem = s.mem ∧ s.violated (s.violate i p st) i p st := by
  unfold State.violate State.violated
  split
  · exact ⟨rfl, s.ent_refusePkt i p st, rfl⟩
  · obtain ⟨hmem, hstate, htold⟩ := s.freezeEnt_spec i st
    exact ⟨hmem, State.ent_refusePkt _ i p _, hstate, htold⟩

/-- The same of the packet that an entry delivers. -/
theorem State.received.violate {s t : State} {i : Nat} (h : s.received t i) (p : Pkt) (st : Nat) :
    (t.violate i p st).mem = s.mem ∧ s.violated (t.violate i p st) i p st := by
  obtain ⟨hmem, hv⟩ := t.violate_spec i p st
  refine ⟨hmem.trans h.mem, ?_⟩
  unfold State.violated at hv ⊢
  rwa [h.entState, h.entPart] at hv

/-! ### READ -/

/-- What is posted on an entry that takes it joins what the entry has to send. -/
theorem State.post_tx {s : State} {i : Nat} (h : s.entRefuses i = none) (cmd ctx : Nat) (ps : List Pkt) :
    ((s.post i cmd ctx ps).1.ent i).tx = (s.ent i).tx ++ ps.map (fun p => { p := p, op := s.net.nextOp }) := by
  unfold State.post
  simp only [h]
  exact congrArg Entry.tx (s.ent_setEnt_self i _)

theorem State.entRefuses_of_up {s : State} {i : Nat} (h : s.entState i = 1) : s.entRefuses i = none := by
  unfold State.entRefuses
  simp only [h]

theorem State.dlvRead_spec {s t : State} {i : Nat} {p : Pkt} {ds : List Nat} (h : s.received t i) (hup : s.entState i = 1)
    (ha : s.pktAddrs i p p.arg (leNat ((p.body.drop 8).take 4)) false = .inl ds) :
    (t.dlvRead i p).mem = s.mem ∧ (((t.dlvRead i p).ent i).tx.drop (s.ent i).tx.length).map TxPkt.p =
      s.dataPkts i 3 { sctx := p.tctx, sgen := p.tgen, tctx := (s.ent i).tctx, tgen := (s.ent i).tgen,
                       poison := (s.getAt ds).2 } (leNat (p.body.take 8)) (s.getAt ds).1 := by
  have hpost : t.dlvRead i p = ({ t with free := t.free + 1 }.post i 0 p.tctx (s.dataPkts i 3
      { sctx := p.tctx, sgen := p.tgen, tctx := (s.ent i).tctx, tgen := (s.ent i).tgen, poison := (s.getAt ds).2 }
      (leNat (p.body.take 8)) (s.getAt ds).1)).1 := by
    have hpk (base : Pkt) (a : Nat) (bs : List Byte) :
        State.dataPkts { t with free := t.free + 1 } i 3 base a bs = s.dataPkts i 3 base a bs := by rw [h.rest]; rfl
    unfold State.dlvRead
    simp only [h.sameView.pktAddrs, ha, h.getAt, h.tctx, h.tgen, hpk]
    rfl
  have hnone : State.entRefuses { t with free := t.free + 1 } i = none := State.entRefuses_of_up ((h.entState i).trans hup)
  rw [hpost, State.post_mem, State.post_tx hnone]
  refine ⟨h.mem, ?_⟩
  have htx : (State.ent { t with free := t.free + 1 } i).tx = (s.ent i).tx := h.tx
  rw [htx, List.drop_left, List.map_map]
  exact List.map_id _

/-! ### Doorbells -/

theorem State.cqSync_spec (s : State) (q : Nat) : (s.cqSync q).fld (rQpQ q) 0 16 = s.fld (rQpQ q) 0 16 ∧
    (s.cqSync q).queue q = s.queue q ∧ (s.cqSync q).mem = s.mem := by
  refine ⟨?_, rfl, rfl⟩
  rw [State.cqSync, State.setFld_eq, State.fld, State.reg_setReg_self, bf_bset_disjoint _ _ (by decide) (by decide), State.fld]

/-- A doorbell of an enabled queue of the partition sets TAIL and CQHEAD. -/
theorem State.doorbell_taken {s : State} {p w : Nat} (h48 : bitsOf w 48 16 = 0) (h14 : bitsOf w 14 1 = 0)
    (h : s.fld (rQpQ (bitsOf w 0 14)) 61 1 = 1 ∧ s.partOfQueue (bitsOf w 0 14) = some p) :
    (s.doorbell p w).mem = s.mem ∧ (s.doorbell p w).fld (rQpQ (bitsOf w 0 14)) 0 16 = bitsOf w 16 16 ∧
      ((s.doorbell p w).queue (bitsOf w 0 14)).cqHead = bitsOf w 32 16 := by
  unfold State.doorbell
  dsimp only
  rw [if_neg (by simp [h48]), if_neg (by simp [h14]), if_pos h]
  generalize hu : (if bitsOf w 15 1 = 1 then s.setFld (rQpQ (bitsOf w 0 14)) 60 1 0 else s) = u
  have hmem : u.mem = s.mem := by
    rw [← hu]
    split <;> rfl
  generalize decide (State.qDepth _ _ ≤ bitsOf w 16 16) = wild
  obtain ⟨hfld, hqueue, hm⟩ := ((u.setFld (rQpQ (bitsOf w 0 14)) 0 16 (bitsOf w 16 16)).updQueue (bitsOf w 0 14)
    (fun x => { x with cqHead := bitsOf w 32 16, wild := wild })).cqSync_spec (bitsOf w 0 14)
  refine ⟨hm.trans hmem, hfld.trans ?_, ?_⟩
  · have hlt : bitsOf w 16 16 < 2 ^ 16 := Nat.mod_lt _ (by decide)
    have hreg := u.reg_setReg_self (rQpQ (bitsOf w 0 14)) (bset (u.reg (rQpQ (bitsOf w 0 14))) 0 16 (bitsOf w 16 16))
    refine (congrArg (bf · 0 16) hreg).trans ?_
    rw [bf_bset_self _ _ (by decide), Nat.mod_eq_of_lt hlt]
  · rw [hqueue, State.updQueue_eq, State.queue_setQueue_self]

/-- A doorbell of any other queue sends NOT_OWNER. -/
theorem State.doorbell_refused {s : State} {p w : Nat} (h48 : bitsOf w 48 16 = 0) (h14 : bitsOf w 14 1 = 0)
    (h : ¬ (s.fld (rQpQ (bitsOf w 0 14)) 61 1 = 1 ∧ s.partOfQueue (bitsOf w 0 14) = some p)) :
    s.doorbell p w = s.event p stNotOwner none w 0 := by
  unfold State.doorbell
  dsimp only
  rw [if_neg (by simp [h48]), if_neg (by simp [h14]), if_neg h]

theorem State.received.doorbell {s t : State} {i : Nat} (h : s.received t i) {w : Nat} (h48 : bitsOf w 48 16 = 0)
    (h14 : bitsOf w 14 1 = 0) : (t.doorbell (t.entPart i) w).mem = s.mem ∧
      if s.fld (rQpQ (bitsOf w 0 14)) 61 1 = 1 ∧ s.partOfQueue (bitsOf w 0 14) = some (s.entPart i) then
        (t.doorbell (t.entPart i) w).fld (rQpQ (bitsOf w 0 14)) 0 16 = bitsOf w 16 16 ∧
          ((t.doorbell (t.entPart i) w).queue (bitsOf w 0 14)).cqHead = bitsOf w 32 16
      else (t.doorbell (t.entPart i) w).told (s.entPart i) stNotOwner ∧ (t.doorbell (t.entPart i) w).regs = s.regs ∧
        (t.doorbell (t.entPart i) w).queues = s.queues := by
  rw [h.entPart]
  split
  next ho =>
    rw [← h.fld, ← h.partOfQueue] at ho
    obtain ⟨hmem, hboth⟩ := State.doorbell_taken h48 h14 ho
    exact ⟨hmem.trans h.mem, hboth⟩
  next ho =>
    rw [← h.fld, ← h.partOfQueue] at ho
    rw [State.doorbell_refused h48 h14 ho]
    exact ⟨h.mem, State.told_event _ _ _ _ _ _, h.regs, h.queues⟩

/-! ### Gate signals -/

/-- The signal that a gate signal packet sends. -/
def Pkt.gateSignal (p : Pkt) (i : Nat) : Sig :=
  { gate := bitsOf (leNat (p.body.take 8)) 8 8, value := bitsOf (leNat (p.body.take 8)) 32 32, ctx := p.tctx, gen := p.tgen,
    src := entSrc i }

theorem State.dlvGate_of {s t : State} {i : Nat} (h : s.received t i) {p : Pkt} (hbody : p.body ≠ []) :
    t.dlvGate i p =
      if p.devaddr = true ∧ i < 16384 then t.violate i p stPermFault
      else if s.ownsGate (s.hostOf (bitsOf (leNat (p.body.take 8)) 0 6) p.tctx) (bitsOf (leNat (p.body.take 8)) 8 8) p.tctx then
        t.sendSig (bitsOf (leNat (p.body.take 8)) 0 6) (p.gateSignal i)
      else t.violate i p stGateNotOwned := by
  unfold State.dlvGate
  simp only [hbody, if_false, h.hostOf, h.ownsGate]
  rfl

/-- A signal that a packet sends joins the signals of the engine that answers. -/
theorem State.received.sendSig {s t : State} {i : Nat} (h : s.received t i) (n : Nat) (g : Sig) :
    ((t.sendSig n g).eng (s.hostOf n g.ctx)).sigs = (s.eng (s.hostOf n g.ctx)).sigs ++ [g] := by
  rw [State.sigs_sendSig, h.hostOf, if_pos rfl, h.eng]

/-! ### Stots -/

/-- The state with another transport. -/
def State.withNet (N : Net) (s : State) : State := { s with net := N }

/-- Writes do not hang on the transport. -/
theorem State.wrAll_withNet (N : Net) (s : State) (ws : List (Place × Byte × Bool)) :
    (s.withNet N).wrAll ws = (s.wrAll ws).withNet N := by
  have hwr (s : State) (w : Place × Byte × Bool) : (s.withNet N).wrPlace w.1 w.2.1 = (s.wrPlace w.1 w.2.1).withNet N := by
    obtain ⟨p, b, m⟩ := w
    cases p with
    | loc n a => rfl
    | dev a => exact (apply_ite (State.withNet N) (isFabric a = true ∨ s.lost a = true) s (s.setByte a b)).symm
  have hmark (s : State) (p : Place) (v : Bool) : (s.withNet N).setMark p v = (s.setMark p v).withNet N := by
    cases p with
    | loc n a => rfl
    | dev a => exact (apply_ite (State.withNet N) (isFabric a = true ∨ s.lost a = true) s (s.setPoison a v)).symm
  unfold State.wrAll
  dsimp only
  rw [List.foldl_hom (State.withNet N) (g₁ := fun s w => s.wrPlace w.1 w.2.1) (H := hwr)]
  refine List.foldl_hom (State.withNet N) (H := fun s p => ?_)
  split
  · exact hmark s p true
  · split
    · exact hmark s p false
    · rfl

theorem State.received.putAt {s t : State} {i : Nat} (h : s.received t i) (ds : List Nat) (bs : List Byte) (po : Bool) :
    (t.putAt ds bs po).mem = (s.putAt ds bs po).mem := by
  have hn : t = s.withNet t.net := h.rest
  unfold State.putAt
  rw [hn, State.wrAll_withNet]
  rfl

section
variable {s t : State} {i : Nat} {p : Pkt} {ds : List Nat}

/-- A stot packet that fails no check is taken. -/
theorem State.dlvStot_of_ok (hbody : p.body ≠ []) (hf : t.stotFault i p (wireOfmt p) = none) :
    t.dlvStot i p = t.takeStot i p (wireOfmt p) := by
  unfold State.dlvStot
  rw [if_neg hbody, hf]

theorem State.dlvStot_of_fault {st : Nat} (hbody : p.body ≠ []) (hf : t.stotFault i p (wireOfmt p) = some st) :
    t.dlvStot i p = t.violate i p st := by
  unfold State.dlvStot
  rw [if_neg hbody, hf]

/-- The header and the data of a stot packet. -/
def Pkt.stotHdr (p : Pkt) : StotHdr := StotHdr.ofNat (leNat (p.body.take 24))
def Pkt.stotData (p : Pkt) : List Byte := p.body.drop 24

variable (ha : t.pktAddrs i p p.arg p.stotData.length true = .inl ds)
include ha

theorem State.stotFault_plain (of : Nat) (hred : p.stotHdr.red = false) :
    t.stotFault i p of = if p.last then t.sigFault p.stotHdr p else none := by
  unfold State.stotFault
  dsimp only
  change (match t.pktAddrs i p p.arg p.stotData.length true with | .inr st => some st | .inl _ => _) = _
  rw [ha]
  exact if_neg (ne_true_of_eq_false hred)

theorem State.takeStot_plain (of : Nat) (hred : p.stotHdr.red = false) : t.takeStot i p of =
    if p.last then (t.putAt ds p.stotData p.poison).stotSig i p.stotHdr p else t.putAt ds p.stotData p.poison := by
  unfold State.takeStot
  dsimp only
  change (match t.pktAddrs i p p.arg p.stotData.length true with | .inr _ => t | .inl ds => _) = _
  rw [ha]
  exact if_neg (ne_true_of_eq_false hred)

theorem State.stotFault_into (of : Nat) {r : Reduction} (hred : p.stotHdr.red = true)
    (hr : t.redStep i p.stotHdr p of p.stotData = .into r) (hc : r.complete = false) : t.stotFault i p of = none := by
  unfold State.stotFault
  dsimp only
  change (match t.pktAddrs i p p.arg p.stotData.length true with
    | .inr st => some st
    | .inl _ => if p.stotHdr.red then (match t.redStep i p.stotHdr p of p.stotData with | .into r => _ | _ => none) else _) = _
  rw [ha]
  dsimp only
  rw [if_pos hred, hr]
  exact if_pos (by simp [hc])

theorem State.takeStot_into (of : Nat) {r : Reduction} (hred : p.stotHdr.red = true)
    (hr : t.redStep i p.stotHdr p of p.stotData = .into r) (hc : r.complete = false) : t.takeStot i p of =
      { t.putAt ds p.stotData p.poison with
        reds := (t.putAt ds p.stotData p.poison).reds.filter (fun x => !x.is p.tctx p.tgen p.stotHdr) ++ [r] } := by
  unfold State.takeStot
  dsimp only
  change (match t.pktAddrs i p p.arg p.stotData.length true with
    | .inr _ => t
    | .inl ds => if p.stotHdr.red then t.contribute i p.stotHdr p of p.stotData ds else _) = _
  rw [ha]
  dsimp only
  rw [if_pos hred, State.contribute, hr]
  exact if_neg (ne_true_of_eq_false hc)

end

section
variable {s t : State} {i : Nat} {p : Pkt} {ds : List Nat} (h : s.received t i) (hbody : p.body ≠ [])
  (ha : s.pktAddrs i p p.arg p.stotData.length true = .inl ds)
include h hbody ha

/-- The data of a plain stot that signals nothing is written. -/
theorem State.dlvStot_silent (hred : p.stotHdr.red = false) (hsig : p.stotHdr.sig = false) :
    (t.dlvStot i p).mem = (s.putAt ds p.stotData p.poison).mem ∧ (t.dlvStot i p).reds = s.reds := by
  have ha' := (h.sameView.pktAddrs i p p.arg p.stotData.length true).trans ha
  have hok : t.stotFault i p (wireOfmt p) = none := by
    rw [State.stotFault_plain ha' _ hred, State.sigFault, hsig]
    split <;> rfl
  have hrun : t.dlvStot i p = t.putAt ds p.stotData p.poison := by
    rw [State.dlvStot_of_ok hbody hok, State.takeStot_plain ha' _ hred, State.stotSig, hsig]
    split <;> rfl
  rw [hrun]
  refine ⟨h.putAt _ _ _, ?_⟩
  rw [State.putAt, (t.writesOnly_wrAll _).rest]
  exact h.reds

/-- The last packet of a plain stot signals the gate it names, where TCTX owns it. -/
theorem State.dlvStot_signals (hred : p.stotHdr.red = false) (hsig : p.stotHdr.sig = true) (hlast : p.last = true)
    (ho : s.ownsGate (s.hostOf p.stotHdr.sigEng p.tctx) p.stotHdr.sigGate p.tctx = true) :
    ((t.dlvStot i p).eng (s.hostOf p.stotHdr.sigEng p.tctx)).sigs = (s.eng (s.hostOf p.stotHdr.sigEng p.tctx)).sigs ++
      [{ gate := p.stotHdr.sigGate, value := 1, ctx := p.tctx, gen := p.tgen, src := entSrc i }] := by
  have ha' := (h.sameView.pktAddrs i p p.arg p.stotData.length true).trans ha
  have hok : t.stotFault i p (wireOfmt p) = none := by
    rw [State.stotFault_plain ha' _ hred, State.sigFault, h.hostOf, h.ownsGate, ho, hsig]
    exact ite_self _
  have hw : t.writesOnly (t.putAt ds p.stotData p.poison) := t.writesOnly_wrAll _
  have hhost (n c : Nat) : (t.putAt ds p.stotData p.poison).hostOf n c = s.hostOf n c := by
    unfold State.hostOf
    rw [hw.eng n, h.eng n]
  rw [State.dlvStot_of_ok hbody hok, State.takeStot_plain ha' _ hred, if_pos hlast, State.stotSig, if_pos hsig,
    State.sigs_sendSig, hhost, if_pos rfl, hw.eng, h.eng]

/-- One whose gate TCTX does not own freezes the entry. -/
theorem State.dlvStot_violates (hred : p.stotHdr.red = false) (hsig : p.stotHdr.sig = true) (hlast : p.last = true)
    (ho : s.ownsGate (s.hostOf p.stotHdr.sigEng p.tctx) p.stotHdr.sigGate p.tctx = false) :
    (t.dlvStot i p).mem = s.mem ∧ s.violated (t.dlvStot i p) i p stGateNotOwned := by
  have ha' := (h.sameView.pktAddrs i p p.arg p.stotData.length true).trans ha
  have hbad : t.stotFault i p (wireOfmt p) = some stGateNotOwned := by
    rw [State.stotFault_plain ha' _ hred, if_pos hlast, State.sigFault, h.hostOf, h.ownsGate, ho, hsig]
    rfl
  rw [State.dlvStot_of_fault hbody hbad]
  exact h.violate p stGateNotOwned

/-- The reduction that a first contribution opens. -/
def Pkt.opens (p : Pkt) (i : Nat) : Reduction :=
  { ctx := p.tctx, gen := p.tgen, tag := p.stotHdr.tag, addr2 := p.stotHdr.addr2, nr := p.stotHdr.nr,
    parts := [{ rank := p.stotHdr.rank, ent := i, ofmt := wireOfmt p, pieces := [(p.arg, p.stotData)], whole := p.last,
                poison := p.poison }] }

omit h hbody ha in
/-- A reduction of several ranks is not complete with one. -/
theorem Pkt.opens_not_complete (i : Nat) (hnr : 1 < p.stotHdr.nr) : (p.opens i).complete = false := by
  refine Bool.eq_false_iff.2 fun hc => ?_
  have hall (k : Nat) (hk : k < p.stotHdr.nr) : p.stotHdr.rank = k := by
    have := List.all_eq_true.1 hc k (List.mem_range.2 hk)
    simp only [Reduction.has, Pkt.opens, List.any_cons, List.any_nil, Bool.or_false, Bool.and_eq_true, beq_iff_eq] at this
    exact this.1
  have h0 := hall 0 (by omega)
  have h1 := hall 1 hnr
  omega

/-- The first contribution of a reduction of several ranks is kept, its bytes written. -/
theorem State.dlvStot_opens (hred : p.stotHdr.red = true) (hfirst : p.first = true) (hnr : 1 < p.stotHdr.nr)
    (hnew : ∀ r ∈ s.reds, r.is p.tctx p.tgen p.stotHdr = false) (hroom : s.redCount ((s.partOfCtx p.tctx).getD 0) < 512) :
    (t.dlvStot i p).mem = (s.putAt ds p.stotData p.poison).mem ∧ (t.dlvStot i p).reds = s.reds ++ [p.opens i] := by
  have ha' := (h.sameView.pktAddrs i p p.arg p.stotData.length true).trans ha
  have hstep : t.redStep i p.stotHdr p (wireOfmt p) p.stotData = .into (p.opens i) := by
    have hnone : s.reds.find? (fun r => r.is p.tctx p.tgen p.stotHdr) = none :=
      List.find?_eq_none.2 fun r hr => by simp [hnew r hr]
    unfold State.redStep
    dsimp only
    rw [h.reds, hnone]
    dsimp only
    rw [if_neg (by simp [hfirst]), h.partOfCtx, h.redCount, if_neg (by omega)]
    rfl
  have hc := Pkt.opens_not_complete (p := p) i hnr
  have hreds : (t.putAt ds p.stotData p.poison).reds = s.reds := by
    rw [State.putAt, (t.writesOnly_wrAll _).rest]
    exact h.reds
  rw [State.dlvStot_of_ok hbody (State.stotFault_into ha' _ hred hstep hc), State.takeStot_into ha' _ hred hstep hc]
  refine ⟨h.putAt _ _ _, ?_⟩
  dsimp only
  rw [hreds, List.filter_eq_self.2 fun r hr => by simp [hnew r hr]]

end

/-! ### The rows -/

section
variable {s : State} {i : Fin 16392} {p : Pkt} (h : s.delivers i p) (hf : s.entState i ≠ 2) (hs : s.stalePkt i p = false)
include h hf hs

theorem exec_read (hk : p.kind = 2) : exec (.read i) s = .next ((s.taking i p).dlvRead i p) := by
  change deliver i _ _ s = _
  rw [deliver, State.deliverOne_of h (by simp [hk]) hf hs]

theorem exec_doorbell (hk : p.kind = 4) (ha : p.arg = 0) (hd : p.devaddr = false) :
    exec (.doorbell i) s = .next ((s.taking i p).doorbell ((s.taking i p).entPart i) (leNat (p.body.take 8))) := by
  change deliver i _ _ s = _
  rw [deliver, State.deliverOne_of h (by simp [hk, ha]) hf hs, if_neg (by simp [ha]), if_neg (by simp [hd])]

theorem exec_gateSignalMessage (hk : p.kind = 4) (ha : p.arg = 1) :
    exec (.gateSignalMessage i) s = .next ((s.taking i p).dlvGate i p) := by
  change deliver i _ _ s = _
  rw [deliver, State.deliverOne_of h (by simp [hk, ha]) hf hs]

theorem exec_stot (hk : p.kind = 5) : exec (.stot i) s = .next ((s.taking i p).dlvStot i p) := by
  have hw : s.stotWaits i = false := h.2.2.2.2
  change execStot i s = _
  rw [execStot, if_neg (by simp [hw]), deliver, State.deliverOne_of h (by simp [hk]) hf hs]

end

/-- Settles O40. -/
theorem packetEffects : Obligations.PacketEffects := by
  intro s i p h hf hs
  have ht := s.received_taking i p
  refine ⟨fun ds hk hup ha => ⟨_, exec_read h hf hs hk, State.dlvRead_spec ht hup ha⟩, fun hk ha hd => ?_, fun hk ha hb => ?_,
    fun ds hk hb => ?_⟩
  · dsimp only
    exact fun h48 h14 => ⟨_, exec_doorbell h hf hs hk ha hd, ht.doorbell h48 h14⟩
  · have hrun := exec_gateSignalMessage h hf hs hk ha
    rw [State.dlvGate_of ht hb] at hrun
    dsimp only
    split
    next hd =>
      rw [if_pos hd] at hrun
      exact ⟨_, hrun, ht.violate p _⟩
    next hd =>
      rw [if_neg hd] at hrun
      split
      next ho =>
        rw [if_pos ho] at hrun
        exact ⟨_, hrun, ht.mem, ht.sendSig _ (p.gateSignal i)⟩
      next ho =>
        rw [if_neg ho] at hrun
        exact ⟨_, hrun, ht.violate p _⟩
  · have hrun := exec_stot h hf hs hk
    dsimp only
    intro ha
    refine ⟨fun hred hsig => ⟨_, hrun, State.dlvStot_silent ht hb ha hred hsig⟩, fun hred hsig hlast => ⟨_, hrun, ?_⟩,
      fun hred hfirst hnr hnew hroom => ⟨_, hrun, State.dlvStot_opens ht hb ha hred hfirst hnr hnew hroom⟩⟩
    split
    next ho => exact State.dlvStot_signals ht hb ha hred hsig hlast ho
    next ho => exact State.dlvStot_violates ht hb ha hred hsig hlast (Bool.eq_false_iff.2 ho)

end Sys2Proof.Machine
end

section
/-! PROOFS. Memory stays in canonical form: every command keeps it (`exec_keeps`), a tick does, and reset has it. -/

namespace Sys2Proof.Machine

theorem Keeps.memoryOk {s t : State} (h : Keeps s t) (hs : s.memoryOk) : t.memoryOk :=
  ⟨h.mem hs.1, h.poison hs.2⟩

theorem State.tick_memoryOk {s : State} (hs : s.memoryOk) : s.tick.memoryOk := by
  cases hu : s.pwr.up with
  | false => rwa [State.tick_of_down hu]
  | true =>
    have h : s.fabTick.portsTick.memoryOk := (State.portsTick_keeps (State.fabTick_keeps .rfl)).memoryOk hs
    rw [State.tick_of_up hu]
    exact h

/-- Settles O3: with a command at the front of the queue by `exec_keeps`, on an empty queue by what a tick keeps. -/
theorem stepKeepsMemoryCanonical : Obligations.StepKeepsMemoryCanonical := by
  intro s t hs ht
  cases hp : s.pending with
  | nil =>
    rw [step_of_empty hp] at ht
    cases ht
    exact State.tick_memoryOk hs
  | cons c cs =>
    have hk : Keeps { s with pending := cs } t := by
      simpa only [stepRunsFrontCommand s c cs hp ▸ ht, KeepsO] using exec_keeps c { s with pending := cs }
    exact hk.memoryOk hs

/-- Settles O4: nothing is listed at reset. -/
theorem resetMemoryCanonical : Obligations.ResetMemoryCanonical := ⟨rfl, rfl⟩

end Sys2Proof.Machine
end

section
/-! PROOFS. Where HBM addresses lie (R190): the placement as a function of the granule, and that it spreads a region once. -/

namespace Sys2Proof.Machine

/-! ### The keyed hash and the placement, as functions of an address (R190) -/

/-- The hash that a region's placement adds: of the upper part `x` of a granule's number. -/
def granuleHash (w key r x : Nat) : Nat :=
  hashFold w ((key ^^^ x ^^^ (x <<< 11) ^^^ (x <<< 23) ^^^ (r <<< 50)) % 2 ^ 64)

/-- The low `w` bits of the number of an address's 256-byte granule in its region, and the bits above them. -/
def granuleLo (w a : Nat) : Nat := a / 256 % 2 ^ 22 % 2 ^ w
def granuleHi (w a : Nat) : Nat := a / 256 % 2 ^ 22 / 2 ^ w

/-- Where an address of a region lies in its pseudo-channel. -/
def placeOff (w slice a : Nat) : Nat := slice * 2 ^ 21 + granuleHi w a * 256 + a % 256

/-- The memory key of an address under a hash `H`. -/
def placeKey (w first slice : Nat) (H : Nat → Nat) (a : Nat) : Nat :=
  (first + (granuleLo w a ^^^ H (granuleHi w a))) * 2 ^ 30 + placeOff w slice a

theorem hashFold_eq (w z : Nat) : hashFold w z =
    z / 2 ^ (w * 0) % 2 ^ w ^^^ z / 2 ^ (w * 1) % 2 ^ w ^^^ z / 2 ^ (w * 2) % 2 ^ w ^^^ z / 2 ^ (w * 3) % 2 ^ w ^^^
      z / 2 ^ (w * 4) % 2 ^ w ^^^ z / 2 ^ (w * 5) % 2 ^ w ^^^ z / 2 ^ (w * 6) % 2 ^ w ^^^ z / 2 ^ (w * 7) % 2 ^ w := by
  simp only [hashFold, show List.range 8 = [0, 1, 2, 3, 4, 5, 6, 7] from rfl, List.foldl_cons, List.foldl_nil,
    Nat.shiftRight_eq_div_pow, Nat.zero_xor]

theorem hashFold_lt (w z : Nat) : hashFold w z < 2 ^ w := by
  have hp : ∀ x, x % 2 ^ w < 2 ^ w := fun x => Nat.mod_lt _ (Nat.two_pow_pos w)
  rw [hashFold_eq]
  iterate 7 refine Nat.xor_lt_two_pow ?_ (hp _)
  exact hp _

theorem granuleHash_lt (w key r x : Nat) : granuleHash w key r x < 2 ^ w := hashFold_lt _ _

theorem granuleLo_lt (w a : Nat) : granuleLo w a < 2 ^ w := Nat.mod_lt _ (Nat.two_pow_pos w)

/-- What an enabled region's slices are: one data slice for nine hash bits, two for eight. -/
def fitsSlices (w slice : Nat) : Prop := w = 9 ∧ slice < 378 ∨ w = 8 ∧ slice + 1 < 378

section
variable {w first slice a b : Nat} {H : Nat → Nat} (hf : fitsSlices w slice)
include hf

theorem placeOff_lt (a : Nat) : placeOff w slice a < 378 * 2 ^ 21 := by
  unfold placeOff granuleHi
  obtain ⟨rfl, h⟩ | ⟨rfl, h⟩ := hf <;> omega

/-- An address is its region, the two parts of its granule's number and its byte in the granule. -/
theorem eq_of_granule (hr : a / 2 ^ 30 = b / 2 ^ 30) (hh : granuleHi w a = granuleHi w b)
    (hl : granuleLo w a = granuleLo w b) (hb : a % 256 = b % 256) : a = b := by
  unfold granuleHi at hh
  unfold granuleLo at hl
  obtain ⟨rfl, -⟩ | ⟨rfl, -⟩ := hf <;> omega

/-- The pseudo-channel and the offset of a key can be read off it. -/
theorem placeKey_eq_iff : placeKey w first slice H a = placeKey w first slice H b ↔
    granuleLo w a ^^^ H (granuleHi w a) = granuleLo w b ^^^ H (granuleHi w b) ∧
      granuleHi w a = granuleHi w b ∧ a % 256 = b % 256 := by
  have ha := placeOff_lt hf a
  have hb := placeOff_lt hf b
  unfold placeKey
  generalize granuleLo w a ^^^ H (granuleHi w a) = x
  generalize granuleLo w b ^^^ H (granuleHi w b) = y
  unfold placeOff at *
  constructor <;> intro h <;> omega

/-- No two addresses of a region share a place. -/
theorem placeKey_inj (hr : a / 2 ^ 30 = b / 2 ^ 30)
    (h : placeKey w first slice H a = placeKey w first slice H b) : a = b := by
  obtain ⟨hx, hh, hb⟩ := (placeKey_eq_iff hf).1 h
  rw [hh] at hx
  exact eq_of_granule hf hr hh (Nat.xor_left_injective hx) hb

/-- For a fixed upper part every pseudo-channel of the span is reached: by the granule whose low part is the
pseudo-channel's number under the hash, since the hash is its own inverse. -/
theorem exists_placeKey (hH : ∀ x, H x < 2 ^ w) (a : Nat) {c : Nat} (hc : c < 2 ^ w) :
    ∃ b, b / 2 ^ 30 = a / 2 ^ 30 ∧ granuleHi w b = granuleHi w a ∧ b % 256 = a % 256 ∧
      granuleLo w b ^^^ H (granuleHi w b) = c := by
  have hx : c ^^^ H (granuleHi w a) < 2 ^ w := Nat.xor_lt_two_pow hc (hH _)
  have hc' : (c ^^^ H (granuleHi w a)) ^^^ H (granuleHi w a) = c := by rw [Nat.xor_assoc, Nat.xor_self, Nat.xor_zero]
  generalize c ^^^ H (granuleHi w a) = x at hx hc'
  have hb : ∃ b, b / 2 ^ 30 = a / 2 ^ 30 ∧ granuleHi w b = granuleHi w a ∧ b % 256 = a % 256 ∧ granuleLo w b = x := by
    refine ⟨a / 2 ^ 30 * 2 ^ 30 + granuleHi w a * (2 ^ w * 256) + x * 256 + a % 256, ?_⟩
    unfold granuleHi granuleLo
    obtain ⟨rfl, -⟩ | ⟨rfl, -⟩ := hf <;> omega
  obtain ⟨b, hr, hh, hb, hl⟩ := hb
  exact ⟨b, hr, hh, hb, by rw [hl, hh, hc']⟩

end

/-- The memory key of an HBM address while nothing moves. -/
theorem State.memKey_hbm {s : State} {a r : Nat} (hr : a / 2 ^ 30 = r) (hlt : r < 378) (hk : s.rekeys = [])
    (hp : s.pcRets = []) :
    s.memKey a = placeKey (if s.rgnMode r = 0 then 9 else 8) (if s.rgnMode r = 2 then 256 else 0) (s.rgnSlice r)
      (granuleHash (if s.rgnMode r = 0 then 9 else 8) (s.hbmKey (s.fld (rHbmRgn r) 2 2)) r) a := by
  subst hr
  have hpl : s.memKey a = hbmCell (s.oldPlace (a / 2 ^ 30) a) := by
    simp only [State.memKey, if_pos (show a < 378 * 2 ^ 30 by omega), hk, State.hbmReloc, hp, List.find?_nil,
      List.any_nil, Bool.false_eq_true, if_false]
  rw [hpl]
  simp only [hbmCell, State.oldPlace, hbmPlace, placeKey, placeOff, granuleLo, granuleHi, granuleHash,
    Nat.shiftRight_eq_div_pow, State.rgnMode, State.rgnSlice, State.fld]
  rfl

theorem fitsSlices_of_mode {mode slice : Nat} (h : slice + (if mode = 0 then 0 else 1) < 378) :
    fitsSlices (if mode = 0 then 9 else 8) slice := by
  unfold fitsSlices
  split_ifs at * <;> simp_all

/-- Settles O60: the placement is `placeKey` under the region's hash, of which each clause is one of the lemmas above. -/
theorem hbmPlacement : Obligations.HbmPlacement := by
  intro s A hA hk hp r mode _ _ hs w first key g lo hi z p h pc off
  have hf : fitsSlices w (s.rgnSlice r) := fitsSlices_of_mode hs
  have hr : r < 378 := Nat.div_lt_of_lt_mul (by omega)
  have hh : h A = granuleHash w key r (hi A) := by
    simp only [granuleHash, hashFold_eq, Nat.shiftLeft_eq]
    rfl
  have hkey {a : Nat} (ha : a / 2 ^ 30 = r) : s.memKey a = placeKey w first (s.rgnSlice r) (granuleHash w key r) a :=
    State.memKey_hbm ha hr hk hp
  have hA' : s.memKey A = pc * 2 ^ 30 + off := by
    rw [hkey rfl]
    simp only [pc, hh]
    rfl
  have hinj {B C : Nat} (hB : B / 2 ^ 30 = r) (hC : C / 2 ^ 30 = r) (e : s.memKey B = s.memKey C) : B = C := by
    rw [hkey hB, hkey hC] at e
    exact placeKey_inj hf (hB.trans hC.symm) e
  have hpc : lo A ^^^ h A < 2 ^ w := by
    rw [hh]
    exact Nat.xor_lt_two_pow (granuleLo_lt w A) (granuleHash_lt w key r _)
  refine ⟨hA', Nat.le_add_right _ _, Nat.add_lt_add_left hpc _, placeOff_lt hf A, fun c hc hc' => ?_,
    fun B hB e => hinj hB rfl e⟩
  obtain ⟨B, hB, hhi, hbyte, hx⟩ := exists_placeKey hf (granuleHash_lt w key r) A (c := c - first) (by omega)
  have hBkey : s.memKey B = c * 2 ^ 30 + off := by
    rw [hkey hB, placeKey, hx, placeOff, hhi, hbyte, Nat.add_sub_cancel' hc]
    rfl
  exact ⟨B, hB, hhi, hBkey, fun C hC _ _ e => hinj hC hB (e.trans hBkey.symm)⟩

end Sys2Proof.Machine
end

section
/-! PROOFS. The last chunk of a page of a PAGE_MOVE need not leave the command running (R200): what waited for the page goes
on, and a fault that it meets may end the command. -/

namespace Sys2Proof.Machine

/-- A PAGE_MOVE of context 1 with two pages to move, the first of one byte. -/
def twoPageMove : Cmd := { id := 5, words := [0x10000002C], st := .running, todo := [[0, 0, 0], [1]], aux := [0, 0] }

/-- The mark of its first page. -/
def onePageMark : MovePage := { ctx := 1, va := 0, size := 1, src := 0, dst := 0, entry := 0, old := 0 }

/-- A CHAIN of context 2, whose fix-up pass is due and faults, since the context has no partition. -/
def faultingChain : Cmd :=
  { id := 6, words := [0x200000029], st := .running,
    fixes := [{ stage := 0, eng := 0, slot := 0, d := { out := some {} }, base := 0, pitch := 0, segs := 1, seg := 0 }] }

/-- Both run, and a load of context 2 names the PAGE_MOVE as its command. -/
def strayLoadState : State :=
  { State.reset with
    cmds := [twoPageMove, faultingChain], works := [{ kind := .pages 5 }], moves := [onePageMark],
    fab := { loads := [{ cmd := 5, ctx := 2 }] } }

/-- The chunk ends the first page, the CHAIN goes on and faults, its context's load stops and the load's command with it. -/
theorem strayLoadState_ends :
    ∃ t, exec (.migrationChunk ⟨0, []⟩) strayLoadState = .next t ∧ t.cmds = [] := ⟨_, rfl, by decide +kernel⟩

/-- Refutes O50: its last clause keeps a PAGE_MOVE that has pages left among the commands, from every state. What the page
held back goes on at its end (`State.resume`), and from `strayLoadState` that ends the PAGE_MOVE: a fault stops the loads of
its context and finishes the commands that they name. The clause lacks the hypothesis that no load names the PAGE_MOVE. -/
theorem not_hbmAndMigration : ¬ Obligations.HbmAndMigration := by
  intro h
  obtain ⟨-, -, hchunk⟩ := h
  obtain ⟨-, -, hpages⟩ := hchunk strayLoadState 0 { kind := .pages 5 } [] (by decide +kernel)
  obtain ⟨t, ht, -, hlast⟩ := hpages 5 twoPageMove 0 0 0 [[1]] onePageMark rfl rfl rfl (by decide +kernel)
    (by decide +kernel) (by decide +kernel) (by decide +kernel)
  obtain ⟨u, hu, hnone⟩ := strayLoadState_ends
  obtain rfl : u = t := by
    rw [hu] at ht
    cases ht
    rfl
  obtain ⟨d, hd, -⟩ := hlast (by decide) (by decide)
  rw [hnone] at hd
  cases hd

end Sys2Proof.Machine
end

section
/-! PROOFS. A read at a DDR5 channel need not leave the list of memory as it is (R215): the bytes that the write queue holds are
put back, and a list that is not in canonical form changes with that. -/

namespace Sys2Proof.Machine

/-- A read of the first line of the DDR5 tier, waiting at channel 0. -/
def firstLineRead : NocPkt := { ty := 0, dst := iodPoint 0, addr := ddrBase, len := 64 }

/-- The channel is in service, its write queue holds the line's first byte, and memory lists that byte with the value that an
unlisted one has, which no canonical memory does. -/
def listedZeroState : State :=
  { State.reset with
    regs := [(rDdrChstat 0, 2)], mem := [((State.reset.ddrLine ddrBase).key, emptyByte)],
    noc := { queue := [firstLineRead], wq := [{ addr := ddrBase, mask := 1, src := 0, stamp := 0 }] } }

/-- The read puts the byte back, and the list loses the entry. -/
theorem listedZeroState_read :
    ∃ t, exec (.memoryTargetResponse 1024 ⟨0, []⟩) listedZeroState = .next t ∧ t.mem = [] := ⟨_, rfl, by decide +kernel⟩

/-- Refutes O47: its clause on the reads of a DDR5 channel says that memory is unchanged, of every state. A line that the write
queue covers in part keeps the bytes it covers by a write of each with its own value (`State.ddrMeets`). That leaves a
canonical memory as it is, but not the list of `listedZeroState`: the clause lacks the hypothesis `State.memoryOk`. -/
theorem not_networkTargets : ¬ Obligations.NetworkTargets := by
  intro h
  obtain ⟨-, -, hread, -⟩ := h
  obtain ⟨t, ht, -, hmem, -⟩ := hread listedZeroState 1024 0 0 firstLineRead (by decide) (by decide +kernel) rfl
    (by decide +kernel) rfl
  obtain ⟨u, hu, hnil⟩ := listedZeroState_read
  obtain rfl : u = t := by
    rw [hu] at ht
    cases ht
    rfl
  rw [hnil] at hmem
  cases hmem

end Sys2Proof.Machine
end

section
/-! PROOFS. Fields of registers after writes, what an event tells, and what the operations on lanes change (R292 to R295). -/

namespace Sys2Proof.Machine

/-! ### Fields of registers -/

section
variable (s : State) {o o' lo n lo' n' : Nat} (v : Nat)

theorem State.reg_setReg_of_ne (w : W64) (h : o' ≠ o) : (s.setReg o w).reg o' = s.reg o' := by
  rw [State.reg_setReg, if_neg h]

theorem State.fld_setReg_of_ne (w : W64) (h : o' ≠ o) : (s.setReg o w).fld o' lo n = s.fld o' lo n :=
  congrArg (bf · lo n) (s.reg_setReg_of_ne w h)

theorem State.reg_setFld_of_ne (h : o' ≠ o) : (s.setFld o lo n v).reg o' = s.reg o' := s.reg_setReg_of_ne _ h

theorem State.fld_setFld_of_ne (h : o' ≠ o) : (s.setFld o lo n v).fld o' lo' n' = s.fld o' lo' n' :=
  s.fld_setReg_of_ne _ h

theorem State.fld_setFld_self (h : lo + n ≤ 64) : (s.setFld o lo n v).fld o lo n = v % 2 ^ n := by
  rw [State.setFld_eq, State.fld, State.reg_setReg_self, bf_bset_self _ _ h]

theorem State.fld_setFld_disjoint (h : lo + n ≤ lo' ∨ lo' + n' ≤ lo) (h64 : lo' + n' ≤ 64) :
    (s.setFld o lo n v).fld o lo' n' = s.fld o lo' n' := by
  rw [State.setFld_eq, State.fld, State.reg_setReg_self, bf_bset_disjoint _ _ h h64, State.fld]

end

/-- What partition 0 has been told depends on its events and the time. -/
theorem State.told.congr {s t : State} {p code : Nat} (h : s.told p code) (hp : t.parts = s.parts) (hd : t.dt = s.dt) :
    t.told p code := by
  unfold State.told State.part at *
  rwa [hp, hd]

/-! ### Where the registers of lanes lie -/

/-- An offset outside the lane blocks of the ports. -/
def offLanes (o : Nat) : Prop := o % 0x1000 < 0x800 ∨ o < 0x301000 ∨ 0x403000 ≤ o

theorem rLane_inj {l l' o o' : Nat} (hl : l < 48) (hl' : l' < 48) (ho : o < 0x40) (ho' : o' < 0x40)
    (h : rLane l o = rLane l' o') : l = l' ∧ o = o' := by
  unfold rLane rEth rCxl at h
  split_ifs at h <;> omega

theorem ne_rLane_of_offLanes {l o x : Nat} (hl : l < 48) (ho : o < 0x40) (h : offLanes x) : x ≠ rLane l o := by
  unfold offLanes at h
  unfold rLane rEth rCxl
  split_ifs <;> omega

/-! ### Operations on lanes -/

/-- From s to t registers, links and free values alone change. -/
def State.linksOnly (s t : State) : Prop := t = { s with regs := t.regs, links := t.links, free := t.free }

theorem State.linksOnly.trans {s t u : State} (h : s.linksOnly t) (h' : t.linksOnly u) : s.linksOnly u := by
  unfold State.linksOnly at *
  rw [h', h]

theorem State.onlyRegs.linksOnly {s t : State} {offs : List Nat} (h : s.onlyRegs t offs) : s.linksOnly t := by
  unfold State.linksOnly
  rw [h.1]

section
variable {s t : State} (h : s.linksOnly t)
include h

theorem State.linksOnly.mem : t.mem = s.mem := by rw [h]
theorem State.linksOnly.dt : t.dt = s.dt := by rw [h]
theorem State.linksOnly.parts : t.parts = s.parts := by rw [h]
theorem State.linksOnly.cmds : t.cmds = s.cmds := by rw [h]
theorem State.linksOnly.pwr : t.pwr = s.pwr := by rw [h]

end

/-- The registers of every lane are as they were. -/
def State.sameLanes (s t : State) : Prop := ∀ l o, l < 48 → o < 0x40 → t.reg (rLane l o) = s.reg (rLane l o)

theorem State.sameLanes.trans {s t u : State} (h : s.sameLanes t) (h' : t.sameLanes u) : s.sameLanes u :=
  fun l o hl ho => (h' l o hl ho).trans (h l o hl ho)

theorem State.sameLanes_setReg (s : State) {o : Nat} (ho : offLanes o) (v : W64) : s.sameLanes (s.setReg o v) :=
  fun _ _ hl hx => s.reg_setReg_of_ne v (ne_rLane_of_offLanes hl hx ho).symm

theorem State.sameLanes.laneOn {s t : State} (h : s.sameLanes t) {l : Nat} (hl : l < 48) : t.laneOn l = s.laneOn l := by
  unfold State.laneOn State.fld
  rw [rLstat, h l _ hl (by decide)]

/-- From s to t links and free values change, and of the registers those of the lanes of a list alone. -/
structure State.laneStep (s t : State) (ls : List Nat) : Prop where
  rest : s.linksOnly t
  reg : ∀ o, offLanes o → t.reg o = s.reg o
  lane : ∀ l o, l < 48 → o < 0x40 → l ∉ ls → t.reg (rLane l o) = s.reg (rLane l o)

theorem State.laneStep.refl (s : State) (ls : List Nat) : s.laneStep s ls := ⟨rfl, fun _ _ => rfl, fun _ _ _ _ _ => rfl⟩

theorem State.laneStep.trans {s t u : State} {ls ms : List Nat} (h : s.laneStep t ls) (h' : t.laneStep u ms) :
    s.laneStep u (ls ++ ms) where
  rest := h.rest.trans h'.rest
  reg o ho := (h'.reg o ho).trans (h.reg o ho)
  lane l o hl ho hm := by
    rw [List.mem_append, not_or] at hm
    exact (h'.lane l o hl ho hm.2).trans (h.lane l o hl ho hm.1)

theorem State.laneStep.mono {s t : State} {ls ms : List Nat} (h : s.laneStep t ls) (hs : ls ⊆ ms) : s.laneStep t ms :=
  ⟨h.rest, h.reg, fun l o hl ho hm => h.lane l o hl ho fun hm' => hm (hs hm')⟩

theorem State.laneStep.fld {s t : State} {ls : List Nat} (h : s.laneStep t ls) {o : Nat} (ho : offLanes o) (lo n : Nat) :
    t.fld o lo n = s.fld o lo n := by
  rw [State.fld, h.reg o ho, State.fld]

section
variable (s : State) {l : Nat} (hl : l < 48)
include hl

theorem State.laneStep_setLane {o : Nat} (ho : o < 0x40) (v : W64) : s.laneStep (s.setReg (rLane l o) v) [l] where
  rest := rfl
  reg x hx := s.reg_setReg_of_ne v (ne_rLane_of_offLanes hl ho hx)
  lane m x hm hx hn := s.reg_setReg_of_ne v fun he => hn (by rw [(rLane_inj hm hl hx ho he).1]; simp)

theorem State.laneStep_abortScan : s.laneStep (s.abortScan l) [l] := by
  unfold State.abortScan
  split
  · exact ((s.laneStep_setLane hl (by decide) _).trans (State.laneStep_setLane _ hl (by decide) _)).mono (by simp)
  · exact .refl s _

theorem State.laneStep_laneOff : s.laneStep (s.laneOff l) [l] :=
  ((s.laneStep_abortScan hl).trans (State.laneStep_setLane _ hl (by decide) _)).mono (by simp)

theorem State.laneStep_laneTrain (rate : Nat) : s.laneStep (s.laneTrain l rate) [l] :=
  ((s.laneStep_abortScan hl).trans (State.laneStep_setLane _ hl (by decide) _)).mono (by simp)

/-- A lane whose taps are set anew goes into service. -/
theorem State.laneStep_laneUp (rate : Nat) : s.laneStep ((s.setFfe l).laneUp l rate) [l] := by
  have hffe : s.laneStep (s.setFfe l) [] := ⟨rfl, fun _ _ => rfl, fun _ _ _ _ _ => rfl⟩
  have hhold (t : State) (b : Bool) : t.laneStep (t.holdEq l b) [] := ⟨rfl, fun _ _ => rfl, fun _ _ _ _ _ => rfl⟩
  exact ((hffe.trans (hhold _ _)).trans (State.laneStep_setLane _ hl (by decide) _)).mono (by simp)

end

section
variable {f : State → Nat → State} (hf : ∀ (s : State) (l : Nat), l < 48 → s.laneStep (f s l) [l])
include hf

theorem State.laneStep_foldl {ls : List Nat} (hls : ∀ l ∈ ls, l < 48) (s : State) : s.laneStep (ls.foldl f s) ls := by
  induction ls generalizing s with
  | nil => exact .refl s _
  | cons l ls ih =>
    exact (hf s l (hls l (by simp))).trans (ih (fun m hm => hls m (by simp [hm])) (f s l))

/-- After an operation on each lane of a list, the registers of a lane are those that the operation leaves of a state in which
they were as at first. -/
theorem State.exists_foldl_lane {ls : List Nat} (hls : ∀ l ∈ ls, l < 48) (hnd : ls.Nodup) (s : State) {l : Nat} (hm : l ∈ ls) :
    ∃ u : State, u.dt = s.dt ∧ (∀ o < 0x40, u.reg (rLane l o) = s.reg (rLane l o)) ∧
      ∀ o < 0x40, (ls.foldl f s).reg (rLane l o) = (f u l).reg (rLane l o) := by
  induction ls generalizing s with
  | nil => cases hm
  | cons m ls ih =>
    obtain ⟨hnot, hnd⟩ := List.nodup_cons.1 hnd
    have hls' : ∀ l ∈ ls, l < 48 := fun l hl => hls l (by simp [hl])
    have hm48 : m < 48 := hls m (by simp)
    rcases List.mem_cons.1 hm with rfl | hm'
    · exact ⟨s, rfl, fun _ _ => rfl, fun o ho => (State.laneStep_foldl hf hls' (f s l)).lane l o hm48 ho hnot⟩
    · have hlm : l ∉ [m] := by
        rintro h
        exact hnot (by rwa [← List.mem_singleton.1 h])
      obtain ⟨u, hd, hu, hr⟩ := ih hls' hnd (f s m) hm'
      exact ⟨u, hd.trans (hf s m hm48).rest.dt,
        fun o ho => (hu o ho).trans ((hf s m hm48).lane l o (hls' l hm') ho hlm), hr⟩

end

end Sys2Proof.Machine
end

section
/-! PROOFS. The CXL ports: detection, bring-up, refusal, loss, Recovery and zeroing (R199, R295, R301 to R304, R409, R411). -/

namespace Sys2Proof.Machine

/-! ### The lanes of a port -/

theorem cxlLanes_lt {p : Nat} (hp : p < 2) : ∀ l ∈ cxlLanes p, l < 48 := by
  intro l hl
  obtain ⟨i, hi, rfl⟩ := List.mem_map.1 hl
  have := List.mem_range.1 hi
  omega

theorem cxlLanes_nodup (p : Nat) : (cxlLanes p).Nodup :=
  List.Nodup.map (fun i j (h : 16 + 16 * p + i = 16 + 16 * p + j) => by omega) List.nodup_range

theorem offLanes_rCxl (p : Nat) {o : Nat} (h : o < 0x800) : offLanes (rCxl p o) := .inl (by unfold rCxl; omega)

theorem offLanes_rPwrReady : offLanes rPwrReady := .inl (by decide)

theorem State.laneOn_laneOff (s : State) (l : Nat) : (s.laneOff l).laneOn l = false := by
  unfold State.laneOn State.laneOff State.fld
  rw [State.reg_setReg_self]
  decide

theorem State.laneOn_laneUp (s : State) (l rate : Nat) : (s.laneUp l rate).laneOn l = true := by
  unfold State.laneOn State.laneUp State.fld
  rw [State.reg_setReg_self, bf_ofNat, fv_eq, fv_eq, beq_iff_eq]
  omega

theorem State.rLstat_laneTrain (s : State) (l rate : Nat) :
    (s.laneTrain l rate).reg (rLstat l) = BitVec.ofNat 64 (fv 8 4 rate) := State.reg_setReg_self _ _ _

/-- A scan in progress stops: xx_LEYE has DONE alone of its three marks, at this time. -/
theorem State.abortScan_scanning (s : State) {l : Nat} (hl : l < 48) (h : s.fld (rLeye l) 1 1 = 1) :
    (s.abortScan l).fld (rLeye l) 0 3 = 4 ∧ (s.abortScan l).reg (rLeyedt l) = s.dt := by
  have hne : rLeye l ≠ rLeyedt l := fun he => absurd (rLane_inj hl hl (by decide) (by decide) he).2 (by decide)
  unfold State.abortScan
  rw [if_pos h, State.fld_setReg_of_ne _ _ hne, State.fld, State.reg_setReg_self, State.reg_setReg_self]
  refine ⟨Nat.eq_of_testBit_eq fun i => ?_, rfl⟩
  rw [bf_testBit]
  by_cases hi : i < 3
  · rw [bset_getLsbD _ _ _ _ (by omega), bset_getLsbD _ _ _ _ (by omega), bset_getLsbD _ _ _ _ (by omega)]
    interval_cases i <;> simp [Nat.testBit]
  · rw [decide_eq_false hi, Bool.false_and, Nat.testBit_lt_two_pow]
    exact Nat.lt_of_lt_of_le (by decide) (Nat.pow_le_pow_right (by decide) (Nat.le_of_not_lt hi))

/-- What a port's lanes going off leaves (R293, R304). -/
structure State.lanesDown (s t : State) (p : Nat) : Prop where
  rest : s.linksOnly t
  reg : ∀ o, offLanes o → o ≠ rCxlLink p → o ≠ rCxlPstat p → t.reg o = s.reg o
  link : t.reg (rCxlLink p) = 0
  pstat : ∀ lo n, lo + n ≤ 6 ∨ 8 ≤ lo → lo + n ≤ 64 → t.fld (rCxlPstat p) lo n = s.fld (rCxlPstat p) lo n
  inUse : t.fld (rCxlPstat p) 6 2 = 0
  lanes : ∀ l ∈ cxlLanes p, t.laneOn l = false

theorem State.lanesDown_cxlLanesOff (s : State) {p : Nat} (hp : p < 2) : s.lanesDown (s.cxlLanesOff p) p := by
  have hoff (s : State) (l : Nat) (hl : l < 48) := s.laneStep_laneOff hl
  have hstep := State.laneStep_foldl hoff (cxlLanes_lt hp) s
  have hlink : offLanes (rCxlLink p) := offLanes_rCxl p (by decide)
  have hpstat : offLanes (rCxlPstat p) := offLanes_rCxl p (by decide)
  have hne : rCxlPstat p ≠ rCxlLink p := by simp [rCxlPstat, rCxlLink, rCxl]
  unfold State.cxlLanesOff
  refine ⟨?_, fun o ho h1 h2 => ?_, ?_, fun lo n hd h64 => ?_, State.fld_setFld_self _ _ (by decide), fun l hl => ?_⟩
  · exact hstep.rest.trans ((State.onlyRegs_setReg _ _ _).linksOnly.trans (State.onlyRegs_setReg _ _ _).linksOnly)
  · rw [State.reg_setFld_of_ne _ _ h2, State.reg_setReg_of_ne _ _ h1, hstep.reg o ho]
  · rw [State.reg_setFld_of_ne _ _ hne.symm, State.reg_setReg_self]
  · rw [State.fld_setFld_disjoint _ _ (by omega) h64, State.fld_setReg_of_ne _ _ hne, hstep.fld hpstat]
  · obtain ⟨u, -, -, hu⟩ := State.exists_foldl_lane hoff (cxlLanes_lt hp) (cxlLanes_nodup p) s hl
    have hl48 := cxlLanes_lt hp l hl
    rw [State.setFld_eq, (State.sameLanes_setReg _ hpstat _).laneOn hl48, (State.sameLanes_setReg _ hlink _).laneOn hl48,
      State.laneOn, State.fld, rLstat, hu _ (by decide)]
    exact u.laneOn_laneOff l

/-! ### STATE, CAUSE and readiness -/

theorem State.cxlSt_setCxl (s : State) (p st cause : Nat) : (s.setCxl p st cause).cxlSt p = st % 2 ^ 3 := by
  unfold State.cxlSt State.setCxl
  rw [State.fld_setFld_disjoint _ _ (by decide) (by decide), State.fld_setFld_self _ _ (by decide)]

theorem State.cause_setCxl (s : State) (p st cause : Nat) : (s.setCxl p st cause).fld (rCxlPstat p) 8 8 = cause % 2 ^ 8 :=
  State.fld_setFld_self _ _ (by decide)

theorem State.onlyRegs_setCxl (s : State) (p st cause : Nat) : s.onlyRegs (s.setCxl p st cause) [rCxlPstat p] :=
  (s.onlyRegs_setReg _ _).trans (State.onlyRegs_setReg _ _ _) (by simp) (by simp)

theorem State.sameLanes_setCxl (s : State) (p st cause : Nat) : s.sameLanes (s.setCxl p st cause) :=
  (s.sameLanes_setReg (offLanes_rCxl p (by decide)) _).trans (State.sameLanes_setReg _ (offLanes_rCxl p (by decide)) _)

theorem State.onlyRegs_syncCxl (s : State) : s.onlyRegs s.syncCxl [rPwrReady] := by
  unfold State.syncCxl
  dsimp only
  split
  · exact s.onlyRegs_setReg _ _
  · exact ⟨rfl, fun _ _ => rfl⟩

/-- PWR_READY.CXL is one bit. -/
theorem State.fld_syncCxl (s : State) {lo n : Nat} (h : lo + n ≤ 3 ∨ 4 ≤ lo) (h64 : lo + n ≤ 64) :
    s.syncCxl.fld rPwrReady lo n = s.fld rPwrReady lo n := by
  unfold State.syncCxl
  dsimp only
  split
  · exact s.fld_setFld_disjoint _ (by omega) h64
  · rfl

theorem State.reg_syncCxl_rCxl (s : State) {p o : Nat} (hp : p < 2) (ho : o < 0x1000) :
    s.syncCxl.reg (rCxl p o) = s.reg (rCxl p o) :=
  s.onlyRegs_syncCxl.2 _ (by unfold rCxl rPwrReady; simp; omega)

theorem State.sameLanes_syncCxl (s : State) : s.sameLanes s.syncCxl := fun l o hl ho =>
  s.onlyRegs_syncCxl.2 _ (by simpa using (ne_rLane_of_offLanes hl ho offLanes_rPwrReady).symm)

/-! ### Bring-up (Tables 11.5 and 11.6) -/

section
variable (s : State) {p : Nat} (hp : p < 2) {d : CxlDev}

/-- A device that does not train leaves the port detecting. -/
theorem State.cxlTrain_of_not_trains (h : d.trains = false) : s.cxlTrain p d = (s.cxlLanesOff p).setCxl p 1 10 := by
  simp [State.cxlTrain, h]

/-- A port that refuses its device, before HP0 is told. -/
def State.cxlRefused (p cause : Nat) : State := ((s.cxlLanesOff p).setCxl p 5 cause).setReg (rCxlEvdt p) s.dt

theorem State.cxlTrain_of_refused (h : d.trains = true) {cause : Nat} (hc : s.cxlRefusal p d = some cause) :
    s.cxlTrain p d = ((s.cxlRefused p cause).cxlEvent p cause).syncCxl := by
  simp only [State.cxlTrain, h, hc, not_true_eq_false, if_false]
  rfl

theorem State.cxlRefusal_lt {cause : Nat} (hc : s.cxlRefusal p d = some cause) : cause < 8 := by
  unfold State.cxlRefusal at hc
  split_ifs at hc <;> cases hc <;> decide

include hp in
/-- HP0 is told, and readiness follows: of the registers PWR_READY alone changes. -/
theorem State.syncCxl_cxlEvent (cause : Nat) : ∃ t, (s.cxlEvent p cause).syncCxl = t ∧ t.mem = s.mem ∧
    t.told 0 stCxlLinkDown ∧ (∀ o < 0x1000, t.reg (rCxl p o) = s.reg (rCxl p o)) ∧ s.sameLanes t := by
  have hsync := (s.cxlEvent p cause).onlyRegs_syncCxl.linksOnly
  have htold : (s.cxlEvent p cause).told 0 stCxlLinkDown := State.told_event _ _ _ _ _ _
  refine ⟨_, rfl, hsync.mem, htold.congr hsync.parts hsync.dt, fun o ho => ?_, ?_⟩
  · rw [State.reg_syncCxl_rCxl _ hp ho, State.cxlEvent, State.reg_event]
  · exact State.sameLanes_syncCxl _

include hp in
/-- STATE 5 with its cause, every lane off, and an event for HP0. -/
theorem State.cxlTrain_refused (h : d.trains = true) {cause : Nat} (hc : s.cxlRefusal p d = some cause) :
    ∃ t, s.cxlTrain p d = t ∧ t.mem = s.mem ∧ t.cxlSt p = 5 ∧ t.fld (rCxlPstat p) 8 8 = cause ∧
      t.reg (rCxlEvdt p) = s.dt ∧ t.told 0 stCxlLinkDown ∧ ∀ l ∈ cxlLanes p, t.laneOn l = false := by
  have hdown := s.lanesDown_cxlLanesOff hp
  have hset := (s.cxlLanesOff p).onlyRegs_setCxl p 5 cause
  have hlanes : (s.cxlLanesOff p).sameLanes (s.cxlRefused p cause) :=
    (State.sameLanes_setCxl _ _ _ _).trans (State.sameLanes_setReg _ (offLanes_rCxl p (by decide)) _)
  obtain ⟨t, ht, hmem, htold, hreg, hsame⟩ := (s.cxlRefused p cause).syncCxl_cxlEvent hp cause
  have hfld (lo n : Nat) : t.fld (rCxlPstat p) lo n = ((s.cxlLanesOff p).setCxl p 5 cause).fld (rCxlPstat p) lo n := by
    rw [State.fld, rCxlPstat, hreg _ (by decide), State.cxlRefused, ← State.fld,
      State.fld_setReg_of_ne _ _ (by simp [rCxlEvdt, rCxl])]
  refine ⟨t, (s.cxlTrain_of_refused h hc).trans ht, ?_, ?_, ?_, ?_, htold,
    fun l hl => ?_⟩
  · rw [hmem, State.cxlRefused, State.setReg_mem, hset.mem, hdown.rest.mem]
  · rw [State.cxlSt, hfld]
    exact State.cxlSt_setCxl _ _ _ _
  · have := s.cxlRefusal_lt hc
    rw [hfld, State.cause_setCxl, Nat.mod_eq_of_lt (by omega)]
  · rw [rCxlEvdt, hreg _ (by decide)]
    exact State.reg_setReg_self _ _ _
  · rw [(hlanes.trans hsame).laneOn (cxlLanes_lt hp l hl), hdown.lanes l hl]

/-- The lanes that a device's link uses. -/
def cxlUsed (p : Nat) (d : CxlDev) : List Nat :=
  if d.reversed then (cxlLanes p).drop (16 - cxlWidth d) else (cxlLanes p).take (cxlWidth d)

theorem cxlUsed_sublist (p : Nat) (d : CxlDev) : (cxlUsed p d).Sublist (cxlLanes p) := by
  unfold cxlUsed
  split
  · exact List.drop_sublist _ _
  · exact List.take_sublist _ _

theorem cxlWidth_le (d : CxlDev) : cxlWidth d ≤ 16 := by
  unfold cxlWidth
  split_ifs <;> decide

theorem State.cxlMax_le (p : Nat) : s.cxlMax p ≤ 7 := by unfold State.cxlMax; omega

/-- The port once those lanes are in service. -/
def State.cxlLinked (p : Nat) (d : CxlDev) : State :=
  (cxlUsed p d).foldl (fun s' l => (s'.setFfe l).laneUp l (min d.rate (s.cxlMax p))) (s.cxlLanesOff p)

/-- The port's registers show a link and its device: CXL_PSTAT, CXL_LINK, CXL_DEVID, CXL_CAP and CXL_EVDT. -/
def State.cxlShow (u : State) (p : Nat) (pstat link devid cap evdt : W64) : State :=
  ((((u.setReg (rCxlPstat p) pstat).setReg (rCxlLink p) link).setReg (rCxlDevid p) devid).setReg (rCxlCap p) cap).setReg
    (rCxlEvdt p) evdt

theorem State.cxlShow_spec (u : State) (p : Nat) (pstat link devid cap evdt : W64) :
    let t := u.cxlShow p pstat link devid cap evdt
    u.linksOnly t ∧ u.sameLanes t ∧ t.reg (rCxlPstat p) = pstat ∧ t.reg (rCxlLink p) = link ∧
      t.reg (rCxlDevid p) = devid ∧ t.reg (rCxlCap p) = cap ∧ t.reg (rCxlEvdt p) = evdt := by
  have hrest (t : State) (o : Nat) (v : W64) := (t.onlyRegs_setReg o v).linksOnly
  have hset (t : State) {o : Nat} (ho : o < 0x800) (v : W64) := t.sameLanes_setReg (offLanes_rCxl p ho) v
  refine ⟨?_, ?_, ?_⟩
  · exact ((((hrest _ _ _).trans (hrest _ _ _)).trans (hrest _ _ _)).trans (hrest _ _ _)).trans (hrest _ _ _)
  · exact ((((hset _ (by decide) _).trans (hset _ (by decide) _)).trans (hset _ (by decide) _)).trans
      (hset _ (by decide) _)).trans (hset _ (by decide) _)
  · simp [State.cxlShow, State.reg_setReg, rCxlPstat, rCxlLink, rCxlDevid, rCxlCap, rCxlEvdt, rCxl]

theorem State.cxlTrain_of_accepted (h : d.trains = true) (hn : s.cxlRefusal p d = none) : ∃ t flit reversed,
    s.cxlTrain p d = t ∧ (s.cxlLinked p d).linksOnly t ∧ (s.cxlLinked p d).sameLanes t ∧
      t.reg (rCxlPstat p) = BitVec.ofNat 64 (fv 7 1 flit + fv 6 1 reversed + 4) ∧
      t.reg (rCxlLink p) = BitVec.ofNat 64 (fv 8 4 (min d.rate (s.cxlMax p)) + fv 0 5 (cxlWidth d)) ∧
      t.reg (rCxlDevid p) = BitVec.ofNat 64 (fv 16 16 d.device + fv 0 16 d.vendor) ∧
      t.reg (rCxlCap p) = BitVec.ofNat 64 (min 4096 d.cap) ∧ t.reg (rCxlEvdt p) = (s.cxlLinked p d).dt := by
  refine ⟨_, if d.flit256 || min d.rate (s.cxlMax p) == 7 then 1 else 0, if d.reversed then 1 else 0, ?_,
    State.cxlShow_spec (s.cxlLinked p d) p _ _ _ _ _⟩
  simp only [State.cxlTrain, h, hn, not_true_eq_false, if_false, State.setReg_dt]
  rfl

include hp in
theorem State.laneStep_cxlLinked (d : CxlDev) : (s.cxlLanesOff p).laneStep (s.cxlLinked p d) (cxlUsed p d) :=
  State.laneStep_foldl (fun s _ hl => s.laneStep_laneUp hl _) (fun l hl => cxlLanes_lt hp l ((cxlUsed_sublist p d).subset hl)) _

include hp in
/-- Of the port's lanes those that the link uses are in service. -/
theorem State.laneOn_cxlLinked {l : Nat} (hl : l ∈ cxlLanes p) : (s.cxlLinked p d).laneOn l = decide (l ∈ cxlUsed p d) := by
  have hl48 := cxlLanes_lt hp l hl
  by_cases hu : l ∈ cxlUsed p d
  · obtain ⟨u, -, -, hreg⟩ := State.exists_foldl_lane
      (f := fun s' l => (s'.setFfe l).laneUp l (min d.rate (s.cxlMax p))) (fun s _ hl => s.laneStep_laneUp hl _)
      (fun l hl => cxlLanes_lt hp l ((cxlUsed_sublist p d).subset hl)) ((cxlUsed_sublist p d).nodup (cxlLanes_nodup p))
      (s.cxlLanesOff p) hu
    rw [State.laneOn, State.fld, rLstat, State.cxlLinked, hreg _ (by decide), decide_eq_true hu]
    exact State.laneOn_laneUp _ _ _
  · rw [State.laneOn, State.fld, rLstat, (s.laneStep_cxlLinked hp d).lane l _ hl48 (by decide) hu, decide_eq_false hu]
    exact (s.lanesDown_cxlLanesOff hp).lanes l hl

include hp in
/-- STATE 4 with the width, rate, identity and capacity of the device, and its lanes in service. -/
theorem State.cxlTrain_linked (h : d.trains = true) (hn : s.cxlRefusal p d = none) :
    ∃ t, s.cxlTrain p d = t ∧ t.mem = s.mem ∧ t.cxlSt p = 4 ∧ t.reg (rCxlEvdt p) = s.dt ∧
      t.fld (rCxlLink p) 0 5 = cxlWidth d ∧ t.fld (rCxlLink p) 8 4 = min d.rate (s.cxlMax p) ∧
      t.fld (rCxlDevid p) 0 16 = d.vendor % 65536 ∧ t.fld (rCxlDevid p) 16 16 = d.device % 65536 ∧
      t.reg (rCxlCap p) = BitVec.ofNat 64 (min 4096 d.cap) ∧ ∀ l ∈ cxlLanes p, t.laneOn l = decide (l ∈ cxlUsed p d) := by
  obtain ⟨t, flit, reversed, ht, hshow, hsame, hpstat, hlink, hdevid, hcap, hevdt⟩ := s.cxlTrain_of_accepted h hn
  have hrest := ((s.lanesDown_cxlLanesOff hp).rest.trans (s.laneStep_cxlLinked hp d).rest)
  have hw := cxlWidth_le d
  have hr := s.cxlMax_le p
  refine ⟨t, ht, (hrest.trans hshow).mem, ?_⟩
  simp only [State.cxlSt, State.fld, hpstat, hlink, hdevid, hcap, hevdt, bf_ofNat, fv_eq]
  refine ⟨by omega, hrest.dt, by omega, by omega, by omega, by omega, trivial, fun l hl => ?_⟩
  rw [hsame.laneOn (cxlLanes_lt hp l hl)]
  exact s.laneOn_cxlLinked hp hl

end

end Sys2Proof.Machine
end

section
/-! PROOFS. The commands of the CXL ports (R199, R295, R301 to R304, R409, R411). -/

namespace Sys2Proof.Machine

/-! ### Detection -/

theorem offLanes_rCxlPstat (p : Nat) : offLanes (rCxlPstat p) := offLanes_rCxl p (by decide)

theorem offLanes_rCxlLink (p : Nat) : offLanes (rCxlLink p) := offLanes_rCxl p (by decide)

theorem rCxlPstat_ne_rCxlLink (p : Nat) : rCxlPstat p ≠ rCxlLink p := by simp [rCxlPstat, rCxlLink, rCxl]

/-- The lanes of a port begin to train at 2.5 GT/s, and the port is in STATE 2. -/
def State.cxlLanesTrain (s : State) (p : Nat) : State :=
  (cxlLanes p).foldl (fun s l => s.laneTrain l 2) (s.setFld (rCxlPstat p) 0 3 2)

section
variable (s : State) {p : Nat} (hp : p < 2)
include hp

theorem State.laneStep_cxlLanesTrain : (s.setFld (rCxlPstat p) 0 3 2).laneStep (s.cxlLanesTrain p) (cxlLanes p) :=
  State.laneStep_foldl (fun s _ hl => s.laneStep_laneTrain hl 2) (cxlLanes_lt hp) _

theorem State.rLstat_cxlLanesTrain {l : Nat} (hl : l ∈ cxlLanes p) :
    (s.cxlLanesTrain p).reg (rLstat l) = BitVec.ofNat 64 (fv 8 4 2) := by
  obtain ⟨u, -, -, hu⟩ := State.exists_foldl_lane (f := fun s l => s.laneTrain l 2)
    (fun s _ hl => s.laneStep_laneTrain hl 2) (cxlLanes_lt hp) (cxlLanes_nodup p) (s.setFld (rCxlPstat p) 0 3 2) hl
  rw [rLstat, State.cxlLanesTrain, hu _ (by decide)]
  exact u.rLstat_laneTrain l 2

/-- A device found takes the port to STATE 2, with every lane and CXL_LINK at 2.5 GT/s. -/
theorem State.cxlFound_spec : ∃ t, (s.cxlLanesTrain p).setFld (rCxlLink p) 8 4 2 = t ∧ t.cxlSt p = 2 ∧ t.mem = s.mem ∧
    t.fld (rCxlLink p) 8 4 = 2 ∧ ∀ l ∈ cxlLanes p, t.laneOn l = false ∧ t.fld (rLstat l) 8 4 = 2 := by
  have hstep := s.laneStep_cxlLanesTrain hp
  refine ⟨_, rfl, ?_, ?_, State.fld_setFld_self _ _ (by decide), fun l hl => ?_⟩
  · rw [State.cxlSt, State.fld_setFld_of_ne _ _ (rCxlPstat_ne_rCxlLink p), hstep.fld (offLanes_rCxlPstat p),
      State.fld_setFld_self _ _ (by decide)]
    rfl
  · rw [State.setFld_eq, State.setReg_mem, hstep.rest.mem, State.setFld_eq, State.setReg_mem]
  · have hne : rLstat l ≠ rCxlLink p :=
      (ne_rLane_of_offLanes (cxlLanes_lt hp l hl) (by decide) (offLanes_rCxlLink p)).symm
    rw [State.laneOn, State.fld_setFld_of_ne _ _ hne, State.fld_setFld_of_ne _ _ hne, State.fld, State.fld,
      s.rLstat_cxlLanesTrain hp hl]
    decide

omit hp in
/-- A port's first 100 ms without a device are noted. -/
def State.noteNoDev (s : State) (p : Nat) : State := { s with links := { s.links with noDev := s.links.noDev ++ [p] } }

/-- None found in the first 100 ms is noted, and readiness follows. -/
theorem State.syncCxl_noteNoDev (h : s.cxlSt p = 1) : ∃ t, (s.noteNoDev p).syncCxl = t ∧
    t.links.noDev = s.links.noDev ++ [p] ∧ t.cxlSt p = 1 ∧ t.mem = s.mem := by
  have hsync := (s.noteNoDev p).onlyRegs_syncCxl
  refine ⟨_, rfl, ?_, ?_, hsync.linksOnly.mem⟩
  · rw [hsync.1]
    rfl
  · rw [State.cxlSt, State.fld, rCxlPstat, State.reg_syncCxl_rCxl _ hp (by decide)]
    exact h

end

/-! ### Loss, Recovery and zeroing -/

theorem rPwrReady_ne_rCxl {p o : Nat} (hp : p < 2) (ho : o < 0x1000) : rPwrReady ≠ rCxl p o := by
  unfold rPwrReady rCxl
  omega

section
variable (s : State) {p : Nat} (hp : p < 2) (h : s.cxlSt p = 4)

include hp h in
/-- Readiness goes, and the running commands that touched the port meet CXL_LINK_DOWN. -/
theorem State.cxlLeave_spec : ∃ t, s.cxlLeave p = t ∧ t.mem = s.mem ∧ t.dt = s.dt ∧
    t.cmds = s.cmds.map (fun c => if c.ports.contains p then c.meet stCxlLinkDown else c) ∧
    t.fld rPwrReady (7 + p) 1 = 0 := by
  unfold State.cxlLeave
  rw [if_pos h]
  dsimp only
  split
  case isTrue hr =>
    refine ⟨_, rfl, rfl, rfl, rfl, ?_⟩
    change ((s.setFld rPwrReady (7 + p) 1 0).setFld rPwrReady 3 1 0).fld rPwrReady (7 + p) 1 = 0
    rw [State.fld_setFld_disjoint _ _ (by omega) (by omega), State.fld_setFld_self _ _ (by omega)]
    rfl
  case isFalse hr =>
    have hlt : s.fld rPwrReady (7 + p) 1 < 2 ^ 1 := bf_lt _ _ _
    refine ⟨_, rfl, rfl, rfl, rfl, ?_⟩
    change s.fld rPwrReady (7 + p) 1 = 0
    omega

include hp h in
theorem State.cxlLinkDown_spec : ∃ t, exec (.cxlLinkDown ⟨p, hp⟩) s = .next t ∧ t.cxlSt p = 6 ∧ t.fld (rCxlPstat p) 8 8 = 8 ∧
    t.reg (rCxlEvdt p) = s.dt ∧ t.fld rPwrReady (7 + p) 1 = 0 ∧ t.told 0 stCxlLinkDown ∧ t.mem = s.mem ∧
    t.fld (rCxlLink p) 0 5 = 0 ∧ t.fld (rCxlLink p) 8 4 = 0 ∧ t.fld (rCxlPstat p) 6 2 = 0 ∧
    t.cmds = s.cmds.map (fun c => if c.ports.contains p then c.meet stCxlLinkDown else c) ∧
    ∀ l ∈ cxlLanes p, t.laneOn l = false := by
  obtain ⟨u, hu, hmem, hdt, hcmds, hready⟩ := s.cxlLeave_spec hp h
  have hexec : exec (.cxlLinkDown ⟨p, hp⟩) s =
      .next (((((s.cxlLeave p).setCxl p 6 8).setReg (rCxlEvdt p) s.dt).cxlLanesOff p).cxlEvent p 8) := if_neg (not_not.2 h)
  rw [hu] at hexec
  have hset := u.onlyRegs_setCxl p 6 8
  have hdown := ((u.setCxl p 6 8).setReg (rCxlEvdt p) s.dt).lanesDown_cxlLanesOff hp
  generalize hv : ((u.setCxl p 6 8).setReg (rCxlEvdt p) s.dt).cxlLanesOff p = v at hexec hdown
  have hreg (o : Nat) : (v.cxlEvent p 8).reg o = v.reg o := State.reg_event _ _ _ _ _ _ _
  have hfld (o lo n : Nat) : (v.cxlEvent p 8).fld o lo n = v.fld o lo n := by rw [State.fld, hreg, State.fld]
  have hpstat (lo n : Nat) (hd : lo + n ≤ 6 ∨ 8 ≤ lo) (h64 : lo + n ≤ 64) :
      (v.cxlEvent p 8).fld (rCxlPstat p) lo n = (u.setCxl p 6 8).fld (rCxlPstat p) lo n := by
    rw [hfld, hdown.pstat lo n hd h64, State.fld_setReg_of_ne _ _ (by simp [rCxlPstat, rCxlEvdt, rCxl])]
  refine ⟨_, hexec, ?_, ?_, ?_, ?_, State.told_event _ _ _ _ _ _, ?_, ?_, ?_, ?_, ?_, fun l hl => ?_⟩
  · rw [State.cxlSt, hpstat _ _ (by decide) (by decide)]
    exact u.cxlSt_setCxl p 6 8
  · rw [hpstat _ _ (by decide) (by decide), State.cause_setCxl]
    rfl
  · have hlink : rCxlEvdt p ≠ rCxlLink p := by simp [rCxlEvdt, rCxlLink, rCxl]
    have hpst : rCxlEvdt p ≠ rCxlPstat p := by simp [rCxlEvdt, rCxlPstat, rCxl]
    have hoff : offLanes (rCxlEvdt p) := offLanes_rCxl p (by decide)
    rw [hreg, hdown.reg _ hoff hlink hpst, State.reg_setReg_self]
  · have hne : ∀ o < 0x1000, rPwrReady ≠ rCxl p o := fun o ho => rPwrReady_ne_rCxl hp ho
    have hevdt : rPwrReady ≠ rCxlEvdt p := hne _ (by decide)
    have hpst : rPwrReady ≠ rCxlPstat p := hne _ (by decide)
    rw [hfld, State.fld, hdown.reg _ offLanes_rPwrReady (hne _ (by decide)) (hne _ (by decide)),
      State.reg_setReg_of_ne _ _ hevdt, hset.2 _ (by simpa using hpst)]
    exact hready
  · rw [State.cxlEvent, State.event_mem, hdown.rest.mem, State.setReg_mem, hset.mem, hmem]
  · rw [hfld, State.fld, hdown.link]
    decide
  · rw [hfld, State.fld, hdown.link]
    decide
  · rw [hfld, hdown.inUse]
  · have hcm : (v.cxlEvent p 8).cmds = v.cmds := rfl
    rw [hcm, hdown.rest.cmds, State.setReg_cmds, hset.linksOnly.cmds, hcmds]
  · rw [State.laneOn, hfld]
    exact hdown.lanes l hl

include hp h in
/-- Recovery stops the scans of the port's lanes and counts replays. -/
theorem State.pcieRecovery_spec (n : Nat) : ∃ t, exec (.pcieRecovery ⟨p, hp⟩ n) s = .next t ∧ t.mem = s.mem ∧ t.cxlSt p = 4 ∧
    t.reg (rCxlErr p) = bsat (s.reg (rCxlErr p)) 0 24 n ∧
    ∀ l ∈ cxlLanes p, s.fld (rLeye l) 1 1 = 1 → t.fld (rLeye l) 0 3 = 4 ∧ t.reg (rLeyedt l) = s.dt := by
  have habort (s : State) (l : Nat) (hl : l < 48) := s.laneStep_abortScan hl
  have hstep := State.laneStep_foldl habort (cxlLanes_lt hp) s
  have herr : offLanes (rCxlErr p) := offLanes_rCxl p (by decide)
  have hlanes {l : Nat} (hl : l ∈ cxlLanes p) := State.exists_foldl_lane habort (cxlLanes_lt hp) (cxlLanes_nodup p) s hl
  generalize hv : (cxlLanes p).foldl (fun s l => s.abortScan l) s = v at hstep hlanes
  have hexec : exec (.pcieRecovery ⟨p, hp⟩ n) s = .next (v.setReg (rCxlErr p) (bsat (s.reg (rCxlErr p)) 0 24 n)) := by
    rw [← hstep.reg _ herr, ← hv]
    exact if_neg (not_not.2 h)
  refine ⟨_, hexec, ?_, ?_, State.reg_setReg_self _ _ _, fun l hl hscan => ?_⟩
  · rw [State.setReg_mem, hstep.rest.mem]
  · rw [State.cxlSt, State.fld_setReg_of_ne _ _ (by simp [rCxlPstat, rCxlErr, rCxl]), hstep.fld (offLanes_rCxlPstat p)]
    exact h
  · have hl48 := cxlLanes_lt hp l hl
    obtain ⟨u, hdt, hu, hreg⟩ := hlanes hl
    have hat : ∀ o < 0x40, (v.setReg (rCxlErr p) (bsat (s.reg (rCxlErr p)) 0 24 n)).reg (rLane l o) =
        (u.abortScan l).reg (rLane l o) := fun o ho => (State.sameLanes_setReg _ herr _ l o hl48 ho).trans (hreg o ho)
    have := u.abortScan_scanning hl48 (by rw [State.fld, rLeye, hu _ (by decide)]; exact hscan)
    rw [State.fld, rLeye, rLeyedt, hat _ (by decide), hat _ (by decide), ← hdt]
    exact this

omit h in
theorem State.zeroed_zeroKeys (s : State) (lo n : Nat) : s.zeroed (s.zeroKeys lo n) lo n := by
  intro c
  simp [State.zeroKeys, inRange, List.mem_filter, imp_iff_not_or]

include hp h in
/-- Zeroing of a mapped expander lists nothing of its range and sets CXLPn. -/
theorem State.cxlZeroing_spec (hr : s.fld rPwrReady (7 + p) 1 = 0) : ∃ t, exec (.cxlZeroing ⟨p, hp⟩) s = .next t ∧
    s.zeroed t (cxlBase p) (s.cxlCap p) ∧ t.cmds = s.cmds ∧ t.fld rPwrReady (7 + p) 1 = 1 ∧ t.cxlSt p = 4 := by
  have hexec : exec (.cxlZeroing ⟨p, hp⟩) s = .next ((((s.zeroKeys (cxlBase p) (s.cxlCap p)).setFld rPwrZero (32 + 16 * p) 16
      (s.cxlCap p / 2 ^ 30)).setFld rPwrReady (7 + p) 1 1).syncCxl) :=
    if_neg (not_or.2 ⟨not_not.2 h, by simp [hr]⟩)
  have hzero : rCxlPstat p ≠ rPwrZero := by
    unfold rCxlPstat rCxl rPwrZero
    omega
  have hready : rCxlPstat p ≠ rPwrReady := (rPwrReady_ne_rCxl hp (by decide)).symm
  refine ⟨_, hexec, ?_, ?_, ?_, ?_⟩
  · have hmem := (State.onlyRegs_syncCxl (((s.zeroKeys (cxlBase p) (s.cxlCap p)).setFld rPwrZero (32 + 16 * p) 16
      (s.cxlCap p / 2 ^ 30)).setFld rPwrReady (7 + p) 1 1)).mem
    unfold State.zeroed
    rw [hmem]
    exact s.zeroed_zeroKeys _ _
  · exact (State.onlyRegs_syncCxl _).linksOnly.cmds
  · rw [State.fld_syncCxl _ (by omega) (by omega), State.fld_setFld_self _ _ (by omega)]
    rfl
  · rw [State.cxlSt, State.fld, rCxlPstat, State.reg_syncCxl_rCxl _ hp (by decide), ← rCxlPstat, ← State.fld,
      State.fld_setFld_of_ne _ _ hready, State.fld_setFld_of_ne _ _ hzero]
    exact h

end

/-- Settles O45 (log 60, log 62): bring-up by the outcomes of training, each other command by what its state is left with. -/
theorem cxlPorts : Obligations.CxlPorts := by
  unfold Obligations.CxlPorts
  intro s ⟨p, hp⟩ brings
  have hbr (i : Instr) (d : CxlDev) (hi : exec i s = .next (s.cxlTrain p d)) : brings i d := by
    have hdown := s.lanesDown_cxlLanesOff hp
    cases htr : d.trains with
    | false =>
      have hset := (s.cxlLanesOff p).onlyRegs_setCxl p 1 10
      refine ⟨_, hi.trans (congrArg _ (s.cxlTrain_of_not_trains htr)), hset.mem.trans hdown.rest.mem, fun _ => ⟨?_, ?_⟩,
        fun h => ?_, fun h => ?_⟩
      · exact State.cxlSt_setCxl _ _ _ _
      · exact State.cause_setCxl _ _ _ _
      · exact absurd (htr.symm.trans h) (by decide)
      · exact absurd (htr.symm.trans h) (by decide)
    | true =>
      have hno : ¬ d.trains = false := by simp [htr]
      cases hc : s.cxlRefusal p d with
      | some cause =>
        obtain ⟨t, ht, hmem, hspec⟩ := s.cxlTrain_refused hp htr hc
        refine ⟨t, hi.trans (congrArg _ ht), hmem, fun h => absurd h hno, fun _ c hc' => ?_, fun _ hn => ?_⟩
        · obtain rfl := Option.some.inj (hc.symm.trans hc')
          exact hspec
        · exact absurd (hc.symm.trans hn) (by simp)
      | none =>
        obtain ⟨t, ht, hmem, hspec⟩ := s.cxlTrain_linked hp htr hc
        refine ⟨t, hi.trans (congrArg _ ht), hmem, fun h => absurd h hno, fun _ c hc' => ?_, fun _ _ => hspec⟩
        exact absurd (hc.symm.trans hc') (by simp)
  refine ⟨fun h => ⟨?_, fun u hu hlate hnew => ?_, fun d => hbr _ d (if_pos h)⟩, fun h d => hbr _ d (if_pos h),
    fun h => ⟨s.cxlLinkDown_spec hp h, ?_, s.pcieRecovery_spec hp h, s.cxlZeroing_spec hp h⟩⟩
  · obtain ⟨t, ht, hspec⟩ := s.cxlFound_spec hp
    exact ⟨t, (if_neg (not_not.2 h)).trans (congrArg _ ht), hspec⟩
  · obtain ⟨t, ht, hspec⟩ := s.syncCxl_noteNoDev hp h
    refine ⟨t, ?_, hspec⟩
    rw [← ht]
    change execCxlDetect ⟨p, hp⟩ false s = _
    simp only [execCxlDetect, h, hu, hlate, hnew]
    rfl
  · exact ⟨_, if_pos h, State.told_event _ _ _ _ _ _, rfl, rfl⟩

end Sys2Proof.Machine
end

section
/-! PROOFS. The boot chain (R384, R385): fawn mode, and the record and image that come into force. -/

namespace Sys2Proof.Machine

/-! ### HP0's entry, its queue and its endpoint -/

/-- From s to t the queues, partitions, contexts and entries of HP0 change, free values are used, and of the registers those
of a list alone. -/
structure State.hostStep (s t : State) (offs : List Nat) : Prop where
  rest : t = { s with regs := t.regs, free := t.free, net := t.net, parts := t.parts, ctxs := t.ctxs, queues := t.queues }
  reg : ∀ o, o ∉ offs → t.reg o = s.reg o

theorem State.hostStep.refl (s : State) (offs : List Nat) : s.hostStep s offs := ⟨rfl, fun _ _ => rfl⟩

theorem State.hostStep.trans {s t u : State} {a b : List Nat} (h : s.hostStep t a) (h' : t.hostStep u b) :
    s.hostStep u (a ++ b) where
  rest := by rw [h'.rest, h.rest]
  reg o ho := by
    rw [List.mem_append, not_or] at ho
    exact (h'.reg o ho.2).trans (h.reg o ho.1)

theorem State.hostStep.mono {s t : State} {a b : List Nat} (h : s.hostStep t a) (hs : a ⊆ b) : s.hostStep t b :=
  ⟨h.rest, fun o ho => h.reg o fun hm => ho (hs hm)⟩

section
variable {s t : State} {offs : List Nat} (h : s.hostStep t offs)
include h

theorem State.hostStep.mem : t.mem = s.mem := by rw [h.rest]
theorem State.hostStep.pwr : t.pwr = s.pwr := by rw [h.rest]
theorem State.hostStep.sec : t.sec = s.sec := by rw [h.rest]
theorem State.hostStep.hbmKeys : t.hbmKeys = s.hbmKeys := by rw [h.rest]

theorem State.hostStep.fld {o : Nat} (ho : o ∉ offs) (lo n : Nat) : t.fld o lo n = s.fld o lo n := by
  rw [State.fld, h.reg o ho, State.fld]

end

theorem State.hostStep_setReg (s : State) (o : Nat) (v : W64) : s.hostStep (s.setReg o v) [o] :=
  ⟨rfl, (s.onlyRegs_setReg o v).2⟩

theorem State.hostStep_newNonce (s : State) : s.hostStep s.newNonce [rSecDbgnonce] := by
  have hbits : s.hostStep (s.takeBits 64).2 [] := ⟨rfl, fun _ _ => rfl⟩
  exact hbits.trans (State.hostStep_setReg _ _ _)

theorem State.hostStep_newPaths (s : State) (n : Nat) : s.hostStep (s.newPaths n).2 [] := by
  induction n generalizing s with
  | zero => exact .refl s []
  | succ n ih =>
    have hpath : s.hostStep s.newPath.2 [] := ⟨rfl, fun _ _ => rfl⟩
    exact hpath.trans (ih s.newPath.2)

theorem State.hostStep_setPeer (s : State) (i part : Nat) (ws : List W64) : s.hostStep (s.setPeer i part ws) [entReg i] := by
  have hent (t : State) (e : Entry) : t.hostStep (t.setEnt i e) [] := ⟨rfl, fun _ _ => rfl⟩
  exact ((s.hostStep_newPaths _).trans (hent _ _)).trans (State.hostStep_setReg _ _ _)

theorem State.hostStep_setHp0Endpoint (s : State) : s.hostStep s.setHp0Endpoint [rCtCtl, entReg (hostEnt 0)] := by
  have hnet (x : Endpoint) : s.hostStep { s with net := { s.net with endpoints := tset {} s.net.endpoints 0 x } } [] :=
    ⟨rfl, fun _ _ => rfl⟩
  unfold State.setHp0Endpoint
  split
  · dsimp only
    split
    · exact ((hnet _).trans (State.hostStep_setPeer _ _ _ _)).mono (by simp)
    · exact ((hnet _).trans (State.hostStep_setReg _ _ _)).trans (State.hostStep_setPeer _ _ _ _)
  · exact ((hnet _).trans (State.hostStep_setPeer _ _ _ _)).mono (by simp)

theorem State.hostStep_settleHp0 (s : State) : s.hostStep s.settleHp0 [rQpQ 0, rQpQreg 0] := by
  have hp0 : s.hostStep s.setHp0 [rQpQ 0, rQpQreg 0] := by
    have hpart (t : State) (x : Part) : t.hostStep (t.setPart 0 x) [] := ⟨rfl, fun _ _ => rfl⟩
    have hctx (t : State) (x : Ctx) : t.hostStep (t.setCtx 0 x) [] := ⟨rfl, fun _ _ => rfl⟩
    have hqueue (t : State) (x : Queue) : t.hostStep (t.setQueue 0 x) [] := ⟨rfl, fun _ _ => rfl⟩
    exact ((((hpart _ _).trans (hctx _ _)).trans (State.hostStep_setReg _ _ _)).trans (State.hostStep_setReg _ _ _)).trans
      (hqueue _ _)
  unfold State.settleHp0
  dsimp only
  split_ifs
  · exact .refl s _
  · exact hp0
  · exact .refl s _

/-- The registers that change where the boot chain sets HP0 up. -/
def hp0Regs : List Nat := [rSecDbgnonce, rCtCtl, entReg (hostEnt 0), rQpQ 0, rQpQreg 0]

theorem rSecStat_notMem_hp0Regs : rSecStat ∉ hp0Regs := by decide

theorem State.hostStep_boot (s : State) : s.hostStep (s.newNonce.setHp0Endpoint).settleHp0 hp0Regs :=
  (s.hostStep_newNonce.trans (State.hostStep_setHp0Endpoint _)).trans (State.hostStep_settleHp0 _)

/-! ### What the boot chain leaves -/

/-- From s to t memory, the steps of start-up, the record and the image are the same. -/
structure State.bootKeeps (s t : State) : Prop where
  mem : t.mem = s.mem
  pwr : t.pwr = s.pwr
  record : t.sec.record = s.sec.record
  image : t.sec.image = s.sec.image

theorem State.bootKeeps.trans {s t u : State} (h : s.bootKeeps t) (h' : t.bootKeeps u) : s.bootKeeps u :=
  ⟨h'.mem.trans h.mem, h'.pwr.trans h.pwr, h'.record.trans h.record, h'.image.trans h.image⟩

theorem State.bootKeeps_foldl {α : Type} {f : State → α → State} (hf : ∀ (s : State) a, s.bootKeeps (f s a)) (l : List α)
    (s : State) : s.bootKeeps (l.foldl f s) := by
  induction l generalizing s with
  | nil => exact ⟨rfl, rfl, rfl, rfl⟩
  | cons a l ih => exact (hf s a).trans (ih _)

theorem State.bootKeeps_setReg (s : State) (o : Nat) (v : W64) : s.bootKeeps (s.setReg o v) := ⟨rfl, rfl, rfl, rfl⟩

theorem State.hostStep.bootKeeps {s t : State} {offs : List Nat} (h : s.hostStep t offs) : s.bootKeeps t :=
  ⟨h.mem, h.pwr, congrArg Sec.record h.sec, congrArg Sec.image h.sec⟩

theorem State.onlyRegs.bootKeeps {s t : State} {offs : List Nat} (h : s.onlyRegs t offs) : s.bootKeeps t := by
  rw [h.1]
  exact ⟨rfl, rfl, rfl, rfl⟩

theorem State.bootKeeps_bootBundle (s : State) (b : Nat × Nat) : s.bootKeeps (s.bootBundle b) := by
  unfold State.bootBundle
  dsimp only
  split
  · exact ⟨rfl, rfl, rfl, rfl⟩
  · exact s.bootKeeps_setReg _ _

/-- The registers that show the fuses and the patch area change; of SEC_STAT the patch slots alone. -/
theorem State.bootKeeps_show (s : State) : s.bootKeeps (s.showFuses).showSlots := by
  have hset (t : State) (o : Nat) (v : W64) := t.bootKeeps_setReg o v
  exact (((((hset _ _ _).trans (hset _ _ _)).trans (hset _ _ _)).trans (hset _ _ _)).trans (hset _ _ _)).trans (hset _ _ _)

theorem State.fld_show (s : State) {lo n : Nat} (h : lo + n ≤ 12) :
    ((s.showFuses).showSlots).fld rSecStat lo n = s.fld rSecStat lo n := by
  have h1 : rSecStat ≠ rSecPolicy := by decide
  have h2 : rSecStat ≠ rSecDcstat := by decide
  have h3 : rSecStat ≠ rCfgKeystat := by decide
  unfold State.showSlots State.showFuses
  rw [State.fld_setFld_disjoint _ _ (by omega) (by omega), State.fld_setFld_of_ne _ _ h3, State.fld_setFld_of_ne _ _ h3,
    State.fld_setFld_of_ne _ _ h3, State.fld_setFld_of_ne _ _ h2, State.fld_setReg_of_ne _ _ h1]

section
variable (s : State)

/-- HP0's nonce, endpoint and queue leave the rest of the boot as it is. -/
theorem State.hp0Boot_spec : ∃ t, (s.newNonce.setHp0Endpoint).settleHp0 = t ∧ s.bootKeeps t ∧
    ∀ lo n, t.fld rSecStat lo n = s.fld rSecStat lo n :=
  ⟨_, rfl, s.hostStep_boot.bootKeeps, s.hostStep_boot.fld rSecStat_notMem_hp0Regs⟩

/-- SEC_STAT and the power state show fawn mode for a cause. -/
def State.fawnMarked (cause : Nat) : State :=
  (({ s with pwr := { s.pwr with fawn := true } } : State).setFld rSecStat 0 2 2).setFld rSecStat 2 3 cause

/-- The secret of the Alias keys follows the image and the record. -/
def State.withCdi : State := s.updSec (fun x => { x with cdi := s.cdiNow })

/-- Fawn mode with its cause; the record stands. -/
theorem State.enterFawn_spec {cause : Nat} (hc : cause < 8) : ∃ t, s.enterFawn cause = t ∧ t.mem = s.mem ∧
    t.pwr = { s.pwr with fawn := true } ∧ t.sec.record = s.sec.record ∧ t.fld rSecStat 0 2 = 2 ∧
    t.fld rSecStat 2 3 = cause := by
  have hstat (lo n : Nat) : (s.fawnMarked cause).withCdi.fld rSecStat lo n = (s.fawnMarked cause).fld rSecStat lo n := rfl
  have heq : s.enterFawn cause = ((s.fawnMarked cause).withCdi.newNonce.setHp0Endpoint).settleHp0 := rfl
  obtain ⟨t, ht, hkeep, hfld⟩ := (s.fawnMarked cause).withCdi.hp0Boot_spec
  refine ⟨t, heq.trans ht, hkeep.mem, hkeep.pwr, hkeep.record, ?_, ?_⟩
  · rw [hfld, hstat, State.fawnMarked, State.fld_setFld_disjoint _ _ (by decide) (by decide),
      State.fld_setFld_self _ _ (by decide)]
    rfl
  · rw [hfld, hstat, State.fawnMarked, State.fld_setFld_self _ _ (by decide)]
    exact Nat.mod_eq_of_lt hc

/-- The image in force, with the floor of its fuses. -/
def State.imageTaken (image : List Byte) : State :=
  (s.updSec (fun x =>
    { x with image := some image, fuses := { x.fuses with fwSvn := max x.fuses.fwSvn (objSvn image) } })).withCdi

/-- The registers that show an image. -/
def State.imageShown (image : List Byte) : State :=
  let t := (List.range 6).foldl (fun s w => s.setReg (rSecMeas w) (BitVec.ofNat 64 (leAt (objDigest image) (8 * w) 8))) s
  (t.setFld rCfgFlash 0 16 (objFabBase image)).setReg rSecBootdt t.dt

theorem State.bootKeeps_imageShown (image : List Byte) : s.bootKeeps (s.imageShown image) :=
  (State.bootKeeps_foldl (fun s _ => s.bootKeeps_setReg _ _) _ s).trans
    ((State.bootKeeps_setReg _ _ _).trans (State.bootKeeps_setReg _ _ _))

/-- The bundles of the patch area that apply. -/
def State.withBundles : State := s.allBundles.foldl (fun s b => s.bootBundle b) s

theorem State.bootKeeps_withBundles : s.bootKeeps s.withBundles :=
  State.bootKeeps_foldl (fun s b => s.bootKeeps_bootBundle b) _ s

/-- The image is in force, and BOOT shows a good boot. -/
theorem State.bootImage_spec (image : List Byte) : ∃ t, s.bootImage image = t ∧ t.mem = s.mem ∧ t.pwr = s.pwr ∧
    t.sec.record = s.sec.record ∧ t.sec.image = some image ∧ t.fld rSecStat 0 2 = 1 := by
  have heq : s.bootImage image =
      (((((s.imageTaken image).imageShown image).withBundles.setFld rSecStat 0 2 1).newNonce.setHp0Endpoint).settleHp0) := rfl
  have hkeep := ((s.imageTaken image).bootKeeps_imageShown image).trans (State.bootKeeps_withBundles _)
  obtain ⟨t, ht, hboot, hfld⟩ := ((((s.imageTaken image).imageShown image).withBundles).setFld rSecStat 0 2 1).hp0Boot_spec
  have hall := (hkeep.trans (State.bootKeeps_setReg _ _ _)).trans hboot
  refine ⟨t, heq.trans ht, hall.mem, hall.pwr, hall.record, hall.image, ?_⟩
  rw [hfld, State.fld_setFld_self _ _ (by decide)]
  rfl

/-- The provisioning record in force, and its fuses. -/
def State.recordTaken (record : List Byte) : State :=
  (s.updSec (fun x =>
    { x with record := some record,
             fuses := { x.fuses with rootRev := x.fuses.rootRev ||| (objRevoke record &&& (15 - 2 ^ kbSlot (objKeyBlock record))),
                                     prSvn := max x.fuses.prSvn (objSvn record) } })).setFld
    rSecPolicy 12 2 (kbSlot (objKeyBlock record))

theorem State.recordTaken_spec (record : List Byte) : ∃ u, s.recordTaken record = u ∧ u.mem = s.mem ∧ u.pwr = s.pwr ∧
    u.sec.record = some record := ⟨_, rfl, rfl, rfl, rfl⟩

/-- A record that verifies is in force; the image follows, or fawn mode. -/
theorem State.bootRecord_spec (record : List Byte) : ∃ t, s.bootRecord record = t ∧ t.mem = s.mem ∧
    t.pwr.steps = s.pwr.steps ∧ t.sec.record = some record ∧
    (t.fld rSecStat 0 2 = 1 ∧ t.sec.image.isSome = true ∨ t.fld rSecStat 0 2 = 2 ∧ t.pwr.fawn = true) := by
  have hcause (st : Nat) : (if st = stImageRollback then 3 else 2) < 8 := by split <;> decide
  obtain ⟨u, hu, humem, hupwr, hurecord⟩ := s.recordTaken_spec record
  have himage : ∃ t, u.bootImage (u.flashObj imageArea imageMax) = t ∧ t.mem = s.mem ∧ t.pwr.steps = s.pwr.steps ∧
      t.sec.record = some record ∧ t.fld rSecStat 0 2 = 1 ∧ t.sec.image.isSome = true := by
    obtain ⟨t, ht, hmem, hpwr, hrecord, himage, hboot⟩ := u.bootImage_spec (u.flashObj imageArea imageMax)
    exact ⟨t, ht, hmem.trans humem, by rw [hpwr, hupwr], hrecord.trans hurecord, hboot, by rw [himage]; rfl⟩
  have hfawn (st : Nat) : ∃ t, u.enterFawn (if st = stImageRollback then 3 else 2) = t ∧ t.mem = s.mem ∧
      t.pwr.steps = s.pwr.steps ∧ t.sec.record = some record ∧ t.fld rSecStat 0 2 = 2 ∧ t.pwr.fawn = true := by
    obtain ⟨t, ht, hmem, hpwr, hrecord, hboot, -⟩ := u.enterFawn_spec (hcause st)
    exact ⟨t, ht, hmem.trans humem, by rw [hpwr, hupwr], hrecord.trans hurecord, hboot, by rw [hpwr]⟩
  unfold State.recordTaken at hu
  unfold State.bootRecord
  dsimp only
  rw [hu]
  split
  · obtain ⟨t, ht, hmem, hsteps, hrecord, hboot⟩ := himage
    exact ⟨t, ht, hmem, hsteps, hrecord, .inl hboot⟩
  · obtain ⟨t, ht, hmem, hsteps, hrecord, hboot⟩ := hfawn _
    exact ⟨t, ht, hmem, hsteps, hrecord, .inr hboot⟩

/-! ### BOOT_CHAIN -/

/-- Without flash the boot chain ends in fawn mode with cause 4. -/
theorem State.bootChain_none (hup : s.pwr.up = true) (h0 : s.did 0 = true) (h1 : s.did 1 = false) :
    ∃ t, exec (.bootChain none) s = .next t ∧ t.did 1 = true ∧ t.pwr.fawn = true ∧ t.fld rSecStat 0 2 = 2 ∧
      t.fld rSecStat 2 3 = 4 ∧ t.mem = s.mem := by
  have hexec : exec (.bootChain none) s = .next (((s.stepDone 1).enterFawn 4).showFuses).showSlots :=
    if_neg (by simp [hup, h0, h1])
  obtain ⟨u, hu, hmem, hpwr, -, hboot, hcause⟩ := (s.stepDone 1).enterFawn_spec (cause := 4) (by decide)
  rw [hu] at hexec
  have hshow := u.bootKeeps_show
  refine ⟨_, hexec, ?_, ?_, ?_, ?_, hshow.mem.trans hmem⟩
  · rw [State.did, hshow.pwr, hpwr]
    simp [State.stepDone]
  · rw [hshow.pwr, hpwr]
  · rw [u.fld_show (by decide), hboot]
  · rw [u.fld_show (by decide), hcause]

/-- What the flash device is, as CFG_STAT and CFG_FLASH show it, once the boot chain is taken as done. -/
def State.flashFound (f : FlashId) : State :=
  ((s.stepDone 1).setFld rCfgStat 8 2 (if f.octal then 3 else 2)).setReg rCfgFlash
    (BitVec.ofNat 64 (fv 32 24 f.jedec + fv 16 16 f.cap))

theorem State.flashObj_of_fab {t : State} (h : t.fab = s.fab) (a room : Nat) : t.flashObj a room = s.flashObj a room := by
  have hbytes (a n : Nat) : t.flashBytes a n = s.flashBytes a n := by
    unfold State.flashBytes
    rw [h]
  unfold State.flashObj
  rw [hbytes, hbytes]

theorem State.verify_of_sec {t : State} (h : t.sec = s.sec) : t.verify = s.verify := by
  funext k o
  unfold State.verify State.rootOk2
  rw [h]

theorem State.flashFound_spec (f : FlashId) : ∃ u, s.flashFound f = u ∧ u.mem = s.mem ∧ u.did 1 = true ∧
    u.flashObj recordArea 0x10000 = s.flashObj recordArea 0x10000 ∧ u.verify = s.verify := by
  have hrest : (s.flashFound f).mem = s.mem ∧ (s.flashFound f).pwr = (s.stepDone 1).pwr ∧ (s.flashFound f).fab = s.fab ∧
      (s.flashFound f).sec = s.sec := by
    unfold State.flashFound
    simp [State.setFld_eq, State.stepDone]
  obtain ⟨hmem, hpwr, hfab, hsec⟩ := hrest
  refine ⟨_, rfl, hmem, ?_, s.flashObj_of_fab hfab _ _, s.verify_of_sec hsec⟩
  rw [State.did, hpwr]
  simp [State.stepDone]

/-- With flash it ends with the record in force, or in fawn mode with cause 1. -/
theorem State.bootChain_some (hup : s.pwr.up = true) (h0 : s.did 0 = true) (h1 : s.did 1 = false) (f : FlashId) :
    ∃ t, exec (.bootChain (some f)) s = .next t ∧ t.did 1 = true ∧ t.mem = s.mem ∧
      let record := s.flashObj recordArea 0x10000
      (s.verify .record record ≠ 0 → t.pwr.fawn = true ∧ t.fld rSecStat 0 2 = 2 ∧ t.fld rSecStat 2 3 = 1) ∧
      (s.verify .record record = 0 → t.sec.record = some record ∧
        (t.fld rSecStat 0 2 = 1 ∧ t.sec.image.isSome = true ∨ t.fld rSecStat 0 2 = 2 ∧ t.pwr.fawn = true)) := by
  obtain ⟨u, hu, hmem, hdid, hobj, hverify⟩ := s.flashFound_spec f
  have hexec : exec (.bootChain (some f)) s =
      .next ((if u.verify .record (u.flashObj recordArea 0x10000) = 0 then u.bootRecord (u.flashObj recordArea 0x10000)
        else u.enterFawn 1).showFuses).showSlots := by
    rw [← hu]
    exact if_neg (by simp [hup, h0, h1])
  rw [hobj, hverify] at hexec
  by_cases hv : s.verify .record (s.flashObj recordArea 0x10000) = 0
  case pos =>
    obtain ⟨v, hv', hvmem, hsteps, hrecord, hboot⟩ := u.bootRecord_spec (s.flashObj recordArea 0x10000)
    have hshow := v.bootKeeps_show
    rw [if_pos hv, hv'] at hexec
    refine ⟨_, hexec, ?_, ?_, fun h => absurd hv h, fun _ => ⟨hshow.record.trans hrecord, ?_⟩⟩
    · rw [State.did, hshow.pwr, hsteps]
      exact hdid
    · rw [hshow.mem, hvmem, hmem]
    · rw [v.fld_show (by decide), hshow.image, hshow.pwr]
      exact hboot
  case neg =>
    obtain ⟨v, hv', hvmem, hpwr, -, hboot, hcause⟩ := u.enterFawn_spec (cause := 1) (by decide)
    have hshow := v.bootKeeps_show
    rw [if_neg hv, hv'] at hexec
    refine ⟨_, hexec, ?_, ?_, fun _ => ⟨?_, ?_, ?_⟩, fun h => absurd h hv⟩
    · rw [State.did, hshow.pwr, hpwr]
      exact hdid
    · rw [hshow.mem, hvmem, hmem]
    · rw [hshow.pwr, hpwr]
    · rw [v.fld_show (by decide), hboot]
    · rw [v.fld_show (by decide), hcause]

end

end Sys2Proof.Machine
end

section
/-! PROOFS. The steps of start-up on the core (R191, R408, R409, R411): BIST, lane calibration, HBM training and zeroing, and the
engines. -/

namespace Sys2Proof.Machine

/-! ### Steps that are done -/

theorem State.did_stepDone_self (s : State) (k : Nat) : (s.stepDone k).did k = true := by simp [State.did, State.stepDone]

theorem State.did_stepDone (s : State) {j : Nat} (k : Nat) (h : s.did j = true) : (s.stepDone k).did j = true := by
  have hm : j ∈ s.pwr.steps := by simpa [State.did] using h
  simp [State.did, State.stepDone, hm]

theorem State.did_congr {s t : State} (h : t.pwr = s.pwr) (k : Nat) : t.did k = s.did k := by rw [State.did, h, State.did]

/-! ### What starts by itself -/

theorem State.linksOnly_cxlBegin (s : State) (p : Nat) : s.linksOnly (s.cxlBegin p) := by
  have hset (t : State) (st : Nat) := (t.onlyRegs_setCxl p st 0).linksOnly
  have hlinks (t : State) (x : Links) : t.linksOnly { t with links := x } := rfl
  unfold State.cxlBegin
  dsimp only
  split
  · exact (hlinks s _).trans (hset _ _)
  · exact ((hlinks s _).trans (hset _ _)).trans (hlinks _ _)

theorem State.reg_cxlBegin (s : State) {p o : Nat} (h : o ≠ rCxlPstat p) : (s.cxlBegin p).reg o = s.reg o := by
  have hlinks (t : State) (x : Links) : ({ t with links := x } : State).reg o = t.reg o := rfl
  have hset (t : State) (st : Nat) := (t.onlyRegs_setCxl p st 0).2 o (by simpa using h)
  unfold State.cxlBegin
  dsimp only
  split
  · rw [hset, hlinks]
  · rw [hlinks, hset, hlinks]

/-- CXL bring-up begins where both steps before it are done; of PWR_READY bit 3 alone may change. -/
theorem State.advance_spec (s : State) : ∃ t, s.advance = t ∧ t.mem = s.mem ∧ (∀ k, s.did k = true → t.did k = true) ∧
    (s.did 3 = true → s.did 6 = true → t.did 11 = true) ∧
    ∀ b, b < 3 ∨ 3 < b → b < 64 → t.fld rPwrReady b 1 = s.fld rPwrReady b 1 := by
  unfold State.advance
  split
  case isTrue h =>
    refine ⟨s, rfl, rfl, fun _ h => h, fun h3 h6 => ?_, fun _ _ _ => rfl⟩
    simpa [h3, h6] using h
  case isFalse h =>
    have hbegin := (State.linksOnly_cxlBegin (s.stepDone 11) 0).trans (State.linksOnly_cxlBegin _ 1)
    have hsync := State.onlyRegs_syncCxl (((s.stepDone 11).cxlBegin 0).cxlBegin 1)
    have hrest := hbegin.trans hsync.linksOnly
    refine ⟨_, rfl, hrest.mem, fun k hk => ?_, fun _ _ => ?_, fun b hb h64 => ?_⟩
    · rw [State.did_congr hrest.pwr]
      exact s.did_stepDone 11 hk
    · rw [State.did_congr hrest.pwr]
      exact s.did_stepDone_self 11
    · rw [State.fld_syncCxl _ (by omega) (by omega), State.fld, State.reg_cxlBegin _ (rPwrReady_ne_rCxl (by decide) (by decide)),
        State.reg_cxlBegin _ (rPwrReady_ne_rCxl (by decide) (by decide))]
      rfl

theorem State.laneCalibration_spec (s : State) (h : s.stepOpen 3 [0] = true) : ∃ t, exec .laneCalibration s = .next t ∧
    t.did 3 = true ∧ t.mem = s.mem ∧ (s.did 6 = true → t.did 11 = true) := by
  obtain ⟨t, ht, hmem, hdid, hcxl, -⟩ := (s.stepDone 3).advance_spec
  refine ⟨t, (if_pos h).trans (congrArg _ ht), hdid 3 (s.did_stepDone_self 3), hmem, fun h6 => ?_⟩
  exact hcxl (s.did_stepDone_self 3) (s.did_stepDone 3 h6)

/-! ### BIST -/

/-- Retired engines stay retired, and what partition 0 was told of stays told. -/
structure State.bistKeeps (s t : State) : Prop where
  mem : t.mem = s.mem
  pwr : t.pwr = s.pwr
  dt : t.dt = s.dt
  retired : ∀ n, (s.eng n).retired = true → (t.eng n).retired = true
  events : (s.part 0).events ⊆ (t.part 0).events

theorem State.bistKeeps.refl (s : State) : s.bistKeeps s := ⟨rfl, rfl, rfl, fun _ h => h, List.Subset.refl _⟩

theorem State.bistKeeps.trans {s t u : State} (h : s.bistKeeps t) (h' : t.bistKeeps u) : s.bistKeeps u :=
  ⟨h'.mem.trans h.mem, h'.pwr.trans h.pwr, h'.dt.trans h.dt, fun n hr => h'.retired n (h.retired n hr),
    List.Subset.trans h.events h'.events⟩

theorem State.bistKeeps.told {s t : State} (h : s.bistKeeps t) {code : Nat} (ht : s.told 0 code) : t.told 0 code := by
  obtain ⟨v, hv, hcode, hdt⟩ := ht
  exact ⟨v, h.events hv, hcode, hdt.trans h.dt.symm⟩

section
variable (s : State)

theorem State.bistKeeps_setReg (o : Nat) (v : W64) : s.bistKeeps (s.setReg o v) :=
  ⟨rfl, rfl, rfl, fun _ h => h, List.Subset.refl _⟩

theorem State.bistKeeps_healthChange (f : List HRec → List HRec) : s.bistKeeps (s.healthChange f) :=
  ⟨rfl, rfl, rfl, fun _ h => h, List.Subset.refl _⟩

theorem State.bistKeeps_event (code arg0 arg1 : Nat) : s.bistKeeps (s.event 0 code none arg0 arg1) := by
  refine ⟨rfl, rfl, rfl, fun _ h => h, ?_⟩
  rw [State.event, State.updPart_eq, State.part_setPart_self]
  exact List.subset_append_left _ _

theorem State.bistKeeps_retire (n : Nat) : s.bistKeeps (s.updEng n (fun e => { e with retired := true })) := by
  refine ⟨rfl, rfl, rfl, fun m h => ?_, List.Subset.refl _⟩
  rw [State.updEng_eq, State.eng_setEng]
  split
  · rfl
  · exact h

/-- The engine is retired. -/
theorem State.bistRetire_spec (n : Nat) : s.bistKeeps (s.bistRetire n) ∧ ((s.bistRetire n).eng n).retired = true := by
  have hrest (t : State) : t.bistKeeps (((t.setFld (rPwrEng n) 12 2 3).healthChange
      (fun h => h ++ [.engine n 2 (t.setFld (rPwrEng n) 12 2 3).dt])).event 0 stEngineRetire none (fv 8 2 2 + fv 0 6 n) 0) :=
    ((t.bistKeeps_setReg _ _).trans (State.bistKeeps_healthChange _ _)).trans (State.bistKeeps_event _ _ _ _)
  refine ⟨(s.bistKeeps_retire n).trans (hrest _), (hrest _).retired n ?_⟩
  rw [State.updEng_eq, State.eng_setEng_self]

/-- A fault leaves its engine retired, or a repair of which HP0 is told. -/
theorem State.bistFault_spec (n : Nat) (f : BistFault) : s.bistKeeps (s.bistFault n f) ∧
    (((s.bistFault n f).eng n).retired = true ∨ (s.bistFault n f).told 0 stLineRemap) := by
  unfold State.bistFault
  split
  case isTrue h => exact ⟨.refl s, .inl h⟩
  case isFalse h =>
    dsimp only
    generalize (if bistLoc f = .unlocated then (s.reg (rMtRemap n), false)
      else spareTry (bistLoc f) 3 [] (spareDoubt (s.reg (rMtRemap n)) (bistLoc f))) = w
    split
    · exact ⟨((s.bistKeeps_setReg _ _).trans (State.bistKeeps_healthChange _ _)).trans (State.bistKeeps_event _ _ _ _),
        .inr (State.told_event _ _ _ _ _ _)⟩
    · exact ⟨(s.bistRetire_spec n).1, .inl (s.bistRetire_spec n).2⟩

theorem State.bistFaults_spec (faults : List (Fin 64 × BistFault)) :
    let t := faults.foldl (fun s f => s.bistFault f.1 f.2) s
    s.bistKeeps t ∧ ∀ f ∈ faults, (t.eng f.1).retired = true ∨ t.told 0 stLineRemap := by
  induction faults generalizing s with
  | nil => exact ⟨.refl s, by simp⟩
  | cons g faults ih =>
    obtain ⟨hstep, hdone⟩ := s.bistFault_spec g.1 g.2
    obtain ⟨hkeep, hall⟩ := ih (s.bistFault g.1 g.2)
    refine ⟨hstep.trans hkeep, fun f hf => ?_⟩
    rcases List.mem_cons.1 hf with rfl | hf
    · exact hdone.imp (hkeep.retired _) hkeep.told
    · exact hall f hf

theorem State.bist_spec (h : s.stepOpen 2 [0] = true) (faults : List (Fin 64 × BistFault)) :
    ∃ t, exec (.bist faults) s = .next t ∧ t.did 2 = true ∧ t.mem = s.mem ∧
      ∀ f ∈ faults, (t.eng f.1).retired = true ∨ t.told 0 stLineRemap := by
  obtain ⟨hkeep, hall⟩ := (s.stepDone 2).bistFaults_spec faults
  exact ⟨_, if_pos h, (State.did_congr hkeep.pwr 2).trans (s.did_stepDone_self 2), hkeep.mem, hall⟩

/-! ### HBM -/

/-- No soft repair is left in the health record. -/
theorem State.hbmTraining_spec (h : s.stepOpen 4 [0] = true) : ∃ t, exec .hbmTraining s = .next t ∧ t.did 4 = true ∧
    t.mem = s.mem ∧ ∀ r ∈ t.health.now, isRepair r = false := by
  have hexec : exec .hbmTraining s = .next (if (s.stepDone 4).health.now.any isRepair then
      (s.stepDone 4).healthChange (fun h => h.filter (fun r => !isRepair r)) else s.stepDone 4) := if_pos h
  refine ⟨_, hexec, ?_⟩
  split
  case isTrue =>
    have hnow : ((s.stepDone 4).healthChange (fun h => h.filter (fun r => !isRepair r))).health.now =
      s.health.now.filter (fun r => !isRepair r) := rfl
    have hkeep := (s.stepDone 4).bistKeeps_healthChange (fun h => h.filter (fun r => !isRepair r))
    refine ⟨(State.did_congr hkeep.pwr 4).trans (s.did_stepDone_self 4), hkeep.mem, fun r hr => ?_⟩
    rw [hnow, List.mem_filter] at hr
    simpa using hr.2
  case isFalse hno =>
    refine ⟨s.did_stepDone_self 4, rfl, fun r hr => ?_⟩
    simpa using fun hrep => hno (List.any_eq_true.2 ⟨r, hr, hrep⟩)

/-- K[0] to K[3] are drawn one after the other. -/
theorem State.drawKeys_spec : ∃ t, s.drawKeys = t ∧ t = { s with free := t.free, hbmKeys := t.hbmKeys } ∧
    ∀ k < 4, tget 0 t.hbmKeys k = BitVec.ofNat 64 (Config.freeNat (s.free + k) % 2 ^ 64) := by
  refine ⟨_, rfl, rfl, fun k hk => ?_⟩
  have hkeys : s.drawKeys.hbmKeys = tset 0 (tset 0 (tset 0 (tset 0 s.hbmKeys 0
      (BitVec.ofNat 64 (Config.freeNat s.free % 2 ^ 64))) 1 (BitVec.ofNat 64 (Config.freeNat (s.free + 1) % 2 ^ 64))) 2
      (BitVec.ofNat 64 (Config.freeNat (s.free + 2) % 2 ^ 64))) 3 (BitVec.ofNat 64 (Config.freeNat (s.free + 3) % 2 ^ 64)) := rfl
  rw [hkeys]
  simp only [tget_tset]
  interval_cases k <;> rfl

/-- HBM empty under fresh keys, with no dump kept over the reset. -/
theorem State.zeroHbm_spec (hk : s.rst.kept = []) : ∃ t, ((s.stepDone 5).drawKeys.zeroKeys 0 (2 ^ 39)).restoreDump = t ∧
    t.did 5 = true ∧ s.zeroed t 0 (2 ^ 39) ∧
    ∀ k < 4, tget 0 t.hbmKeys k = BitVec.ofNat 64 (Config.freeNat (s.free + k) % 2 ^ 64) := by
  obtain ⟨u, hu, hrest, hkeys⟩ := (s.stepDone 5).drawKeys_spec
  have hkept : (u.zeroKeys 0 (2 ^ 39)).rst.kept = [] := by
    change u.rst.kept = []
    rw [hrest]
    exact hk
  have hrestore : (u.zeroKeys 0 (2 ^ 39)).restoreDump = (u.zeroKeys 0 (2 ^ 39)).updRst (fun r => { r with kept := [] }) := by
    unfold State.restoreDump
    dsimp only
    rw [hkept]
    rfl
  have hmem : u.mem = s.mem := by rw [hrest]; rfl
  have hpwr : u.pwr = (s.stepDone 5).pwr := by rw [hrest]
  rw [hu, hrestore]
  refine ⟨_, rfl, ?_, ?_, hkeys⟩
  · exact (State.did_congr hpwr 5).trans (s.did_stepDone_self 5)
  · unfold State.zeroed
    rw [← hmem]
    exact u.zeroed_zeroKeys 0 (2 ^ 39)

theorem rPwrReady_notMem_settle : rPwrReady ∉ [rQpQ 0, rQpQreg 0] := by decide

theorem State.hbmZeroing_spec (h : s.stepOpen 5 [4] = true) (hk : s.rst.kept = []) :
    ∃ t, exec .hbmZeroing s = .next t ∧ t.did 5 = true ∧ s.zeroed t 0 (2 ^ 39) ∧ t.fld rPwrReady readyHbm 1 = 1 ∧
      ∀ k, k < 4 → ∃ i, s.free ≤ i ∧ tget 0 t.hbmKeys k = BitVec.ofNat 64 (Config.freeNat i % 2 ^ 64) := by
  have hexec : exec .hbmZeroing s = .next
      ((((s.stepDone 5).drawKeys.zeroKeys 0 (2 ^ 39)).restoreDump.setFld rPwrReady readyHbm 1 1).settleHp0) := if_pos h
  obtain ⟨u, hu, hdid, hzero, hkeys⟩ := s.zeroHbm_spec hk
  rw [hu] at hexec
  have hsettle := (u.setFld rPwrReady readyHbm 1 1).hostStep_settleHp0
  refine ⟨_, hexec, ?_, ?_, ?_, fun k hk4 => ⟨s.free + k, by omega, ?_⟩⟩
  · rw [State.did_congr hsettle.pwr, State.setFld_eq, State.did_congr (State.setReg_pwr _ _ _)]
    exact hdid
  · unfold State.zeroed
    rw [hsettle.mem, State.setFld_eq, State.setReg_mem]
    exact hzero
  · rw [hsettle.fld rPwrReady_notMem_settle, State.fld_setFld_self _ _ (by decide)]
    rfl
  · rw [hsettle.hbmKeys, State.setFld_eq, State.setReg_hbmKeys]
    exact hkeys k hk4

/-! ### The engines -/

theorem State.enginesIntoService_spec (h : s.stepOpen 6 [1, 2] = true) (hboot : s.fld rSecStat 0 2 = 1) :
    ∃ t, exec .enginesIntoService s = .next t ∧ t.did 6 = true ∧ t.fld rPwrReady 0 1 = 1 ∧ t.mem = s.mem ∧
      t.readyReleased = (s.fld rPwrReady readyHbm 1 == 1 && s.fld rPwrReady readyFabric 1 == 1) := by
  have hexec : exec .enginesIntoService s = .next ((((s.stepDone 6).setFld rPwrReady 0 1 1).settleHp0).advance) :=
    if_pos ⟨h, hboot⟩
  have hsettle := ((s.stepDone 6).setFld rPwrReady 0 1 1).hostStep_settleHp0
  generalize ((s.stepDone 6).setFld rPwrReady 0 1 1).settleHp0 = u at hexec hsettle
  obtain ⟨t, ht, hmem, hdid, -, hready⟩ := u.advance_spec
  have hcore : t.fld rPwrReady 0 1 = 1 := by
    rw [hready 0 (by decide) (by decide), hsettle.fld rPwrReady_notMem_settle, State.fld_setFld_self _ _ (by decide)]
    rfl
  have hother (b : Nat) (h3 : b ≠ 3) (h1 : 1 ≤ b) (h64 : b < 64) : t.fld rPwrReady b 1 = s.fld rPwrReady b 1 := by
    rw [hready b (by omega) h64, hsettle.fld rPwrReady_notMem_settle, State.fld_setFld_disjoint _ _ (by omega) (by omega)]
    rfl
  refine ⟨t, hexec.trans (congrArg _ ht), hdid 6 ?_, hcore, hmem.trans hsettle.mem, ?_⟩
  · rw [State.did_congr hsettle.pwr]
    exact s.did_stepDone_self 6
  · simp only [State.readyReleased, List.all_cons, List.all_nil, hcore, hother readyHbm (by decide) (by decide) (by decide),
      hother readyFabric (by decide) (by decide) (by decide), beq_self_eq_true, Bool.true_and, Bool.and_true]

end

end Sys2Proof.Machine
end

section
/-! PROOFS. ETHERNET_BRING_UP (R297, R411): the sub-ports that are enabled begin. -/

namespace Sys2Proof.Machine

/-- A fold whose step keeps I, settles P of its element and keeps P of every other settles P of every element. -/
theorem foldl_settles {α β : Type} {f : β → α → β} {I : β → Prop} {P : α → β → Prop} {l : List α}
    (hI : ∀ b, ∀ a ∈ l, I b → I (f b a)) (hset : ∀ b, ∀ a ∈ l, I b → P a (f b a))
    (hkeep : ∀ b, ∀ a ∈ l, ∀ x ∈ l, x ≠ a → P x b → P x (f b a)) {b : β} (hb : I b) :
    I (l.foldl f b) ∧ ∀ a ∈ l, P a (l.foldl f b) := by
  induction l using List.reverseRecOn with
  | nil => exact ⟨hb, by simp⟩
  | append_singleton l a ih =>
    obtain ⟨hi, hp⟩ := ih (fun b x hx => hI b x (by simp [hx])) (fun b x hx => hset b x (by simp [hx]))
      (fun b x hx y hy => hkeep b x (by simp [hx]) y (by simp [hy]))
    rw [List.foldl_append, List.foldl_cons, List.foldl_nil]
    refine ⟨hI _ a (by simp) hi, fun x hx => ?_⟩
    by_cases he : x = a
    · rw [he]
      exact hset _ a (by simp) hi
    · have hxl : x ∈ l := by simpa [he] using hx
      exact hkeep _ a (by simp) x hx he (hp x hxl)

/-- What the start of sub-port k of port p keeps: of the ports' modes, states and configurations all but its own STATE and
medium. -/
structure State.subKeeps (s t : State) (p k : Nat) : Prop where
  mem : t.mem = s.mem
  pwr : t.pwr = s.pwr
  pcfg : ∀ q < 2, t.reg (rEthPcfg q) = s.reg (rEthPcfg q)
  other : ∀ q < 2, q ≠ p → t.reg (rEthPstat q) = s.reg (rEthPstat q)
  pstat : ∀ lo n, lo + n ≤ 3 * k ∨ 3 * k + 3 ≤ lo → lo + n ≤ 14 → t.fld (rEthPstat p) lo n = s.fld (rEthPstat p) lo n

theorem State.subKeeps.refl (s : State) (p k : Nat) : s.subKeeps s p k :=
  ⟨rfl, rfl, fun _ _ => rfl, fun _ _ _ => rfl, fun _ _ _ _ => rfl⟩

theorem State.subKeeps.trans {s t u : State} {p k : Nat} (h : s.subKeeps t p k) (h' : t.subKeeps u p k) : s.subKeeps u p k where
  mem := h'.mem.trans h.mem
  pwr := h'.pwr.trans h.pwr
  pcfg q hq := (h'.pcfg q hq).trans (h.pcfg q hq)
  other q hq hp := (h'.other q hq hp).trans (h.other q hq hp)
  pstat lo n hd h14 := (h'.pstat lo n hd h14).trans (h.pstat lo n hd h14)

theorem State.subKeeps_foldl {α : Type} {p k : Nat} {f : State → α → State} (hf : ∀ (s : State) a, s.subKeeps (f s a) p k)
    (l : List α) (s : State) : s.subKeeps (l.foldl f s) p k := by
  induction l generalizing s with
  | nil => exact .refl s p k
  | cons a l ih => exact (hf s a).trans (ih _)

/-- An offset of none of PCFG and PSTAT. -/
def offPorts (o : Nat) : Prop := ∀ q < 2, rEthPcfg q ≠ o ∧ rEthPstat q ≠ o

theorem rEthPcfg_ne_rEthPstat (p q : Nat) : rEthPcfg q ≠ rEthPstat p := by
  unfold rEthPcfg rEthPstat rEth
  omega

section
variable (s : State) {p : Nat} (hp : p < 2) (k : Nat)

include hp in
theorem State.subKeeps_setReg {o : Nat} (ho : offPorts o) (v : W64) : s.subKeeps (s.setReg o v) p k where
  mem := rfl
  pwr := rfl
  pcfg q hq := s.reg_setReg_of_ne v (ho q hq).1
  other q hq _ := s.reg_setReg_of_ne v (ho q hq).2
  pstat _ _ _ _ := s.fld_setReg_of_ne v (ho p hp).2

theorem State.subKeeps_laneStep (p : Nat) {s t : State} {ls : List Nat} (h : s.laneStep t ls) : s.subKeeps t p k := by
  have hcfg (q : Nat) : offLanes (rEthPcfg q) := .inl (by unfold rEthPcfg rEth; omega)
  have hstat (q : Nat) : offLanes (rEthPstat q) := .inl (by unfold rEthPstat rEth; omega)
  exact ⟨h.rest.mem, h.rest.pwr, fun q _ => h.reg _ (hcfg q), fun q _ _ => h.reg _ (hstat q), fun lo n _ _ => h.fld (hstat p) lo n⟩

theorem State.subKeeps_setSubSt (v : Nat) : s.subKeeps (s.setSubSt p k v) p k where
  mem := rfl
  pwr := rfl
  pcfg q _ := s.reg_setFld_of_ne v (rEthPcfg_ne_rEthPstat p q)
  other q _ hq := s.reg_setFld_of_ne v (by unfold rEthPstat rEth; omega)
  pstat lo n hd h14 := s.fld_setFld_disjoint v (by omega) (by omega)

/-- The medium lies above the modes and states. -/
theorem State.subKeeps_setMedium {lo : Nat} (hlo : 14 ≤ lo) (v : Nat) : s.subKeeps (s.setFld (rEthPstat p) lo 2 v) p k where
  mem := rfl
  pwr := rfl
  pcfg q _ := s.reg_setFld_of_ne v (rEthPcfg_ne_rEthPstat p q)
  other q _ hq := s.reg_setFld_of_ne v (by unfold rEthPstat rEth; omega)
  pstat a n hd h14 := s.fld_setFld_disjoint v (by omega) (by omega)

/-- Only the entries, the links and the free values change. -/
theorem State.subKeeps_net (N : Net) (L : Links) (fr : Nat) : s.subKeeps { s with net := N, links := L, free := fr } p k :=
  ⟨rfl, rfl, fun _ _ => rfl, fun _ _ _ => rfl, fun _ _ _ _ => rfl⟩

theorem offPorts_of_ge {o : Nat} (h : 0x403000 ≤ o) : offPorts o := by
  intro q hq
  unfold rEthPcfg rEthPstat rEth
  omega

include hp in
theorem State.subKeeps_leaveAll (j : Nat) : s.subKeeps (s.leaveAll j) p k := by
  have hent (t : State) (i : Nat) (f : Entry → Entry) : t.subKeeps (t.updEnt i f) p k := t.subKeeps_net k _ _ _
  have hroll (t : State) (i m : Nat) : t.subKeeps (t.reroll i m) p k := by
    have hpath : t.subKeeps t.newPath.2 p k := t.subKeeps_net k _ _ _
    exact (hpath.trans (hent _ _ _)).trans (State.subKeeps_setReg _ hp k (offPorts_of_ge (by decide)) _)
  refine State.subKeeps_foldl (fun t i => ?_) _ s
  unfold State.leaveSub
  dsimp only
  split
  · exact State.subKeeps_foldl (fun t m => hroll t i m) _ t
  · exact (hent _ _ _).trans (State.subKeeps_foldl (fun t m => hroll t i m) _ _)

include hp in
theorem State.subLanes_lt : ∀ l ∈ s.subLanes p k, l < 48 := by
  intro l hl
  unfold State.subLanes at hl
  dsimp only at hl
  split at hl
  · cases hl
  · obtain ⟨i, hi, rfl⟩ := List.mem_map.1 hl
    have hi := List.mem_range.1 hi
    rename_i hk
    have hn : 8 / s.subCount p * k + 8 / s.subCount p ≤ 8 := by
      calc 8 / s.subCount p * k + 8 / s.subCount p = 8 / s.subCount p * (k + 1) := by ring
        _ ≤ 8 / s.subCount p * s.subCount p := Nat.mul_le_mul_left _ (by omega)
        _ ≤ 8 := Nat.div_mul_le_self 8 _
    omega

include hp in
theorem State.subKeeps_subOut {k : Nat} (hk : k < 4) (v : Nat) : s.subKeeps (s.subOut p k v) p k := by
  have hlanes := State.laneStep_foldl (fun s l hl => s.laneStep_laneOff hl) (s.subLanes_lt hp k) (s.setSubSt p k v)
  have hoff : s.subKeeps ((s.subLanes p k).foldl (fun s l => s.laneOff l) (s.setSubSt p k v)) p k :=
    (s.subKeeps_setSubSt k v).trans (State.subKeeps_laneStep k p hlanes)
  have hspdt : offPorts (rEthSpdt p k) := by
    intro q hq
    unfold rEthPcfg rEthPstat rEthSpdt rEth
    omega
  have hend (t : State) (w : W64) : t.subKeeps
      ((((t.setReg (rEthSpdt p k) w).setFld rCtPorts (4 * p + k) 1 0).leaveAll (4 * p + k)).syncLinks) p k :=
    (((t.subKeeps_setReg hp k hspdt _).trans (State.subKeeps_setReg _ hp k (offPorts_of_ge (by decide)) _)).trans
      (State.subKeeps_leaveAll _ hp k _)).trans (State.subKeeps_setReg _ hp k (offPorts_of_ge (by decide)) _)
  unfold State.subOut
  dsimp only
  split
  · exact (hoff.trans (State.subKeeps_net _ k _ _ _)).trans (hend _ _)
  · exact hoff.trans (State.subKeeps_net _ k _ _ _)

/-- Whether a sub-port is enabled is kept. -/
theorem State.subKeeps.subEnabled {s t : State} {p k : Nat} (h : s.subKeeps t p k) (hk : k < 4) {q : Nat} (hq : q < 2) (j : Nat) :
    t.subEnabled q j = s.subEnabled q j := by
  have hmode : t.fld (rEthPstat q) 12 2 = s.fld (rEthPstat q) 12 2 := by
    by_cases he : q = p
    · rw [he, h.pstat 12 2 (by omega) (by omega)]
    · rw [State.fld, h.other q hq he, State.fld]
  unfold State.subEnabled State.subCount
  rw [hmode, State.fld, h.pcfg q hq, ← State.fld, h.pwr]

/-- The STATE of another sub-port is kept. -/
theorem State.subKeeps.subSt {s t : State} {p k : Nat} (h : s.subKeeps t p k) {q j : Nat} (hq : q < 2) (hj : j < 4)
    (hne : (q, j) ≠ (p, k)) : t.subSt q j = s.subSt q j := by
  unfold State.subSt
  by_cases he : q = p
  · have hjk : j ≠ k := fun hjk => hne (by rw [he, hjk])
    rw [he, h.pstat _ _ (by omega) (by omega)]
  · rw [State.fld, h.other q hq he, State.fld]

/-- A sub-port that is enabled negotiates, trains or aligns. -/
theorem State.startSub_spec {p k : Nat} (hp : p < 2) (hk : k < 4) : ∃ t, s.startSub p k = t ∧ s.subKeeps t p k ∧
    (s.did 8 = true → s.subEnabled p k = true → t.subSt p k = 1 ∨ t.subSt p k = 2 ∨ t.subSt p k = 3) := by
  have hout := s.subKeeps_subOut hp hk 0
  unfold State.startSub
  dsimp only
  generalize s.subOut p k 0 = u at hout
  have htrain (v : State) (st : Nat) (hst : st < 8) (rate : Nat) :
      v.subKeeps ((u.subLanes p k).foldl (fun s l => s.laneTrain l rate) (v.setSubSt p k st)) p k ∧
        ((u.subLanes p k).foldl (fun s l => s.laneTrain l rate) (v.setSubSt p k st)).subSt p k = st := by
    have hstep := State.laneStep_foldl (fun s l hl => s.laneStep_laneTrain hl rate) (u.subLanes_lt hp k) (v.setSubSt p k st)
    have hoff : offLanes (rEthPstat p) := .inl (by unfold rEthPstat rEth; omega)
    refine ⟨(v.subKeeps_setSubSt k st).trans (State.subKeeps_laneStep k p hstep), ?_⟩
    rw [State.subSt, hstep.fld hoff, State.setSubSt, State.fld_setFld_self _ _ (by omega)]
    exact Nat.mod_eq_of_lt hst
  generalize (if u.fld (rEthPcfg p) (20 + 2 * k) 2 = 3 then 0 else u.fld (rEthPcfg p) (20 + 2 * k) 2) = m
  by_cases hno : ¬ u.pwr.steps.contains 8 = true ∨ ¬ u.subEnabled p k = true
  · rw [if_pos hno]
    rw [hout.pwr, hout.subEnabled hk hp] at hno
    exact ⟨_, rfl, hout, fun hdid hen => absurd hno (not_or.2 ⟨not_not.2 hdid, not_not.2 hen⟩)⟩
  rw [if_neg hno]
  by_cases han : u.fld (rEthPcfg p) (16 + k) 1 = 1
  · obtain ⟨hkeep, hst⟩ := htrain u 1 (by decide) 1
    rw [if_pos han]
    exact ⟨_, rfl, hout.trans hkeep, fun _ _ => .inl hst⟩
  · have hst8 : (if m = 2 then 3 else 2) < 8 := by split <;> decide
    have hmedium := u.subKeeps_setMedium (p := p) k (lo := 14 + 2 * k) (by omega) m
    obtain ⟨hkeep, hst⟩ := htrain (u.setFld (rEthPstat p) (14 + 2 * k) 2 m) _ hst8 8
    rw [if_neg han]
    refine ⟨_, rfl, (hout.trans hmedium).trans hkeep, fun _ _ => .inr ?_⟩
    rw [hst]
    split
    · exact .inr rfl
    · exact .inl rfl

end

/-! ### Every sub-port -/

/-- The sub-ports of both ports. -/
def allSubs : List (Nat × Nat) := (List.range 2).flatMap (fun p => (List.range 4).map (fun k => (p, k)))

theorem allSubs_lt : ∀ x ∈ allSubs, x.1 < 2 ∧ x.2 < 4 := by decide

theorem mem_allSubs : ∀ (p : Fin 2) (k : Fin 4), ((p : Nat), (k : Nat)) ∈ allSubs := by decide

/-- Memory, the power state and which sub-ports are enabled are kept. -/
structure State.subsKept (s t : State) : Prop where
  mem : t.mem = s.mem
  pwr : t.pwr = s.pwr
  enabled : ∀ q < 2, ∀ j, t.subEnabled q j = s.subEnabled q j

theorem State.startSubs_spec (s : State) (h8 : s.did 8 = true) {ps : List (Nat × Nat)} (hps : ∀ x ∈ ps, x.1 < 2 ∧ x.2 < 4) :
    ∃ t, ps.foldl (fun s x => s.startSub x.1 x.2) s = t ∧ s.subsKept t ∧ ∀ x ∈ ps, s.subEnabled x.1 x.2 = true →
      t.subSt x.1 x.2 = 1 ∨ t.subSt x.1 x.2 = 2 ∨ t.subSt x.1 x.2 = 3 := by
  have hfold := foldl_settles (f := fun (s : State) (x : Nat × Nat) => s.startSub x.1 x.2) (I := s.subsKept)
    (P := fun x t => s.subEnabled x.1 x.2 = true → t.subSt x.1 x.2 = 1 ∨ t.subSt x.1 x.2 = 2 ∨ t.subSt x.1 x.2 = 3)
    (l := ps) (b := s) (fun t x hx hi => ?_) (fun t x hx hi hen => ?_) (fun t x hx y hy hne hst hen => ?_)
    ⟨rfl, rfl, fun _ _ _ => rfl⟩
  · exact ⟨_, rfl, hfold⟩
  all_goals
    obtain ⟨hp, hk⟩ := hps x hx
    obtain ⟨u, hu, hkeep, hset⟩ := t.startSub_spec hp hk
    rw [hu]
  · exact ⟨hkeep.mem.trans hi.mem, hkeep.pwr.trans hi.pwr, fun q hq j =>
      (hkeep.subEnabled hk hq j).trans (hi.enabled q hq j)⟩
  · exact hset ((State.did_congr hi.pwr 8).trans h8) ((hi.enabled _ hp _).trans hen)
  · obtain ⟨hq, hj⟩ := hps y hy
    rw [hkeep.subSt hq hj hne]
    exact hst hen

theorem State.ethernetBringUp_spec (s : State) (h : s.stepOpen 8 (if s.pwr.fawn then [1, 3] else [3, 6]) = true) :
    ∃ t, exec .ethernetBringUp s = .next t ∧ t.did 8 = true ∧ t.mem = s.mem ∧
      ∀ (p : Fin 2) (k : Fin 4), s.subEnabled p k = true → t.subSt p k = 1 ∨ t.subSt p k = 2 ∨ t.subSt p k = 3 := by
  have hexec : exec .ethernetBringUp s = .next (allSubs.foldl (fun s x => s.startSub x.1 x.2) (s.stepDone 8)) := if_pos h
  obtain ⟨t, ht, hkeep, hall⟩ := (s.stepDone 8).startSubs_spec (s.did_stepDone_self 8) allSubs_lt
  refine ⟨t, hexec.trans (congrArg _ ht), (State.did_congr hkeep.pwr 8).trans (s.did_stepDone_self 8), hkeep.mem,
    fun p k hen => ?_⟩
  have hen' : (s.stepDone 8).subEnabled p k = true := hen
  exact hall (p, k) (mem_allSubs p k) hen'

end Sys2Proof.Machine
end

section
/-! PROOFS. DDR5_TRAINING and DDR5_ZEROING (R191, R209, R211, R409, R410): what becomes of each channel. -/

namespace Sys2Proof.Machine

/-! ### What the initialisation of one channel keeps -/

/-- Memory, the power state and the DIMMs are kept, and STATE of every channel but one. -/
structure State.chanKeeps (s t : State) (cs : List Nat) : Prop where
  mem : t.mem = s.mem
  pwr : t.pwr = s.pwr
  dimms : t.ddr.dimms = s.ddr.dimms
  chstat : ∀ j, j ∉ cs → t.reg (rDdrChstat j) = s.reg (rDdrChstat j)

theorem State.chanKeeps.refl (s : State) (cs : List Nat) : s.chanKeeps s cs := ⟨rfl, rfl, rfl, fun _ _ => rfl⟩

theorem State.chanKeeps.trans {s t u : State} {cs : List Nat} (h : s.chanKeeps t cs) (h' : t.chanKeeps u cs) :
    s.chanKeeps u cs :=
  ⟨h'.mem.trans h.mem, h'.pwr.trans h.pwr, h'.dimms.trans h.dimms, fun j hj => (h'.chstat j hj).trans (h.chstat j hj)⟩

theorem State.chanKeeps_foldl {α : Type} {cs : List Nat} {f : State → α → State} (hf : ∀ (s : State) a, s.chanKeeps (f s a) cs)
    (l : List α) (s : State) : s.chanKeeps (l.foldl f s) cs := by
  induction l generalizing s with
  | nil => exact .refl s cs
  | cons a l ih => exact (hf s a).trans (ih _)

theorem State.chanKeeps.chState {s t : State} {cs : List Nat} (h : s.chanKeeps t cs) {j : Nat} (hj : j ∉ cs) :
    t.chState j = s.chState j := by
  unfold State.chState State.fld
  rw [h.chstat j hj]

section
variable (s : State) (cs : List Nat)

theorem rDdrChstat_ne {o : Nat} (ho : o % 0x100 ≠ 0) (j : Nat) : rDdrChstat j ≠ o := by
  unfold rDdrChstat
  omega

theorem State.chanKeeps_setReg {o : Nat} (ho : o % 0x100 ≠ 0) (v : W64) : s.chanKeeps (s.setReg o v) cs :=
  ⟨rfl, rfl, rfl, fun j _ => s.reg_setReg_of_ne v (rDdrChstat_ne ho j)⟩

theorem State.chanKeeps_setChstat (c : Nat) (v : W64) : s.chanKeeps (s.setReg (rDdrChstat c) v) [c] := by
  refine ⟨rfl, rfl, rfl, fun j hj => s.reg_setReg_of_ne v ?_⟩
  have hne : j ≠ c := by simpa using hj
  unfold rDdrChstat
  omega

theorem State.chanKeeps_updDdr {f : Ddr → Ddr} (hf : ∀ d, (f d).dimms = d.dimms) : s.chanKeeps (s.updDdr f) cs :=
  ⟨rfl, rfl, hf _, fun _ _ => rfl⟩

theorem State.chanKeeps_event (code : Nat) : s.chanKeeps (s.event 0 code none 0 0) cs := ⟨rfl, rfl, rfl, fun _ _ => rfl⟩

theorem State.chanKeeps_takeFree : s.chanKeeps { s with free := s.free + 1 } cs := ⟨rfl, rfl, rfl, fun _ _ => rfl⟩

theorem State.chanKeeps_healthChange (f : List HRec → List HRec) : s.chanKeeps (s.healthChange f) cs :=
  ⟨rfl, rfl, rfl, fun j _ => State.reg_setFld_of_ne _ _ (rDdrChstat_ne (by decide) j)⟩

/-! ### One channel -/

theorem State.chanKeeps_trainRank (c rank set rate : Nat) : s.chanKeeps (s.trainRank c rank set rate) cs := by
  unfold State.trainRank
  dsimp only
  split
  · exact .refl s cs
  · exact (s.chanKeeps_takeFree cs).trans (State.chanKeeps_updDdr _ cs fun _ => rfl)

theorem State.chanKeeps_updChanBanks (c : Nat) (f : DdrBank → DdrBank) : s.chanKeeps (s.updChanBanks c f) cs := by
  have hbank (t : State) (b : Nat) : t.chanKeeps (t.updBank b f) cs := t.chanKeeps_updDdr cs fun _ => rfl
  unfold State.updChanBanks
  exact State.chanKeeps_foldl (fun t i => hbank t _) _ s

theorem State.chanKeeps_trainChan (c : Nat) (p : Popul) : s.chanKeeps (s.trainChan c p) [c] := by
  have htset (t : State) (i : Nat) (hi : i < 2) (v : W64) : t.chanKeeps (t.setReg (rDdrTset c i) v) [c] :=
    t.chanKeeps_setReg [c] (by unfold rDdrTset; omega) v
  have hranks (t : State) := State.chanKeeps_foldl (f := fun s r => (s.trainRank c r 0 p.rate).trainRank c r 1 3200)
    (fun s r => (s.chanKeeps_trainRank [c] c r 0 p.rate).trans (State.chanKeeps_trainRank _ [c] c r 1 3200))
    (List.range (p.dpc * p.rpd)) t
  have hissue (t : State) (l : List DdrCmd) : t.chanKeeps (t.issue c l) [c] := t.chanKeeps_updDdr [c] fun _ => rfl
  exact (((((htset _ 0 (by decide) _).trans (htset _ 1 (by decide) _)).trans (hranks _)).trans
    (State.chanKeeps_updChanBanks _ [c] c _)).trans (hissue _ _)).trans (State.chanKeeps_setChstat _ c _)

/-- The low bits of DDR_CHSTAT are STATE. -/
theorem State.chState_setChstat (c : Nat) (p : Popul) (rate : Nat) {st : Nat} (hst : st < 8) :
    (s.setReg (rDdrChstat c) (chstatWord p rate st)).chState c = st := by
  rw [State.chState, State.fld, State.reg_setReg_self, chstatWord, bf_ofNat, fv_eq, fv_eq, fv_eq]
  omega

theorem State.chState_trainChan (c : Nat) (p : Popul) : (s.trainChan c p).chState c = 2 :=
  State.chState_setChstat _ c p _ (by decide)

theorem State.leaveOut_spec (c : Nat) (report : Bool) : s.chanKeeps (s.leaveOut c report) [c] ∧
    (s.leaveOut c report).chState c = 5 := by
  have hevent (t : State) : (t.event 0 stDimmRefused none 0 0).chState c = t.chState c := rfl
  unfold State.leaveOut
  dsimp only
  split
  · exact ⟨(s.chanKeeps_setChstat c _).trans (State.chanKeeps_event _ [c] _),
      (hevent _).trans (s.chState_setChstat c _ _ (by decide))⟩
  · exact ⟨s.chanKeeps_setChstat c _, s.chState_setChstat c _ _ (by decide)⟩

theorem State.trainFails_spec (c : Nat) : s.chanKeeps (s.trainFails c) [c] ∧ (s.trainFails c).chState c = 5 := by
  unfold State.trainFails
  dsimp only
  split
  · obtain ⟨hkeep, hst⟩ := State.leaveOut_spec (s.healthChange (fun h => h ++ [.channel c (s.serials c) s.dt])) c true
    exact ⟨(s.chanKeeps_healthChange [c] _).trans hkeep, hst⟩
  · have hnote (l : List (Nat × List Nat)) : s.chanKeeps (s.updDdr (fun d => { d with untrained := l })) [c] :=
      s.chanKeeps_updDdr [c] fun _ => rfl
    obtain ⟨hkeep, hst⟩ := State.leaveOut_spec
      (s.updDdr (fun d => { d with untrained := s.ddr.untrained.filter (fun y => y.1 != c) ++ [(c, s.serials c)] })) c false
    exact ⟨(hnote _).trans hkeep, hst⟩

/-- A channel is absent, left out or in service: absent where it has no DIMM. -/
def State.chanSettled (s t : State) (c : Nat) : Prop :=
  (tget [] s.ddr.dimms c = [] → t.chState c = 0) ∧ (t.chState c = 0 ∨ t.chState c = 2 ∨ t.chState c = 5)

theorem State.initChan_spec (p : Popul) (failed : List Nat) (c : Nat) : s.chanKeeps (s.initChan p failed c) [c] ∧
    s.chanSettled (s.initChan p failed c) c := by
  unfold State.initChan State.chanSettled
  split
  next hnone =>
    have h0 : (s.setReg (rDdrChstat c) 0).chState c = 0 := by
      rw [State.chState, State.fld, State.reg_setReg_self]
      decide
    exact ⟨s.chanKeeps_setChstat c 0, fun _ => h0, .inl h0⟩
  next ds hds =>
    split_ifs
    · obtain ⟨hkeep, hst⟩ := s.leaveOut_spec c true
      exact ⟨hkeep, fun h => absurd h hds, .inr (.inr hst)⟩
    · obtain ⟨hkeep, hst⟩ := s.trainFails_spec c
      exact ⟨hkeep, fun h => absurd h hds, .inr (.inr hst)⟩
    · have hnote (t : State) : t.chanKeeps (t.updDdr (fun d => { d with untrained := d.untrained.filter (fun x => x.1 != c) })) [c] ∧
          (t.updDdr (fun d => { d with untrained := d.untrained.filter (fun x => x.1 != c) })).chState c = t.chState c :=
        ⟨t.chanKeeps_updDdr [c] fun _ => rfl, rfl⟩
      obtain ⟨hkeep, hst⟩ := hnote (s.trainChan c p)
      exact ⟨(s.chanKeeps_trainChan c p).trans hkeep, fun h => absurd h hds, .inr (.inl (hst.trans (s.chState_trainChan c p)))⟩

/-- After the initialisation of every channel each is settled. -/
theorem State.initChans_spec (p : Popul) (failed : List Nat) :
    ∃ t, (List.range 8).foldl (fun s c => s.initChan p failed c) s = t ∧ s.chanKeeps t (List.range 8) ∧
      ∀ c ∈ List.range 8, s.chanSettled t c := by
  have hwiden {t u : State} {c : Nat} (hc : c ∈ List.range 8) (h : t.chanKeeps u [c]) : t.chanKeeps u (List.range 8) :=
    ⟨h.mem, h.pwr, h.dimms, fun j hj => h.chstat j (by rintro hjc; rw [List.mem_singleton.1 hjc] at hj; exact hj hc)⟩
  have hfold := foldl_settles (f := fun (s : State) c => s.initChan p failed c) (I := (s.chanKeeps · (List.range 8)))
    (P := fun c t => s.chanSettled t c) (l := List.range 8) (b := s) (fun t c hc hi => ?_) (fun t c hc hi => ?_)
    (fun t c hc x hx hne hst => ?_) (.refl s _)
  · exact ⟨_, rfl, hfold⟩
  all_goals obtain ⟨hkeep, hset⟩ := t.initChan_spec p failed c
  · exact hi.trans (hwiden hc hkeep)
  · unfold State.chanSettled at hset
    rwa [hi.dimms] at hset
  · unfold State.chanSettled
    rwa [hkeep.chState (by simpa using hne)]

/-! ### The tier -/

/-- What the SPD reports, by channel. -/
def dimmTable (ds : List (List Spd)) : Tab (List Spd) := (List.range 8).foldl (fun x c => tset [] x c (ds.getD c [])) []

theorem tget_dimmTable (ds : List (List Spd)) {c : Nat} (hc : c < 8) : tget [] (dimmTable ds) c = ds.getD c [] := by
  have hfold := foldl_settles (f := fun (x : Tab (List Spd)) c => tset [] x c (ds.getD c [])) (I := fun _ => True)
    (P := fun c t => tget [] t c = ds.getD c []) (l := List.range 8) (b := []) (fun _ _ _ _ => trivial)
    (fun t c _ _ => by rw [tget_tset, if_pos rfl]) (fun t c _ x _ hne hx => by rw [tget_tset, if_neg hne, hx]) trivial
  exact hfold.2 c (List.mem_range.2 hc)

/-- The tier before its channels are initialised: the DIMMs are those that the SPD reports. -/
def State.tierBegun (ds : List (List Spd)) : State :=
  (((s.takeDimms (dimmTable ds)).pruneHealth).setReg rDdrGeom 0).setReg rDdrStatus 0

theorem State.tierBegun_spec (ds : List (List Spd)) : ∃ t, s.tierBegun ds = t ∧ t.mem = s.mem ∧ t.pwr = s.pwr ∧
    t.ddr.dimms = dimmTable ds := by
  have hprune (t : State) : t.chanKeeps t.pruneHealth [] := by
    unfold State.pruneHealth
    dsimp only
    split
    · exact t.chanKeeps_healthChange [] _
    · exact .refl t []
  have hkeep := ((hprune (s.takeDimms (dimmTable ds))).trans (State.chanKeeps_setReg _ [] (o := rDdrGeom) (by decide) 0)).trans
    (State.chanKeeps_setReg _ [] (o := rDdrStatus) (by decide) 0)
  exact ⟨_, rfl, hkeep.mem, hkeep.pwr, hkeep.dimms⟩

theorem State.chanKeeps_applyRank (c phys dest spare : Nat) : s.chanKeeps (s.applyRank c phys dest spare) [] := by
  have hmap : rDdrRankmap c % 0x100 ≠ 0 := by unfold rDdrRankmap; omega
  have hstatus (t : State) (w : W64) : t.chanKeeps (t.setReg rDdrStatus w) [] := t.chanKeeps_setReg [] (by decide) w
  have hrets (l : List RankRet) : s.chanKeeps (s.updDdr (fun d => { d with rets := l })) [] :=
    s.chanKeeps_updDdr [] fun _ => rfl
  unfold State.applyRank
  dsimp only
  split
  · exact .refl s []
  · split_ifs
    · exact (s.chanKeeps_setReg [] hmap _).trans (hstatus _ _)
    · exact .refl s []
    · exact (hrets _).trans (hstatus _ _)
    · exact .refl s []

theorem State.chanKeeps_applyRanks : s.chanKeeps s.applyRanks [] := by
  refine State.chanKeeps_foldl (fun t r => ?_) _ s
  split
  · split
    · exact t.chanKeeps_applyRank _ _ _ _
    · exact .refl t []
  · exact .refl t []

/-- After the initialisation of the tier every channel is settled, with the DIMMs that the SPD reports. -/
theorem State.initTier_spec (ds : List (List Spd)) (failed : List Nat) : ∃ t, s.initTier ds failed = t ∧ t.mem = s.mem ∧
    t.pwr = s.pwr ∧ ∀ c < 8, tget [] t.ddr.dimms c = ds.getD c [] ∧ (ds.getD c [] = [] → t.chState c = 0) ∧
      (t.chState c = 0 ∨ t.chState c = 2 ∨ t.chState c = 5) := by
  obtain ⟨u, hu, hmem, hpwr, hdimms⟩ := s.tierBegun_spec ds
  have hend (p : Popul) (bad : List Nat) {v : State}
      (hv : ((List.range 8).foldl (fun s c => s.initChan p bad c) u).chanKeeps v []) : v.mem = s.mem ∧ v.pwr = s.pwr ∧
      ∀ c < 8, tget [] v.ddr.dimms c = ds.getD c [] ∧ (ds.getD c [] = [] → v.chState c = 0) ∧
        (v.chState c = 0 ∨ v.chState c = 2 ∨ v.chState c = 5) := by
    obtain ⟨w, hw, hkeep, hset⟩ := u.initChans_spec p bad
    rw [hw] at hv
    refine ⟨by rw [hv.mem, hkeep.mem, hmem], by rw [hv.pwr, hkeep.pwr, hpwr], fun c hc => ?_⟩
    obtain ⟨hnone, hst⟩ := hset c (List.mem_range.2 hc)
    rw [hdimms, tget_dimmTable ds hc] at hnone
    rw [hv.dimms, hkeep.dimms, hdimms, tget_dimmTable ds hc, hv.chState (by simp)]
    exact ⟨rfl, hnone, hst⟩
  unfold State.tierBegun dimmTable at hu
  unfold State.initTier
  dsimp only
  rw [hu]
  split
  · exact ⟨_, rfl, hend _ _ (.refl _ _)⟩
  next p _ =>
    split
    · exact ⟨_, rfl, hend _ _ (.refl _ _)⟩
    · have hgeom (t : State) (cs : List Nat) : t.chanKeeps (t.setGeom cs p) [] := t.chanKeeps_setReg [] (by decide) _
      exact ⟨_, rfl, hend p failed ((hgeom _ _).trans (State.chanKeeps_applyRanks _))⟩

theorem State.ddr5Training_spec (h : s.stepOpen 9 [0] = true) (hf : s.pwr.fawn = false) (ds : List (List Spd))
    (bad : List (Fin 8)) : ∃ t, exec (.ddr5Training ds bad) s = .next t ∧ t.did 9 = true ∧ t.mem = s.mem ∧
      (t.chList = [] → t.fld rPwrReady 2 1 = 1) ∧
      ∀ c : Fin 8, tget [] t.ddr.dimms c = ds.getD c [] ∧ (ds.getD c [] = [] → t.chState c = 0) ∧
        (t.chState c = 0 ∨ t.chState c = 2 ∨ t.chState c = 5) := by
  obtain ⟨u, hu, hmem, hpwr, hchan⟩ := (s.stepDone 9).initTier_spec ds (bad.map (fun c => (c : Nat)))
  have hexec : exec (.ddr5Training ds bad) s = .next (if ((s.stepDone 9).initTier ds (bad.map (fun c => (c : Nat)))).chList.isEmpty
      then (((s.stepDone 9).initTier ds (bad.map (fun c => (c : Nat)))).setFld rPwrReady 2 1 1).setFld rPwrReady 6 1 1
      else (s.stepDone 9).initTier ds (bad.map (fun c => (c : Nat)))) := if_pos ⟨h, by simp [hf]⟩
  rw [hu] at hexec
  have hdid := (State.did_congr hpwr 9).trans (s.did_stepDone_self 9)
  refine ⟨_, hexec, ?_⟩
  by_cases he : u.chList.isEmpty = true
  · have hready (t : State) (w : W64) : t.chanKeeps (t.setReg rPwrReady w) [] := t.chanKeeps_setReg [] (by decide) w
    have hkeep : u.chanKeeps ((u.setFld rPwrReady 2 1 1).setFld rPwrReady 6 1 1) [] := (hready _ _).trans (hready _ _)
    rw [if_pos he]
    refine ⟨(State.did_congr hkeep.pwr 9).trans hdid, hkeep.mem.trans hmem, fun _ => ?_, fun c => ?_⟩
    · rw [State.fld_setFld_disjoint _ _ (by decide) (by decide), State.fld_setFld_self _ _ (by decide)]
      rfl
    · rw [hkeep.dimms, hkeep.chState (by simp)]
      exact hchan c c.isLt
  · rw [if_neg he]
    exact ⟨hdid, hmem, fun hnil => absurd (by rw [hnil]; rfl) he, fun c => hchan c c.isLt⟩

/-! ### Zeroing -/

/-- The end of a zeroing: the tier is ready, and resets of channels complete. -/
theorem State.ddrReady_spec : ∃ t, s.ddrReady = t ∧ t.mem = s.mem ∧ t.pwr = s.pwr ∧ t.fld rPwrReady 2 1 = 1 := by
  have hfinish (t : State) (id : Nat) : (t.finishCmd id).mem = t.mem ∧ (t.finishCmd id).pwr = t.pwr ∧
      (t.finishCmd id).reg rPwrReady = t.reg rPwrReady := by
    unfold State.finishCmd
    split <;> exact ⟨rfl, rfl, rfl⟩
  unfold State.ddrReady
  dsimp only
  refine ⟨_, rfl, ?_, ?_, ?_⟩
  · exact foldl_proj (π := State.mem) (fun t r => (hfinish t _).1) _ _
  · exact foldl_proj (π := State.pwr) (fun t r => (hfinish t _).2.1) _ _
  · rw [State.fld, foldl_proj (π := fun t : State => t.reg rPwrReady) (fun t r => (hfinish t _).2.2)]
    exact (State.fld_setFld_self _ _ (by decide)).trans rfl

theorem State.ddr5Zeroing_spec (hruns : s.runs = true) (h9 : s.did 9 = true) (h10 : s.did 10 = false) (hch : s.chList ≠ [])
    (hinit : s.ddr.initing.any (fun c => s.chState c == 1) = false) : ∃ t, exec .ddr5Zeroing s = .next t ∧ t.did 10 = true ∧
      s.zeroed t ddrBase (2 ^ 42) ∧ t.fld rPwrReady 2 1 = 1 := by
  have hexec : exec .ddr5Zeroing s = .next (((((s.chList.foldl (fun s c => s.issue c [.wrp]) s).stepDone 10).zeroKeys ddrBase
      (2 ^ 42)).updDdr (fun d => { d with initing := [] })).ddrReady) :=
    (if_neg (by simp [hruns, h9, hch, hinit])).trans (if_pos (by simp [h10]))
  have hone (t : State) (c : Nat) : (t.issue c [.wrp]).mem = t.mem := rfl
  have hissue : (s.chList.foldl (fun s c => s.issue c [.wrp]) s).mem = s.mem := foldl_proj (π := State.mem) hone _ s
  generalize s.chList.foldl (fun s c => s.issue c [.wrp]) s = u at hexec hissue
  obtain ⟨t, ht, hmem, hpwr, hready⟩ :=
    State.ddrReady_spec ((((u.stepDone 10).zeroKeys ddrBase (2 ^ 42)).updDdr (fun d => { d with initing := [] })))
  refine ⟨t, hexec.trans (congrArg _ ht), (State.did_congr hpwr 10).trans (u.did_stepDone_self 10), ?_, hready⟩
  unfold State.zeroed
  rw [hmem, ← hissue]
  exact u.zeroed_zeroKeys ddrBase (2 ^ 42)

end

end Sys2Proof.Machine
end

section
/-! PROOFS. QUEUE_PROCESSOR_PATCH (R388), and start-up as a whole. -/

namespace Sys2Proof.Machine

/-- The end of a patch: memory is kept, and no patch is under way. -/
theorem State.endPatch_spec (s : State) (x : Patch) : ∃ t, s.endPatch x = t ∧ t.sec.patch = none ∧ t.mem = s.mem := by
  have hfinish (t : State) (id : Nat) : (t.finishCmd id).sec = t.sec ∧ (t.finishCmd id).mem = t.mem := by
    unfold State.finishCmd
    split <;> exact ⟨rfl, rfl⟩
  have hwrite (t : State) (a n : Nat) (bs : List Byte) :
      ((t.flashWrite a n bs).showSlots).sec = t.sec ∧ ((t.flashWrite a n bs).showSlots).mem = t.mem := ⟨rfl, rfl⟩
  have hbegin : ((s.patchApplied x.bundle).updSec (fun y => { y with patch := none })).sec.patch = none ∧
      ((s.patchApplied x.bundle).updSec (fun y => { y with patch := none })).mem = s.mem := ⟨rfl, rfl⟩
  refine ⟨_, rfl, ?_⟩
  unfold State.endPatch
  dsimp only
  rw [(hfinish _ _).1, (hfinish _ _).2]
  split
  · split
    · exact hbegin
    · rw [(hwrite _ _ _ _).1, (hwrite _ _ _ _).2]
      exact hbegin
  · exact hbegin

section
variable {s : State} {x : Patch} (hx : s.sec.patch = some x)
include hx

theorem exec_queueProcessorPatch_of_last (h4 : 4 ≤ x.qp) (hq : s.health.queue = []) :
    exec .queueProcessorPatch s = .next (s.endPatch x) := by
  change execQueueProcessorPatch s = _
  simp [execQueueProcessorPatch, hx, h4, hq]

theorem exec_queueProcessorPatch_of_quiesced (hp : x.qp < 4) (h1 : x.step = 1) (ht : s.tearsOn x.qp = false) :
    exec .queueProcessorPatch s = .next (s.setPatch { x with step := 2 }) := by
  change execQueueProcessorPatch s = _
  simp [execQueueProcessorPatch, hx, hp, h1, ht]

theorem exec_queueProcessorPatch_of_drained (hp : x.qp < 4) (h2 : x.step = 2) (hd : s.drains x.qp x.cmd = false) :
    exec .queueProcessorPatch s = .next ((s.setPatch { x with step := 4 }).setQpSt x.qp 2) := by
  change execQueueProcessorPatch s = _
  simp [execQueueProcessorPatch, hx, hp, h2, hd]

theorem exec_queueProcessorPatch_of_loads (hp : x.qp < 4) (h4 : x.step = 4) :
    exec .queueProcessorPatch s = .next ((s.setPatch { x with step := 5 }).setQpSt x.qp 3) := by
  change execQueueProcessorPatch s = _
  simp [execQueueProcessorPatch, hx, hp, h4]

theorem exec_queueProcessorPatch_of_restarts (hp : x.qp < 4) (h5 : x.step = 5) :
    exec .queueProcessorPatch s = .next (if x.qp = 3 then (s.setPatch { x with qp := x.qp + 1, step := 1 }).setQpSt x.qp 0
      else ((s.setPatch { x with qp := x.qp + 1, step := 1 }).setQpSt x.qp 0).setQpSt (x.qp + 1) 1) := by
  change execQueueProcessorPatch s = _
  simp [execQueueProcessorPatch, hx, hp, h5]

end

theorem State.fld_setQpSt (s : State) {p v : Nat} (hp : p < 4) (hv : v < 16) : (s.setQpSt p v).fld rQpStatus (4 * p) 4 = v := by
  rw [State.setQpSt, State.fld_setFld_self _ _ (by omega)]
  exact Nat.mod_eq_of_lt hv

/-- Settles O53 (log 39, log 62): each step of start-up by what it leaves, and the steps of a patch one by one. -/
theorem startUp : Obligations.StartUp := by
  unfold Obligations.StartUp
  intro s
  refine ⟨fun hup h0 h1 => ⟨s.bootChain_none hup h0 h1, s.bootChain_some hup h0 h1⟩, s.bist_spec, s.laneCalibration_spec,
    s.hbmTraining_spec, s.hbmZeroing_spec, s.enginesIntoService_spec, s.ethernetBringUp_spec, s.ddr5Training_spec,
    s.ddr5Zeroing_spec, fun x hx => ⟨fun h4 hq => ?_, fun hp => ⟨fun h1 ht => ?_, fun h2 hd => ?_, fun h4 => ?_, fun h5 => ?_⟩⟩⟩
  · obtain ⟨t, ht, hspec⟩ := s.endPatch_spec x
    exact ⟨t, (exec_queueProcessorPatch_of_last hx h4 hq).trans (congrArg _ ht), hspec⟩
  · exact ⟨_, exec_queueProcessorPatch_of_quiesced hx hp h1 ht, rfl, rfl, rfl⟩
  · exact ⟨_, exec_queueProcessorPatch_of_drained hx hp h2 hd, rfl, rfl, State.fld_setQpSt _ hp (by decide)⟩
  · exact ⟨_, exec_queueProcessorPatch_of_loads hx hp h4, rfl, rfl, State.fld_setQpSt _ hp (by decide)⟩
  · have hexec := exec_queueProcessorPatch_of_restarts hx hp h5
    have h0 := (s.setPatch { x with qp := x.qp + 1, step := 1 }).fld_setQpSt hp (v := 0) (by decide)
    by_cases h3 : x.qp = 3
    · rw [if_pos h3] at hexec
      exact ⟨_, hexec, rfl, rfl, h0⟩
    · rw [if_neg h3] at hexec
      refine ⟨_, hexec, rfl, rfl, ?_⟩
      rw [State.setQpSt, State.fld_setFld_disjoint _ _ (by omega) (by omega)]
      exact h0

end Sys2Proof.Machine
end

section
/-! PROOFS. The banks of the DDR5 channels (R217, R220 to R223): refresh, row disturbance, skew, and the polls of a
channel. -/

namespace Sys2Proof.Machine

/-! ### One bank, and the banks of a channel -/

/-- From s to t the DDR5 tier alone changes. -/
def State.ddrOnly (s t : State) : Prop := { t with ddr := s.ddr } = s

theorem State.ddrOnly_updDdr (s : State) (f : Ddr → Ddr) : s.ddrOnly (s.updDdr f) := rfl

theorem State.ddrOnly.trans {s t u : State} (h : s.ddrOnly t) (h' : t.ddrOnly u) : s.ddrOnly u := by
  unfold State.ddrOnly at *
  calc { u with ddr := s.ddr } = { { u with ddr := t.ddr } with ddr := s.ddr } := rfl
    _ = s := by rw [h', h]

/-- A table with a change of n entries from k on. -/
def tupdRange {α : Type} [DecidableEq α] (d : α) (x : Tab α) (k n : Nat) (f : α → α) : Tab α :=
  (List.range n).foldl (fun x i => tupd d x (k + i) f) x

theorem tget_tupdRange {α : Type} [DecidableEq α] (d : α) (x : Tab α) (k n j : Nat) (f : α → α) :
    tget d (tupdRange d x k n f) j = if k ≤ j ∧ j < k + n then f (tget d x j) else tget d x j := by
  induction n with
  | zero => exact (if_neg (by omega)).symm
  | succ n ih =>
    have hstep : tupdRange d x k (n + 1) f = tupd d (tupdRange d x k n f) (k + n) f := by
      rw [tupdRange, List.range_succ, List.foldl_append]
      rfl
    rw [hstep, tupd, tget_tset]
    by_cases hj : j = k + n
    · subst j
      rw [ih, if_pos rfl, if_neg (by omega), if_pos (by omega)]
    · rw [ih, if_neg hj]
      exact if_congr (by omega) rfl rfl

section
variable (s : State) (ch b j : Nat) (f : DdrBank → DdrBank) (cs : List DdrCmd)

@[simp] theorem State.bank_issue : (s.issue ch cs).bank j = s.bank j := rfl

theorem State.bank_updBank : (s.updBank b f).bank j = if j = b then f (s.bank b) else s.bank j := tget_tset _ _ _ _

theorem State.bank_updBank_self : (s.updBank b f).bank b = f (s.bank b) := by rw [State.bank_updBank, if_pos rfl]

theorem State.preBank_spec : s.ddrOnly (s.preBank ch b) ∧
    ∀ j, (s.preBank ch b).bank j = if j = b then { s.bank b with openRow := none } else s.bank j := by
  unfold State.preBank
  split
  next hnone =>
    refine ⟨rfl, fun j => ?_⟩
    rw [← hnone]
    split
    next hj => rw [hj]
    next => rfl
  next =>
    refine ⟨(s.ddrOnly_updDdr _).trans (State.ddrOnly_updDdr _ _), fun j => ?_⟩
    rw [State.bank_issue, State.bank_updBank]

/-- The state with another table of banks. -/
def State.setBanks (s : State) (x : Tab DdrBank) : State := s.updDdr (fun d => { d with banks := x })

theorem State.bank_setBanks (x : Tab DdrBank) : (s.setBanks x).bank j = tget {} x j := rfl

theorem State.updChanBanks_eq : s.updChanBanks ch f = s.setBanks (tupdRange {} s.ddr.banks (ch * 256) 256 f) := by
  have hfold (l : List Nat) (t : State) : l.foldl (fun t i => t.updBank (ch * 256 + i) f) t =
      t.setBanks (l.foldl (fun x i => tupd {} x (ch * 256 + i) f) t.ddr.banks) := by
    induction l generalizing t with
    | nil => rfl
    | cons i l ih => exact ih _
  unfold State.updChanBanks tupdRange
  exact hfold (List.range 256) s

theorem State.bank_updChanBanks : (s.updChanBanks ch f).bank j = if j / 256 = ch then f (s.bank j) else s.bank j := by
  rw [State.updChanBanks_eq, State.bank_setBanks, tget_tupdRange]
  exact if_congr (by omega) rfl rfl

/-- A change of every bank of a channel: the state it gives, of which no proof unfolds the 256 writes again. -/
theorem State.updChanBanks_spec : ∃ u, s.updChanBanks ch f = u ∧ (∃ x, u = s.setBanks x) ∧
    ∀ j, u.bank j = if j / 256 = ch then f (s.bank j) else s.bank j :=
  ⟨_, rfl, ⟨_, s.updChanBanks_eq ch f⟩, fun j => s.bank_updChanBanks ch j f⟩

end

theorem bankNo_div (ch : Fin 8) (rank : Fin 4) (sub : Fin 2) (bank : Fin 32) : bankNo ch rank sub bank / 256 = ch := by
  unfold bankNo
  omega

/-- From s to t the DDR5 tier alone changes, and of its banks bank b alone. -/
def State.oneBank (s t : State) (b : Nat) : Prop := { t with ddr := s.ddr } = s ∧ ∀ j, j ≠ b → t.bank j = s.bank j

theorem State.oneBank_of_bank {s t : State} {b : Nat} {x : DdrBank} (h : s.ddrOnly t)
    (hb : ∀ j, t.bank j = if j = b then x else s.bank j) : s.oneBank t b ∧ t.bank b = x :=
  ⟨⟨h, fun j hj => (hb j).trans (if_neg hj)⟩, (hb b).trans (if_pos rfl)⟩

/-- A change of one bank whose row closes first (R217, R220), and the commands for it. -/
theorem State.oneBank_preBank (s : State) (ch b : Nat) (f : DdrBank → DdrBank) (cs : List DdrCmd) :
    s.oneBank (((s.quiet.preBank ch b).updBank b f).issue ch cs) b ∧
      (((s.quiet.preBank ch b).updBank b f).issue ch cs).bank b = f { s.bank b with openRow := none } := by
  obtain ⟨honly, hbank⟩ := s.quiet.preBank_spec ch b
  refine State.oneBank_of_bank
    (((s.ddrOnly_updDdr _).trans honly).trans ((State.ddrOnly_updDdr _ _).trans (State.ddrOnly_updDdr _ _))) fun j => ?_
  rw [State.bank_issue, State.bank_updBank, hbank, hbank, if_pos rfl]
  split <;> rfl

section
variable (s : State) (ch : Fin 8) (rank : Fin 4) (sub : Fin 2) (bank : Fin 32)

/-! ### Refresh and tracking (R217, R223) -/

theorem exec_refresh_of_due (hs : s.chServes ch = true)
    (hd : (s.bank (bankNo ch rank sub bank)).refreshed + s.trefi ch rank ≤ s.dt.toNat) :
    ∃ t, exec (.refresh ch rank sub bank) s = .next t ∧ s.oneBank t (bankNo ch rank sub bank) ∧
      t.bank (bankNo ch rank sub bank) =
        { s.bank (bankNo ch rank sub bank) with openRow := none, refreshed := s.dt.toNat } := by
  have hexec : exec (.refresh ch rank sub bank) s = .next (s.quiet.refreshBank ch (bankNo ch rank sub bank)) :=
    if_neg (by simp [hs, hd])
  exact ⟨_, hexec, s.oneBank_preBank ch (bankNo ch rank sub bank) (fun x => { x with refreshed := s.dt.toNat }) [.refSb]⟩

theorem exec_mr4Poll_of_due (hs : s.chServes ch = true)
    (hd : tget 0 s.ddr.mr4 (4 * (ch : Nat) + (rank : Nat)) + dtMs 16 ≤ s.dt.toNat) (fast : Bool) :
    ∃ t, exec (.mr4Poll ch rank fast) s = .next t ∧ { t with ddr := s.ddr } = s ∧
      t.ddr.fast.contains ((ch : Nat), (rank : Nat)) = fast := by
  change ∃ t, execMr4Poll ch rank fast s = .next t ∧ _
  unfold execMr4Poll
  rw [if_neg (by simp [hs, hd])]
  refine ⟨_, rfl, (s.ddrOnly_updDdr _).trans ((State.ddrOnly_updDdr _ _).trans (State.ddrOnly_updDdr _ _)), ?_⟩
  cases fast
  · change (s.ddr.fast.filter (fun x => x != ((ch : Nat), (rank : Nat)))).contains _ = false
    simp
  · change (s.ddr.fast.filter (fun x => x != ((ch : Nat), (rank : Nat))) ++ [((ch : Nat), (rank : Nat))]).contains _ = true
    simp

/-- What DQS_TRACKING notes of each rank is its drift alone. -/
theorem exec_dqsTracking_of_due (hs : s.chServes ch = true) (hd : tget 0 s.ddr.dqs ch + dtMs 64 ≤ s.dt.toNat) :
    ∃ t, exec (.dqsTracking ch) s = .next t ∧ { t with ddr := s.ddr, free := s.free } = s ∧
      tget 0 t.ddr.dqs ch = s.dt.toNat := by
  change ∃ t, execDqsTracking ch s = .next t ∧ _
  unfold execDqsTracking
  rw [if_neg (by simp [hs, hd])]
  exact ⟨_, rfl, List.foldlRecOn (motive := fun t : State => { t with ddr := s.ddr, free := s.free } = s ∧
    tget 0 t.ddr.dqs ch = s.dt.toNat) _ _ ⟨rfl, (tget_tset _ _ _ _).trans (if_pos rfl)⟩ fun _ ht _ _ => ht⟩

/-! ### Row disturbance (R220, R221) -/

theorem exec_targetedRefresh_of_hot {r : Nat × Nat}
    (hr : (s.bank (bankNo ch rank sub bank)).rows.find? (fun y => decide (s.actTh ch ≤ y.2)) = some r) :
    ∃ t, exec (.targetedRefresh ch rank sub bank) s = .next t ∧ s.oneBank t (bankNo ch rank sub bank) ∧
      t.bank (bankNo ch rank sub bank) = { s.bank (bankNo ch rank sub bank) with
        openRow := none, rows := (s.bank (bankNo ch rank sub bank)).rows.map (fun y => if y = r then (y.1, 0) else y) } := by
  have hexec : exec (.targetedRefresh ch rank sub bank) s =
      .next (s.quiet.targetRefresh ch (bankNo ch rank sub bank) r) := by
    change execTargetedRefresh ch rank sub bank s = _
    simp [execTargetedRefresh, State.hotRows, List.head?_filter, hr]
  exact ⟨_, hexec, s.oneBank_preBank ch (bankNo ch rank sub bank)
    (fun x => { x with rows := x.rows.map (fun y => if y = r then (y.1, 0) else y) }) _⟩

/-- What a new window leaves of a channel's throttles: those that were set in the one before, which end with it. -/
theorem throttle_of_mem_window {ts : List Throttle} {c : Nat} {y : Throttle}
    (hy : y ∈ (ts.filter (fun t => t.ch != c || t.stays)).map (fun t => if t.ch = c then { t with stays := false } else t))
    (hc : y.ch = c) : y.stays = false ∧ { y with stays := true } ∈ ts := by
  obtain ⟨t, ht, rfl⟩ := List.mem_map.1 hy
  obtain ⟨hmem, hkept⟩ := List.mem_filter.1 ht
  by_cases htc : t.ch = c
  · have hstays : t.stays = true := by simpa [htc] using hkept
    rw [if_pos htc]
    exact ⟨rfl, by rw [← hstays]; exact hmem⟩
  · rw [if_neg htc] at hc
    exact absurd hc htc

theorem exec_rowDisturbanceWindow_spec : ∃ t, exec (.rowDisturbanceWindow ch) s = .next t ∧ { t with ddr := s.ddr } = s ∧
    (t.bank (bankNo ch rank sub bank)).rows = [] ∧ (t.bank (bankNo ch rank sub bank)).evict = 0 ∧
    (t.bank (bankNo ch rank sub bank)).acts = [] ∧ (t.bank (bankNo ch rank sub bank)).stormed = false ∧
    (∀ j, j / 256 ≠ (ch : Nat) → t.bank j = s.bank j) ∧
    ∀ y ∈ t.ddr.throttles, y.ch = (ch : Nat) → y.stays = false ∧ { y with stays := true } ∈ s.ddr.throttles := by
  change ∃ t, execRowDisturbanceWindow ch s = .next t ∧ _
  unfold execRowDisturbanceWindow
  obtain ⟨u, hu, ⟨x, hx⟩, hbank⟩ :=
    s.updChanBanks_spec ch (fun x => { x with rows := [], evict := 0, acts := [], stormed := false })
  rw [hu]
  have honly : s.ddrOnly u := by rw [hx]; exact s.ddrOnly_updDdr _
  have hthrottles : u.ddr.throttles = s.ddr.throttles := by rw [hx]; rfl
  have hthis := (hbank (bankNo ch rank sub bank)).trans (if_pos (bankNo_div ch rank sub bank))
  refine ⟨_, rfl, honly.trans (u.ddrOnly_updDdr _), congrArg DdrBank.rows hthis, congrArg DdrBank.evict hthis,
    congrArg DdrBank.acts hthis, congrArg DdrBank.stormed hthis, fun j hj => (hbank j).trans (if_neg hj), fun y hy hc => ?_⟩
  rw [← hthrottles]
  exact throttle_of_mem_window hy hc

/-- What ACT_STORM and DDR_SKEW log and tell (Table 8.9). -/
theorem State.ddrLog_spec (c w code : Nat) : (s.ddrLog c w code).told 0 code ∧ (s.ddrLog c w code).reg (rDdrEvdt c) = s.dt ∧
    (s.ddrLog c w code).mem = s.mem ∧ (s.ddrLog c w code).ddr = s.ddr :=
  ⟨State.told_event _ _ _ _ _ _, State.reg_setReg_self _ _ _, rfl, rfl⟩

theorem exec_actStorm_of_exceeded (he : s.evTh ch < (s.bank (bankNo ch rank sub bank)).evict)
    (hs : (s.bank (bankNo ch rank sub bank)).stormed = false) :
    ∃ t, exec (.actStorm ch rank sub bank) s = .next t ∧ t.told 0 stActStorm ∧ t.reg (rDdrEvdt ch) = s.dt ∧ t.mem = s.mem ∧
      (t.bank (bankNo ch rank sub bank)).stormed = true ∧ ∀ y, topSource (s.bank (bankNo ch rank sub bank)).acts = some y →
        (y.1 < 0xA8 ∨ 0xB0 ≤ y.1 → { ch := ch, src := y.1 } ∈ t.ddr.throttles) ∧
        (0xA8 ≤ y.1 → y.1 < 0xB0 → t.ddr.throttles = s.ddr.throttles) := by
  change ∃ t, execActStorm ch rank sub bank s = .next t ∧ _
  unfold execActStorm
  dsimp only
  rw [if_neg (by simp [he, hs])]
  generalize (fv 48 16 _ + fv 9 5 _ + fv 7 2 _ + fv 6 1 _) = w
  obtain ⟨htold, hreg, hmem, hddr⟩ := s.ddrLog_spec ch w stActStorm
  generalize s.ddrLog ch w stActStorm = u at htold hreg hmem hddr
  have hbank := congrArg DdrBank.stormed
    (u.bank_updBank_self (bankNo ch rank sub bank) (fun x => { x with stormed := true }))
  split_ifs with hsrc
  · refine ⟨_, rfl, htold, hreg, hmem, hbank, fun y hy => ?_⟩
    simp only [hy] at hsrc
    exact ⟨fun h => by omega, fun _ _ => show u.ddr.throttles = s.ddr.throttles by rw [hddr]⟩
  · refine ⟨_, rfl, htold, hreg, hmem, hbank, fun y hy => ?_⟩
    simp only [hy] at hsrc ⊢
    exact ⟨fun _ => List.mem_append_right _ (List.mem_singleton_self _), fun h h' => absurd ⟨h, h'⟩ hsrc⟩

/-! ### Skew (R222) -/

/-- What R222 calls a hot sample of a bank. -/
theorem State.hotSample_iff (c b : Nat) : s.hotSample c b = true ↔
    max 4 (min 16 (s.fld (rDdrSched c) 48 5)) ≤ s.bankReads c b ∧
      4 * (s.readLines c).length < max 4 (min 16 (s.fld (rDdrSched c) 48 5)) * (s.ddrPr * 64) := by
  unfold State.hotSample
  rw [Bool.and_eq_true, decide_eq_true_eq, decide_eq_true_eq]
  exact Iff.rfl

section
variable (hd : (s.bank (bankNo ch rank sub bank)).sampled + dtUs 1 ≤ s.dt.toNat)
include hd

theorem exec_ddrSkew_of_cold (hcold : s.hotSample ch (bankNo ch rank sub bank) = false) :
    ∃ t, exec (.ddrSkew ch rank sub bank (s.bankReads ch (bankNo ch rank sub bank)) (s.readLines ch).length) s = .next t ∧
      s.oneBank t (bankNo ch rank sub bank) ∧ t.bank (bankNo ch rank sub bank) =
        { s.bank (bankNo ch rank sub bank) with hot := none, sampled := s.dt.toNat } := by
  refine ⟨_, (if_neg (by simp [hd])).trans (if_neg (by simp [hcold, Hot.step, Hot.due])),
    State.oneBank_of_bank rfl fun j => ?_⟩
  rw [State.bank_updBank, hcold]
  rfl

theorem exec_ddrSkew_of_lasting (hhot : s.hotSample ch (bankNo ch rank sub bank) = true) {h : Hot}
    (hh : (s.bank (bankNo ch rank sub bank)).hot = some h) (hr : h.raised = false) (hlast : h.since + dtMs 1 ≤ s.dt.toNat) :
    ∃ t, exec (.ddrSkew ch rank sub bank (s.bankReads ch (bankNo ch rank sub bank)) (s.readLines ch).length) s = .next t ∧
      t.told 0 stDdrSkew ∧ t.bank (bankNo ch rank sub bank) =
        { s.bank (bankNo ch rank sub bank) with hot := some { h with raised := true }, sampled := s.dt.toNat } ∧
      t.mem = s.mem := by
  have hstep : Hot.step (s.bank (bankNo ch rank sub bank)).hot true s.dt.toNat = some h := by rw [hh]; rfl
  refine ⟨_, (if_neg (by simp [hd])).trans (if_pos (by simp [hhot, hstep, Hot.due, hr, hlast])),
    (s.ddrLog_spec ch _ stDdrSkew).1, ?_, rfl⟩
  rw [State.bank_updBank_self, hhot, hstep]
  rfl

end

end

end Sys2Proof.Machine
end

section
/-! PROOFS. The DDR5 channels (R223 to R225, R419): self-refresh, and the changes of timing set. -/

namespace Sys2Proof.Machine

/-! ### What the commands of a channel's controller change -/

/-- From s to t DDR_CHSTAT of channel ch, the banks and the commands issued alone change. -/
structure State.chanStep (s t : State) (ch : Nat) : Prop where
  rest : t = { s with regs := t.regs, ddr := { s.ddr with banks := t.ddr.banks, issued := t.ddr.issued } }
  reg : ∀ o, o ≠ rDdrChstat ch → t.reg o = s.reg o

section
variable {s t u : State} {ch : Nat}

theorem State.chanStep.trans (h : s.chanStep t ch) (h' : t.chanStep u ch) : s.chanStep u ch :=
  ⟨by rw [h'.rest, h.rest], fun o ho => (h'.reg o ho).trans (h.reg o ho)⟩

theorem State.chanStep.mem (h : s.chanStep t ch) : t.mem = s.mem := by rw [h.rest]
theorem State.chanStep.dt (h : s.chanStep t ch) : t.dt = s.dt := by rw [h.rest]
theorem State.chanStep.change (h : s.chanStep t ch) : t.ddr.change = s.ddr.change := congrArg (fun t => t.ddr.change) h.rest
theorem State.chanStep.low (h : s.chanStep t ch) : t.ddr.low = s.ddr.low := congrArg (fun t => t.ddr.low) h.rest
theorem State.chanStep.rets (h : s.chanStep t ch) : t.ddr.rets = s.ddr.rets := congrArg (fun t => t.ddr.rets) h.rest
theorem State.chanStep.failed (h : s.chanStep t ch) : t.ddr.failed = s.ddr.failed := congrArg (fun t => t.ddr.failed) h.rest
theorem State.chanStep.rsvFailed (h : s.chanStep t ch) : t.ddr.rsvFailed = s.ddr.rsvFailed :=
  congrArg (fun t => t.ddr.rsvFailed) h.rest

theorem State.rankBusy_congr (h : t.ddr.rets = s.ddr.rets) (c : Nat) : t.rankBusy c = s.rankBusy c := by
  unfold State.rankBusy
  rw [h]

theorem State.fld_of_regs (h : t.regs = s.regs) (o lo n : Nat) : t.fld o lo n = s.fld o lo n := by
  unfold State.fld State.reg
  rw [h]

theorem State.chState_of_regs (h : t.regs = s.regs) : t.chState ch = s.chState ch := State.fld_of_regs h _ _ _

end

section
variable (s : State) (ch : Nat)

theorem State.chanStep.refl : s.chanStep s ch := ⟨rfl, fun _ _ => rfl⟩

theorem State.chanStep_setChstat (lo n v : Nat) : s.chanStep (s.setFld (rDdrChstat ch) lo n v) ch :=
  ⟨rfl, fun _ ho => s.reg_setFld_of_ne v ho⟩

theorem State.chState_setState {v : Nat} (hv : v < 8) : (s.setFld (rDdrChstat ch) 0 3 v).chState ch = v :=
  (s.fld_setFld_self v (by decide)).trans (Nat.mod_eq_of_lt hv)

theorem State.chState_chBack : (s.chBack ch).chState ch = if s.rankBusy ch then 6 else 2 :=
  s.chState_setState ch (by split <;> decide)

/-! ### Self-refresh (Table 8.4, R220, R225) -/

/-- A change of every bank of a channel, and the commands for it. -/
theorem State.issueChanBanks_spec (f : DdrBank → DdrBank) (cs : List DdrCmd) :
    ∃ u, (s.updChanBanks ch f).issue ch cs = u ∧ s.chanStep u ch ∧ u.regs = s.regs ∧
      ∀ j, j / 256 = ch → u.bank j = f (s.bank j) := by
  obtain ⟨u, hu, ⟨x, hx⟩, hbank⟩ := s.updChanBanks_spec ch f
  rw [hu]
  refine ⟨_, rfl, ?_, ?_, fun j hj => (hbank j).trans (if_pos hj)⟩
  · rw [hx]
    exact ⟨rfl, fun _ _ => rfl⟩
  · rw [hx]
    rfl

theorem State.sre_spec : ∃ u, s.sre ch = u ∧ s.chanStep u ch ∧ u.regs = s.regs ∧
    ∀ j, j / 256 = ch → (u.bank j).openRow = none ∧ (u.bank j).refreshed = s.dt.toNat := by
  obtain ⟨u, hu, hstep, hregs, hbank⟩ := s.issueChanBanks_spec ch
    (fun x => { x with openRow := none, refreshed := s.dt.toNat }) [.preAb, .refAb, .sre]
  refine ⟨u, hu, hstep, hregs, fun j hj => ?_⟩
  rw [hbank j hj]
  exact ⟨rfl, rfl⟩

theorem State.srx_spec : ∃ u, s.srx ch = u ∧ s.chanStep u ch ∧ u.regs = s.regs ∧
    ∀ j, j / 256 = ch → (u.bank j).rows = [] ∧ (u.bank j).evict = 0 ∧ (u.bank j).acts = (s.bank j).acts := by
  obtain ⟨u, hu, hstep, hregs, hbank⟩ := s.issueChanBanks_spec ch
    (fun x => { x with openRow := none, rows := [], evict := 0 }) [.srx, .mpc]
  refine ⟨u, hu, hstep, hregs, fun j hj => ?_⟩
  rw [hbank j hj]
  exact ⟨rfl, rfl, rfl⟩

/-- A channel in self-refresh wakes (R225): it is in service, and its row tables are clear. -/
theorem State.wakeChannel_of_asleep (h : s.chState ch = 4) : ∃ u, s.wakeChannel ch = u ∧ s.chanStep u ch ∧
    u.chState ch = (if s.rankBusy ch then 6 else 2) ∧
    ∀ j, j / 256 = ch → (u.bank j).rows = [] ∧ (u.bank j).evict = 0 ∧ (u.bank j).acts = (s.bank j).acts := by
  obtain ⟨u, hu, hstep, hregs, hbank⟩ := (s.chBack ch).srx_spec ch
  exact ⟨u, (if_pos h).trans hu, (s.chanStep_setChstat ch _ _ _).trans hstep,
    (State.chState_of_regs hregs).trans (s.chState_chBack ch), hbank⟩

theorem State.wakeChannel_of_awake (h : s.chState ch ≠ 4) : s.wakeChannel ch = s := if_neg h

/-- A request wakes a channel that it finds asleep, and changes no other. -/
theorem State.wakeChannel_spec : ∃ u, s.wakeChannel ch = u ∧ s.chanStep u ch ∧
    u.chState ch = if s.chState ch = 4 then (if s.rankBusy ch then 6 else 2) else s.chState ch := by
  by_cases h : s.chState ch = 4
  · obtain ⟨u, hu, hstep, hst, -⟩ := s.wakeChannel_of_asleep ch h
    exact ⟨u, hu, hstep, hst.trans (if_pos h).symm⟩
  · exact ⟨s, s.wakeChannel_of_awake ch h, .refl s ch, (if_neg h).symm⟩

/-! ### Changes of timing set (R224, Table 8.4) -/

/-- Steps 1 and 2: the channel stops on the way to set v, its banks refreshed. -/
theorem State.changeSet_spec (v : Nat) : ∃ t, s.changeSet ch v = t ∧ t.mem = s.mem ∧ t.ddr.change = s.ddr.change ∧
    t.ddr.low = s.ddr.low ∧ t.chState ch = 3 ∧ tget 0 t.ddr.moving ch = v ∧
    ∀ j, j / 256 = ch → (t.bank j).openRow = none ∧ (t.bank j).refreshed = s.dt.toNat := by
  obtain ⟨w, hw, hwake, -⟩ := s.wakeChannel_spec ch
  obtain ⟨u, hu, hsre, -, hbank⟩ := w.sre_spec ch
  have hstep := (hwake.trans hsre).trans (u.chanStep_setChstat ch 0 3 3)
  unfold State.changeSet
  rw [hw, hu]
  refine ⟨_, rfl, hstep.mem, hstep.change, hstep.low, u.chState_setState ch (by decide),
    (tget_tset _ _ _ _).trans (if_pos rfl), fun j hj => ?_⟩
  obtain ⟨hopen, hrefreshed⟩ := hbank j hj
  exact ⟨hopen, hrefreshed.trans (congrArg BitVec.toNat hwake.dt)⟩

/-- Steps 3 to 5: the channel serves at the set that it moved to. -/
theorem State.endChange_spec (hv : tget 0 s.ddr.moving ch < 2) : ∃ t, s.endChange ch = t ∧
    t.chSet ch = tget 0 s.ddr.moving ch ∧
    t.fld (rDdrChstat ch) 8 8 = s.fld (rDdrTset ch (tget 0 s.ddr.moving ch)) 8 8 ∧
    t.chState ch = (if s.rankBusy ch then 6 else 2) ∧ (∀ j, j / 256 = ch → (t.bank j).rows = []) ∧ t.mem = s.mem := by
  unfold State.endChange
  dsimp only
  generalize tget 0 s.ddr.moving ch = v at hv
  have hrate : s.fld (rDdrTset ch v) 8 8 < 2 ^ 8 := bf_lt _ _ _
  generalize s.fld (rDdrTset ch v) 8 8 = r at hrate
  have hset := s.chanStep_setChstat ch 3 1 v
  have hset' := (s.setFld (rDdrChstat ch) 3 1 v).chanStep_setChstat ch 8 8 r
  obtain ⟨u, hu, hsrx, hregs, hbank⟩ := ((s.setFld (rDdrChstat ch) 3 1 v).setFld (rDdrChstat ch) 8 8 r).srx_spec ch
  have hstep := (hset.trans hset').trans hsrx
  have hkeep {lo n : Nat} (hlo : 3 ≤ lo) (hn : lo + n ≤ 64) : (u.chBack ch).fld (rDdrChstat ch) lo n =
      ((s.setFld (rDdrChstat ch) 3 1 v).setFld (rDdrChstat ch) 8 8 r).fld (rDdrChstat ch) lo n :=
    (State.fld_setFld_disjoint u _ (.inl (by omega)) hn).trans (State.fld_of_regs hregs _ _ _)
  rw [hu]
  refine ⟨_, rfl, ?_, ?_, ?_, fun j hj => (hbank j hj).1, hstep.mem⟩
  · refine (hkeep (by decide) (by decide)).trans ((State.fld_setFld_disjoint _ _ (by decide) (by decide)).trans ?_)
    exact (s.fld_setFld_self v (by decide)).trans (Nat.mod_eq_of_lt hv)
  · refine (hkeep (by decide) (by decide)).trans ((State.fld_setFld_self _ r (by decide)).trans (Nat.mod_eq_of_lt hrate))
  · rw [← State.rankBusy_congr hstep.rets]
    exact u.chState_chBack ch

end

/-! ### The commands -/

section
variable (s : State) (ch : Fin 8) (rank : Fin 4) (sub : Fin 2) (bank : Fin 32)

theorem exec_frequencyChange_begins (h3 : s.chState ch ≠ 3) (hmay : s.mayChange ch = true)
    (hask : s.ddr.change.contains (ch : Nat) = true) : ∃ t, exec (.frequencyChange ch) s = .next t ∧ t.chState ch = 3 ∧
      t.ddr.change.contains (ch : Nat) = false ∧ tget 0 t.ddr.moving ch = s.fld (rDdrTsel ch) 0 1 ∧
      (t.bank (bankNo ch rank sub bank)).openRow = none ∧
      (t.bank (bankNo ch rank sub bank)).refreshed = s.dt.toNat ∧ t.mem = s.mem := by
  obtain ⟨t, ht, hmem, hchange, -, hst, hmoving, hbank⟩ :=
    (s.quiet.updDdr (fun d => { d with change := d.change.filter (fun c => c != (ch : Nat)) })).changeSet_spec ch
      (s.fld (rDdrTsel ch) 0 1)
  obtain ⟨hopen, hrefreshed⟩ := hbank _ (bankNo_div ch rank sub bank)
  refine ⟨t, (if_neg h3).trans ((if_neg (not_or.2 ⟨not_not.2 hask, not_not.2 hmay⟩)).trans (congrArg _ ht)), hst, ?_,
    hmoving, hopen, hrefreshed, hmem⟩
  rw [hchange]
  change (s.ddr.change.filter (fun c => c != (ch : Nat))).contains _ = false
  simp

theorem exec_frequencyChange_ends (h3 : s.chState ch = 3) (hset : tget 0 s.ddr.moving ch < 2) :
    ∃ t, exec (.frequencyChange ch) s = .next t ∧ t.chSet ch = tget 0 s.ddr.moving ch ∧
      t.fld (rDdrChstat ch) 8 8 = s.fld (rDdrTset ch (tget 0 s.ddr.moving ch)) 8 8 ∧
      t.chState ch = (if s.rankBusy ch then 6 else 2) ∧ (t.bank (bankNo ch rank sub bank)).rows = [] ∧ t.mem = s.mem := by
  obtain ⟨t, ht, hchset, hrate, hst, hrows, hmem⟩ := s.quiet.endChange_spec ch hset
  exact ⟨t, (if_pos h3).trans (congrArg _ ht), hchset, hrate, hst, hrows _ (bankNo_div ch rank sub bank), hmem⟩

theorem exec_selfRefreshEntry_of_idle (h2 : s.chState ch = 2) (hidle : s.fld rPwrLpctl 32 16 ≠ 0)
    (hbusy : s.rankBusy ch = false) (hready : s.fld rPwrReady 2 1 = 1)
    (hquiet : s.chIdle ch (s.fld rPwrLpctl 32 16) = true) : ∃ t, exec (.selfRefreshEntry ch) s = .next t ∧
      t.chState ch = 4 ∧ (t.bank (bankNo ch rank sub bank)).openRow = none ∧
      (t.bank (bankNo ch rank sub bank)).refreshed = s.dt.toNat ∧ t.mem = s.mem := by
  obtain ⟨u, hu, hstep, -, hbank⟩ := s.quiet.sre_spec ch
  obtain ⟨hopen, hrefreshed⟩ := hbank _ (bankNo_div ch rank sub bank)
  refine ⟨u.setFld (rDdrChstat ch) 0 3 4, (if_neg (by simp [h2, hidle, hbusy, hready, hquiet])).trans ?_,
    u.chState_setState ch (by decide), hopen, hrefreshed, hstep.mem⟩
  rw [hu]

theorem exec_selfRefreshExit_of_asleep (h4 : s.chState ch = 4) : ∃ t, exec (.selfRefreshExit ch) s = .next t ∧
    t.chState ch = (if s.rankBusy ch then 6 else 2) ∧ (t.bank (bankNo ch rank sub bank)).rows = [] ∧
    (t.bank (bankNo ch rank sub bank)).evict = 0 ∧
    (t.bank (bankNo ch rank sub bank)).acts = (s.bank (bankNo ch rank sub bank)).acts ∧ t.mem = s.mem := by
  obtain ⟨t, ht, hstep, hst, hbank⟩ := s.quiet.wakeChannel_of_asleep ch h4
  obtain ⟨hrows, hevict, hacts⟩ := hbank _ (bankNo_div ch rank sub bank)
  exact ⟨t, congrArg _ ht, hst, hrows, hevict, hacts, hstep.mem⟩

theorem exec_lowTimingSetEntry_of_light (hs : s.chServes ch = true) (hlp : s.fld rPwrLpctl 48 1 = 1) (h0 : s.chSet ch = 0) :
    ∃ t, exec (.lowTimingSetEntry ch) s = .next t ∧ t.chState ch = 3 ∧ tget 0 t.ddr.moving ch = 1 ∧
      t.ddr.low.contains (ch : Nat) = true ∧ t.mem = s.mem := by
  obtain ⟨t, ht, hmem, -, hlow, hst, hmoving, -⟩ :=
    (s.quiet.updDdr (fun d => { d with low := d.low ++ [(ch : Nat)] })).changeSet_spec ch 1
  refine ⟨t, (if_neg (by simp [hs, hlp, h0])).trans (congrArg _ ht), hst, hmoving, ?_, hmem⟩
  rw [hlow]
  change (s.ddr.low ++ [(ch : Nat)]).contains _ = true
  simp

theorem exec_lowTimingSetExit_of_low (hs : s.chServes ch = true) (hin : s.ddr.low.contains (ch : Nat) = true) :
    ∃ t, exec (.lowTimingSetExit ch) s = .next t ∧ t.ddr.low.contains (ch : Nat) = false ∧ t.mem = s.mem ∧
      if s.ddr.heat.contains (ch : Nat) then t.chState ch = s.chState ch ∧ t.chSet ch = s.chSet ch
      else t.chState ch = 3 ∧ tget 0 t.ddr.moving ch = 0 := by
  have hout : (s.ddr.low.filter (fun c => c != (ch : Nat))).contains (ch : Nat) = false := by simp
  have hexec : exec (.lowTimingSetExit ch) s = .next (if s.ddr.heat.contains (ch : Nat)
      then s.quiet.updDdr (fun d => { d with low := d.low.filter (fun c => c != (ch : Nat)) })
      else (s.quiet.updDdr (fun d => { d with low := d.low.filter (fun c => c != (ch : Nat)) })).changeSet ch 0) :=
    if_neg (not_or.2 ⟨not_not.2 hin, not_not.2 hs⟩)
  by_cases hheat : s.ddr.heat.contains (ch : Nat) = true
  · rw [if_pos hheat] at hexec
    exact ⟨_, hexec, hout, rfl, by rw [if_pos hheat]; exact ⟨rfl, rfl⟩⟩
  · obtain ⟨t, ht, hmem, -, hlow, hst, hmoving, -⟩ :=
      (s.quiet.updDdr (fun d => { d with low := d.low.filter (fun c => c != (ch : Nat)) })).changeSet_spec ch 0
    rw [if_neg hheat, ht] at hexec
    exact ⟨t, hexec, by rw [hlow]; exact hout, hmem, by rw [if_neg hheat]; exact ⟨hst, hmoving⟩⟩

end

end Sys2Proof.Machine
end

section
/-! PROOFS. The retirement of DDR5 ranks (R226, R227, R229 to R231), and the channels' statement. -/

namespace Sys2Proof.Machine

/-! ### What no retirement takes back -/

/-- From s to t memory is kept, and what is marked failed stays so. -/
structure State.marksKept (s t : State) : Prop where
  mem : t.mem = s.mem
  failed : s.ddr.failed ⊆ t.ddr.failed
  rsvFailed : s.ddr.rsvFailed = true → t.ddr.rsvFailed = true

section
variable {s t u : State}

theorem State.marksKept.trans (h : s.marksKept t) (h' : t.marksKept u) : s.marksKept u :=
  ⟨h'.mem.trans h.mem, List.Subset.trans h.failed h'.failed, fun hf => h'.rsvFailed (h.rsvFailed hf)⟩

theorem State.marksKept.of_ddr (hm : t.mem = s.mem) (hd : t.ddr = s.ddr) : s.marksKept t := by
  refine ⟨hm, ?_, fun h => ?_⟩
  · rw [hd]
    exact List.Subset.refl _
  · rwa [hd]

theorem State.chanStep.marksKept {ch : Nat} (h : s.chanStep t ch) : s.marksKept t :=
  ⟨h.mem, h.failed ▸ List.Subset.refl _, fun hf => h.rsvFailed.trans hf⟩

end

section
variable (s : State)

theorem State.marksKept.refl : s.marksKept s := .of_ddr rfl rfl

theorem State.marksKept_updDdr {f : Ddr → Ddr} (hf : s.ddr.failed ⊆ (f s.ddr).failed)
    (hr : s.ddr.rsvFailed = true → (f s.ddr).rsvFailed = true) : s.marksKept (s.updDdr f) :=
  ⟨rfl, hf, hr⟩

theorem State.finishCmd_ddr (id : Nat) : (s.finishCmd id).ddr = s.ddr := by rw [s.booksOnly_finishCmd id]

theorem State.marksKept_finishCmd (id : Nat) : s.marksKept (s.finishCmd id) :=
  .of_ddr (s.booksOnly_finishCmd id).mem (s.finishCmd_ddr id)

theorem State.told_finishCmd {code : Nat} (h : s.told 0 code) (id : Nat) : (s.finishCmd id).told 0 code := by
  unfold State.told at *
  rwa [(s.booksOnly_finishCmd id).part, (s.booksOnly_finishCmd id).dt]

theorem State.fld_finishCmd (id o lo n : Nat) : (s.finishCmd id).fld o lo n = s.fld o lo n := by
  unfold State.fld
  rw [State.reg_finishCmd]

theorem State.marksKept_chBack (ch : Nat) : s.marksKept (if s.chServes ch then s.chBack ch else s) := by
  split
  · exact .of_ddr rfl rfl
  · exact .refl s

/-! ### The two outcomes for a mapped rank (R227, R229 step 1) -/

theorem State.rankTold_spec (w : RankWait) : (s.rankTold w).told 0 stDdrExhausted ∧
    (w.ch < 8 → (s.rankTold w).fld rDdrStatus (8 + w.ch) 1 = 1) ∧ s.marksKept (s.rankTold w) := by
  unfold State.rankTold
  have hkeep : s.marksKept (s.setReg (rDdrRret w.ch) (rretWord 0 2 w.phys 1 0)) := .of_ddr rfl rfl
  generalize s.setReg (rDdrRret w.ch) (rretWord 0 2 w.phys 1 0) = u at hkeep
  refine ⟨State.told_event _ 0 stDdrExhausted none 0 0, fun hch => ?_, hkeep.trans (.of_ddr rfl rfl)⟩
  exact u.fld_setFld_self 1 (by omega)

/-- A rank whose commands fail parity goes offline. -/
def State.takenOffline (s : State) (w : RankWait) : State :=
  (s.setFld rDdrStatus (16 + w.ch) 1 1).updDdr (fun d => { d with offline := d.offline ++ [(w.ch, w.phys)] })

theorem State.takenOffline_spec {w : RankWait} (hch : w.ch < 8) {code : Nat} (ht : s.told 0 code)
    (hf : s.fld rDdrStatus (8 + w.ch) 1 = 1) : (s.takenOffline w).told 0 code ∧
      (s.takenOffline w).fld rDdrStatus (8 + w.ch) 1 = 1 ∧
      (s.takenOffline w).ddr.offline = s.ddr.offline ++ [(w.ch, w.phys)] :=
  ⟨ht.congr rfl rfl, (s.fld_setFld_disjoint 1 (.inr (by omega)) (by omega)).trans hf, rfl⟩

theorem State.marksKept_takenOffline (w : RankWait) : s.marksKept (s.takenOffline w) := ⟨rfl, List.Subset.refl _, id⟩

theorem State.marksKept_rankExhausted (w : RankWait) : s.marksKept (s.rankExhausted w) := by
  obtain ⟨-, -, hkeep⟩ := s.rankTold_spec w
  rw [State.rankExhausted_eq]
  refine State.marksKept.trans ?_ (State.marksKept_finishCmd _ _)
  split
  · exact hkeep.trans (State.marksKept_takenOffline _ w)
  · exact hkeep

theorem State.rankExhausted_spec (w : RankWait) (hch : w.ch < 8) : (s.rankExhausted w).told 0 stDdrExhausted ∧
    (s.rankExhausted w).fld rDdrStatus (8 + w.ch) 1 = 1 ∧
    (w.parity = true → (s.rankExhausted w).ddr.offline = s.ddr.offline ++ [(w.ch, w.phys)]) := by
  obtain ⟨htold, hfld, -⟩ := s.rankTold_spec w
  rw [State.rankExhausted_eq, State.fld_finishCmd, State.finishCmd_ddr]
  by_cases hp : w.parity = true
  · obtain ⟨htold', hfld', hoff⟩ := (s.rankTold w).takenOffline_spec hch htold (hfld hch)
    rw [if_pos hp]
    exact ⟨State.told_finishCmd _ htold' _, hfld', fun _ => hoff⟩
  · rw [if_neg hp]
    exact ⟨State.told_finishCmd _ htold _, hfld hch, fun h => absurd h hp⟩

/-- The record of a copy that begins. -/
def State.newRet (s : State) (w : RankWait) (q dest : Nat) : RankRet :=
  { ch := w.ch, q := q, phys := w.phys, dest := dest, spare := s.ddrPr - 1, cmd := w.cmd, parity := w.parity, cls := w.cls }

/-- A rank whose retirement is entered: its channel, awake, shows the STATE it had until it is shown as retiring. -/
theorem State.rankEntered_spec (w : RankWait) (q dest : Nat) : s.marksKept (s.rankEntered w q dest) ∧
    (s.chState w.ch ∈ [2, 4, 6] → (s.rankEntered w q dest).chServes w.ch = true) ∧
    (s.rankEntered w q dest).ddr.rets = s.ddr.rets ++ [s.newRet w q dest] := by
  obtain ⟨u, hu, hstep, hst⟩ := s.wakeChannel_spec w.ch
  have hstatus : rDdrChstat w.ch ≠ rDdrStatus := by unfold rDdrChstat rDdrStatus; omega
  have hrret : rDdrChstat w.ch ≠ rDdrRret w.ch := by unfold rDdrChstat rDdrRret; omega
  unfold State.rankEntered
  rw [hu]
  refine ⟨hstep.marksKept.trans ⟨rfl, List.Subset.refl _, id⟩, fun h => ?_, congrArg (· ++ [s.newRet w q dest]) hstep.rets⟩
  unfold State.chServes State.chState
  rw [State.fld_updDdr, State.fld_setFld_of_ne _ _ hstatus, State.fld_setReg_of_ne _ _ hrret]
  have hawake : u.chState w.ch = 2 ∨ u.chState w.ch = 6 := by
    rw [hst]
    simp only [List.mem_cons, List.not_mem_nil, or_false] at h
    split_ifs <;> omega
  simpa [State.chState] using hawake

theorem State.rankCopy_spec (w : RankWait) (q dest : Nat) : s.marksKept (s.rankCopy w q dest) ∧
    (s.rankCopy w q dest).told 0 stRankRetire ∧
    (s.chState w.ch ∈ [2, 4, 6] → (s.rankCopy w q dest).chState w.ch = 6) ∧
    (s.rankCopy w q dest).ddr.rets = s.ddr.rets ++ [s.newRet w q dest] := by
  obtain ⟨hkeep, hserves, hrets⟩ := s.rankEntered_spec w q dest
  rw [State.rankCopy_eq]
  generalize s.rankEntered w q dest = v at hkeep hserves hrets
  have hbusy : v.rankBusy w.ch = true := by
    unfold State.rankBusy
    rw [hrets]
    simp [State.newRet]
  have hback : (if v.chServes w.ch then v.chBack w.ch else v).ddr = v.ddr := by split <;> rfl
  have hkept := hkeep.trans (v.marksKept_chBack w.ch)
  have hshown (h : s.chState w.ch ∈ [2, 4, 6]) : (if v.chServes w.ch then v.chBack w.ch else v).chState w.ch = 6 := by
    rw [if_pos (hserves h), State.chState_chBack, hbusy]
    rfl
  generalize (if v.chServes w.ch then v.chBack w.ch else v) = x at hback hkept hshown
  exact ⟨hkept.trans (.of_ddr rfl rfl), x.told_event 0 stRankRetire none 0 0, hshown, (congrArg Ddr.rets hback).trans hrets⟩

/-! ### What becomes of a rank that is to be retired (R227, R230) -/

section
variable {w : RankWait}

theorem State.retireRank_of_busy (h : s.rankBusy w.ch = true) :
    s.retireRank w = s.updDdr (fun d => { d with waiting := d.waiting ++ [w] }) := if_pos h

section
variable (hb : s.rankBusy w.ch = false)
include hb

theorem State.retireRank_of_unmapped (h : s.logicalRank w.ch w.phys = none) :
    s.retireRank w = (s.updDdr (fun d => { d with failed := d.failed ++ [(w.ch, w.phys)] })).finishCmd w.cmd := by
  simp only [State.retireRank, hb, h, Bool.false_eq_true, if_false]

section
variable {q : Nat} (hq : s.logicalRank w.ch w.phys = some q)
  (hr : s.ddr.rets.any (fun r => r.ch == w.ch && r.phys == w.phys) = false)
include hq hr

theorem State.retireRank_of_exhausted (hd : s.rankDest w.ch w.phys = 2) : s.retireRank w = s.rankExhausted w := by
  simp only [State.retireRank, hb, hq, hr, hd, Bool.false_eq_true, if_false]

theorem State.retireRank_of_copied (hd : s.rankDest w.ch w.phys ≠ 2) :
    s.retireRank w = s.rankCopy w q (s.rankDest w.ch w.phys) := by
  simp only [State.retireRank, hb, hq, hr, Bool.false_eq_true, if_false]

end

end

end

theorem State.marksKept_retireRank (w : RankWait) : s.marksKept (s.retireRank w) := by
  unfold State.retireRank
  split
  · exact State.marksKept_updDdr s (List.Subset.refl _) id
  · split
    · exact (State.marksKept_updDdr s (List.subset_append_left _ _) id).trans (State.marksKept_finishCmd _ _)
    · split
      · exact s.marksKept_finishCmd _
      · split
        · exact s.marksKept_rankExhausted w
        · exact (s.rankCopy_spec w _ _).1

/-- What becomes of a rank where its channel retires no other. -/
theorem State.retireRank_of_free (w : RankWait) (hch : w.ch < 8) (hb : s.rankBusy w.ch = false) :
    (s.retireRank w).mem = s.mem ∧
    (s.logicalRank w.ch w.phys = none → (s.retireRank w).ddr.failed = s.ddr.failed ++ [(w.ch, w.phys)]) ∧
    ∀ q, s.logicalRank w.ch w.phys = some q → s.ddr.rets.any (fun r => r.ch == w.ch && r.phys == w.phys) = false →
      (s.rankDest w.ch w.phys = 2 → (s.retireRank w).told 0 stDdrExhausted ∧
        (s.retireRank w).fld rDdrStatus (8 + w.ch) 1 = 1 ∧
        (w.parity = true → (s.retireRank w).ddr.offline = s.ddr.offline ++ [(w.ch, w.phys)])) ∧
      (s.rankDest w.ch w.phys ≠ 2 → (s.retireRank w).told 0 stRankRetire ∧
        (s.chState w.ch ∈ [2, 4, 6] → (s.retireRank w).chState w.ch = 6) ∧
        (s.retireRank w).ddr.rets = s.ddr.rets ++ [s.newRet w q (s.rankDest w.ch w.phys)]) := by
  refine ⟨(s.marksKept_retireRank w).mem, fun hq => ?_, fun q hq hr => ⟨fun hd => ?_, fun hd => ?_⟩⟩
  · rw [s.retireRank_of_unmapped hb hq, State.finishCmd_ddr]
    rfl
  · rw [s.retireRank_of_exhausted hb hq hr hd]
    exact s.rankExhausted_spec w hch
  · rw [s.retireRank_of_copied hb hq hr hd]
    exact (s.rankCopy_spec w q _).2

/-! ### An error on a copy's destination (Table 8.5) -/

theorem State.marksKept_nextRank (ch n : Nat) : s.marksKept (s.nextRank ch n) := by
  induction n generalizing s with
  | zero => exact .refl s
  | succ n ih =>
    unfold State.nextRank
    split
    · exact .refl s
    · split
      · exact .refl s
      · exact ((State.marksKept_updDdr s (List.Subset.refl _) id).trans (State.marksKept_retireRank _ _)).trans (ih _)

theorem State.marksKept_rankNext (ch : Nat) : s.marksKept (s.rankNext ch) :=
  (s.marksKept_chBack ch).trans (State.marksKept_nextRank _ _ _)

/-- The destination of a copy is marked failed, and the copy ends. -/
def State.destFailed (s : State) (r : RankRet) : State :=
  s.updDdr (fun d =>
    { d with rets := d.rets.filter (fun x => x != r),
             failed := if r.dest = 0 then d.failed ++ [(r.ch, r.spare)] else d.failed,
             rsvFailed := d.rsvFailed || r.dest == 1 })

/-- The destination is marked failed, whichever it is, before the next one is chosen. -/
theorem State.marksKept_rankRestart (r : RankRet) : (s.destFailed r).marksKept (s.rankRestart r) := by
  have hexec : s.rankRestart r = ((((s.destFailed r).setFld rDdrStatus (if r.dest = 0 then r.ch else 24) 1 0).dropWork
      (.rankRet r.ch)).retireRank
        { ch := r.ch, phys := r.phys, cmd := r.cmd, parity := r.parity, cls := r.cls }).rankNext r.ch := rfl
  have hdrop (u : State) (v : Nat) (k : WorkKind) : u.marksKept ((u.setFld rDdrStatus v 1 0).dropWork k) := .of_ddr rfl rfl
  rw [hexec]
  exact ((hdrop _ _ _).trans (State.marksKept_retireRank _ _)).trans (State.marksKept_rankNext _ _)

theorem State.rankRestart_spec (r : RankRet) : (s.rankRestart r).mem = s.mem ∧
    (r.dest = 0 → (s.rankRestart r).ddr.failed.contains (r.ch, r.spare) = true) ∧
    (r.dest = 1 → (s.rankRestart r).ddr.rsvFailed = true) := by
  obtain ⟨hmem, hfailed, hrsv⟩ := s.marksKept_rankRestart r
  have hmark (h0 : r.dest = 0) : (r.ch, r.spare) ∈ (s.destFailed r).ddr.failed := by
    simp [State.destFailed, State.updDdr, h0]
  have hmark' (h1 : r.dest = 1) : (s.destFailed r).ddr.rsvFailed = true := by
    simp [State.destFailed, State.updDdr, h1]
  exact ⟨hmem, fun h0 => List.contains_iff_mem.2 (hfailed (hmark h0)), fun h1 => hrsv (hmark' h1)⟩

end

/-! ### RANK_RETIRE (R226) -/

/-- The state in which an error that RANK_RETIRE takes up is no longer due. -/
def State.dueTaken (s : State) (x : Nat × Nat × Bool) : State :=
  s.updDdr (fun d => { d with due := d.due.filter (fun y => y != x) })

section
variable {s : State} {ch : Fin 8} {rank : Fin 4} {parity : Bool}

theorem exec_rankRetire_of_notDue {copy : Bool} (hp : parity = false)
    (hn : ((ch : Nat), (rank : Nat), copy) ∉ s.ddr.due) : exec (.rankRetire ch rank parity copy) s = .next s :=
  if_pos (.inr (.inr ⟨by simp [hp], fun h => hn (List.contains_iff_mem.1 h)⟩))

section
variable (hin : s.chList.contains (ch : Nat) = true) (hpr : (rank : Nat) < s.ddrPr)
include hin hpr

/-- A rank of the tier with an error that is due is not passed over. -/
theorem rankRetire_due {copy : Bool} (hdue : parity = true ∨ ((ch : Nat), (rank : Nat), copy) ∈ s.ddr.due) :
    ¬ (¬ s.chList.contains (ch : Nat) = true ∨ s.ddrPr ≤ rank ∨
      (¬ parity = true ∧ ¬ s.ddr.due.contains ((ch : Nat), (rank : Nat), copy) = true)) := by
  rintro (h | h | ⟨hp, hd⟩)
  · exact h hin
  · omega
  · exact hdue.elim hp fun h => hd (List.contains_iff_mem.2 h)

theorem exec_rankRetire_copy {r : RankRet}
    (hr : s.ddr.rets.find? (fun r => r.ch == (ch : Nat) && r.phys == (rank : Nat) && !r.finished) = some r)
    (hdue : parity = true ∨ ((ch : Nat), (rank : Nat), true) ∈ s.ddr.due) :
    ∃ t, exec (.rankRetire ch rank parity true) s = .next t ∧ t.mem = s.mem ∧
      (r.dest = 0 → t.ddr.failed.contains (r.ch, r.spare) = true) ∧ (r.dest = 1 → t.ddr.rsvFailed = true) := by
  refine ⟨_, ?_, (s.dueTaken (ch, rank, true)).rankRestart_spec r⟩
  refine (if_neg (rankRetire_due hin hpr hdue)).trans ((if_pos rfl).trans ?_)
  split
  next hnone => cases hr.symm.trans hnone
  next x hx => cases hr.symm.trans hx; rfl

section
variable (hdue : parity = true ∨ ((ch : Nat), (rank : Nat), false) ∈ s.ddr.due)
include hdue

/-- A rank fails: what R227 and R230 make of it. -/
theorem exec_rankRetire_rank : exec (.rankRetire ch rank parity false) s =
    .next ((s.dueTaken (ch, rank, false)).retireRank { ch := ch, phys := rank, parity := parity }) :=
  (if_neg (rankRetire_due hin hpr hdue)).trans (if_neg Bool.false_ne_true)

theorem exec_rankRetire_of_busy (hb : s.rankBusy ch = true) : ∃ t, exec (.rankRetire ch rank parity false) s = .next t ∧
    { t with ddr := s.ddr } = s ∧
    t.ddr.waiting = s.ddr.waiting ++ [{ ch := ch, phys := rank, parity := parity }] ∧ t.ddr.rets = s.ddr.rets :=
  ⟨_, (exec_rankRetire_rank hin hpr hdue).trans (congrArg _ (State.retireRank_of_busy (s.dueTaken (ch, rank, false)) hb)),
    (s.ddrOnly_updDdr _).trans (State.ddrOnly_updDdr _ _), rfl, rfl⟩

theorem exec_rankRetire_of_free (hb : s.rankBusy ch = false) : ∃ t, exec (.rankRetire ch rank parity false) s = .next t ∧
    t.mem = s.mem ∧ (s.logicalRank ch rank = none → t.ddr.failed = s.ddr.failed ++ [((ch : Nat), (rank : Nat))]) ∧
    ∀ q, s.logicalRank ch rank = some q → s.ddr.rets.any (fun r => r.ch == (ch : Nat) && r.phys == (rank : Nat)) = false →
      (s.rankDest ch rank = 2 → t.told 0 stDdrExhausted ∧ t.fld rDdrStatus (8 + (ch : Nat)) 1 = 1 ∧
        (parity = true → t.ddr.offline = s.ddr.offline ++ [((ch : Nat), (rank : Nat))])) ∧
      (s.rankDest ch rank ≠ 2 → t.told 0 stRankRetire ∧ (s.chState ch ∈ [2, 4, 6] → t.chState ch = 6) ∧
        t.ddr.rets = s.ddr.rets ++ [{ ch := ch, q := q, phys := rank, dest := s.rankDest ch rank, spare := s.ddrPr - 1,
                                      parity := parity }]) :=
  ⟨_, exec_rankRetire_rank hin hpr hdue, (s.dueTaken (ch, rank, false)).retireRank_of_free
    { ch := ch, phys := rank, parity := parity } ch.isLt hb⟩

end

end

end

/-- Settles O51 (log 1, log 38, log 40, log 65): each event of a channel by what its command leaves of the banks, of the
channel or of its ranks. -/
theorem ddr5Channels : Obligations.Ddr5Channels := by
  unfold Obligations.Ddr5Channels
  intro s ch rank sub bank
  have hsample := s.hotSample_iff ch (bankNo ch rank sub bank)
  exact ⟨exec_refresh_of_due s ch rank sub bank, exec_mr4Poll_of_due s ch rank,
    fun _ => exec_targetedRefresh_of_hot s ch rank sub bank, exec_rowDisturbanceWindow_spec s ch rank sub bank,
    exec_actStorm_of_exceeded s ch rank sub bank,
    fun hd => ⟨fun hcold => exec_ddrSkew_of_cold s ch rank sub bank hd (Bool.eq_false_iff.2 fun h => hcold (hsample.1 h)),
      fun hhot _ => exec_ddrSkew_of_lasting s ch rank sub bank hd (hsample.2 hhot)⟩,
    exec_dqsTracking_of_due s ch,
    exec_frequencyChange_begins s ch rank sub bank, exec_frequencyChange_ends s ch rank sub bank,
    exec_selfRefreshEntry_of_idle s ch rank sub bank, exec_selfRefreshExit_of_asleep s ch rank sub bank,
    exec_lowTimingSetEntry_of_light s ch, exec_lowTimingSetExit_of_low s ch,
    fun hin hpr _ => ⟨fun _ => exec_rankRetire_copy hin hpr,
      fun hdue => ⟨exec_rankRetire_of_busy hin hpr hdue, exec_rankRetire_of_free hin hpr hdue⟩,
      fun hp _ => exec_rankRetire_of_notDue hp⟩⟩

end Sys2Proof.Machine
end

section
/-! PROOFS. What the queue processor does with an entry (R239, R241, R243, R244, R245). -/

namespace Sys2Proof.Machine

theorem State.booksOnly.engs {s t : State} (h : s.booksOnly t) : t.engs = s.engs := by rw [h]
theorem State.booksOnly.ctxs {s t : State} (h : s.booksOnly t) : t.ctxs = s.ctxs := by rw [h]

/-! ### HEAD passes an entry -/

/-- Taking an entry writes the field HEAD of its queue's register. -/
theorem State.passEntry_reg_self (s : State) (q : Nat) : (s.passEntry q).reg (rQpQ q) =
    bset (s.reg (rQpQ q)) 16 16 ((s.fld (rQpQ q) 16 16 + 1) % s.qDepth q) := by
  have hset (u : State) (hu : u.regs = s.regs) :
      (u.setFld (rQpQ q) 16 16 ((u.fld (rQpQ q) 16 16 + 1) % u.qDepth q)).reg (rQpQ q) =
        bset (s.reg (rQpQ q)) 16 16 ((s.fld (rQpQ q) 16 16 + 1) % s.qDepth q) := by
    have hreg : u.reg (rQpQ q) = s.reg (rQpQ q) := congrArg (tget _ · _) hu
    rw [State.qDepth, State.fld_of_regs hu, State.fld_of_regs hu, State.setFld_eq, State.reg_setReg_self, hreg, State.qDepth]
  unfold State.passEntry
  dsimp only
  split
  · exact hset _ (foldl_proj (π := State.regs) (f := fun s j => s.updQueue j _) (fun _ _ => rfl) _ s)
  · exact hset s rfl

theorem State.passEntry_head (s : State) (q : Nat) :
    (s.passEntry q).fld (rQpQ q) 16 16 = ((s.fld (rQpQ q) 16 16 + 1) % s.qDepth q) % 2 ^ 16 := by
  rw [State.fld, s.passEntry_reg_self, bf_bset_self _ _ (by decide)]

/-- FROZEN of the queue stays as it is. -/
theorem State.passEntry_frozen (s : State) (q : Nat) : (s.passEntry q).fld (rQpQ q) 60 1 = s.fld (rQpQ q) 60 1 := by
  rw [State.fld, s.passEntry_reg_self, bf_bset_disjoint _ _ (by decide) (by decide), State.fld]

theorem State.recs_updQueue (s : State) (j i : Nat) {f : Queue → Queue} (h : ∀ x, (f x).recs = x.recs) :
    ((s.updQueue j f).queue i).recs = (s.queue i).recs := by
  rw [State.updQueue_eq, State.queue_setQueue]
  split
  · subst i; exact h _
  · rfl

/-- A turn and a token of a queue are used; no record of any queue changes. -/
theorem State.passEntry_recs (s : State) (q i : Nat) : ((s.passEntry q).queue i).recs = (s.queue i).recs := by
  unfold State.passEntry
  dsimp only
  split
  · refine (State.recs_updQueue _ q i (by intro; rfl)).trans ?_
    exact foldl_proj (π := fun t : State => (t.queue i).recs) (f := fun s j => s.updQueue j _)
      (fun u j => u.recs_updQueue j i (by intro; rfl)) _ s
  · exact State.recs_updQueue _ q i (by intro; rfl)

/-! ### What becomes of the entry -/

/-- A refusal's record joins those of the entry's queue. -/
theorem State.recs_refuseCmd (s : State) (c : Cmd) (st : Nat) (froze : Bool) :
    ((s.refuseCmd c st froze).queue c.q).recs = (s.queue c.q).recs ++
      [{ c with st := .done, status := st, froze := froze, start := c.accept, fin := c.accept }] := by
  unfold State.refuseCmd
  rw [State.updQueue_eq, State.queue_setQueue_self]
  rfl

section
variable {s : State} {r : CmdRow} {q st : Nat}

theorem acceptCmd_of_served (hserve : s.mayServe q = true) (hop : (s.readEntry q).opcode = r.op) :
    acceptCmd r q s = .next (s.acceptEntry r q (s.readEntry q) (s.entryPoison q)) :=
  if_pos ⟨hserve, .inl hop⟩

theorem State.acceptEntry_of_refused {c : Cmd} {poison : Bool} (hst : st ≠ 0)
    (h : (s.passEntry q).entryStatus r c poison = (st, false)) :
    s.acceptEntry r q c poison = (s.passEntry q).refuseCmd c st false := by
  obtain ⟨n, rfl⟩ := Nat.exists_eq_succ_of_ne_zero hst
  unfold State.acceptEntry
  simp only [h]

theorem State.acceptEntry_of_frozen {c : Cmd} {poison : Bool} (hst : st ≠ 0)
    (h : (s.passEntry q).entryStatus r c poison = (st, true)) :
    s.acceptEntry r q c poison = ((s.passEntry q).freezeQueue q st).refuseCmd c st true := by
  obtain ⟨n, rfl⟩ := Nat.exists_eq_succ_of_ne_zero hst
  unfold State.acceptEntry
  simp only [h]

/-- An accepted entry that must wait joins the commands as one that is held. -/
theorem State.acceptEntry_of_held (h : (s.passEntry q).entryStatus r (s.readEntry q) (s.entryPoison q) = (0, false))
    (hhold : (s.queued r q).mustHold r (s.taken r q) = true) :
    s.acceptEntry r q (s.readEntry q) (s.entryPoison q) = s.queued r q := by
  unfold State.acceptEntry
  simp only [h]
  exact if_pos hhold

end

/-- A frozen queue's HEAD stays where the entry left it, and its field FROZEN is set (R258). -/
theorem State.freezeQueue_fields (s : State) (q cause : Nat) :
    (s.freezeQueue q cause).fld (rQpQ q) 16 16 = s.fld (rQpQ q) 16 16 ∧
      (s.freezeQueue q cause).fld (rQpQ q) 60 1 = 1 :=
  ⟨s.fld_setFld_disjoint 1 (by decide) (by decide), s.fld_setFld_self 1 (by decide)⟩

/-! ### The rows -/

/-- The command of each row is an acceptance for that row. -/
theorem exec_of_mem_queueRows {x : CmdRow × (Fin 16384 → Instr)} (hx : x ∈ queueRows) (q : Fin 16384) (s : State) :
    exec (x.2 q) s = acceptCmd x.1 q s := by
  have hall : queueRows.Forall fun x => exec (x.2 q) s = acceptCmd x.1 q s := by
    unfold queueRows
    simp only [List.Forall]
    and_intros <;> rfl
  exact List.forall_iff_forall_mem.1 hall x hx

/-- Settles O32: HEAD passes the entry in each case, and what `acceptEntry` then does is read off from the outcome of the
checks of Table 9.4. -/
theorem queueEntries : Obligations.QueueEntries := by
  unfold Obligations.QueueEntries
  refine ⟨by decide, fun x hx s q hserve hop => ?_⟩
  have hexec : exec (x.2 q) s = .next (s.acceptEntry x.1 q (s.readEntry q) (s.entryPoison q)) :=
    (exec_of_mem_queueRows hx q s).trans (acceptCmd_of_served hserve hop)
  have hhead := s.passEntry_head q
  have hcmds := s.passEntry_cmds q
  have hpass := s.booksOnly_passEntry q
  have hrecs := s.passEntry_recs q q
  intro c p head refused
  refine ⟨fun st hst h => ?_, fun st hst h => ?_, fun h hhold => ?_, fun h => ?_⟩
  · rw [State.acceptEntry_of_refused hst h] at hexec
    refine ⟨_, hexec, ⟨hhead, hcmds, hpass.mem, ?_⟩, s.passEntry_frozen q⟩
    rw [← hrecs]
    exact p.recs_refuseCmd c st false
  · rw [State.acceptEntry_of_frozen hst h] at hexec
    obtain ⟨hkeep, hfroze⟩ := p.freezeQueue_fields q st
    refine ⟨_, hexec, ⟨hkeep.trans hhead, hcmds, hpass.mem, ?_⟩, hfroze⟩
    rw [← hrecs]
    exact (p.freezeQueue q st).recs_refuseCmd c st true
  · rw [State.acceptEntry_of_held h hhold] at hexec
    refine ⟨_, hexec, hhead, ?_, hpass.mem, hpass.engs, hpass.ctxs⟩
    exact congrArg (· ++ [s.taken x.1 q]) hcmds
  · exact (exec_of_mem_queueRows hx q s).trans (acceptCmd_of_starts h)

end Sys2Proof.Machine
end

section
/-! PROOFS. Held commands, completion records and event records (R239, R243, R244, R260). -/

namespace Sys2Proof.Machine

/-! ### COMMAND_START -/

section
variable {s : State} {r : CmdRow} {c : Cmd} (hhold : s.mustHold r c = false)
include hhold

theorem State.lateStart_of_passed (h : c.started = true ∨ r.check s c = 0) : s.lateStart r c = s.startCmd r c := by
  have hst : (if c.started then 0 else r.check s c) = 0 := by
    rcases h with h | h <;> simp [h]
  unfold State.lateStart
  simp only [hhold, hst]
  rfl

theorem State.lateStart_of_failed (hnew : c.started = false) (h : r.check s c ≠ 0) :
    s.lateStart r c = s.endCmd c.id (r.check s c) := by
  unfold State.lateStart
  simp only [hhold, hnew]
  generalize r.check s c = st at h ⊢
  obtain ⟨n, rfl⟩ := Nat.exists_eq_succ_of_ne_zero h
  rfl

end

theorem exec_commandStart_of_held {s : State} {id : Nat} {c : Cmd} {r : CmdRow} (hc : s.cmd id = some c)
    (hr : rowOf c.opcode = some r) (hrun : s.runs = true) (hheld : c.st = .held) :
    exec (.commandStart id) s = .next (s.lateStart r c) := by
  change execCommandStart id s = _
  unfold execCommandStart
  simp only [hc, hr]
  exact if_pos ⟨hrun, hheld⟩

/-! ### A record to the host -/

/-- What is posted changes the transport, and the list of operations that commands wait for. -/
theorem State.postHost_rest (s : State) (p cmd a : Nat) (bs : List Byte) : (s.postHost p cmd a bs).1 =
    { s with net := (s.postHost p cmd a bs).1.net, cmds := (s.postHost p cmd a bs).1.cmds } := by
  unfold State.postHost State.post
  split <;> rfl

/-- Bytes that fit the smallest packet are one packet. -/
theorem State.dataPkts_of_le (s : State) (i kind : Nat) (base : Pkt) (a : Nat) {bs : List Byte} (h : bs.length ≤ 1024) :
    s.dataPkts i kind base a bs = [{ base with kind := kind, arg := a, body := bs, first := true, last := true }] := by
  have hfits : bs.length ≤ s.mtu i := h.trans (s.mtu_ge i)
  simp [State.dataPkts, cutBytes, firstLast, hfits]

theorem State.toHost_postHost {s : State} {p : Nat} (cmd a : Nat) {bs : List Byte} (h : s.entRefuses (hostEnt p) = none)
    (hbs : bs.length ≤ 1024) : (s.postHost p cmd a bs).1.toHost p a bs := by
  unfold State.toHost State.postHost
  rw [State.post_tx h, s.dataPkts_of_le _ _ _ _ hbs]
  exact ⟨_, List.mem_append_right _ (List.mem_singleton.2 rfl), rfl, rfl, rfl⟩

/-- What waits for the host hangs on the transport alone. -/
theorem State.toHost.congr {s t : State} {p a : Nat} {bs : List Byte} (h : s.toHost p a bs) (ht : t.net = s.net) :
    t.toHost p a bs := by
  unfold State.toHost State.ent at *
  rwa [ht]

/-! ### COMPLETION_RECORD_WRITE -/

theorem Cmd.length_record (c : Cmd) (sqhead phase : Nat) : (c.record sqhead phase).length = 32 := by
  simp [Cmd.record, leBytes]

/-- A queue of a partition that is not in its reset has nothing to settle (R426). -/
theorem State.settleQueue_of_not_resetting {s : State} {q : Nat} (h : s.partResetting (s.fld (rQpQ q) 55 3) = false) :
    s.settleQueue q = s := by
  unfold State.settleQueue
  simp only [h]
  exact if_pos (.inl (by simp))

theorem State.cqSync_part (s : State) (q : Nat) : (s.cqSync q).fld (rQpQ q) 55 3 = s.fld (rQpQ q) 55 3 :=
  s.fld_setFld_disjoint _ (by decide) (by decide)

/-- The state in which the record of command c, the next of queue q, is on its way to the host and off the queue. -/
def State.recordSent (s : State) (q : Nat) (c : Cmd) : State :=
  let x := s.queue q
  let d := s.qDepth q
  (((s.postHost (s.fld (rQpQ q) 55 3) 0 (x.chost + 32 * (x.cqIdx % d))
      (c.record (s.fld (rQpQ q) 16 16) (ringPhase x.cqIdx d))).1).setQueue q
    { x with cqIdx := x.cqIdx + 1, recs := x.recs.filter (fun r => r.id != c.id) }).cqSync q

section
variable (s : State) (q : Nat) (c : Cmd)

theorem State.recordSent_mem : (s.recordSent q c).mem = s.mem := by
  unfold State.recordSent
  dsimp only
  rw [s.postHost_rest]
  rfl

theorem State.recordSent_queue : (s.recordSent q c).queue q =
    { s.queue q with cqIdx := (s.queue q).cqIdx + 1, recs := (s.queue q).recs.filter (fun r => r.id != c.id) } := by
  unfold State.recordSent
  dsimp only
  rw [(State.cqSync_spec _ q).2.1, State.queue_setQueue_self]

theorem State.recordSent_toHost (h : s.entRefuses (hostEnt (s.fld (rQpQ q) 55 3)) = none) :
    (s.recordSent q c).toHost (s.fld (rQpQ q) 55 3) ((s.queue q).chost + 32 * ((s.queue q).cqIdx % s.qDepth q))
      (c.record (s.fld (rQpQ q) 16 16) (ringPhase (s.queue q).cqIdx (s.qDepth q))) :=
  (State.toHost_postHost 0 _ h ((c.length_record _ _).trans_le (by decide))).congr rfl

/-- The queue is of its partition still, and that partition is in its reset as before. -/
theorem State.recordSent_partResetting : (s.recordSent q c).partResetting ((s.recordSent q c).fld (rQpQ q) 55 3) =
    s.partResetting (s.fld (rQpQ q) 55 3) := by
  unfold State.recordSent
  dsimp only
  rw [State.cqSync_part, s.postHost_rest]
  rfl

end

section
variable {s : State} {q : Fin 16384} {c : Cmd} (hreset : s.partResetting (s.fld (rQpQ q) 55 3) = false)
  (hnext : nextRec s.recReady (s.queue q).recs = some c)
include hreset hnext

/-- With a record that is next, COMPLETION_RECORD_WRITE is decided by the ring's room and by the host entry (log 31,
log 102). -/
theorem exec_completionRecordWrite_of_next : exec (.completionRecordWrite q) s =
    if ¬ s.cqRoom q then .next (s.cqSync q)
    else if (s.entRefuses (hostEnt (s.fld (rQpQ q) 55 3))).isSome then .next s
    else if c.opcode = 0x21 ∧ c.opf 0 0 14 = q ∧ c.status = 0 then .next ((s.recordSent q c).closeQueue q)
    else .next ((s.recordSent q c).settleQueue q) := by
  change execCompletionRecordWrite q s = _
  unfold execCompletionRecordWrite
  simp only [State.settleQueue_of_not_resetting hreset, hnext]
  rfl

theorem exec_completionRecordWrite_of_room (hroom : s.cqRoom q = true)
    (hself : c.opcode ≠ 0x21 ∨ c.opf 0 0 14 ≠ q ∨ c.status ≠ 0)
    (hent : s.entRefuses (hostEnt (s.fld (rQpQ q) 55 3)) = none) :
    exec (.completionRecordWrite q) s = .next (s.recordSent q c) := by
  rw [exec_completionRecordWrite_of_next hreset hnext, if_neg (by simp [hroom]), if_neg (by simp [hent]),
    if_neg (by rintro ⟨h1, h2, h3⟩; simp [h1, h2, h3] at hself),
    State.settleQueue_of_not_resetting ((s.recordSent_partResetting q c).trans hreset)]

theorem exec_completionRecordWrite_of_refused (hroom : s.cqRoom q = true)
    (hent : (s.entRefuses (hostEnt (s.fld (rQpQ q) 55 3))).isSome = true) :
    exec (.completionRecordWrite q) s = .next s := by
  rw [exec_completionRecordWrite_of_next hreset hnext, if_neg (by simp [hroom]), if_pos hent]

theorem exec_completionRecordWrite_of_full (hroom : s.cqRoom q = false) :
    exec (.completionRecordWrite q) s = .next (s.cqSync q) := by
  rw [exec_completionRecordWrite_of_next hreset hnext, if_pos (by simp [hroom])]

end

/-! ### EVENT_RECORD -/

theorem Event.length_record (e : Event) (phase : Nat) : (e.record phase).length = 32 := by
  simp [Event.record, leBytes]

section
variable (s : State) (p : Nat) (e : Event)

theorem State.writeEvent_mem : (s.writeEvent p e).mem = s.mem := by
  unfold State.writeEvent
  dsimp only
  rw [s.postHost_rest]
  rfl

/-- The partition's ring moves on by one record. -/
theorem State.writeEvent_part : (s.writeEvent p e).part p = { s.part p with evIdx := (s.part p).evIdx + 1 } := by
  unfold State.writeEvent
  dsimp only
  rw [State.updPart_eq, State.part_setPart_self, s.postHost_rest]
  rfl

theorem State.writeEvent_toHost (h : s.entRefuses (hostEnt p) = none) :
    (s.writeEvent p e).toHost p ((s.part p).evAddr + 32 * ((s.part p).evIdx % 2 ^ (s.part p).evDlog))
      (e.record (ringPhase (s.part p).evIdx (2 ^ (s.part p).evDlog))) :=
  (State.toHost_postHost 0 _ h ((e.length_record _).trans_le (by decide))).congr rfl

/-- The state in which the events of a partition that wait are es. -/
def State.leavingEvents (es : List Event) : State := s.updPart p (fun x => { x with events := es })

theorem State.leavingEvents_part (es : List Event) : (s.leavingEvents p es).part p = { s.part p with events := es } :=
  State.part_setPart_self _ _ _

end

/-- Events wait while the host entry takes no write (log 102). -/
theorem exec_eventRecord_of_refused {s : State} {p : Fin 8} (h : (s.entRefuses (hostEnt p)).isSome = true) :
    exec (.eventRecord p) s = .next s :=
  if_pos h

section
variable {s : State} {p : Fin 8} (hent : s.entRefuses (hostEnt p) = none)
include hent

/-- With none lost before it, the oldest event is written, or dropped and counted where the ring is full. -/
theorem exec_eventRecord_of_oldest {v : Event} {vs : List Event} (hlost : s.fld (rQpPevt p) 0 32 = 0)
    (hev : (s.part p).events = v :: vs) : exec (.eventRecord p) s =
      .next (if s.evRoom p then (s.leavingEvents p vs).writeEvent p v
        else (s.leavingEvents p vs).updReg (rQpPevt p) (fun w => bsat w 0 32 1)) := by
  have hroom : (s.leavingEvents p vs).evRoom p = s.evRoom p := by
    unfold State.evRoom
    rw [s.leavingEvents_part p vs]
  change execEventRecord p s = _
  unfold execEventRecord
  dsimp only
  rw [if_neg (by simp [hent]), if_neg (by simp [hlost]), hev, ← hroom]
  exact (apply_ite Host.Outcome.next _ _ _).symm

/-- Once there is room again, EVENT_LOST is written with the count, which is then 0. -/
theorem exec_eventRecord_of_lost (hlost : s.fld (rQpPevt p) 0 32 ≠ 0) (hroom : s.evRoom p = true) :
    exec (.eventRecord p) s = .next ((s.writeEvent p
      { code := stEventLost, dt := s.dt, arg0 := BitVec.ofNat 64 (s.fld (rQpPevt p) 0 32) }).setFld (rQpPevt p) 0 32 0) := by
  change execEventRecord p s = _
  unfold execEventRecord
  dsimp only
  rw [if_neg (by simp [hent]), if_pos ⟨hroom, hlost⟩]

end

/-- Settles O38 (log 31, log 102): a held command's start by its operand check, a record by the ring's room and the host
entry, an event by the ring's room and the count of those that were lost. -/
theorem heldCommandsAndRecords : Obligations.HeldCommandsAndRecords := by
  unfold Obligations.HeldCommandsAndRecords
  refine ⟨fun s id c r hc hr hrun hheld hhold => ?_, fun s q c hreset hnext hself => ?_,
    fun s p h => exec_eventRecord_of_refused h, fun s p v vs hent => ?_⟩
  · have hid : c.id = id := by simpa using List.find?_some hc
    have hexec := exec_commandStart_of_held hc hr hrun hheld
    refine ⟨fun h => ?_, fun hnew h => ?_⟩
    · rw [hexec, State.lateStart_of_passed hhold h]
    · rw [hexec, State.lateStart_of_failed hhold hnew h, hid]
  · refine ⟨fun hroom hent => ?_, exec_completionRecordWrite_of_refused hreset hnext,
      exec_completionRecordWrite_of_full hreset hnext⟩
    have hqueue := s.recordSent_queue q c
    exact ⟨_, exec_completionRecordWrite_of_room hreset hnext hroom hself hent, s.recordSent_mem q c,
      congrArg Queue.recs hqueue, congrArg Queue.cqIdx hqueue, s.recordSent_toHost q c hent⟩
  · intro x
    refine ⟨fun hlost hev => ?_, fun hlost hroom => ?_⟩
    · refine ⟨_, exec_eventRecord_of_oldest hent hlost hev, ?_⟩
      have hpart := s.leavingEvents_part p vs
      split
      · have hwritten := (s.leavingEvents p vs).writeEvent_part p v
        have hto := (s.leavingEvents p vs).writeEvent_toHost p v hent
        rw [hpart] at hwritten hto
        exact ⟨congrArg Part.events hwritten, (s.leavingEvents p vs).writeEvent_mem p v, congrArg Part.evIdx hwritten, hto⟩
      · refine ⟨congrArg Part.events hpart, rfl, ?_⟩
        have hcount : (s.leavingEvents p vs).fld (rQpPevt p) 0 32 = 0 := hlost
        refine ((s.leavingEvents p vs).fld_setFld_self _ (by decide)).trans ?_
        rw [← State.fld, hcount]
        rfl
    · refine ⟨_, exec_eventRecord_of_lost hent hlost hroom, ?_, State.fld_setFld_self _ _ (by decide),
        ⟨_, rfl, rfl, s.writeEvent_toHost p _ hent⟩⟩
      rw [State.setFld_eq, State.part_setReg, s.writeEvent_part p]

end Sys2Proof.Machine
end

section
/-! PROOFS. A packet in SEQ order is delivered, refused or frozen out (R272, R277, R281, R282, R396). -/

namespace Sys2Proof.Machine

/-! ### Delivery moves on by one SEQ -/

/-- From s to t entry i waits for the same SEQ, of the EPOCH in force and of the one before. -/
def State.sameNext (s t : State) (i : Nat) : Prop :=
  (t.ent i).rxNext = (s.ent i).rxNext ∧ (t.ent i).prior = (s.ent i).prior

theorem State.sameNext.trans {s t u : State} {i : Nat} (h : s.sameNext t i) (h' : t.sameNext u i) : s.sameNext u i :=
  ⟨h'.1.trans h.1, h'.2.trans h.2⟩

theorem State.sameNext_of_net {s t : State} (h : t.net = s.net) (i : Nat) : s.sameNext t i := by
  have he : t.ent i = s.ent i := by unfold State.ent; rw [h]
  exact ⟨congrArg Entry.rxNext he, congrArg Entry.prior he⟩

/-- An update of an entry that leaves its order alone. -/
theorem State.sameNext_updEnt (s : State) (i : Nat) {f : Entry → Entry}
    (hf : (f (s.ent i)).rxNext = (s.ent i).rxNext ∧ (f (s.ent i)).prior = (s.ent i).prior) : s.sameNext (s.updEnt i f) i := by
  unfold State.sameNext
  rw [State.updEnt_eq, State.ent_setEnt_self]
  exact hf

theorem State.sameNext_noteOp (s : State) (i : Nat) (p : Pkt) (d : Bool) : s.sameNext (s.noteOp i p d) i := by
  unfold State.noteOp
  split
  · exact ⟨rfl, rfl⟩
  · exact s.sameNext_updEnt i ⟨rfl, rfl⟩

theorem State.sameNext_refusePkt (s : State) (i : Nat) (p : Pkt) (st : Nat) : s.sameNext (s.refusePkt i p st) i :=
  s.sameNext_updEnt i ⟨rfl, rfl⟩

theorem State.sameNext_iceEnt (s : State) (i : Nat) : s.sameNext (s.iceEnt i) i := by
  unfold State.iceEnt
  split
  · exact ⟨rfl, rfl⟩
  · exact (s.sameNext_updEnt i (f := fun e => { e with kept := s.entState i }) ⟨rfl, rfl⟩).trans (.intro rfl rfl)

theorem State.sameNext_opsFail (s : State) (i st : Nat) : s.sameNext (s.opsFail i st) i := by
  have he := (s.opsOnly_opsFail i st).ent i
  exact ⟨congrArg Entry.rxNext he, congrArg Entry.prior he⟩

theorem State.sameNext_freezeEnt (s : State) (i cause : Nat) : s.sameNext (s.freezeEnt i cause) i := by
  refine (s.sameNext_iceEnt i).trans ?_
  unfold State.freezeEnt State.frozenEvent
  dsimp only
  split
  · exact .trans (.intro rfl rfl) (State.sameNext_opsFail _ i stPeerFrozen)
  · exact ⟨rfl, rfl⟩

theorem State.sameNext_violate (s : State) (i : Nat) (p : Pkt) (st : Nat) : s.sameNext (s.violate i p st) i := by
  unfold State.violate
  split
  · exact s.sameNext_refusePkt i p st
  · exact (s.sameNext_freezeEnt i st).trans (State.sameNext_refusePkt _ i p _)

/-- From s to t the packet that is next has been taken: entry i waits for the next SEQ, in the EPOCH before the one in force
where that packet is of it. -/
def State.movesOn (s t : State) (i : Nat) : Prop :=
  (t.ent i).rxNext = (if (s.ent i).early.isSome then (s.ent i).rxNext else ((s.ent i).rxNext + 1) % seqMod) ∧
    (t.ent i).prior = (s.ent i).taken.prior

theorem State.movesOn.trans {s t u : State} {i : Nat} (h : s.movesOn t i) (h' : t.sameNext u i) : s.movesOn u i :=
  ⟨h'.1.trans h.1, h'.2.trans h.2⟩

theorem Entry.taken_rxNext (e : Entry) : e.taken.rxNext = if e.early.isSome then e.rxNext else (e.rxNext + 1) % seqMod := by
  unfold Entry.taken
  split
  next he hp => rw [he]; rfl
  next hne =>
    rw [if_neg]
    intro h
    obtain ⟨q, hq⟩ := Option.isSome_iff_exists.1 h
    unfold Entry.early at hq
    split at hq
    · cases hq
    next y hy => exact hne q y (by unfold Entry.early; simp [hy, hq]) hy

theorem State.movesOn_takeRx (s : State) (i : Nat) (p : Pkt) : s.movesOn (s.takeRx i p) i := by
  have he : (s.takeRx i p).ent i = (s.ent i).taken := State.ent_setEnt_self _ _ _
  unfold State.movesOn
  rw [he]
  exact ⟨(s.ent i).taken_rxNext, rfl⟩

/-- The state in which the next packet of an entry is dropped. -/
def State.dropping (s : State) (i : Nat) (p : Pkt) : State := (s.takeRx i p).noteOp i p false

theorem State.received_dropping (s : State) (i : Nat) (p : Pkt) : s.received (s.dropping i p) i :=
  (s.received_takeRx i p).trans (State.received_noteOp _ i p false)

theorem State.movesOn_dropping (s : State) (i : Nat) (p : Pkt) : s.movesOn (s.dropping i p) i :=
  (s.movesOn_takeRx i p).trans (State.sameNext_noteOp _ i p false)

theorem State.movesOn_taking (s : State) (i : Nat) (p : Pkt) : s.movesOn (s.taking i p) i :=
  (s.movesOn_takeRx i p).trans (State.sameNext_noteOp _ i p true)

/-! ### Checks 1 to 3 (Table 10.6) -/

section
variable {s : State} {i : Nat} {p : Pkt} {want : Pkt → Bool} {eff : State → Pkt → State}

/-- On a frozen entry the packet is dropped. -/
theorem State.deliverOne_of_frozen (h : s.delivers i p) (hw : want p = true) (hf : s.entState i = 2) :
    s.deliverOne i want eff =
      ((s.dropping i p).updEnt i (fun e => { e with dropped := e.dropped + 1 })).refusePkt i p stPeerFrozen := by
  obtain ⟨hdue, hruns, h0, hmov, -⟩ := h
  have hstate : (s.takeRx i p).entState i = 2 := by rwa [(s.received_takeRx i p).entState]
  unfold State.deliverOne
  simp only [hdue]
  rw [if_neg (by simp [hruns, hw, h0]), if_neg (by simp [hmov]), if_pos hstate]
  rfl

/-- A packet of a stale tag, or of a context that has gone, is refused. -/
theorem State.deliverOne_of_stale (h : s.delivers i p) (hw : want p = true) (hf : s.entState i ≠ 2)
    (hs : s.stalePkt i p = true) : s.deliverOne i want eff =
      (s.dropping i p).refusePkt i p stContextStale := by
  obtain ⟨hdue, hruns, h0, hmov, -⟩ := h
  have hstate : (s.takeRx i p).entState i ≠ 2 := by rwa [(s.received_takeRx i p).entState]
  unfold State.deliverOne
  simp only [hdue]
  rw [if_neg (by simp [hruns, hw, h0]), if_neg (by simp [hmov]), if_neg hstate]
  split
  · rfl
  next hdrop =>
    have hcur : p.toCtx ∧ ¬ (s.takeRx i p).ctxCurrent i p := by
      have he : (s.takeRx i p).ctxCurrent i p = s.ctxCurrent i p := rfl
      rw [he]
      rw [State.stalePkt, Bool.eq_false_iff.2 hdrop] at hs
      simpa using hs
    rw [if_pos hcur]
    rfl

end

/-- An entry counts each packet that it drops while it is frozen. -/
theorem State.dropped_of_frozen (s : State) (i : Nat) (p : Pkt) (st : Nat) :
    ((((s.dropping i p).updEnt i (fun e => { e with dropped := e.dropped + 1 })).refusePkt i p st).ent i).dropped =
      (s.ent i).dropped + 1 := by
  have htaken : ((s.takeRx i p).ent i).dropped = (s.ent i).dropped := by
    have he : (s.takeRx i p).ent i = (s.ent i).taken := State.ent_setEnt_self _ _ _
    rw [he, Entry.taken]
    split <;> rfl
  have hnote : ((s.dropping i p).ent i).dropped = ((s.takeRx i p).ent i).dropped := by
    unfold State.dropping State.noteOp
    split
    · rfl
    · dsimp only
      rw [State.updEnt_eq, State.ent_setEnt_self]
  rw [State.refusePkt, State.updEnt_eq, State.ent_setEnt_self, State.updEnt_eq, State.ent_setEnt_self, hnote, htaken]

/-! ### The rows -/

/-- The row of a packet's kind delivers it, and that of a WRITE or READ_RESP writes its data. -/
theorem exec_of_pktRow {s : State} {i : Fin 16392} {p : Pkt} {c : Instr} (h : s.delivers i p) (hc : pktRow p i = some c) :
    ∃ want eff, want p = true ∧ exec c s = .next (s.deliverOne i want eff) ∧
      (p.kind = 1 ∨ p.kind = 3 → eff = fun s p => s.dlvWrite i p) := by
  have hwaits : s.stotWaits i = false := h.2.2.2.2
  unfold pktRow at hc
  split_ifs at hc with h1 h2 h3 h5 h4 hg hd <;> cases hc
  · exact ⟨fun p => p.kind == 1, _, by simp [h1], rfl, fun _ => rfl⟩
  · exact ⟨fun p => p.kind == 2, _, by simp [h2], rfl, fun hk => by omega⟩
  · exact ⟨fun p => p.kind == 3, _, by simp [h3], rfl, fun _ => rfl⟩
  · refine ⟨fun p => p.kind == 5, fun s p => s.dlvStot i p, by simp [h5], ?_, fun hk => by omega⟩
    change execStot i s = _
    rw [execStot, if_neg (by simp [hwaits])]
    rfl
  · exact ⟨fun p => p.kind == 4 && p.arg == 1, _, by simp_all, rfl, fun hk => by omega⟩
  · exact ⟨fun p => p.kind == 4 && (p.arg == 0 || p.strayMsg i), _, by simp_all, rfl, fun hk => by omega⟩

/-! ### The data of a WRITE or READ_RESP -/

/-- A packet's data is written byte by byte at its addresses. -/
theorem State.putAt_mem (s : State) (ds : List Nat) (bs : List Byte) (poison : Bool) :
    (s.putAt ds bs poison).mem = (s.writeDev (ds.zip bs)).mem := by
  unfold State.putAt
  rw [State.wrAll_eq, State.markAll_mem, ← List.map_uncurry_zip_eq_zipWith, List.foldl_map]
  rfl

theorem State.byte_putAt (s : State) (ds : List Nat) (bs : List Byte) (poison : Bool) (a : Nat) :
    (s.putAt ds bs poison).byte a = (s.writeDev (ds.zip bs)).byte a := by
  unfold State.byte
  rw [State.putAt_mem, (s.memOnly_writeDev _).memKey, State.putAt, (s.writesOnly_wrAll _).map.memKey]

theorem State.putAt_net (s : State) (ds : List Nat) (bs : List Byte) (poison : Bool) :
    (s.putAt ds bs poison).net = s.net := by
  rw [State.putAt, (s.writesOnly_wrAll _).rest]

/-- The same of the packet that an entry delivers. -/
theorem State.received.byte_putAt {s t : State} {i : Nat} (h : s.received t i) (ds : List Nat) (bs : List Byte)
    (poison : Bool) (a : Nat) : (t.putAt ds bs poison).byte a = (s.writeDev (ds.zip bs)).byte a := by
  rw [State.byte_putAt]
  have hm : (t.writeDev (ds.zip bs)).mem = (s.writeDev (ds.zip bs)).mem := by
    rw [← State.putAt_mem _ _ _ poison, h.putAt, State.putAt_mem]
  unfold State.byte
  rw [hm, (t.memOnly_writeDev _).memKey, (s.memOnly_writeDev _).memKey, h.sameView.map.memKey]

/-- Settles O39 (log 105). -/
theorem packetDelivery : Obligations.PacketDelivery := by
  intro s i p c h hc
  obtain ⟨want, eff, hw, hrun, heff⟩ := exec_of_pktRow h hc
  have hdropped := s.received_dropping i p
  have hon := s.movesOn_dropping i p
  refine ⟨fun hf => ?_, fun hf hs => ?_, fun hf hs hk => ?_⟩
  · rw [State.deliverOne_of_frozen h hw hf] at hrun
    exact ⟨_, hrun, (hon.trans (State.sameNext_updEnt _ i ⟨rfl, rfl⟩)).trans (State.sameNext_refusePkt _ i p _),
      State.ent_refusePkt _ i p _, s.dropped_of_frozen i p _, hdropped.mem⟩
  · rw [State.deliverOne_of_stale h hw hf hs] at hrun
    exact ⟨_, hrun, hon.trans (State.sameNext_refusePkt _ i p _), State.ent_refusePkt _ i p _, hdropped.mem⟩
  · have ht := s.received_taking i p
    have hp := s.movesOn_taking i p
    rw [State.deliverOne_of h hw hf hs, heff hk] at hrun
    unfold State.dlvWrite at hrun
    dsimp only at hrun
    rw [ht.sameView.pktAddrs] at hrun
    refine ⟨fun ds ha => ?_, fun st ha => ?_⟩
    · rw [ha] at hrun
      refine ⟨_, hrun, hp.trans (State.sameNext_of_net (State.putAt_net _ _ _ _) i), fun a hne => ?_,
        fun k d b hd hb hfab hlost hlast => ?_⟩
      · rw [ht.byte_putAt]
        exact State.byte_writeDev_of_ne fun w hw => hne w.1 (List.of_mem_zip hw).1
      · rw [ht.byte_putAt]
        refine State.byte_writeDev (w := (d, b)) (List.getElem?_zip_eq_some.2 ⟨hd, hb⟩) hfab hlost fun j x hj hx => ?_
        exact hlast j x.1 hj (List.getElem?_zip_eq_some.1 hx).1
    · rw [ha] at hrun
      obtain ⟨hmem, hv⟩ := ht.violate p st
      exact ⟨_, hrun, hp.trans (State.sameNext_violate _ i p st), hv, hmem⟩

end Sys2Proof.Machine
end

section
/-! PROOFS. Peer entries that are set and cleared (R269, R270, R271). -/

namespace Sys2Proof.Machine

/-! ### STATE of an entry -/

theorem State.entLife_of_state {s : State} {i v : Nat} (h : s.entState i = v) (h2 : v ≠ 2) : s.entLife i = v := by
  rw [State.entLife, h, if_neg h2]

/-- The life of an entry hangs on its STATE and, where it is frozen, on what it keeps. -/
theorem State.entLife_congr {s t : State} {i : Nat} (hs : t.entState i = s.entState i)
    (hk : (t.ent i).kept = (s.ent i).kept) : t.entLife i = s.entLife i := by
  unfold State.entLife
  rw [hs, hk]

theorem State.entLife_updEnt (s : State) (i : Nat) {f : Entry → Entry} (hf : (f (s.ent i)).kept = (s.ent i).kept) :
    (s.updEnt i f).entLife i = s.entLife i := by
  refine State.entLife_congr rfl ?_
  rw [State.updEnt_eq, State.ent_setEnt_self, hf]

/-- An entry that falls has that life, frozen or not. -/
theorem State.entLife_fallEnt (s : State) (i : Nat) {v : Nat} (h8 : v < 8) (h2 : v ≠ 2) : (s.fallEnt i v).entLife i = v := by
  unfold State.fallEnt
  split
  next hf =>
    have hent := s.ent_setEnt_self i { s.ent i with kept := v }
    have hfrozen : (s.setEnt i { s.ent i with kept := v }).entState i = 2 := hf
    change (s.setEnt i { s.ent i with kept := v }).entLife i = v
    rw [State.entLife, if_pos hfrozen, hent]
  next =>
    refine State.entLife_of_state ?_ h2
    rw [State.entState_setEntState, Nat.mod_eq_of_lt h8]

theorem State.fallEnt_mem (s : State) (i v : Nat) : (s.fallEnt i v).mem = s.mem := by
  unfold State.fallEnt
  split <;> rfl

/-! ### An entry becomes unset (R271) -/

theorem State.foldl_finishCmd_spec {α : Type} (f : α → Nat) (l : List α) (s : State) :
    s.booksOnly (l.foldl (fun s x => s.finishCmd (f x)) s) ∧ ∀ o, (l.foldl (fun s x => s.finishCmd (f x)) s).reg o = s.reg o := by
  refine ⟨?_, fun o => foldl_proj (π := fun t : State => t.reg o) (fun s x => s.reg_finishCmd (f x) o) l s⟩
  induction l generalizing s with
  | nil => rfl
  | cons x l ih => exact (s.booksOnly_finishCmd (f x)).trans (ih _)

/-- What the end of resets leaves as it is. -/
theorem State.settleResets_spec (s : State) : s.settleResets.mem = s.mem ∧ s.settleResets.net = s.net ∧
    ∀ o, s.settleResets.reg o = s.reg o := by
  obtain ⟨hbooks, hreg⟩ := State.foldl_finishCmd_spec (fun r : Nat × Nat × Nat => r.2.2)
    (s.rst.resets.filter (fun r => r.1 == 2 && s.partDone r.2.1))
    { s with rst := { s.rst with resets := s.rst.resets.filter (fun r =>
      !(s.rst.resets.filter (fun r => r.1 == 2 && s.partDone r.2.1)).contains r) } }
  exact ⟨hbooks.mem, hbooks.net, hreg⟩

/-- An entry that becomes unset holds nothing. -/
theorem State.unsetEnt_spec (s : State) (i : Nat) : (s.unsetEnt i).mem = s.mem ∧ (s.unsetEnt i).entState i = 0 ∧
    (s.unsetEnt i).ent i = {} := by
  unfold State.unsetEnt
  dsimp only
  generalize hu : ((State.setEnt _ i {}).setReg (entReg i) 0) = u
  obtain ⟨hbooks, hreg⟩ := State.foldl_finishCmd_spec (fun id : Nat => id) (s.ent i).clearCmds u
  obtain ⟨hmem, hnet, hreg'⟩ := ((s.ent i).clearCmds.foldl (fun s id => s.finishCmd id) u).settleResets_spec
  refine ⟨?_, ?_, ?_⟩
  · rw [hmem, hbooks.mem, ← hu]
    rfl
  · rw [State.entState, State.fld, hreg', hreg, ← hu, State.reg_setReg_self]
    rfl
  · rw [State.ent, hnet, ← State.ent, hbooks.ent, ← hu]
    exact State.ent_setEnt_self _ i {}

/-- The same after its operations have failed. -/
theorem State.failUnset_spec (s : State) (i : Nat) : ((s.opsFail i stPeerUnreachable).unsetEnt i).mem = s.mem ∧
    ((s.opsFail i stPeerUnreachable).unsetEnt i).entState i = 0 ∧ ((s.opsFail i stPeerUnreachable).unsetEnt i).ent i = {} := by
  obtain ⟨hmem, hrest⟩ := (s.opsFail i stPeerUnreachable).unsetEnt_spec i
  exact ⟨hmem.trans (s.opsOnly_opsFail i _).mem, hrest⟩

/-- A clear ends or goes on. -/
theorem State.ackClear_spec (s : State) (i : Nat) (h : s.entLife i = 4) : (s.ackClear i).mem = s.mem ∧
    ((s.ackClear i).entState i = 0 ∨ (s.ackClear i).entLife i = 4) := by
  unfold State.ackClear
  split
  · exact ⟨(s.failUnset_spec i).1, .inl (s.failUnset_spec i).2.1⟩
  · exact ⟨rfl, .inr h⟩

/-- A clear of an entry leaves it unset or clearing. -/
theorem State.clearPeer_spec (s : State) (i id : Nat) : (s.clearPeer i id).mem = s.mem ∧
    ((s.clearPeer i id).entState i = 0 ∨ (s.clearPeer i id).entLife i = 4) := by
  unfold State.clearPeer
  dsimp only
  split
  next h0 =>
    refine ⟨(s.booksOnly_finishCmd id).mem, .inl ?_⟩
    rw [State.entState, State.fld_finishCmd]
    exact h0
  next h0 =>
    split
    next h4 => exact ⟨rfl, .inr ((State.entLife_updEnt _ _ (by rfl)).trans h4)⟩
    next h4 =>
      have hlife := s.entLife_fallEnt i (v := 4) (by decide) (by decide)
      obtain ⟨hmem, hend⟩ := State.ackClear_spec ((s.fallEnt i 4).updEnt i (fun e =>
        { e with clearDt := s.dt.toNat, clearCmds := if id = 0 then [] else [id] })) i
        ((State.entLife_updEnt _ _ rfl).trans hlife)
      exact ⟨hmem.trans (s.fallEnt_mem i 4), hend⟩

/-! ### The commands -/

theorem peerClear_effect (s : State) (q : Nat) :
    let c := s.taken peerClearRow q
    let t := peerClearStart (s.running peerClearRow q) (s.runningCmd peerClearRow q)
    (c.opf 0 14 2 = 2 → s.finishes t q 0 ∧ tget {} t.net.endpoints (c.opf 0 16 3) = {}) ∧
      (c.opf 0 14 2 ≠ 2 → t.mem = s.mem ∧ (t.entState c.entry = 0 ∨ t.entLife c.entry = 4)) := by
  intro c t
  refine ⟨fun h2 => ?_, fun h2 => ?_⟩
  · have ht : t = State.finishCmd { s.running peerClearRow q with net := { (s.running peerClearRow q).net with
        endpoints := tdel (c.opf 0 16 3) (s.running peerClearRow q).net.endpoints } } s.nextCmd := if_pos h2
    rw [ht, (State.booksOnly_finishCmd _ _).net]
    exact ⟨State.finishes_of_cmds (r := peerClearRow) rfl rfl, (tget_tdel _ _ _ _).trans (if_pos rfl)⟩
  · have ht : t = (s.running peerClearRow q).clearPeer c.entry s.nextCmd := if_neg h2
    obtain ⟨hmem, hend⟩ := (s.running peerClearRow q).clearPeer_spec c.entry s.nextCmd
    rw [ht]
    exact ⟨hmem.trans (s.booksOnly_running peerClearRow q).mem, hend⟩

/-- The word of an entry that is set. -/
def peerWord (part v6 mtu np cw : Nat) : Nat := fv 61 3 1 + fv 58 3 part + fv 57 1 v6 + fv 54 3 mtu + fv 48 6 np + fv 0 32 cw

theorem bf_peerWord (part v6 mtu np cw : Nat) : bf (BitVec.ofNat 64 (peerWord part v6 mtu np cw)) 61 3 = 1 ∧
    bf (BitVec.ofNat 64 (peerWord part v6 mtu np cw)) 58 3 = part % 8 := by
  simp only [bf_ofNat, peerWord, fv_eq]
  omega

theorem State.reg_setPeer (s : State) (i part : Nat) (ws : List W64) : ∃ v6 mtu np cw,
    (s.setPeer i part ws).reg (entReg i) = BitVec.ofNat 64 (peerWord part v6 mtu np cw) :=
  ⟨_, _, _, _, State.reg_setReg_self _ _ _⟩

/-- The partition of a peer entry stands in its register, that of a host entry in its number. -/
theorem Cmd.entPart_entry {t : State} {c : Cmd} (h : t.fld (entReg c.entry) 58 3 = c.opf 0 16 3) :
    t.entPart c.entry = c.opf 0 16 3 := by
  have hlt := opf_lt c 0 0 14
  unfold State.entPart
  by_cases h0 : c.opf 0 14 2 = 0
  · have hpeer : c.entry < 16384 := by simpa [Cmd.entry, h0] using hlt
    rw [if_pos hpeer, h]
  · have hhost : c.entry = 16384 + c.opf 0 16 3 := if_neg h0
    rw [if_neg (by omega), hhost, Nat.add_sub_cancel_left]

/-- The state of PEER_SET after its work, whose command is to be finished. -/
def State.peerDone (s : State) (c : Cmd) (ws : List W64) : State :=
  if c.opf 0 14 2 = 2 then
    { s with net := { s.net with
        endpoints := tset {} s.net.endpoints (c.opf 0 16 3) { v4 := blockBe ws 0 4, v6 := blockBe ws 0x10 16 } } }
  else s.setPeer c.entry (c.opf 0 16 3) ws

theorem peerSetStart_of_block {s : State} {c : Cmd} {ws : List W64} (h : s.peerBlock c = .ok ws) :
    peerSetStart s c = ((s.wipeKeys c).peerDone c ws).finishCmd c.id := by
  unfold peerSetStart
  rw [h]
  rfl

theorem State.peerDone_rest (s : State) (c : Cmd) (ws : List W64) : (s.peerDone c ws).mem = s.mem ∧
    (s.peerDone c ws).cmds = s.cmds ∧ (s.peerDone c ws).dt = s.dt := by
  unfold State.peerDone
  split
  · exact ⟨rfl, rfl, rfl⟩
  · rw [(s.hostStep_setPeer _ _ _).rest]
    exact ⟨rfl, rfl, rfl⟩

theorem peerSet_effect (s : State) (q : Nat) {ws : List W64}
    (h : (s.running peerSetRow q).peerBlock (s.runningCmd peerSetRow q) = .ok ws) :
    let c := s.taken peerSetRow q
    let t := peerSetStart (s.running peerSetRow q) (s.runningCmd peerSetRow q)
    s.finishes t q 0 ∧ t.mem = ((s.running peerSetRow q).wipeKeys (s.runningCmd peerSetRow q)).mem ∧
      (c.opf 0 14 2 = 2 → tget {} t.net.endpoints (c.opf 0 16 3) = { v4 := blockBe ws 0 4, v6 := blockBe ws 0x10 16 }) ∧
      (c.opf 0 14 2 ≠ 2 → t.entState c.entry = 1 ∧ t.entPart c.entry = c.opf 0 16 3 ∧
        let e := t.ent c.entry
        let bytes := ws.flatMap (fun x => leBytes 8 x.toNat)
        e.udp = bf (ws.getD 0 0) 0 16 ∧ e.rindex = bf (ws.getD 0 0) 16 14 ∧ e.tctx = bf (ws.getD 0 0) 40 10 ∧
          e.tgen = bf (ws.getD 0 0) 50 12 ∧ e.epoch = bf (ws.getD 1 0) 0 8 ∧ e.seq = 0 ∧ e.txn = 1 ∧
          e.txKey = leNat ((bytes.drop 0x20).take 32) ∧ e.rxKey = leNat ((bytes.drop 0x40).take 32)) := by
  intro c t
  have ht : t = (((s.running peerSetRow q).wipeKeys (s.runningCmd peerSetRow q)).peerDone c ws).finishCmd s.nextCmd :=
    peerSetStart_of_block h
  have hwipe : (s.running peerSetRow q).writesOnly ((s.running peerSetRow q).wipeKeys (s.runningCmd peerSetRow q)) :=
    State.writesOnly_wrAll _ _
  have hdt : ((s.running peerSetRow q).wipeKeys (s.runningCmd peerSetRow q)).dt = (s.running peerSetRow q).dt := by
    rw [hwipe.rest]
  generalize (s.running peerSetRow q).wipeKeys (s.runningCmd peerSetRow q) = u at ht hwipe hdt ⊢
  obtain ⟨hmem, hcmds, hdt'⟩ := u.peerDone_rest c ws
  have hbooks := (u.peerDone c ws).booksOnly_finishCmd s.nextCmd
  rw [ht, hbooks.mem, hbooks.net]
  refine ⟨State.finishes_of_cmds (hdt'.trans hdt) (hcmds.trans hwipe.cmds), hmem, fun h2 => ?_, fun h2 => ?_⟩
  · rw [State.peerDone, if_pos h2]
    exact (tget_tset _ _ _ _).trans (if_pos rfl)
  · obtain ⟨v6, mtu, np, cw, hreg⟩ := u.reg_setPeer c.entry (c.opf 0 16 3) ws
    obtain ⟨hstate, hpart⟩ := bf_peerWord (c.opf 0 16 3) v6 mtu np cw
    have hlt := opf_lt c 0 16 3
    rw [hbooks.ent, State.peerDone, if_neg h2]
    refine ⟨?_, Cmd.entPart_entry ?_, ?_⟩
    · rw [State.entState, State.fld_finishCmd, State.fld, hreg, hstate]
    · rw [State.fld_finishCmd, State.fld, hreg, hpart]
      exact Nat.mod_eq_of_lt hlt
    · have hent : (u.setPeer c.entry (c.opf 0 16 3) ws).ent c.entry = _ := State.ent_setEnt_self _ _ _
      rw [hent]
      exact ⟨rfl, rfl, rfl, rfl, rfl, rfl, rfl, rfl, rfl⟩

end Sys2Proof.Machine
end

section
/-! PROOFS. FAB_LOAD and FAB_BLANK queue for their dies' write ports, and what begins blanks its regions (R363 to R366). -/

namespace Sys2Proof.Machine

/-! ### Regions that become BLANKING -/

theorem rFabRstat_inj {f g : Nat} : rFabRstat f = rFabRstat g ↔ f = g := by unfold rFabRstat; omega

theorem rFabRstat_ne_rFabRdt {f g : Nat} (hf : f < 49) : rFabRstat f ≠ rFabRdt g := by unfold rFabRstat rFabRdt; omega

/-- From s to t the registers and the logic of the fabric alone change. -/
def State.regionsOnly (s t : State) : Prop := t = { s with regs := t.regs, fab := { s.fab with logic := t.fab.logic } }

theorem State.regionsOnly.trans {s t u : State} (h : s.regionsOnly t) (h' : t.regionsOnly u) : s.regionsOnly u := by
  unfold State.regionsOnly at *
  rw [h', h]

theorem State.regionsOnly_setRegSt (s : State) (f st stage : Nat) : s.regionsOnly (s.setRegSt f st stage) := by
  unfold State.setRegSt
  dsimp only
  split_ifs <;> rfl

/-- A region enters a state, and no other region does. -/
theorem State.regSt_setRegSt (s : State) {f g : Nat} (hg : g < 49) (st stage : Nat) :
    (s.setRegSt f st stage).regSt g = if g = f then st % 8 else s.regSt g := by
  have hset : ((s.setFld (rFabRstat f) 0 3 st).setFld (rFabRstat f) 4 2 stage).regSt g = if g = f then st % 8 else s.regSt g := by
    unfold State.regSt
    split
    next he => rw [he, State.fld_setFld_disjoint _ _ (by decide) (by decide), State.fld_setFld_self _ _ (by decide)]; rfl
    next he =>
      have hne : rFabRstat g ≠ rFabRstat f := fun h => he (rFabRstat_inj.1 h)
      rw [State.fld_setFld_of_ne _ _ hne, State.fld_setFld_of_ne _ _ hne]
  have hdt (t : State) : (t.setReg (rFabRdt f) s.dt).regSt g = t.regSt g :=
    t.fld_setReg_of_ne _ (rFabRstat_ne_rFabRdt hg)
  have hhold (t : State) (c : Prop) [Decidable c] : (if c then t else t.updLogic f Logic.hold).regSt g = t.regSt g := by
    split <;> rfl
  unfold State.setRegSt
  dsimp only
  split
  · exact (hhold _ _).trans hset
  · exact (hdt _).trans ((hhold _ _).trans hset)

/-- Regions of a list become BLANKING. -/
theorem State.blankAll_spec (s : State) (fs : List Nat) : s.regionsOnly (fs.foldl (fun s f => s.setRegSt f 5 0) s) ∧
    ∀ g ∈ fs, g < 49 → (fs.foldl (fun s f => s.setRegSt f 5 0) s).regSt g = 5 := by
  induction fs using List.reverseRecOn with
  | nil => exact ⟨rfl, by simp⟩
  | append_singleton fs f ih =>
    obtain ⟨hrest, hall⟩ := ih
    rw [List.foldl_append, List.foldl_cons, List.foldl_nil]
    refine ⟨hrest.trans (State.regionsOnly_setRegSt _ f 5 0), fun g hg hlt => ?_⟩
    rw [State.regSt_setRegSt _ hlt]
    split
    · rfl
    next hne => exact hall g (by simpa [hne] using hg) hlt

/-! ### The queue of the write ports (R365) -/

/-- The regions that a load or blank clears first. -/
def State.toClear (s : State) (l : FLoad) : List Nat :=
  if l.blank ∨ l.full then l.regions else l.mask.filter (fun f => s.regSt f != 0)

/-- A load that waits as the only one is the one that begins, if its ports are free. -/
theorem State.addLoad_of_only {s : State} {l : FLoad} (hl : l.st = .ports) (ho : ∀ x ∈ s.fab.loads, x.st ≠ .ports) :
    s.addLoad l = if s.fab.loads.all (fun x => !x.dies.any l.dies.contains) then
        (s.updFab (fun x => { x with loads := x.loads ++ [l] })).beginLoad l
      else s.updFab (fun x => { x with loads := x.loads ++ [l] }) := by
  have hports : (s.fab.loads ++ [l]).filter (fun l => l.st == .ports) = [l] := by
    have hold : s.fab.loads.filter (fun l => l.st == .ports) = [] := List.filter_eq_nil_iff.2 fun x hx => by simpa using ho x hx
    rw [List.filter_append, hold]
    simp [hl]
  have hbefore : (s.fab.loads ++ [l]).takeWhile (fun x => x != l) = s.fab.loads := by
    rw [List.takeWhile_append_of_pos fun x hx => ?_]
    · simp
    · have hne : x ≠ l := fun he => ho x hx (he ▸ hl)
      simpa using hne
  unfold State.addLoad State.beginLoads
  have hf : (s.updFab (fun x => { x with loads := x.loads ++ [l] })).fab.loads = s.fab.loads ++ [l] := rfl
  rw [hf, hports, List.foldl_cons, List.foldl_nil, State.hasPorts, hf, hbefore]

/-- The state of a load that begins, before its entry among the loads says so. -/
def State.blanksFor (s : State) (l : FLoad) : State :=
  ((s.toClear l).foldl (fun s f => s.setRegSt f 5 0) s).updFab (fun x =>
    { x with groups := x.groups.filter (fun g => !g.any (s.toClear l).contains) })

theorem State.beginLoad_of_ne {s : State} {l : FLoad} (h : s.toClear l ≠ []) :
    s.beginLoad l = (s.blanksFor l).setLoad l { l with st := .blanking, todo := s.toClear l } :=
  if_neg fun he => h (List.isEmpty_iff.1 he)

theorem State.blanksFor_spec (s : State) (l : FLoad) : (s.blanksFor l).fab.loads = s.fab.loads ∧
    (s.blanksFor l).mem = s.mem ∧ (s.blanksFor l).cmds = s.cmds ∧
    ∀ f ∈ s.toClear l, f < 49 → (s.blanksFor l).regSt f = 5 := by
  obtain ⟨hrest, hall⟩ := s.blankAll_spec (s.toClear l)
  unfold State.blanksFor
  generalize (s.toClear l).foldl (fun s f => s.setRegSt f 5 0) s = u at hrest hall
  refine ⟨?_, ?_, ?_, hall⟩ <;> rw [hrest] <;> rfl

/-- A load or blank that has something to clear begins with it. -/
theorem State.beginLoad_spec {s : State} {ls : List FLoad} {l : FLoad} (hs : s.fab.loads = ls ++ [l]) (hl : l ∉ ls)
    (h : s.toClear l ≠ []) : (s.beginLoad l).fab.loads = ls ++ [{ l with st := .blanking, todo := s.toClear l }] ∧
      (s.beginLoad l).mem = s.mem ∧ (s.beginLoad l).cmds = s.cmds ∧
      ∀ f ∈ s.toClear l, f < 49 → (s.beginLoad l).regSt f = 5 := by
  obtain ⟨hloads, hmem, hcmds, hall⟩ := s.blanksFor_spec l
  rw [State.beginLoad_of_ne h]
  refine ⟨?_, hmem, hcmds, hall⟩
  have hold : ls.map (fun y => if y = l then { l with st := .blanking, todo := s.toClear l } else y) = ls :=
    (List.map_congr_left fun y hy => if_neg fun he : y = l => hl (he ▸ hy)).trans ls.map_id
  change (s.blanksFor l).fab.loads.map _ = _
  rw [hloads, hs, List.map_append, hold, List.map_singleton, if_pos rfl]

/-! ### The commands -/

theorem maskRegions_lt (w : W64) : ∀ f ∈ maskRegions w, f < 49 := fun _ hf =>
  List.mem_range.1 (List.mem_of_mem_filter hf)

section
variable {l : FLoad} (hm : ∀ f ∈ l.mask, f < 49)
include hm

theorem State.toClear_lt (s : State) : ∀ f ∈ s.toClear l, f < 49 := by
  have hregions : ∀ f ∈ l.regions, f < 49 := by
    unfold FLoad.regions
    split
    · exact fun f hf => List.mem_range.1 hf
    · exact hm
  unfold State.toClear
  split
  · exact hregions
  · exact fun f hf => hm f (List.mem_of_mem_filter hf)

/-- Taking an entry of a queue changes no region. -/
theorem State.running_toClear (s : State) (r : CmdRow) (q : Nat) : (s.running r q).toClear l = s.toClear l := by
  have hst (f : Nat) (hf : f < 49) : (s.running r q).regSt f = s.regSt f := by
    rw [State.regSt, State.fld, s.running_reg r q (by unfold rFabRstat rQpQ; omega)]
    rfl
  unfold State.toClear
  split
  · rfl
  · exact List.filter_congr fun f hf => by rw [hst f (hm f hf)]

end

/-- From s to t a load or blank of queue q has joined the queue of the write ports, in which no other waits; where the ports
that it needs are free it has begun to clear its regions. -/
def State.loadQueued (s t : State) (q : Nat) (l : FLoad) : Prop := (∀ x ∈ s.fab.loads, x.st ≠ .ports) →
  if s.fab.loads.all (fun x => !x.dies.any l.dies.contains) then
    s.toClear l ≠ [] → t.fab.loads = s.fab.loads ++ [{ l with st := .blanking, todo := s.toClear l }] ∧ t.mem = s.mem ∧
      s.keepsRunning t q ∧ ∀ f ∈ s.toClear l, t.regSt f = 5
  else t.fab = { s.fab with loads := s.fab.loads ++ [l] } ∧ t.mem = s.mem ∧ s.keepsRunning t q

theorem State.loadQueued_addLoad (s : State) (r : CmdRow) (q : Nat) {l : FLoad} (hl : l.st = .ports)
    (hm : ∀ f ∈ l.mask, f < 49) : s.loadQueued ((s.running r q).addLoad l) q l := by
  intro ho
  have hz := s.booksOnly_running r q
  have hfab : (s.running r q).fab = s.fab := by rw [hz]
  have hclear := s.running_toClear hm r q
  rw [State.addLoad_of_only hl (hfab ▸ ho), hfab]
  generalize hu : (s.running r q).updFab (fun x => { x with loads := x.loads ++ [l] }) = u
  have humem : u.mem = s.mem := by rw [← hu, ← hz.mem]; rfl
  have hucmds : u.cmds = (s.running r q).cmds := by rw [← hu]; rfl
  have hufab : u.fab = { s.fab with loads := s.fab.loads ++ [l] } := by rw [← hu, ← hfab]; rfl
  have huclear : u.toClear l = s.toClear l := by rw [← hclear, ← hu]; rfl
  split
  · intro hne
    obtain ⟨hloads, hmem, hcmds, hall⟩ := State.beginLoad_spec (s := u) (ls := s.fab.loads) (by rw [hufab])
      (fun hin => ho l hin hl) (by rwa [huclear])
    rw [huclear] at hloads hall
    exact ⟨hloads, hmem.trans humem, s.keepsRunning_of_cmds r q (hcmds.trans hucmds),
      fun f hf => hall f hf (s.toClear_lt hm f hf)⟩
  · exact ⟨hufab, humem, s.keepsRunning_of_cmds r q hucmds⟩

theorem fabLoadStart_of_source {s : State} {c : Cmd} {fl : Bool} {b n : Nat} (h : s.loadSource c = some (fl, b, n)) :
    fabLoadStart s c = s.addLoad { cmd := c.id, ctx := c.ctx, gen := c.gen, part := c.part, full := c.opf 0 0 1 == 1,
                                   flash := fl, base := b, bytes := n, mask := maskRegions (c.op 3) } := by
  unfold fabLoadStart
  rw [h]

/-- Settles O36: a command that starts at once runs its row's work (`acceptCmd_of_starts`), whose effect the lemmas above
state row by row. -/
theorem commandsOnPeersAndFabric : Obligations.CommandsOnPeersAndFabric := by
  intro s q
  refine ⟨fun h => ⟨_, acceptCmd_of_starts h, fun _ hw => peerSet_effect s q hw⟩,
    fun h => ⟨_, acceptCmd_of_starts h, peerClear_effect s q⟩,
    fun h => ⟨_, acceptCmd_of_starts h, fun _ _ _ hsrc => ?_⟩,
    fun h => ⟨_, acceptCmd_of_starts h, s.loadQueued_addLoad fabBlankRow q rfl (maskRegions_lt _)⟩⟩
  have ht : fabLoadRow.start (s.running fabLoadRow q) (s.runningCmd fabLoadRow q) = _ := fabLoadStart_of_source hsrc
  rw [ht]
  exact s.loadQueued_addLoad fabLoadRow q rfl (maskRegions_lt _)

end Sys2Proof.Machine
end

section
/-! PROOFS. Eye scans of lanes (R292, R294). -/

namespace Sys2Proof.Machine

/-! ### A scan starts -/

theorem rLctl_act : ∀ l : Fin 48, regReserved (rLctl l) = false ∧ regAct (rLctl l) = .lctl l := by decide +kernel

theorem State.regWrite_lctl {s : State} {off l : Nat} {v : W64} (hr : regReserved off = false) (ha : regAct off = .lctl l) :
    s.regWrite off v = s.writeLctl l v := by
  simp [State.regWrite, hr, ha]

section
variable {l : Nat} (hl : l < 48)
include hl

theorem rLane_ne {o o' : Nat} (ho : o < 0x40) (ho' : o' < 0x40) (h : o ≠ o') : rLane l o ≠ rLane l o' :=
  fun he => h (rLane_inj hl hl ho ho' he).2

theorem rLeye_ne_rLeyedt : rLeye l ≠ rLeyedt l := rLane_ne hl (by decide) (by decide) (by decide)
theorem rLeye_ne_rLctl : rLeye l ≠ rLctl l := rLane_ne hl (by decide) (by decide) (by decide)
theorem rLeye_ne_rLstat : rLeye l ≠ rLstat l := rLane_ne hl (by decide) (by decide) (by decide)
theorem rLstat_ne_rLctl : rLstat l ≠ rLctl l := rLane_ne hl (by decide) (by decide) (by decide)

end

section
variable {s : State} {l : Nat} (hl : l < 48) {v : W64}

/-- A write of SCAN starts a scan of a lane that is not in service. -/
theorem State.writeLctl_of_off (hl : l < 48) (hv : bf v 5 1 = 1) (hon : s.laneOn l = false) :
    s.writeLctl l v = (s.regStore (rLctl l) v).startScan l ∧ (s.regStore (rLctl l) v).laneOn l = false := by
  have hoff : (s.regStore (rLctl l) v).laneOn l = false := by
    rw [State.laneOn, State.fld, (s.onlyRegs_regStore (rLctl l) v).2 _ (by simpa using rLstat_ne_rLctl hl), ← State.fld,
      ← State.laneOn, hon]
  unfold State.writeLctl
  dsimp only
  rw [if_pos hv, if_neg (by simp [hoff]), if_neg (by simp [hoff])]
  exact ⟨rfl, hoff⟩

/-- The state of a write of xx_LCTL of a lane in service before it may start a scan. -/
def State.adaptSet (s : State) (l : Nat) (v : W64) : State :=
  let t := (s.regStore (rLctl l) v).setFld (rLstat l) 1 1 (1 - bf v 4 1)
  if t.laneOn l ∧ (oget (s.regStore (rLctl l) v).links.eqHold l).isSome ≠ (bf v 4 1 == 1) then t.holdEq l (bf v 4 1 == 1) else t

theorem State.writeLctl_of_on (hl : l < 48) (hv : bf v 5 1 = 1) (hon : s.laneOn l = true) :
    s.writeLctl l v = (s.adaptSet l v).startScan l := by
  have hon' : (s.regStore (rLctl l) v).laneOn l = true := by
    rw [State.laneOn, State.fld, (s.onlyRegs_regStore (rLctl l) v).2 _ (by simpa using rLstat_ne_rLctl hl), ← State.fld,
      ← State.laneOn, hon]
  unfold State.writeLctl
  dsimp only
  rw [if_pos hv, if_pos hon']
  rfl

theorem State.adaptSet_spec (hl : l < 48) (hon : s.laneOn l = true) : (s.adaptSet l v).laneOn l = true ∧
    s.onlyRegs { s.adaptSet l v with links := s.links } [rLctl l, rLstat l] := by
  have hstore := s.onlyRegs_regStore (rLctl l) v
  have hboth : s.onlyRegs ((s.regStore (rLctl l) v).setFld (rLstat l) 1 1 (1 - bf v 4 1)) [rLctl l, rLstat l] :=
    hstore.trans (State.onlyRegs_setReg _ _ _) (by simp) (by simp)
  have hset : ((s.regStore (rLctl l) v).setFld (rLstat l) 1 1 (1 - bf v 4 1)).laneOn l = true := by
    rw [State.laneOn, State.fld_setFld_disjoint _ _ (by decide) (by decide), State.fld,
      hstore.2 _ (by simpa using rLstat_ne_rLctl hl), ← State.fld, ← State.laneOn, hon]
  unfold State.adaptSet
  dsimp only
  generalize (s.regStore (rLctl l) v).setFld (rLstat l) 1 1 (1 - bf v 4 1) = t at hboth hset
  have hsame : s.onlyRegs { t with links := s.links } [rLctl l, rLstat l] := ⟨by rw [hboth.1], hboth.2⟩
  split
  · exact ⟨hset, hsame⟩
  · exact ⟨hset, hsame⟩

/-- A scan of a lane in service sets BUSY and clears the other marks. -/
theorem State.startScan_of_on (hb : s.fld (rLeye l) 1 1 = 0) (hon : s.laneOn l = true) : ∃ w, s.startScan l = s.setReg (rLeye l) w ∧
    bf w 0 1 = 0 ∧ bf w 1 1 = 1 ∧ bf w 2 1 = 0 := by
  unfold State.startScan
  rw [if_neg (by rw [hb]; decide), if_pos hon]
  refine ⟨_, rfl, ?_, ?_, bf_bset_self _ _ (by decide)⟩
  · rw [bf_bset_disjoint _ _ (by decide) (by decide), bf_bset_disjoint _ _ (by decide) (by decide)]
    exact bf_bset_self _ _ (by decide)
  · rw [bf_bset_disjoint _ _ (by decide) (by decide)]
    exact bf_bset_self _ _ (by decide)

/-- A scan of a lane that is not in service completes at once without a result. -/
theorem State.startScan_of_off (hl : l < 48) (hb : s.fld (rLeye l) 1 1 = 0) (hon : s.laneOn l = false) :
    s.onlyRegs (s.startScan l) [rLeye l, rLeyedt l] ∧ (s.startScan l).fld (rLeye l) 0 1 = 0 ∧
      (s.startScan l).fld (rLeye l) 2 1 = 0 ∧ (s.startScan l).reg (rLeyedt l) = s.dt := by
  have hne := rLeye_ne_rLeyedt hl
  unfold State.startScan
  rw [if_neg (by rw [hb]; decide), if_neg (by simp [hon]), State.fld_setReg_of_ne _ _ hne, State.fld_setReg_of_ne _ _ hne,
    State.fld_setFld_disjoint _ _ (by decide) (by decide), State.fld_setFld_self _ _ (by decide),
    State.fld_setFld_self _ _ (by decide)]
  exact ⟨((s.onlyRegs_setReg _ _).trans (State.onlyRegs_setReg _ _ _) (by simp) (by simp)).trans
    (State.onlyRegs_setReg _ _ _) (List.Subset.refl _) (by simp), rfl, rfl, State.reg_setReg_self _ _ _⟩

end

theorem exec_eyeScanStart_spec {s : State} {l : Fin 48} (hb : s.fld (rLeye l) 1 1 = 0) :
    ∃ t, exec (.eyeScanStart l) s = .next t ∧ t.fld (rLeye l) 0 1 = 0 ∧ t.fld (rLeye l) 2 1 = 0 ∧
      if s.laneOn l then s.onlyRegs { t with links := s.links } [rLctl l, rLstat l, rLeye l] ∧ t.fld (rLeye l) 1 1 = 1
      else s.onlyRegs t [rLctl l, rLeye l, rLeyedt l] ∧ t.reg (rLeyedt l) = s.dt := by
  obtain ⟨hr, ha⟩ := rLctl_act l
  have hrun : exec (.eyeScanStart l) s = .next (s.writeLctl l (bset (s.reg (rLctl l)) 5 1 1)) :=
    congrArg _ (State.regWrite_lctl hr ha)
  have hv : bf (bset (s.reg (rLctl l)) 5 1 1) 5 1 = 1 := bf_bset_self _ _ (by decide)
  generalize bset (s.reg (rLctl l)) 5 1 1 = v at hrun hv
  refine ⟨_, hrun, ?_⟩
  cases hon : s.laneOn l with
  | true =>
    obtain ⟨hon', hrest⟩ := State.adaptSet_spec (v := v) l.isLt hon
    have hb' : (s.adaptSet l v).fld (rLeye l) 1 1 = 0 := by
      have heye := hrest.2 (rLeye l) (by simp [rLeye_ne_rLctl, rLeye_ne_rLstat])
      rw [← hb]
      exact congrArg (bf · 1 1) heye
    obtain ⟨w, hw, h0, h1, h2⟩ := State.startScan_of_on hb' hon'
    rw [State.writeLctl_of_on l.isLt hv hon, hw]
    simp only [State.fld, State.reg_setReg_self, if_true]
    exact ⟨h0, h2, hrest.trans (State.onlyRegs_setReg { s.adaptSet l v with links := s.links } (rLeye l) w) (by simp) (by simp), h1⟩
  | false =>
    obtain ⟨hstart, hoff⟩ := State.writeLctl_of_off l.isLt hv hon
    have hstore := s.onlyRegs_regStore (rLctl l) v
    have hb' : (s.regStore (rLctl l) v).fld (rLeye l) 1 1 = 0 := by
      rw [State.fld, hstore.2 _ (by simpa using rLeye_ne_rLctl l.isLt), ← State.fld, hb]
    obtain ⟨hrest, h0, h2, hdt⟩ := State.startScan_of_off l.isLt hb' hoff
    rw [hstart, if_neg Bool.false_ne_true]
    exact ⟨h0, h2, hstore.trans hrest (by simp) (by simp), hdt.trans hstore.linksOnly.dt⟩

/-! ### A scan completes (R294) -/

/-- The minimum from a bound of values under it is the least of them. -/
theorem foldl_min_least {l : List Nat} {b : Nat} (hne : l ≠ []) (hb : ∀ x ∈ l, x ≤ b) :
    l.foldl min b ∈ l ∧ ∀ x ∈ l, l.foldl min b ≤ x := by
  have he : l.foldl min b = l.min hne := by
    rw [List.foldl_min_eq_min hne]
    exact min_eq_right (hb _ (List.min_mem hne))
  rw [he]
  exact ⟨List.min_mem hne, fun _ hx => List.min_le_of_mem hx⟩

/-- The smallest of a margin over the eyes. -/
def leastOf (f : Eye → Nat) (es : List Eye) : Nat := (es.map f).foldl min 64

section
variable {es : List Eye} (hne : es ≠ [])
include hne

theorem leastOf_spec {f : Eye → Nat} (hf : ∀ e, f e ≤ 64) : (∃ e ∈ es, leastOf f es = f e) ∧ ∀ e ∈ es, leastOf f es ≤ f e := by
  have hall : ∀ x ∈ es.map f, x ≤ 64 := by simpa using fun e _ => hf e
  obtain ⟨hmem, hle⟩ := foldl_min_least (mt List.map_eq_nil_iff.1 hne) hall
  obtain ⟨e, he, heq⟩ := List.mem_map.1 hmem
  exact ⟨⟨e, he, heq.symm⟩, fun e he => hle _ (List.mem_map_of_mem he)⟩

/-- The eye that EYE names has the smallest opening. -/
theorem worstEye_spec (pick : Nat) : ∃ x, es[worstEye pick es]? = some x ∧ ∀ e ∈ es, eyeOpen x ≤ eyeOpen e := by
  have hopen (e : Eye) : eyeOpen e ≤ 64 := by
    have h1 := e.hl.isLt
    have h2 := e.hr.isLt
    unfold eyeOpen
    omega
  obtain ⟨⟨e, he, hel⟩, hle⟩ := leastOf_spec hne hopen
  have hleast : ∀ x : Eye, (eyeOpen x == leastOf eyeOpen es) = true → ∀ e ∈ es, eyeOpen x ≤ eyeOpen e := fun x hx e he => by
    rw [beq_iff_eq.1 hx]
    exact hle e he
  have hw : worstEye pick es = if (es[pick]?).any (fun e => eyeOpen e == leastOf eyeOpen es) then pick
      else es.findIdx (fun e => eyeOpen e == leastOf eyeOpen es) := rfl
  rw [hw]
  split
  next hp =>
    obtain ⟨x, hx, hxl⟩ := (Option.any_eq_true _ _).1 hp
    exact ⟨x, hx, hleast x hxl⟩
  next =>
    have hlt : es.findIdx (fun e => eyeOpen e == leastOf eyeOpen es) < es.length :=
      List.findIdx_lt_length_of_exists ⟨e, he, by simp [hel]⟩
    exact ⟨_, List.getElem?_eq_getElem hlt, hleast _ (List.findIdx_getElem (w := hlt))⟩

/-- The fields of xx_LEYE after a scan. -/
theorem bf_eyeWord (h3 : es.length ≤ 3) (pick : Nat) : let w := BitVec.ofNat 64 (eyeWord pick es)
    bf w 0 3 = 1 ∧ bf w 8 2 = worstEye pick es ∧ bf w 16 8 = leastOf (fun e => e.hl) es ∧
      bf w 24 8 = leastOf (fun e => e.hr) es ∧ bf w 32 8 = 2 * leastOf (fun e => e.vu) es ∧
      bf w 40 8 = 2 * leastOf (fun e => e.vd) es := by
  obtain ⟨x, hx, -⟩ := worstEye_spec hne pick
  have hworst : worstEye pick es < es.length := (List.getElem?_eq_some_iff.1 hx).1
  have hle (f : Eye → Nat) : leastOf f es ≤ 64 := by
    rw [leastOf, List.foldl_min]
    exact min_le_left _ _
  have h1 := hle (fun e => e.hl)
  have h2 := hle (fun e => e.hr)
  have h5 := hle (fun e => e.vu)
  have h4 := hle (fun e => e.vd)
  have hw : eyeWord pick es = fv 40 8 (2 * leastOf (fun e => e.vd) es) + fv 32 8 (2 * leastOf (fun e => e.vu) es) +
    fv 24 8 (leastOf (fun e => e.hr) es) + fv 16 8 (leastOf (fun e => e.hl) es) + fv 8 2 (worstEye pick es) + 1 := rfl
  intro w
  simp only [w, bf_ofNat, hw, fv_eq]
  omega

end

/-- What a scan of a lane's eyes leaves in xx_LEYE. -/
structure EyesFound (w : W64) (es : List Eye) : Prop where
  done : bf w 0 3 = 1
  least : ∀ e ∈ es, bf w 16 8 ≤ e.hl ∧ bf w 24 8 ≤ e.hr ∧ bf w 32 8 ≤ 2 * (e.vu : Nat) ∧ bf w 40 8 ≤ 2 * (e.vd : Nat)
  left : ∃ e ∈ es, bf w 16 8 = e.hl
  right : ∃ e ∈ es, bf w 24 8 = e.hr
  up : ∃ e ∈ es, bf w 32 8 = 2 * (e.vu : Nat)
  down : ∃ e ∈ es, bf w 40 8 = 2 * (e.vd : Nat)
  worst : ∃ x, es[bf w 8 2]? = some x ∧ ∀ e ∈ es, (x.hl : Nat) + (x.hr : Nat) ≤ (e.hl : Nat) + (e.hr : Nat)

theorem eyesFound_eyeWord {es : List Eye} (hne : es ≠ []) (h3 : es.length ≤ 3) (pick : Nat) :
    EyesFound (BitVec.ofNat 64 (eyeWord pick es)) es := by
  obtain ⟨hdone, heye, hhl, hhr, hvu, hvd⟩ := bf_eyeWord hne h3 pick
  obtain ⟨⟨e1, hm1, h1⟩, hall1⟩ := leastOf_spec hne (f := fun e => e.hl) fun e => by omega
  obtain ⟨⟨e2, hm2, h2⟩, hall2⟩ := leastOf_spec hne (f := fun e => e.hr) fun e => by omega
  obtain ⟨⟨e3, hm3, h3⟩, hall3⟩ := leastOf_spec hne (f := fun e => e.vu) fun e => by omega
  obtain ⟨⟨e4, hm4, h4⟩, hall4⟩ := leastOf_spec hne (f := fun e => e.vd) fun e => by omega
  refine ⟨hdone, fun e he => ?_, ⟨e1, hm1, hhl.trans h1⟩, ⟨e2, hm2, hhr.trans h2⟩, ⟨e3, hm3, by rw [hvu, h3]⟩,
    ⟨e4, hm4, by rw [hvd, h4]⟩, heye ▸ worstEye_spec hne pick⟩
  rw [hhl, hhr, hvu, hvd]
  exact ⟨hall1 e he, hall2 e he, Nat.mul_le_mul_left 2 (hall3 e he), Nat.mul_le_mul_left 2 (hall4 e he)⟩

/-- A lane has one eye or three. -/
theorem eyesOf_spec (rate : Nat) (hl hr : ByEye 33) (vu vd : ByEye 64) :
    eyesOf rate hl hr vu vd ≠ [] ∧ (eyesOf rate hl hr vu vd).length ≤ 3 := by
  unfold eyesOf
  dsimp only
  split <;> simp

theorem exec_eyeScanDone_spec {s : State} {l : Fin 48} (hl hr : ByEye 33) (vu vd : ByEye 64) (eye : Fin 3)
    (h : s.fld (rLeye l) 1 1 = 1) : ∃ t, exec (.eyeScanDone l hl hr vu vd eye) s = .next t ∧
      s.onlyRegs t [rLeye l, rLeyedt l] ∧ t.reg (rLeyedt l) = s.dt ∧
      EyesFound (t.reg (rLeye l)) (eyesOf (s.fld (rLstat l) 8 4) hl hr vu vd) := by
  obtain ⟨hne, h3⟩ := eyesOf_spec (s.fld (rLstat l) 8 4) hl hr vu vd
  have hrun : exec (.eyeScanDone l hl hr vu vd eye) s = .next ((s.setReg (rLeye l)
      (BitVec.ofNat 64 (eyeWord eye (eyesOf (s.fld (rLstat l) 8 4) hl hr vu vd)))).setReg (rLeyedt l) s.dt) :=
    if_neg (by rw [h]; decide)
  refine ⟨_, hrun, (s.onlyRegs_setReg _ _).trans (State.onlyRegs_setReg _ _ _) (by simp) (by simp),
    State.reg_setReg_self _ _ _, ?_⟩
  rw [State.reg_setReg_of_ne _ _ (rLeye_ne_rLeyedt l.isLt), State.reg_setReg_self]
  exact eyesFound_eyeWord hne h3 eye

end Sys2Proof.Machine
end

section
/-! PROOFS. Ethernet sub-ports: bring-up, restart and loss of link (R283, R294 to R298). -/

namespace Sys2Proof.Machine

/-! ### Connections leave and join a sub-port (R283) -/

theorem State.hostStep_foldl {α : Type} {offs : List Nat} {f : State → α → State}
    (hf : ∀ (s : State) a, s.hostStep (f s a) offs) (l : List α) (s : State) : s.hostStep (l.foldl f s) offs := by
  induction l generalizing s with
  | nil => exact .refl s _
  | cons a l ih => exact ((hf s a).trans (ih _)).mono (by simp)

theorem State.hostStep_setEnt (s : State) (i : Nat) (e : Entry) : s.hostStep (s.setEnt i e) [] := ⟨rfl, fun _ _ => rfl⟩

theorem State.hostStep_reroll (s : State) (i k : Nat) : s.hostStep (s.reroll i k) [rCtTxcnt] := by
  have hpath : s.hostStep s.newPath.2 [] := ⟨rfl, fun _ _ => rfl⟩
  exact (hpath.trans (State.hostStep_setEnt _ i _)).trans (State.hostStep_setReg _ _ _)

theorem State.hostStep_leaveSub (s : State) (i t : Nat) : s.hostStep (s.leaveSub i t) [rCtTxcnt] := by
  have hroll (u : State) (ks : List Nat) := State.hostStep_foldl (fun s k => s.hostStep_reroll i k) ks u
  unfold State.leaveSub
  dsimp only
  split
  · exact hroll s _
  · exact ((s.hostStep_setEnt i _).trans (hroll _ _)).mono (by simp)

theorem State.hostStep_leaveAll (s : State) (t : Nat) : s.hostStep (s.leaveAll t) [rCtTxcnt] :=
  State.hostStep_foldl (fun s i => s.hostStep_leaveSub i t) _ s

theorem State.hostStep_joinAll (s : State) (t : Nat) : s.hostStep (s.joinAll t) [] :=
  State.hostStep_foldl (fun s i => s.hostStep_setEnt i _) _ s

theorem State.hostStep_syncLinks (s : State) : s.hostStep s.syncLinks [rPwrReady] := s.hostStep_setReg _ _

/-! ### The registers of a sub-port and its lanes -/

theorem offLanes_rEth (p : Nat) {o : Nat} (h : o < 0x800) : offLanes (rEth p o) := .inl (by unfold rEth; omega)

theorem rEth_ne {p o o' : Nat} (h : o ≠ o') : rEth p o ≠ rEth p o' := by
  unfold rEth
  omega

theorem rEth_ne_of_ge {p o x : Nat} (hp : p < 2) (ho : o < 0x1000) (hx : 0x403000 ≤ x) : rEth p o ≠ x := by
  unfold rEth
  omega

/-- The registers beside those of its lanes and STATE that a sub-port which goes up or down changes. -/
def subRegs (p k : Nat) : List Nat := [rEthSpdt p k, rCtPorts, rCtTxcnt, rPwrReady]

section
variable {p k : Nat} (hp : p < 2) (hk : k < 4)

include hp in
theorem rEthPstat_notMem_subRegs : rEthPstat p ∉ subRegs p k := by
  simp only [subRegs, List.mem_cons, List.not_mem_nil, or_false, not_or]
  exact ⟨rEth_ne (by omega), rEth_ne_of_ge hp (by decide) (by decide), rEth_ne_of_ge hp (by decide) (by decide),
    rEth_ne_of_ge hp (by decide) (by decide)⟩

include hk in
theorem offLanes_of_mem_subRegs : ∀ o ∈ subRegs p k, offLanes o := by
  simp only [subRegs, List.mem_cons, List.not_mem_nil, or_false]
  rintro o (rfl | rfl | rfl | rfl)
  · exact offLanes_rEth p (by omega)
  all_goals exact .inr (.inr (by decide))

variable {s t : State}

include hp in
theorem State.hostStep.subSt (h : s.hostStep t (subRegs p k)) : t.subSt p k = s.subSt p k :=
  h.fld (rEthPstat_notMem_subRegs hp) _ _

include hk in
theorem State.hostStep.rLstat (h : s.hostStep t (subRegs p k)) {l : Nat} (hl : l < 48) : t.reg (rLstat l) = s.reg (rLstat l) :=
  h.reg _ fun hm => ne_rLane_of_offLanes hl (by decide) (offLanes_of_mem_subRegs hk _ hm) rfl

theorem State.laneStep.subSt {ls : List Nat} (h : s.laneStep t ls) (p k : Nat) : t.subSt p k = s.subSt p k :=
  h.fld (offLanes_rEth p (by decide)) _ _

theorem State.subSt_setSubSt (s : State) (p : Nat) (hk : k < 4) {v : Nat} (hv : v < 8) : (s.setSubSt p k v).subSt p k = v := by
  rw [State.subSt, State.setSubSt, State.fld_setFld_self _ _ (by omega)]
  exact Nat.mod_eq_of_lt hv

end

theorem State.subLanes_nodup (s : State) (p k : Nat) : (s.subLanes p k).Nodup := by
  unfold State.subLanes
  dsimp only
  split
  · exact List.nodup_nil
  · exact List.Nodup.map (fun i j h => by simpa using h) List.nodup_range

/-- What an operation leaves in the lanes' xx_LSTAT holds of each lane of a list after it has been done on all. -/
theorem State.rLstat_foldl {f : State → Nat → State} (hf : ∀ (s : State) (l : Nat), l < 48 → s.laneStep (f s l) [l])
    {Q : W64 → Prop} (hQ : ∀ (s : State) (l : Nat), Q ((f s l).reg (rLstat l))) {ls : List Nat} (hls : ∀ l ∈ ls, l < 48)
    (hnd : ls.Nodup) (s : State) : ∀ l ∈ ls, Q ((ls.foldl f s).reg (rLstat l)) := by
  intro l hl
  obtain ⟨u, -, -, hu⟩ := State.exists_foldl_lane hf hls hnd s hl
  rw [rLstat, hu _ (by decide)]
  exact hQ u l

theorem State.laneOn_eq_false {s : State} {l : Nat} (h : bf (s.reg (rLstat l)) 0 1 = 0) : s.laneOn l = false := by
  rw [State.laneOn, State.fld, h]
  rfl

/-! ### A sub-port goes out of service -/

/-- The lanes of a sub-port that goes out of service, and what its priorities held, go. -/
def State.subCut (s : State) (p k v : Nat) : State :=
  let t := (s.subLanes p k).foldl (fun s l => s.laneOff l) (s.setSubSt p k v)
  let here (i : Nat) : Bool := i / 8 == 4 * p + k
  { t with links := { t.links with
    pauses := t.links.pauses.filter (fun e => !here e.1), rxFill := t.links.rxFill.filter (fun e => !here e.1),
    xoff := t.links.xoff.filter (fun i => !here i), held := t.links.held.filter (fun e => !here e.1) } }

/-- A sub-port that was up is taken from the transport. -/
def State.subGone (s : State) (p k : Nat) : State :=
  (((s.setReg (rEthSpdt p k) s.dt).setFld rCtPorts (4 * p + k) 1 0).leaveAll (4 * p + k)).syncLinks

theorem State.subOut_eq (s : State) (p k v : Nat) :
    s.subOut p k v = if s.subSt p k == 4 then (s.subCut p k v).subGone p k else s.subCut p k v := rfl

theorem State.subGone_spec (s : State) {p k : Nat} (hk : 4 * p + k < 8) :
    s.hostStep (s.subGone p k) (subRegs p k) ∧ (s.subGone p k).fld rCtPorts (4 * p + k) 1 = 0 := by
  have hmark := (s.hostStep_setReg (rEthSpdt p k) s.dt).trans (State.hostStep_setReg _ rCtPorts
    (bset ((s.setReg (rEthSpdt p k) s.dt).reg rCtPorts) (4 * p + k) 1 0))
  have hend := (State.hostStep_leaveAll ((s.setReg (rEthSpdt p k) s.dt).setFld rCtPorts (4 * p + k) 1 0) (4 * p + k)).trans
    (State.hostStep_syncLinks _)
  refine ⟨(hmark.trans hend).mono (by simp [subRegs]), ?_⟩
  exact (hend.fld (by decide) _ _).trans (State.fld_setFld_self _ _ (by omega))

section
variable (s : State) {p k : Nat} (hp : p < 2) (hk : k < 4)
include hp hk

theorem State.subCut_spec {v : Nat} (hv : v < 8) : (s.subCut p k v).subSt p k = v ∧
    ∀ l ∈ s.subLanes p k, bf ((s.subCut p k v).reg (rLstat l)) 0 1 = 0 := by
  have hoff (s : State) (l : Nat) (hl : l < 48) := s.laneStep_laneOff hl
  have hlanes := s.subLanes_lt hp k
  refine ⟨?_, State.rLstat_foldl (Q := fun w => bf w 0 1 = 0) hoff (fun s l => ?_) hlanes (s.subLanes_nodup p k) _⟩
  · exact ((State.laneStep_foldl hoff hlanes (s.setSubSt p k v)).subSt p k).trans (s.subSt_setSubSt p hk hv)
  · rw [State.laneOff, State.reg_setReg_self]
    decide

theorem State.subOut_spec {v : Nat} (hv : v < 8) : (s.subOut p k v).subSt p k = v ∧
    (∀ l ∈ s.subLanes p k, (s.subOut p k v).laneOn l = false) ∧
      (s.subSt p k = 4 → (s.subOut p k v).fld rCtPorts (4 * p + k) 1 = 0) := by
  obtain ⟨hst, hlanes⟩ := s.subCut_spec hp hk hv
  obtain ⟨hgone, hports⟩ := (s.subCut p k v).subGone_spec (p := p) (k := k) (by omega)
  rw [State.subOut_eq]
  split
  next =>
    refine ⟨(hgone.subSt hp).trans hst, fun l hl => State.laneOn_eq_false ?_, fun _ => hports⟩
    rw [hgone.rLstat hk (s.subLanes_lt hp k l hl)]
    exact hlanes l hl
  next hne => exact ⟨hst, fun l hl => State.laneOn_eq_false (hlanes l hl), fun h => absurd (beq_iff_eq.2 h) hne⟩

end

/-! ### Bring-up (Table 11.4) -/

/-- The first step of the bring-up of a sub-port. -/
def State.freshSt (s : State) (p k : Nat) : Nat :=
  if s.fld (rEthPcfg p) (16 + k) 1 = 1 then 1 else if s.fld (rEthPcfg p) (20 + 2 * k) 2 = 2 then 3 else 2

/-- The lanes of a sub-port train at a rate. -/
theorem State.trainLanes_spec (s : State) (rate : Nat) {ls : List Nat} (hls : ∀ l ∈ ls, l < 48) (hnd : ls.Nodup) :
    (ls.foldl (fun s l => s.laneTrain l rate) s).mem = s.mem ∧
      (∀ o, offLanes o → (ls.foldl (fun s l => s.laneTrain l rate) s).reg o = s.reg o) ∧
      ∀ l ∈ ls, (ls.foldl (fun s l => s.laneTrain l rate) s).laneOn l = false := by
  have htrain (s : State) (l : Nat) (hl : l < 48) := s.laneStep_laneTrain hl rate
  have hstep := State.laneStep_foldl htrain hls s
  refine ⟨hstep.rest.mem, hstep.reg, fun l hl => State.laneOn_eq_false ?_⟩
  refine State.rLstat_foldl (Q := fun w => bf w 0 1 = 0) htrain (fun s l => ?_) hls hnd s l hl
  rw [s.rLstat_laneTrain, bf_ofNat, fv_eq]
  omega

/-- The lanes of a sub-port that goes to a STATE train. -/
theorem State.subTrains (s : State) (p : Nat) {k : Nat} (hk : k < 4) {st : Nat} (hst : st < 8) (rate : Nat)
    {ls : List Nat} (hls : ∀ l ∈ ls, l < 48) (hnd : ls.Nodup) : ∃ t,
    t = ls.foldl (fun s l => s.laneTrain l rate) (s.setSubSt p k st) ∧ t.subSt p k = st ∧ t.mem = s.mem ∧
      (∀ l ∈ ls, t.laneOn l = false) ∧
      ∀ lo n, 14 ≤ lo → lo + n ≤ 64 → t.fld (rEthPstat p) lo n = s.fld (rEthPstat p) lo n := by
  obtain ⟨hmem, hreg, hoff⟩ := (s.setSubSt p k st).trainLanes_spec rate hls hnd
  have hstat (lo n : Nat) := congrArg (bf · lo n) (hreg (rEthPstat p) (offLanes_rEth p (by decide)))
  exact ⟨_, rfl, (hstat _ _).trans (s.subSt_setSubSt p hk hst), hmem, hoff, fun lo n hlo h64 =>
    (hstat lo n).trans (s.fld_setFld_disjoint st (by omega) h64)⟩

section
variable (s : State) {p k : Nat} (hp : p < 2) (hk : k < 4)
include hp hk

theorem State.subLanes_subOut (v : Nat) : (s.subOut p k v).subLanes p k = s.subLanes p k := by
  unfold State.subLanes State.subCount
  rw [(s.subKeeps_subOut hp hk v).pstat 12 2 (by omega) (by omega)]

/-- An enabled sub-port restarts at the first step of its bring-up, with its lanes out of service. -/
theorem State.startSub_restarts (h8 : s.pwr.steps.contains 8 = true) (hen : s.subEnabled p k = true) :
    (s.startSub p k).subSt p k = s.freshSt p k ∧ (s.startSub p k).mem = s.mem ∧
      ∀ l ∈ s.subLanes p k, (s.startSub p k).laneOn l = false := by
  have hkeep := s.subKeeps_subOut hp hk 0
  have hlanes := s.subLanes_subOut hp hk 0
  have hcfg (lo n : Nat) : (s.subOut p k 0).fld (rEthPcfg p) lo n = s.fld (rEthPcfg p) lo n :=
    congrArg (bf · lo n) (hkeep.pcfg p hp)
  have hgo : ¬(¬(s.subOut p k 0).pwr.steps.contains 8 = true ∨ ¬(s.subOut p k 0).subEnabled p k = true) := by
    rw [hkeep.pwr, hkeep.subEnabled hk hp, not_or, not_not, not_not]
    exact ⟨h8, hen⟩
  have hmem := hkeep.mem
  unfold State.startSub State.freshSt
  dsimp only
  rw [if_neg hgo, hlanes, hcfg, hcfg]
  generalize s.subOut p k 0 = u at hmem
  by_cases han : s.fld (rEthPcfg p) (16 + k) 1 = 1
  · obtain ⟨t, ht, hst, htm, hoff, -⟩ := u.subTrains p hk (st := 1) (by decide) 1 (s.subLanes_lt hp k) (s.subLanes_nodup p k)
    rw [if_pos han, if_pos han, ← ht]
    exact ⟨hst, htm.trans hmem, hoff⟩
  · rw [if_neg han, if_neg han]
    generalize s.fld (rEthPcfg p) (20 + 2 * k) 2 = m
    have hm : (if (if m = 3 then 0 else m) = 2 then 3 else 2) = if m = 2 then 3 else 2 := by
      by_cases h : m = 3
      · rw [if_pos h, h]
        rfl
      · rw [if_neg h]
    rw [hm]
    obtain ⟨t, ht, hst, htm, hoff, -⟩ := (u.setFld (rEthPstat p) (14 + 2 * k) 2 (if m = 3 then 0 else m)).subTrains p hk
      (st := if m = 2 then 3 else 2) (by split <;> decide) 8 (s.subLanes_lt hp k) (s.subLanes_nodup p k)
    rw [← ht]
    exact ⟨hst, htm.trans hmem, hoff⟩

end

section
variable (s : State) (p : Fin 2) (k : Fin 4)

theorem exec_autoNegotiation_spec (h : s.subSt p k = 1) (m : Fin 2) : ∃ t,
    exec (.autoNegotiation p k (some m)) s = .next t ∧ t.subSt p k = 2 ∧ t.mem = s.mem ∧
      t.fld (rEthPstat p) (14 + 2 * (k : Nat)) 2 = m := by
  let u := s.setFld (rEthPstat p) (14 + 2 * (k : Nat)) 2 m
  have hrun : exec (.autoNegotiation p k (some m)) s =
      .next (((u.setSubSt p k 2).subLanes p k).foldl (fun s l => s.laneTrain l 8) (u.setSubSt p k 2)) :=
    if_neg (not_not.2 h)
  obtain ⟨t, ht, hst, hmem, -, hstat⟩ := u.subTrains p k.isLt (st := 2) (by decide) 8
    ((u.setSubSt p k 2).subLanes_lt p.isLt k) ((u.setSubSt p k 2).subLanes_nodup p k)
  refine ⟨t, by rw [hrun, ht], hst, hmem, (hstat _ _ (by omega) (by omega)).trans ?_⟩
  rw [State.fld_setFld_self _ _ (by omega)]
  omega

/-! ### Link training and alignment (R297) -/

omit k in
theorem oget_ffe_setFfe (l j : Nat) : oget (s.setFfe l).links.ffe j = if j = l then some s.takeFree.1 else oget s.links.ffe j :=
  oget_oset s.links.ffe l j (some s.takeFree.1)

/-- The taps of lanes alone are set, each of the list's among them. -/
theorem State.setFfes_spec (ls : List Nat) (s : State) : (ls.foldl (fun s l => s.setFfe l) s).regs = s.regs ∧
    (ls.foldl (fun s l => s.setFfe l) s).mem = s.mem ∧ (ls.foldl (fun s l => s.setFfe l) s).parts = s.parts ∧
      ∀ l, l ∈ ls ∨ (oget s.links.ffe l).isSome = true → (oget (ls.foldl (fun s l => s.setFfe l) s).links.ffe l).isSome = true := by
  induction ls generalizing s with
  | nil => exact ⟨rfl, rfl, rfl, by simp⟩
  | cons m ls ih =>
    obtain ⟨hregs, hmem, hparts, hffe⟩ := ih (s.setFfe m)
    refine ⟨hregs, hmem, hparts, fun l hl => hffe l ?_⟩
    rw [oget_ffe_setFfe]
    by_cases he : l = m
    · simp [he]
    · simpa [he] using hl

theorem exec_linkTraining_spec (h : s.subSt p k = 2) : ∃ t, exec (.linkTraining p k) s = .next t ∧ t.subSt p k = 3 ∧
    t.mem = s.mem ∧ t.parts = s.parts ∧ (∀ o, o ≠ rEthPstat p → t.reg o = s.reg o) ∧
      ∀ l ∈ s.subLanes p k, (oget t.links.ffe l).isSome = true := by
  have hrun : exec (.linkTraining p k) s = .next ((s.subLanes p k).foldl (fun s l => s.setFfe l) (s.setSubSt p k 3)) := if_pos h
  obtain ⟨hregs, hmem, hparts, hffe⟩ := State.setFfes_spec (s.subLanes p k) (s.setSubSt p k 3)
  generalize (s.subLanes p k).foldl (fun s l => s.setFfe l) (s.setSubSt p k 3) = t at hrun hregs hmem hparts hffe
  have hreg (o : Nat) : t.reg o = (s.setSubSt p k 3).reg o := by rw [State.reg, hregs, State.reg]
  refine ⟨t, hrun, ?_, hmem, hparts, fun o ho => (hreg o).trans (s.reg_setFld_of_ne _ ho), fun l hl => hffe l (.inl hl)⟩
  exact (congrArg (bf · _ 3) (hreg (rEthPstat p))).trans (s.subSt_setSubSt p k.isLt (by decide))

theorem State.laneStep_laneUp_alone {l : Nat} (hl : l < 48) (rate : Nat) : s.laneStep (s.laneUp l rate) [l] := by
  have hhold : s.laneStep (s.holdEq l (s.fld (rLctl l) 4 1 == 1)) [] := ⟨rfl, fun _ _ => rfl, fun _ _ _ _ _ => rfl⟩
  exact (hhold.trans (State.laneStep_setLane _ hl (by decide) _)).mono (by simp)

theorem rLstat_laneUp (l : Nat) : bf ((s.laneUp l 8).reg (rLstat l)) 0 1 = 1 ∧ bf ((s.laneUp l 8).reg (rLstat l)) 8 4 = 8 := by
  unfold State.laneUp
  rw [State.reg_setReg_self]
  simp only [bf_ofNat, fv_eq]
  omega

theorem bf_bit_le {w : W64} {j n : Nat} (hj : j < n) (h : bf w j 1 = 1) : bf w 0 n ≠ 0 := by
  intro h0
  have hbit : (bf w 0 n).testBit j = true := by
    have h1 : (bf w j 1).testBit 0 = true := by rw [h]; rfl
    rw [bf_testBit] at h1 ⊢
    simpa [hj] using h1
  rw [h0, Nat.zero_testBit] at hbit
  cases hbit

/-- A sub-port that has come up is given to the transport (R283). -/
def State.subJoins (s : State) (p k : Nat) : State :=
  (((s.setReg (rEthSpdt p k) s.dt).setFld rCtPorts (4 * p + k) 1 1).joinAll (4 * p + k)).syncLinks

omit p k in
theorem State.subJoins_spec {p k : Nat} (hp : p < 2) (hk : k < 4) : s.hostStep (s.subJoins p k) (subRegs p k) ∧
    (s.subJoins p k).reg (rEthSpdt p k) = s.dt ∧ (s.subJoins p k).fld rCtPorts (4 * p + k) 1 = 1 ∧
      (s.subJoins p k).fld rPwrReady 5 1 = 1 := by
  let u := (s.setReg (rEthSpdt p k) s.dt).setFld rCtPorts (4 * p + k) 1 1
  have hu : s.hostStep u [rEthSpdt p k, rCtPorts] := (s.hostStep_setReg _ _).trans (State.hostStep_setReg _ _ _)
  have hjoin := u.hostStep_joinAll (4 * p + k)
  have hsync := (u.joinAll (4 * p + k)).hostStep_syncLinks
  have hspdt (x : Nat) (hx : 0x403000 ≤ x) : rEthSpdt p k ≠ x := rEth_ne_of_ge hp (by omega) hx
  have hup : (u.joinAll (4 * p + k)).fld rCtPorts (4 * p + k) 1 = 1 :=
    (hjoin.fld (by simp) _ _).trans (State.fld_setFld_self _ _ (by omega))
  refine ⟨((hu.trans hjoin).trans hsync).mono (by simp [subRegs]), ?_, (hsync.fld (by decide) _ _).trans hup, ?_⟩
  · calc (s.subJoins p k).reg (rEthSpdt p k) = u.reg (rEthSpdt p k) :=
          (hsync.reg _ (by simpa using hspdt _ (by decide))).trans (hjoin.reg _ (by simp))
      _ = s.dt := (State.reg_setFld_of_ne _ _ (hspdt _ (by decide))).trans (s.reg_setReg_self _ _)
  · have hany : (u.joinAll (4 * p + k)).fld rCtPorts 0 8 ≠ 0 := bf_bit_le (by omega) hup
    exact (congrArg (State.fld · rPwrReady 5 1) (congrArg (State.setFld _ rPwrReady 5 1) (if_neg hany))).trans
      (State.fld_setFld_self _ _ (by decide))

theorem exec_pcsAlignment_spec (h : s.subSt p k = 3) : ∃ t, exec (.pcsAlignment p k) s = .next t ∧ t.subSt p k = 4 ∧
    t.reg (rEthSpdt p k) = s.dt ∧ t.mem = s.mem ∧ t.fld rCtPorts (4 * (p : Nat) + (k : Nat)) 1 = 1 ∧
      t.fld rPwrReady 5 1 = 1 ∧ ∀ l ∈ s.subLanes p k, t.laneOn l = true ∧ t.fld (rLstat l) 8 4 = 8 := by
  let u := (s.subLanes p k).foldl (fun s l => s.laneUp l 8) (s.setSubSt p k 4)
  have hrun : exec (.pcsAlignment p k) s = .next (u.subJoins p k) := if_neg (not_not.2 h)
  have hlane (s : State) (l : Nat) (hl : l < 48) := s.laneStep_laneUp_alone hl 8
  have hlanes := s.subLanes_lt p.isLt k
  have hu : (s.setSubSt p k 4).laneStep u (s.subLanes p k) := State.laneStep_foldl hlane hlanes _
  have hon : ∀ l ∈ s.subLanes p k, bf (u.reg (rLstat l)) 0 1 = 1 ∧ bf (u.reg (rLstat l)) 8 4 = 8 :=
    State.rLstat_foldl hlane (Q := fun w => bf w 0 1 = 1 ∧ bf w 8 4 = 8) rLstat_laneUp hlanes (s.subLanes_nodup p k) _
  obtain ⟨hjoin, hspdt, hports, hready⟩ := u.subJoins_spec p.isLt k.isLt
  refine ⟨_, hrun, ?_, hspdt.trans hu.rest.dt, hjoin.mem.trans hu.rest.mem, hports, hready, fun l hl => ?_⟩
  · exact (hjoin.subSt p.isLt).trans ((hu.subSt p k).trans (s.subSt_setSubSt p k.isLt (by decide)))
  · obtain ⟨h0, h8⟩ := hon l hl
    rw [State.laneOn, State.fld, State.fld, hjoin.rLstat k.isLt (hlanes l hl), h0, h8]
    exact ⟨rfl, rfl⟩

end

/-! ### Loss of link, and windows of the FEC (R283, R298) -/

section
variable (s : State) {p k : Nat} (hp : p < 2) (hk : k < 4)
include hp hk

theorem State.subDown_spec (h : s.subSt p k = 4) : (s.subDown p k).subSt p k = 5 ∧ (s.subDown p k).told 0 stPortDown ∧
    (s.subDown p k).mem = s.mem ∧ (s.subDown p k).fld rCtPorts (4 * p + k) 1 = 0 ∧
      ∀ l ∈ s.subLanes p k, (s.subDown p k).laneOn l = false := by
  obtain ⟨hst, hlanes, hports⟩ := s.subOut_spec hp hk (v := 5) (by decide)
  unfold State.subDown
  rw [if_pos h]
  exact ⟨hst, State.told_event _ _ _ _ _ _, (s.subKeeps_subOut hp hk 5).mem, hports h, hlanes⟩

end

section
variable {s : State} {p : Fin 2} {k : Fin 4}

/-- What a sub-port that goes down leaves. -/
def State.goesDown (s : State) (p k : Nat) (t : State) : Prop := t.subSt p k = 5 ∧ t.told 0 stPortDown ∧ t.mem = s.mem ∧
  t.fld rCtPorts (4 * p + k) 1 = 0 ∧ ∀ l ∈ s.subLanes p k, t.laneOn l = false

theorem exec_lossOfLink_spec (h : s.subSt p k = 4) : ∃ t, exec (.lossOfLink p k) s = .next t ∧ s.goesDown p k t :=
  ⟨_, rfl, s.subDown_spec p.isLt k.isLt h⟩

theorem exec_fecWindow_spec (h : s.subSt p k = 4) (corr uc : Nat) :
    if max 1 (s.fld (rEthFecth p) 0 16) ≤ uc then ∃ t, exec (.fecWindow p k corr uc) s = .next t ∧ s.goesDown p k t
    else ∃ t, exec (.fecWindow p k corr uc) s = .next t ∧ s.onlyRegs t [rEthFec p k] ∧
      t.reg (rEthFec p k) = bsat (bsat (s.reg (rEthFec p k)) 0 40 corr) 40 23 uc := by
  let u := s.setReg (rEthFec p k) (bsat (bsat (s.reg (rEthFec p k)) 0 40 corr) 40 23 uc)
  have hfld (o : Nat) (ho : o < 0x20) (lo n : Nat) : u.fld (rEth p o) lo n = s.fld (rEth p o) lo n :=
    s.fld_setReg_of_ne _ (rEth_ne (by omega))
  have hrun : exec (.fecWindow p k corr uc) s =
      if max 1 (u.fld (rEthFecth p) 0 16) ≤ uc then .next (u.subDown p k) else .next u := if_neg (not_not.2 h)
  have hth : u.fld (rEthFecth p) 0 16 = s.fld (rEthFecth p) 0 16 := hfld 0x10 (by decide) 0 16
  have hst : u.subSt p k = s.subSt p k := hfld 8 (by decide) _ _
  have hlanes : u.subLanes p k = s.subLanes p k := by
    have hcount : u.fld (rEthPstat p) 12 2 = s.fld (rEthPstat p) 12 2 := hfld 8 (by decide) 12 2
    unfold State.subLanes State.subCount
    rw [hcount]
  rw [hrun, hth]
  split
  · have hdown := u.subDown_spec p.isLt k.isLt (hst.trans h)
    rw [hlanes] at hdown
    exact ⟨_, rfl, hdown⟩
  · exact ⟨u, rfl, s.onlyRegs_setReg _ _, s.reg_setReg_self _ _⟩

/-! ### A pause ends (R300) -/

theorem State.pauses_releaseHeld (s : State) : s.releaseHeld.links.pauses = s.links.pauses :=
  foldl_proj (π := fun t : State => t.links.pauses) (f := fun t (e : Nat × Out) => t.emit e.2) (fun _ _ => rfl) _ _

theorem exec_pfcQuantaExpiry_spec {g : Fin 8} {u : Nat}
    (h : oget s.links.pauses (8 * (4 * (p : Nat) + (k : Nat)) + (g : Nat)) = some u) (hu : u ≤ s.dt.toNat) : ∃ t,
    exec (.pfcQuantaExpiry p k g) s = .next t ∧ t.regs = s.regs ∧ t.mem = s.mem ∧
      oget t.links.pauses (8 * (4 * (p : Nat) + (k : Nat)) + (g : Nat)) = none := by
  generalize hkey : 8 * (4 * (p : Nat) + (k : Nat)) + (g : Nat) = key at h ⊢
  let v : State := { s with links := { s.links with pauses := oset s.links.pauses key none } }
  have hrun : exec (.pfcQuantaExpiry p k g) s = .next v.releaseHeld := by
    have harm : exec (.pfcQuantaExpiry p k g) s = execPfcQuantaExpiry p k g s := rfl
    rw [harm, execPfcQuantaExpiry]
    dsimp only
    rw [hkey, h]
    exact if_pos hu
  obtain ⟨hregs, hmem⟩ := v.releaseHeld_regs_mem
  refine ⟨_, hrun, hregs, hmem, ?_⟩
  rw [v.pauses_releaseHeld, oget_oset, if_pos rfl]

/-! ### The obligation -/

/-- Each step of a sub-port's bring-up is of the STATE it is in, and a restart takes it to the first. -/
theorem State.startSub_restarts_of (hrun : exec i s = .next (s.startSub p k)) : s.pwr.steps.contains 8 = true →
    s.subEnabled p k = true → ∃ t, exec i s = .next t ∧ t.subSt p k = s.freshSt p k ∧ t.mem = s.mem ∧
      ∀ l ∈ s.subLanes p k, t.laneOn l = false :=
  fun h8 hen => ⟨_, hrun, s.startSub_restarts p.isLt k.isLt h8 hen⟩

end

/-- Settles O44: the steps of a sub-port's bring-up, its restarts and its loss one by one, and the scans and pauses. -/
theorem ethernetLinks : Obligations.EthernetLinks := by
  intro s p k
  refine ⟨fun h => ⟨if_neg (not_not.2 h), exec_autoNegotiation_spec s p k h⟩,
    fun h => ⟨State.startSub_restarts_of (if_pos h), exec_linkTraining_spec s p k h⟩,
    fun h => ⟨State.startSub_restarts_of (if_pos h), exec_pcsAlignment_spec s p k h⟩,
    fun h => ⟨exec_lossOfLink_spec h, exec_fecWindow_spec h⟩,
    fun h hdt => State.startSub_restarts_of (if_pos ⟨h, hdt⟩),
    fun g u h hu => exec_pfcQuantaExpiry_spec h hu,
    fun l hb => exec_eyeScanStart_spec hb,
    fun l hl hr vu vd eye hb => ?_⟩
  obtain ⟨t, ht, hregs, hdt, heyes⟩ := exec_eyeScanDone_spec hl hr vu vd eye hb
  exact ⟨t, ht, hregs, hdt, heyes.done, heyes.least, heyes.left, heyes.right, heyes.up, heyes.down, heyes.worst⟩

end Sys2Proof.Machine
end

section
/-! PROOFS. Acknowledgements, notices and probes, and what waits to be sent (R273, R274, R278, R279, R282). -/

namespace Sys2Proof.Machine

/-! ### A packet leaves -/

theorem State.ent_sendPkt (s : State) (i k : Nat) (p : Pkt) : (s.sendPkt i k p).ent i = { s.ent i with txn := (s.ent i).txn + 1 } :=
  s.ent_setEnt_self i _

/-- It changes the transport alone. -/
theorem State.sendPkt_rest (s : State) (i k : Nat) (p : Pkt) : s.sendPkt i k p = { s with net := (s.sendPkt i k p).net } := by
  unfold State.sendPkt State.emit
  rfl

theorem State.mem_sendPkt (s : State) (i k : Nat) (p : Pkt) : (s.sendPkt i k p).mem = s.mem := by rw [s.sendPkt_rest]

/-- A packet that leaves an entry on a path, with what it gets there. -/
def State.stamped (s : State) (i k : Nat) (p : Pkt) : Pkt :=
  { p with epoch := (s.ent i).epoch, path := k, txn := (s.ent i).txn, txdt := s.egress (((s.ent i).path k).sub / 4) }

theorem State.sends_sendPkt (s : State) (i k : Nat) (p : Pkt) : s.sends (s.sendPkt i k p) i (s.ent i) (s.stamped i k p) :=
  ⟨_, _, rfl⟩

/-! ### An ACK leaves, or stays owed (R274, R300) -/

/-- Does received PFC hold back what an entry sends on its next path? -/
def State.ackHeld (s : State) (i : Nat) : Bool :=
  s.paused ((s.ent i).path ((s.ent i).nextPath % max 1 (s.ent i).paths.length)).sub (s.ent i).dscp

/-- Whether PFC holds an entry back hangs on its paths and DSCP, and on no other part of the transport. -/
theorem State.ackHeld_congr {s t : State} {i : Nat} (hn : t = { s with net := t.net })
    (he : (t.ent i).paths = (s.ent i).paths ∧ (t.ent i).nextPath = (s.ent i).nextPath ∧ (t.ent i).dscp = (s.ent i).dscp) :
    t.ackHeld i = s.ackHeld i := by
  obtain ⟨hpaths, hnext, hdscp⟩ := he
  have hpaused (sub dscp : Nat) : t.paused sub dscp = s.paused sub dscp := by
    rw [hn]
    rfl
  unfold State.ackHeld Entry.path
  rw [hpaths, hnext, hdscp, hpaused]

/-- What ACKs that leave or stay owed keep. -/
structure State.ackKeeps (s t : State) (i : Nat) : Prop where
  mem : t.mem = s.mem
  held : t.ackHeld i = s.ackHeld i
  inbox : (t.ent i).inbox = (s.ent i).inbox
  drops : (t.ent i).drops = (s.ent i).drops
  rx : (t.ent i).rx = (s.ent i).rx

theorem State.ackKeeps.trans {s t u : State} {i : Nat} (h : s.ackKeeps t i) (h' : t.ackKeeps u i) : s.ackKeeps u i :=
  ⟨h'.mem.trans h.mem, h'.held.trans h.held, h'.inbox.trans h.inbox, h'.drops.trans h.drops, h'.rx.trans h.rx⟩

/-- The entry whose ACK has left. -/
def Entry.reported (e : Entry) : Entry := { e with txn := e.txn + 1, unacked := 0, ce := 0, refused := e.refused.drop 1 }

section
variable {s : State} {i : Nat}

theorem State.sendAck1_free (h : s.ackHeld i = false) : s.ackKeeps (s.sendAck1 i) i ∧ s.acks (s.sendAck1 i) i (s.ent i) ∧
    (s.sendAck1 i).ent i = (s.ent i).reported := by
  have hrun : s.sendAck1 i = (s.sendPkt i ((s.ent i).nextPath % max 1 (s.ent i).paths.length)
      { kind := 8, body := s.ackBody (s.ent i) }).updEnt i (fun e => { e with unacked := 0, ce := 0, refused := e.refused.drop 1 }) :=
    if_neg (by rw [← State.ackHeld, h]; exact Bool.false_ne_true)
  have hent : (s.sendAck1 i).ent i = (s.ent i).reported := by
    rw [hrun, State.updEnt_eq, State.ent_setEnt_self, State.ent_sendPkt]
    rfl
  have hrest : s.sendAck1 i = { s with net := (s.sendAck1 i).net } := by
    rw [hrun, s.sendPkt_rest]
    rfl
  refine ⟨⟨by rw [hrest], State.ackHeld_congr hrest ?_, by rw [hent]; rfl, by rw [hent]; rfl,
    by rw [hent]; rfl⟩, ?_, hent⟩
  · rw [hent]
    exact ⟨rfl, rfl, rfl⟩
  · rw [hrun]
    exact ⟨s.stamped i _ _, rfl, rfl, rfl, rfl, s.sends_sendPkt i _ _⟩

theorem State.sendAck1_held (h : s.ackHeld i = true) : s.ackKeeps (s.sendAck1 i) i ∧ 0 < ((s.sendAck1 i).ent i).unacked ∧
    (s.sendAck1 i).net.out = s.net.out := by
  have hrun : s.sendAck1 i = s.updEnt i (fun e => { e with unacked := max 1 e.unacked }) := if_pos h
  have hent : (s.sendAck1 i).ent i = { s.ent i with unacked := max 1 (s.ent i).unacked } := by
    rw [hrun, State.updEnt_eq, State.ent_setEnt_self]
  refine ⟨⟨by rw [hrun]; rfl, State.ackHeld_congr (by rw [hrun]; rfl) ?_, by rw [hent], by rw [hent],
    by rw [hent]⟩, ?_, by rw [hrun]; rfl⟩
  · rw [hent]
    exact ⟨rfl, rfl, rfl⟩
  · rw [hent]
    exact lt_max_of_lt_left Nat.one_pos

end

/-- One ACK for each element of a list. -/
def State.sendAcks {α : Type} (s : State) (i : Nat) (l : List α) : State := l.foldl (fun s _ => s.sendAck1 i) s

theorem State.sendAcks_cons {α : Type} (s : State) (i : Nat) (a : α) (l : List α) :
    s.sendAcks i (a :: l) = (s.sendAck1 i).sendAcks i l := rfl

section
variable {α : Type} {i : Nat}

/-- ACKs that nothing holds back report one refusal each. -/
theorem State.sendAcks_free (l : List α) : ∀ {s : State}, s.ackHeld i = false → s.ackKeeps (s.sendAcks i l) i ∧
    ((s.sendAcks i l).ent i).refused = (s.ent i).refused.drop l.length ∧
      (s.sendAcks i l).net.out.length = s.net.out.length + l.length ∧
        (l ≠ [] ∨ (s.ent i).unacked = 0 → ((s.sendAcks i l).ent i).unacked = 0) := by
  induction l with
  | nil => exact fun h => ⟨⟨rfl, rfl, rfl, rfl, rfl⟩, rfl, rfl, fun hu => hu.resolve_left (by simp)⟩
  | cons a l ih =>
    intro s h
    obtain ⟨hkeep, ⟨p, -, -, -, -, sub, hdr, hout⟩, hent⟩ := State.sendAck1_free h
    obtain ⟨hkeep', hrefused, hout', hun⟩ := ih (hkeep.held.trans h)
    rw [State.sendAcks_cons]
    refine ⟨hkeep.trans hkeep', ?_, ?_, fun _ => hun (.inr (by rw [hent]; rfl))⟩
    · rw [hrefused, hent, Entry.reported, List.drop_drop, List.length_cons, Nat.add_comm]
    · rw [hout', hout, List.length_append, List.length_singleton, List.length_cons]
      omega

/-- ACKs that received PFC holds back stay owed. -/
theorem State.sendAcks_held (l : List α) : ∀ {s : State}, s.ackHeld i = true → s.ackKeeps (s.sendAcks i l) i ∧
    (l ≠ [] ∨ 0 < (s.ent i).unacked → 0 < ((s.sendAcks i l).ent i).unacked) ∧ (s.sendAcks i l).net.out = s.net.out := by
  induction l with
  | nil => exact fun h => ⟨⟨rfl, rfl, rfl, rfl, rfl⟩, fun hu => hu.resolve_left (by simp), rfl⟩
  | cons a l ih =>
    intro s h
    obtain ⟨hkeep, hun, hout⟩ := State.sendAck1_held h
    obtain ⟨hkeep', hun', hout'⟩ := ih (hkeep.held.trans h)
    exact ⟨hkeep.trans hkeep', fun _ => hun' (.inr hun), hout'.trans hout⟩

end

/-- From s to t the entry, of which e is told, has sent its ACKs at once, one more for each further refusal, or owes one. -/
def State.ackAnswers (s t : State) (i : Nat) (e : Entry) : Prop := t.mem = s.mem ∧
  ((s.ent i).refused.length ≤ 1 → s.ackHeld i = false → s.acks t i e) ∧
  (s.ackHeld i = false → (t.ent i).refused = [] ∧ (t.ent i).unacked = 0 ∧
    t.net.out.length = s.net.out.length + max 1 (s.ent i).refused.length) ∧
  (s.ackHeld i = true → 0 < (t.ent i).unacked ∧ t.net.out = s.net.out)

theorem State.sendAck_spec (s : State) (i : Nat) : s.ackAnswers (s.sendAck i) i (s.ent i) ∧ s.ackKeeps (s.sendAck i) i := by
  have hrun : s.sendAck i = s.sendAcks i (List.range (max 1 (s.ent i).refused.length)) := rfl
  have hlen : (List.range (max 1 (s.ent i).refused.length)).length = max 1 (s.ent i).refused.length := List.length_range
  have hne : List.range (max 1 (s.ent i).refused.length) ≠ [] := by
    rw [Ne, List.range_eq_nil]
    omega
  cases h : s.ackHeld i with
  | false =>
    obtain ⟨hkeep, hrefused, hout, hun⟩ := State.sendAcks_free (List.range (max 1 (s.ent i).refused.length)) h
    rw [hlen] at hrefused hout
    refine ⟨⟨hkeep.mem, fun h1 _ => ?_, fun _ => ⟨?_, hun (.inl hne), hout⟩, by simp [h]⟩, hkeep⟩
    · rw [hrun, Nat.max_eq_left h1]
      exact (State.sendAck1_free h).2.1
    · rw [hrun, hrefused]
      exact List.drop_eq_nil_of_le (Nat.le_max_right _ _)
  | true =>
    obtain ⟨hkeep, hun, hout⟩ := State.sendAcks_held (List.range (max 1 (s.ent i).refused.length)) h
    exact ⟨⟨hkeep.mem, by simp [h], by simp [h], fun _ => ⟨hun (.inl hne), hout⟩⟩, hkeep⟩

/-- The same after an update of the entry that leaves alone its paths and refusals. -/
theorem State.sendAck_updEnt (s : State) (i : Nat) {f : Entry → Entry} {e : Entry} (he : f (s.ent i) = e)
    (hf : e.refused = (s.ent i).refused ∧ e.paths = (s.ent i).paths ∧ e.nextPath = (s.ent i).nextPath ∧ e.dscp = (s.ent i).dscp) :
    s.ackAnswers ((s.updEnt i f).sendAck i) i e ∧ (((s.updEnt i f).sendAck i).ent i).inbox = e.inbox ∧
      (((s.updEnt i f).sendAck i).ent i).drops = e.drops := by
  obtain ⟨hrefused, hpaths, hnext, hdscp⟩ := hf
  have hent : (s.updEnt i f).ent i = e := by rw [State.updEnt_eq, State.ent_setEnt_self, he]
  have hheld : (s.updEnt i f).ackHeld i = s.ackHeld i :=
    State.ackHeld_congr rfl (by rw [hent]; exact ⟨hpaths, hnext, hdscp⟩)
  obtain ⟨hans, hkeep⟩ := (s.updEnt i f).sendAck_spec i
  refine ⟨?_, by rw [hkeep.inbox, hent], by rw [hkeep.drops, hent]⟩
  unfold State.ackAnswers at hans ⊢
  rwa [hheld, hent, hrefused] at hans

/-! ### The commands that answer at once -/

theorem exec_ackTimer_spec {s : State} {i : Fin 16392} (h : 0 < (s.ent i).unacked) :
    ∃ t, exec (.ackTimer i) s = .next t ∧ s.ackAnswers t i (s.ent i) :=
  ⟨_, if_pos h, (s.sendAck_spec i).1⟩

theorem exec_probe_spec {s : State} {i : Fin 16392} {j : Nat} {p : Pkt}
    (hj : (s.ent i).inbox.findIdx? (fun p => p.kind == 10) = some j) (hp : (s.ent i).inbox[j]? = some p) :
    ∃ t, exec (.probe i) s = .next t ∧
      s.ackAnswers t i { s.ent i with inbox := (s.ent i).inbox.eraseIdx j, echoDt := p.txdt, echoPath := p.path } ∧
      (t.ent i).inbox = (s.ent i).inbox.eraseIdx j := by
  have hrun : exec (.probe i) s = .next ((s.updEnt i (fun e =>
      { e with inbox := e.inbox.eraseIdx j, echoDt := p.txdt, echoPath := p.path })).sendAck i) := by
    change execProbe i s = _
    simp only [execProbe, hj, hp]
  obtain ⟨hans, hin, -⟩ := s.sendAck_updEnt i (f := fun e =>
    { e with inbox := e.inbox.eraseIdx j, echoDt := p.txdt, echoPath := p.path }) rfl ⟨rfl, rfl, rfl, rfl⟩
  exact ⟨_, hrun, hans, hin⟩

/-- The notice that a packet carries (R282). -/
def Pkt.notice (p : Pkt) : Note := { ctx := bitsOf p.arg 0 10, gen := bitsOf p.arg 10 12, last := beAt p.body 0 4 }

/-- The entry after a notice has been recorded. -/
def Entry.noted (e : Entry) (j : Nat) (p : Pkt) : Entry :=
  { e with inbox := e.inbox.eraseIdx j, echoDt := p.txdt, echoPath := p.path,
           drops := if passed (beAt p.body 0 4) e.rxNext then e.drops else e.drops ++ [p.notice] }

theorem exec_notice_spec {s : State} {i : Fin 16392} {j : Nat} {p : Pkt}
    (hj : (s.ent i).inbox.findIdx? (fun p => p.kind == 9) = some j) (hp : (s.ent i).inbox[j]? = some p)
    (h8 : (s.ent i).drops.length < 8) : ∃ t, exec (.notice i) s = .next t ∧ s.ackAnswers t i ((s.ent i).noted j p) ∧
      (t.ent i).inbox = (s.ent i).inbox.eraseIdx j ∧ (t.ent i).drops = ((s.ent i).noted j p).drops := by
  let u := s.updEnt i (fun e => { e with inbox := e.inbox.eraseIdx j })
  have hu : u.ent i = { s.ent i with inbox := (s.ent i).inbox.eraseIdx j } := s.ent_setEnt_self i _
  let f (e : Entry) : Entry :=
    { e with drops := if passed (beAt p.body 0 4) (u.ent i).rxNext then e.drops else e.drops ++ [p.notice],
             echoDt := p.txdt, echoPath := p.path }
  have hrun : exec (.notice i) s = .next ((u.updEnt i f).sendAck i) := by
    have hroom : ¬ 8 ≤ (u.ent i).drops.length := by
      rw [hu]
      exact Nat.not_le.2 h8
    change execNotice i s = _
    simp only [execNotice, hj, hp]
    exact if_neg hroom
  have hf : f (u.ent i) = (s.ent i).noted j p := by
    unfold f
    rw [hu]
    rfl
  obtain ⟨hans, hin, hdrops⟩ := u.sendAck_updEnt i hf (by rw [hu]; exact ⟨rfl, rfl, rfl, rfl⟩)
  have hheld : u.ackHeld i = s.ackHeld i := State.ackHeld_congr rfl (by rw [hu]; exact ⟨rfl, rfl, rfl⟩)
  unfold State.ackAnswers at hans
  rw [hheld, hu] at hans
  exact ⟨_, hrun, hans, hin, hdrops⟩

end Sys2Proof.Machine
end

section
/-! PROOFS. PACKET_TRANSMIT: a notice or the next packet of an entry leaves (R273, R278, R279, R282). -/

namespace Sys2Proof.Machine

theorem State.countRetx_spec (s : State) (tries : Nat) : (s.countRetx tries).net = s.net ∧ (s.countRetx tries).mem = s.mem := by
  unfold State.countRetx
  split <;> exact ⟨rfl, rfl⟩

theorem Entry.getElem?_of_nextTx {e : Entry} {n : Nat} {x : TxPkt} (h : e.nextTx = some (n, x)) : e.tx[n]? = some x := by
  obtain ⟨y, hy, he⟩ := Option.map_eq_some_iff.1 h
  obtain ⟨rfl, rfl⟩ := Prod.mk.inj he
  exact List.mem_zipIdx_iff_getElem?.1 (List.mem_of_find?_eq_some hy)

section
variable (s : State) (i k : Nat)

/-- What leaves an entry takes a TXN and leaves memory as it is. -/
structure State.leavesOn (s t : State) (i : Nat) (p : Pkt) : Prop where
  mem : t.mem = s.mem
  txn : (t.ent i).txn = (s.ent i).txn + 1
  sent : s.sends t i (s.ent i) p

/-- A packet leaves, the entry is updated, and a retransmission is counted. -/
theorem State.leavesOn_sendPkt (p : Pkt) (f : Entry → Entry) (hf : ∀ e, (f e).txn = e.txn) (tries : Nat) :
    s.leavesOn (((s.sendPkt i k p).updEnt i f).countRetx tries) i (s.stamped i k p) ∧
      (((s.sendPkt i k p).updEnt i f).countRetx tries).ent i = f { s.ent i with txn := (s.ent i).txn + 1 } := by
  obtain ⟨hnet, hmem⟩ := ((s.sendPkt i k p).updEnt i f).countRetx_spec tries
  have hent : (((s.sendPkt i k p).updEnt i f).countRetx tries).ent i = f { s.ent i with txn := (s.ent i).txn + 1 } := by
    rw [State.ent, hnet, ← State.ent, State.updEnt_eq, State.ent_setEnt_self, State.ent_sendPkt]
  refine ⟨⟨hmem.trans (s.mem_sendPkt i k p), by rw [hent, hf], ?_⟩, hent⟩
  obtain ⟨sub, hdr, hout⟩ := s.sends_sendPkt i k p
  exact ⟨sub, hdr, (congrArg Net.out hnet).trans hout⟩

/-- A notice that has left on a path. -/
def State.noteSent (s : State) (i k : Nat) (x : Note) : Note :=
  { x with sent := true, txdt := s.egress (((s.ent i).path k).sub / 4), txn := (s.ent i).txn, path := k, after := 0,
           due := s.dt.toNat + s.rto (s.ent i) * 2 ^ x.tries }

theorem State.sendNote_spec (j : Nat) (x : Note) : s.leavesOn (s.sendNote i k j x) i
    (s.stamped i k { kind := 9, arg := fv 0 10 x.ctx + fv 10 12 x.gen, body := beBytes 4 x.last }) ∧
      ((s.sendNote i k j x).ent i).tx = (s.ent i).tx := by
  have hrun : s.sendNote i k j x = ((s.sendPkt i k
    { kind := 9, arg := fv 0 10 x.ctx + fv 10 12 x.gen, body := beBytes 4 x.last }).updEnt i fun e =>
      { e with nextPath := k + 1, notes := e.notes.set j (s.noteSent i k x) }).countRetx x.tries := rfl
  obtain ⟨hleaves, hent⟩ := s.leavesOn_sendPkt i k { kind := 9, arg := fv 0 10 x.ctx + fv 10 12 x.gen, body := beBytes 4 x.last }
    (fun e => { e with nextPath := k + 1, notes := e.notes.set j (s.noteSent i k x) }) (fun _ => rfl) x.tries
  rw [hrun, hent]
  exact ⟨hleaves, rfl⟩

/-- A packet with the SEQ of its first transmission. -/
def TxPkt.numbered (x : TxPkt) (e : Entry) : Pkt := if x.num then x.p else { x.p with seq := e.seq }

theorem TxPkt.numbered_eq (x : TxPkt) (e : Entry) : x.numbered e = { x.p with seq := if x.num then x.p.seq else e.seq } := by
  unfold TxPkt.numbered
  split <;> rfl

/-- A packet that has left on a path. -/
def State.txSent (s : State) (i k : Nat) (x : TxPkt) : TxPkt :=
  { x with p := { x.numbered (s.ent i) with path := k, txn := (s.ent i).txn, txdt := s.egress (((s.ent i).path k).sub / 4) },
           num := true, sent := true, due := s.dt.toNat + s.rto (s.ent i) * 2 ^ x.tries }

/-- The entry whose packet n has left on a path as y. -/
def Entry.dataSent (e : Entry) (k n : Nat) (x y : TxPkt) : Entry :=
  { e with nextPath := k + 1,
           seq := if x.num then e.seq else (e.seq + 1) % seqMod,
           lastBy := if x.num then e.lastBy else tset 0 e.lastBy x.p.sctx (y.p.seq + 1),
           roundSeq := if e.roundSeq.isNone then some y.p.seq else e.roundSeq,
           tx := e.tx.set n y }

theorem State.sendData_spec {n : Nat} {x : TxPkt} (h : (s.ent i).tx[n]? = some x) :
    s.leavesOn (s.sendData i k n x) i (s.stamped i k (x.numbered (s.ent i))) ∧
      ((s.sendData i k n x).ent i).seq = (if x.num then (s.ent i).seq else ((s.ent i).seq + 1) % seqMod) ∧
        ∃ y, ((s.sendData i k n x).ent i).tx[n]? = some y ∧ y.sent = true ∧ y.num = true ∧ y.op = x.op ∧
          y.due = s.dt.toNat + s.rto (s.ent i) * 2 ^ x.tries := by
  obtain ⟨hleaves, hent⟩ := s.leavesOn_sendPkt i k (x.numbered (s.ent i)) (fun e => e.dataSent k n x (s.txSent i k x))
    (fun _ => rfl) x.tries
  have hrun : s.sendData i k n x = ((s.sendPkt i k (x.numbered (s.ent i))).updEnt i fun e =>
    e.dataSent k n x (s.txSent i k x)).countRetx x.tries := rfl
  rw [hrun, hent]
  exact ⟨hleaves, rfl, s.txSent i k x, List.getElem?_set_self (List.getElem?_eq_some_iff.1 h).1, rfl, rfl, rfl, rfl⟩

end

section
variable {s : State} {i : Fin 16392}

/-- The path that the entry's next packet takes. -/
def Entry.next (e : Entry) : Nat := e.nextPath % max 1 e.paths.length

/-- The entry is up, its next path is on a sub-port that is up, and nothing holds its frames back. -/
structure State.maySend (s : State) (i : Nat) : Prop where
  runs : s.runs = true
  paths : (s.ent i).paths ≠ []
  sub : ((s.ent i).path (s.ent i).next).sub ∈ s.upSubs
  state : s.entState i = 1
  free : s.ackHeld i = false

theorem State.maySend.not_blocked (h : s.maySend i) : ¬(¬ s.runs = true ∨ (s.ent i).paths = [] ∨
    ¬ s.upSubs.contains ((s.ent i).path (s.ent i).next).sub = true ∨
      s.paused ((s.ent i).path (s.ent i).next).sub (s.ent i).dscp = true ∨ ¬(s.entLife i = 1 ∨ s.entLife i = 4)) := by
  have hlife : s.entLife i = 1 := State.entLife_of_state h.state (by decide)
  have hfree : s.paused ((s.ent i).path (s.ent i).next).sub (s.ent i).dscp = false := h.free
  have hsub : s.upSubs.contains ((s.ent i).path (s.ent i).next).sub = true := List.contains_iff_mem.2 h.sub
  simp only [h.runs, h.paths, hsub, hfree, hlife]
  decide

theorem exec_packetTransmit_note (h : s.maySend i) {j : Nat} {x : Note}
    (hj : (s.ent i).notes.findIdx? (fun y => !y.sent) = some j) (hx : (s.ent i).notes[j]? = some x) :
    exec (.packetTransmit i) s = .next (s.sendNote i (s.ent i).next j x) := by
  change execPacketTransmit i s = _
  unfold execPacketTransmit
  dsimp only
  simp only [hj, hx]
  exact if_neg h.not_blocked

theorem exec_packetTransmit_data (h : s.maySend i) {n : Nat} {x : TxPkt} (hnotes : ∀ y ∈ (s.ent i).notes, y.sent = true)
    (hx : (s.ent i).nextTx = some (n, x)) (hroom : (s.ent i).flight + x.p.body.length ≤ s.fld (entReg i) 0 32)
    (hreach : (s.ent i).reach n ≤ (s.ent i).rwnd) :
    exec (.packetTransmit i) s = .next (s.sendData i (s.ent i).next n x) := by
  have hnone : (s.ent i).notes.findIdx? (fun y => !y.sent) = none :=
    List.findIdx?_eq_none_iff.2 fun y hy => by rw [hnotes y hy]; rfl
  have hlife : s.entLife i = 1 := State.entLife_of_state h.state (by decide)
  have hgo : ¬(s.fld (entReg i) 0 32 < (s.ent i).flight + x.p.body.length ∨ (s.ent i).rwnd < (s.ent i).reach n ∨
      (s.entLife i = 4 ∧ ¬ x.num = true) ∨ (s.entState i = 2 ∧ s.entLife i = 1)) := by
    rw [hlife, h.state]
    omega
  change execPacketTransmit i s = _
  unfold execPacketTransmit
  dsimp only
  simp only [hnone, hx]
  exact (if_neg h.not_blocked).trans (if_neg hgo)

end

end Sys2Proof.Machine
end

section
/-! PROOFS. ACK, losses and the timers of a connection (R271, R275, R276). -/

namespace Sys2Proof.Machine

/-! ### What the work on an ACK leaves of packets and operations -/

/-- From s to t no operation comes, and entry i keeps no packet that it had not, but for their counts and marks. -/
structure State.shrinks (s t : State) (i : Nat) : Prop where
  mem : t.mem = s.mem
  ops : ∀ o ∈ t.net.ops, o ∈ s.net.ops
  tx : ∀ x ∈ (t.ent i).tx, ∃ y ∈ (s.ent i).tx, y.p = x.p ∧ y.num = x.num

theorem State.shrinks.refl (s : State) (i : Nat) : s.shrinks s i := ⟨rfl, fun _ h => h, fun x h => ⟨x, h, rfl, rfl⟩⟩

theorem State.shrinks.trans {s t u : State} {i : Nat} (h : s.shrinks t i) (h' : t.shrinks u i) : s.shrinks u i where
  mem := h'.mem.trans h.mem
  ops o ho := h.ops o (h'.ops o ho)
  tx x hx := by
    obtain ⟨y, hy, hp, hn⟩ := h'.tx x hx
    obtain ⟨z, hz, hp', hn'⟩ := h.tx y hy
    exact ⟨z, hz, hp'.trans hp, hn'.trans hn⟩

theorem State.shrinks_foldl {α : Type} {i : Nat} {f : State → α → State} (hf : ∀ (s : State) a, s.shrinks (f s a) i)
    (l : List α) (s : State) : s.shrinks (l.foldl f s) i := by
  induction l generalizing s with
  | nil => exact .refl s i
  | cons a l ih => exact (hf s a).trans (ih _)

/-- An operation that ends is none any more, and the others stay. -/
theorem State.opDone_ops (s : State) (id st : Nat) : (s.opDone id st).net.ops = s.net.ops.filter (fun o => o.id != id) := by
  unfold State.opDone
  split <;> rfl

section
variable (s : State) (i : Nat)

theorem State.shrinks_updEnt {f : Entry → Entry}
    (hf : ∀ x ∈ (f (s.ent i)).tx, ∃ y ∈ (s.ent i).tx, y.p = x.p ∧ y.num = x.num) : s.shrinks (s.updEnt i f) i :=
  ⟨rfl, fun _ h => h, by rwa [State.updEnt_eq, State.ent_setEnt_self]⟩

theorem State.shrinks_setReg (o : Nat) (v : W64) : s.shrinks (s.setReg o v) i :=
  ⟨rfl, fun _ h => h, fun x h => ⟨x, h, rfl, rfl⟩⟩

theorem State.shrinks_reroll (k : Nat) : s.shrinks (s.reroll i k) i := by
  have hpath : s.shrinks s.newPath.2 i := ⟨rfl, fun _ h => h, fun x h => ⟨x, h, rfl, rfl⟩⟩
  exact (hpath.trans (State.shrinks_updEnt _ i fun x h => ⟨x, h, rfl, rfl⟩)).trans (State.shrinks_setReg _ i _ _)

theorem State.shrinks_opDone (id st : Nat) : s.shrinks (s.opDone id st) i where
  mem := (s.opsOnly_opDone id st).mem
  ops o ho := by
    rw [s.opDone_ops] at ho
    exact List.mem_of_mem_filter ho
  tx x hx := by
    rw [(s.opsOnly_opDone id st).ent] at hx
    exact ⟨x, hx, rfl, rfl⟩

theorem State.shrinks_opsFail (st : Nat) : s.shrinks (s.opsFail i st) i :=
  State.shrinks_foldl (fun s (o : NetOp) => s.shrinks_opDone i o.id st) _ s

/-- The operations and memory stay while an entry becomes unset. -/
theorem State.unsetEnt_ops : (s.unsetEnt i).net.ops = s.net.ops := by
  unfold State.unsetEnt
  dsimp only
  generalize hu : ((State.setEnt _ i {}).setReg (entReg i) 0) = u
  obtain ⟨hbooks, -⟩ := State.foldl_finishCmd_spec (fun id : Nat => id) (s.ent i).clearCmds u
  obtain ⟨-, hnet, -⟩ := ((s.ent i).clearCmds.foldl (fun s id => s.finishCmd id) u).settleResets_spec
  rw [hnet, hbooks.net, ← hu]
  rfl

theorem State.shrinks_failUnset : s.shrinks ((s.opsFail i stPeerUnreachable).unsetEnt i) i where
  mem := (s.failUnset_spec i).1
  ops o ho := by
    rw [State.unsetEnt_ops] at ho
    exact (s.shrinks_opsFail i _).ops o ho
  tx x hx := by
    rw [(s.failUnset_spec i).2.2] at hx
    cases hx

theorem State.fallEnt_ops (v : Nat) : (s.fallEnt i v).net.ops = s.net.ops := by
  unfold State.fallEnt
  split <;> rfl

/-! ### An entry goes DOWN, and packets that are lost (R275) -/

/-- An entry that is not clearing goes DOWN without its packets. -/
theorem State.entDown_of_ne (h : s.entLife i ≠ 4) : s.entDown i =
    ((s.fallEnt i 3).updEnt i (fun e => { e with tx := [], notes := [] })).opsFail i stPeerUnreachable := if_neg h

theorem State.entDown_tx : ((s.entDown i).ent i).tx = [] := by
  by_cases h : s.entLife i = 4
  · have hrun : s.entDown i = (s.opsFail i stPeerUnreachable).unsetEnt i := if_pos h
    rw [hrun, (s.failUnset_spec i).2.2]
  · rw [s.entDown_of_ne i h, (State.opsOnly_opsFail _ i _).ent, State.updEnt_eq, State.ent_setEnt_self]

theorem State.shrinks_entDown : s.shrinks (s.entDown i) i := by
  by_cases h : s.entLife i = 4
  · have hrun : s.entDown i = (s.opsFail i stPeerUnreachable).unsetEnt i := if_pos h
    rw [hrun]
    exact s.shrinks_failUnset i
  · have htx := s.entDown_tx i
    have hfail := State.shrinks_opsFail ((s.fallEnt i 3).updEnt i (fun e => { e with tx := [], notes := [] })) i stPeerUnreachable
    rw [s.entDown_of_ne i h] at htx ⊢
    refine ⟨hfail.mem.trans (s.fallEnt_mem i 3), fun o ho => ?_, fun x hx => ?_⟩
    · rw [← s.fallEnt_ops i 3]
      exact hfail.ops o ho
    · rw [htx] at hx
      cases hx

theorem State.entDown_state (h : s.entState i = 1) : (s.entDown i).entState i = 3 := by
  have hlife : s.entLife i = 1 := State.entLife_of_state h (by decide)
  have hfall : s.fallEnt i 3 = s.setEntState i 3 := if_neg (by rw [h]; decide)
  rw [s.entDown_of_ne i (by rw [hlife]; decide), (State.opsOnly_opsFail _ i _).entState, hfall]
  exact s.entState_setEntState i 3

/-- A packet that is lost waits to be sent again, until after a while its timer expires. -/
def State.waiting (s : State) (i : Nat) (x : TxPkt) : TxPkt :=
  { x with sent := false, tries := x.tries + 1, after := 0,
           due := s.dt.toNat + s.rto (s.ent i) * 2 ^ (x.tries + 1) }

section
variable {s : State} {i n : Nat} {x : TxPkt} (hx : (s.ent i).tx[n]? = some x)
include hx

theorem State.losePkt_of_last (h : s.retry ≤ x.tries) : s.losePkt i n = s.entDown i := by
  unfold State.losePkt
  rw [hx]
  exact if_pos h

theorem State.losePkt_of_more (h : ¬ s.retry ≤ x.tries) : s.losePkt i n =
    (s.updEnt i (fun e => { e with tx := e.tx.set n (s.waiting i x), roundLost := true })).reroll i x.p.path := by
  unfold State.losePkt
  rw [hx]
  exact if_neg h

theorem State.losePkt_tx (h : ¬ s.retry ≤ x.tries) : ((s.losePkt i n).ent i).tx = (s.ent i).tx.set n (s.waiting i x) := by
  rw [State.losePkt_of_more hx h]
  exact (State.ent_setEnt_self _ i _).symm ▸ (State.ent_setEnt_self s i _).symm ▸ rfl

end

theorem State.shrinks_losePkt (n : Nat) : s.shrinks (s.losePkt i n) i := by
  cases hx : (s.ent i).tx[n]? with
  | none =>
    have hrun : s.losePkt i n = s := by
      unfold State.losePkt
      rw [hx]
    rw [hrun]
    exact .refl s i
  | some x =>
    by_cases h : s.retry ≤ x.tries
    · rw [State.losePkt_of_last hx h]
      exact s.shrinks_entDown i
    · rw [State.losePkt_of_more hx h]
      refine (s.shrinks_updEnt i fun y hy => ?_).trans (State.shrinks_reroll _ i _)
      rcases List.mem_or_eq_of_mem_set hy with hy | rfl
      · exact ⟨y, hy, rfl, rfl⟩
      · exact ⟨x, List.mem_of_getElem? hx, rfl, rfl⟩

theorem State.shrinks_loseNote (n : Nat) : s.shrinks (s.loseNote i n) i := by
  unfold State.loseNote
  split
  · exact .refl s i
  · split
    · exact s.shrinks_entDown i
    · exact (s.shrinks_updEnt i fun x h => ⟨x, h, rfl, rfl⟩).trans (State.shrinks_reroll _ i _)

/-! ### The parts of an ACK's work -/

theorem State.shrinks_pathSample (k r : Nat) : s.shrinks (s.pathSample i k r) i := by
  have hupd (s : State) (g : Entry → List Path) : s.shrinks (s.updEnt i (fun e => { e with paths := g e })) i :=
    s.shrinks_updEnt i fun x h => ⟨x, h, rfl, rfl⟩
  unfold State.pathSample
  dsimp only
  split
  · split
    · exact ((hupd _ _).trans (hupd _ _)).trans (State.shrinks_reroll _ i k)
    · exact (hupd _ _).trans (hupd _ _)
  · exact (hupd _ _).trans (hupd _ _)

theorem State.shrinks_ackLosses : s.shrinks (s.ackLosses i) i :=
  (State.shrinks_foldl (fun s n => s.shrinks_losePkt i n) _ s).trans (State.shrinks_foldl (fun s n => s.shrinks_loseNote i n) _ _)

theorem State.shrinks_ackRound : s.shrinks (s.ackRound i) i := by
  have hstats (c : Nat) : s.shrinks (s.entStats i c) i := (s.shrinks_setReg i _ _).trans (State.shrinks_setReg _ i _ _)
  unfold State.ackRound
  dsimp only
  split
  · exact (hstats _).trans (State.shrinks_updEnt _ i fun x h => ⟨x, h, rfl, rfl⟩)
  · exact hstats _

theorem State.shrinks_ackClear : s.shrinks (s.ackClear i) i := by
  unfold State.ackClear
  split
  · exact s.shrinks_failUnset i
  · exact .refl s i

end

/-! ### Operations whose packets have all been acknowledged (R276) -/

theorem State.ops_opDone (s : State) (id st : Nat) : ∀ o ∈ (s.opDone id st).net.ops, o.id ≠ id := by
  intro o ho
  rw [s.opDone_ops] at ho
  simpa using (List.mem_filter.1 ho).2

/-- An operation of the entry without a packet left ends. -/
def State.endOp (s : State) (i id : Nat) : State := if (s.ent i).tx.any (fun t => t.op == id) then s else s.opDone id 0

theorem State.opsOnly_endOp (s : State) (i id : Nat) : s.opsOnly (s.endOp i id) := by
  unfold State.endOp
  split
  · rfl
  · exact s.opsOnly_opDone id 0

theorem State.shrinks_endOp (s : State) (i id : Nat) : s.shrinks (s.endOp i id) i := by
  unfold State.endOp
  split
  · exact .refl s i
  · exact s.shrinks_opDone i id 0

theorem State.endOps_spec (s : State) (i : Nat) (ids : List Nat) : s.shrinks (ids.foldl (fun s id => s.endOp i id) s) i ∧
    ∀ id ∈ ids, (∀ x ∈ (s.ent i).tx, x.op ≠ id) → ∀ o ∈ (ids.foldl (fun s id => s.endOp i id) s).net.ops, o.id ≠ id := by
  refine ⟨State.shrinks_foldl (fun s id => s.shrinks_endOp i id) ids s, ?_⟩
  refine (foldl_settles (I := fun t : State => t.ent i = s.ent i)
    (P := fun (id : Nat) (t : State) => (∀ x ∈ (s.ent i).tx, x.op ≠ id) → ∀ o ∈ t.net.ops, NetOp.id o ≠ id)
    (fun t id _ he => ?_) (fun t id _ he hno => ?_) (fun t id _ x _ _ hp hno o ho => ?_) rfl).2
  · exact ((t.opsOnly_endOp i id).ent i).trans he
  · have hend : t.endOp i id = t.opDone id 0 := if_neg (by simpa [he] using hno)
    rw [hend]
    exact t.ops_opDone id 0
  · exact hp hno o ((t.shrinks_endOp i id).ops o ho)

/-- The operation whose refusal an ACK reports ends with its status. -/
def State.ackRefused (s : State) (a : AckInfo) (old : List TxPkt) : State :=
  match (old.find? (fun t => t.num && t.p.seq == a.fseq)).map TxPkt.op with
  | some id => if a.fstat = 0 then s else s.opDone id a.fstat
  | none => s

theorem State.ackOps_eq (s : State) (i : Nat) (a : AckInfo) (old : List TxPkt) :
    s.ackOps i a old = (((old.filter a.covers).map TxPkt.op).dedup).foldl (fun s id => s.endOp i id) (s.ackRefused a old) := rfl

theorem State.ackRefused_spec (s : State) (i : Nat) (a : AckInfo) (old : List TxPkt) :
    (s.ackRefused a old).ent i = s.ent i ∧ s.shrinks (s.ackRefused a old) i := by
  unfold State.ackRefused
  split
  · split
    · exact ⟨rfl, .refl s i⟩
    · exact ⟨(s.opsOnly_opDone _ _).ent i, s.shrinks_opDone i _ _⟩
  · exact ⟨rfl, .refl s i⟩

theorem State.ackOps_spec (s : State) (i : Nat) (a : AckInfo) (old : List TxPkt) : s.shrinks (s.ackOps i a old) i ∧
    ∀ y ∈ old, a.covers y = true → (∀ x ∈ (s.ent i).tx, x.op ≠ y.op) → ∀ o ∈ (s.ackOps i a old).net.ops, o.id ≠ y.op := by
  obtain ⟨hent, hrefused⟩ := s.ackRefused_spec i a old
  obtain ⟨hend, hops⟩ := (s.ackRefused a old).endOps_spec i (((old.filter a.covers).map TxPkt.op).dedup)
  rw [State.ackOps_eq]
  refine ⟨hrefused.trans hend, fun y hy hc hno => hops y.op ?_ (by rwa [hent])⟩
  exact List.mem_dedup.2 (List.mem_map_of_mem (List.mem_filter.2 ⟨hy, hc⟩))

/-- The packets that an ACK leaves are those that CUMACK does not pass. -/
theorem AckInfo.mem_keep {a : AckInfo} {tx : List TxPkt} {x : TxPkt} (h : x ∈ a.keep tx) :
    ∃ y ∈ tx, a.covers y = false ∧ y.p = x.p ∧ y.num = x.num ∧ y.op = x.op := by
  obtain ⟨y, hy, rfl⟩ := List.mem_map.1 h
  obtain ⟨hmem, hc⟩ := List.mem_filter.1 hy
  exact ⟨y, hmem, by simpa using hc, rfl, rfl, rfl⟩

/-- The state in which the packets that an ACK passes have left the entry. -/
def State.ackTaken (s : State) (i : Nat) (p : Pkt) : State :=
  (s.updEnt i (fun e => ({ e with inbox := e.inbox.erase p }).acked (ackOf p.body) p.rxdt)).pathSample i (ackOf p.body).path
    (p.rxdt - (ackOf p.body).echo)

theorem State.tx_pathSample (s : State) (i k r : Nat) : ((s.pathSample i k r).ent i).tx = (s.ent i).tx := by
  have hupd (s : State) (g : Entry → List Path) : ((s.updEnt i (fun e => { e with paths := g e })).ent i).tx = (s.ent i).tx := by
    rw [State.updEnt_eq, State.ent_setEnt_self]
  have hroll (s : State) : ((s.reroll i k).ent i).tx = (s.ent i).tx := hupd s.newPath.2 fun e => e.paths.set k s.newPath.1
  unfold State.pathSample
  dsimp only
  split
  · split
    · exact (hroll _).trans ((hupd _ _).trans (hupd s _))
    · exact (hupd _ _).trans (hupd s _)
  · exact (hupd _ _).trans (hupd s _)

theorem State.ackTaken_spec (s : State) (i : Nat) (p : Pkt) : (s.ackTaken i p).mem = s.mem ∧
    ((s.ackTaken i p).ent i).tx = (ackOf p.body).keep (s.ent i).tx := by
  refine ⟨(State.shrinks_pathSample _ i _ _).mem, ?_⟩
  rw [State.ackTaken, State.tx_pathSample, State.updEnt_eq, State.ent_setEnt_self]
  rfl

theorem exec_ack_spec {s : State} {i : Fin 16392} {p : Pkt} (h : (s.ent i).inbox.find? (fun p => p.kind == 8) = some p) :
    ∃ t, exec (.ack i) s = .next t ∧ t.mem = s.mem ∧
      (∀ x ∈ (t.ent i).tx, ∃ y ∈ (s.ent i).tx, y.p.seq = x.p.seq ∧ y.num = x.num ∧ (ackOf p.body).covers y = false) ∧
      ∀ y ∈ (s.ent i).tx, (∀ x ∈ (s.ent i).tx, x.op = y.op → (ackOf p.body).covers x = true) → ∀ o ∈ t.net.ops, o.id ≠ y.op := by
  obtain ⟨hmem, htx⟩ := s.ackTaken_spec i p
  have hrun : exec (.ack i) s = .next
      ((((s.ackTaken i p).ackOps i (ackOf p.body) (s.ent i).tx).ackLosses i).ackRound i |>.ackClear i) := by
    change execAck i s = _
    unfold execAck
    rw [h]
    rfl
  generalize s.ackTaken i p = u at hmem htx hrun
  obtain ⟨hops, hdone⟩ := u.ackOps_spec i (ackOf p.body) (s.ent i).tx
  have hrest := ((State.shrinks_ackLosses (u.ackOps i (ackOf p.body) (s.ent i).tx) i).trans (State.shrinks_ackRound _ i)).trans
    (State.shrinks_ackClear _ i)
  refine ⟨_, hrun, (hops.trans hrest).mem.trans hmem, fun x hx => ?_, fun y hy hall o ho => ?_⟩
  · obtain ⟨z, hz, hp, hn⟩ := (hops.trans hrest).tx x hx
    rw [htx] at hz
    obtain ⟨y, hy, hc, hp', hn', -⟩ := AckInfo.mem_keep hz
    exact ⟨y, hy, by rw [hp', hp], hn'.trans hn, hc⟩
  · refine hdone y hy (hall y hy rfl) (fun x hx hop => ?_) o (hrest.ops o ho)
    rw [htx] at hx
    obtain ⟨z, hz, hc, -, -, hop'⟩ := AckInfo.mem_keep hx
    rw [hall z hz (hop'.trans hop)] at hc
    cases hc

/-! ### The timers -/

theorem exec_retransmissionTimer_spec {s : State} {i : Fin 16392} {seq n : Nat} {x : TxPkt} (hseq : seq < seqMod)
    (hn : (s.ent i).tx.findIdx? (fun y => y.num && y.p.seq == seq) = some n) (hx : (s.ent i).tx[n]? = some x)
    (hsent : x.sent = true) (hdue : x.due ≤ s.dt.toNat) : ∃ t, exec (.retransmissionTimer i seq) s = .next t ∧ t.mem = s.mem ∧
      if s.retry ≤ x.tries then (t.ent i).tx = [] ∧ (s.entState i = 1 → t.entState i = 3)
      else ∃ y, (t.ent i).tx[n]? = some y ∧ y.sent = false ∧ y.tries = x.tries + 1 ∧ y.p = x.p := by
  have hrun : exec (.retransmissionTimer i seq) s = .next (s.losePkt i n) := by
    have hruns : s.timerRuns x.sent x.tries = true := by rw [State.timerRuns, hsent, Bool.true_or]
    change execRetransmissionTimer i seq s = _
    unfold execRetransmissionTimer
    dsimp only
    rw [if_neg (Nat.not_le.2 hseq)]
    simp only [hn, hx]
    exact if_pos ⟨hruns, hdue⟩
  refine ⟨_, hrun, (s.shrinks_losePkt i n).mem, ?_⟩
  split
  next h =>
    rw [State.losePkt_of_last hx h]
    exact ⟨s.entDown_tx i, s.entDown_state i⟩
  next h =>
    rw [State.losePkt_tx hx h]
    exact ⟨s.waiting i x, List.getElem?_set_self (List.getElem?_eq_some_iff.1 hx).1, rfl, rfl, rfl⟩

theorem exec_peerClearTimeout_spec {s : State} {i : Fin 16392} (h4 : s.entLife i = 4)
    (hdt : (s.ent i).clearDt + dtMs 2 ≤ s.dt.toNat) :
    ∃ t, exec (.peerClearTimeout i) s = .next t ∧ t.entState i = 0 ∧ t.ent i = {} ∧ t.mem = s.mem := by
  obtain ⟨hmem, hstate, hent⟩ := s.failUnset_spec i
  exact ⟨_, if_pos ⟨h4, hdt⟩, hstate, hent, hmem⟩

/-- Settles O41 (log 87): row by row. -/
theorem acknowledgementAndLoss : Obligations.AcknowledgementAndLoss := by
  intro s i
  refine ⟨fun p h => exec_ack_spec h, fun h => exec_ackTimer_spec h, fun j p hj hp h8 => ?_, fun j p hj hp => ?_,
    fun hruns hpaths hsub hstate hfree => ?_, fun seq n x hseq hn hx hsent hdue =>
    exec_retransmissionTimer_spec hseq hn hx hsent hdue, exec_peerClearTimeout_spec⟩
  · obtain ⟨t, ht, hans, hin, hdrops⟩ := exec_notice_spec hj hp h8
    have hans' : s.ackAnswers t i { s.ent i with inbox := (s.ent i).inbox.eraseIdx j, echoDt := p.txdt, echoPath := p.path,
                                                 drops := (t.ent i).drops } := by
      rw [hdrops]
      exact hans
    exact ⟨⟨t, ht, hans'⟩, t, ht, hin, fun hpast => hdrops.trans (if_neg (by rw [hpast]; exact Bool.false_ne_true))⟩
  · obtain ⟨t, ht, hans, hin⟩ := exec_probe_spec hj hp
    exact ⟨⟨t, ht, hans⟩, t, ht, hin⟩
  · have hmay : s.maySend i := ⟨hruns, hpaths, hsub, hstate, hfree⟩
    refine ⟨fun j x hj hx => ?_, fun n x hnotes hx hroom hreach => ?_⟩
    · obtain ⟨hleaves, htx⟩ := s.sendNote_spec i (s.ent i).next j x
      exact ⟨_, exec_packetTransmit_note hmay hj hx, hleaves.mem, hleaves.txn, htx, hleaves.sent⟩
    · obtain ⟨hleaves, hseq, hsent⟩ := s.sendData_spec i (s.ent i).next (Entry.getElem?_of_nextTx hx)
      have hp := hleaves.sent
      rw [TxPkt.numbered_eq] at hp
      exact ⟨_, exec_packetTransmit_data hmay hnotes hx hroom hreach, hleaves.mem, hp, hleaves.txn, hseq, hsent⟩

end Sys2Proof.Machine
end

section
/-! PROOFS. Frames that a sub-port takes in, and the PTP clock (R265, R268, R284 to R286, R299, R396). -/

namespace Sys2Proof.Machine

/-! ### Counts of frames -/

/-- A saturating count after an addition. -/
theorem bf_bsat (w : W64) {lo n : Nat} (k : Nat) (h : lo + n ≤ 64) : bf (bsat w lo n k) lo n = min (2 ^ n - 1) (bf w lo n + k) := by
  have hpos := Nat.two_pow_pos n
  rw [bsat, bf_bset_self _ _ h, Nat.mod_eq_of_lt (by omega)]

theorem State.fld_bsat (s : State) (o : Nat) {lo n : Nat} (k : Nat) (h : lo + n ≤ 64) :
    (s.updReg o (fun w => bsat w lo n k)).fld o lo n = min (2 ^ n - 1) (s.fld o lo n + k) := by
  rw [State.fld, State.updReg, State.reg_setReg_self, bf_bsat _ _ h, State.fld]

theorem State.unhandled_spec (s : State) (p : Nat) :
    (s.unhandled p).fld (rEthRxdrop p) 0 32 = min (2 ^ 32 - 1) (s.fld (rEthRxdrop p) 0 32 + 1) := s.fld_bsat _ 1 (by decide)

/-! ### A frame reaches the receive buffer (R299, R300) -/

/-- The state in which the receive buffer has taken a frame in: the shares of priorities and what is sent may differ. -/
def State.buffered (s : State) (L : Links) (out : List Out) : State := { s with links := L, net := { s.net with out := out } }

theorem State.rxShare_eq (s : State) (p k prio wait : Nat) : ∃ L out, s.rxShare p k prio wait = s.buffered L out := by
  unfold State.rxShare
  dsimp only
  split
  · exact ⟨_, _, rfl⟩
  · split
    · exact ⟨_, _, rfl⟩
    · split
      · exact ⟨_, _, rfl⟩
      · exact ⟨_, _, rfl⟩

section
variable {s : State} {p : Fin 2} {k : Fin 4} {m : FrameMeta}

theorem exec_frameReceive_bad (hr : s.runs = true) (hup : s.subSt p k = 4) {f : Frame}
    (h : f = .bad ∨ ¬ (64 ≤ m.size ∧ m.size ≤ 9216)) :
    exec (.frameReceive p k ⟨f, m⟩) s = .next (s.updReg (rEthRxdrop p) (fun w => bsat w 32 32 1)) := by
  have hbad : f = .bad ∨ m.size < 64 ∨ 9216 < m.size := h.imp_right fun hs => by omega
  exact (if_pos ⟨hr, hup⟩).trans (congrArg _ (if_pos hbad))

/-- A frame of a size that is allowed, and no PFC frame, goes to the receive buffer. -/
theorem exec_frameReceive_sized (hr : s.runs = true) (hup : s.subSt p k = 4) {f : Frame} (hf : f ≠ .bad)
    (hpfc : ∀ qs, f ≠ .pfc qs) (hs : 64 ≤ m.size ∧ m.size ≤ 9216) : ∃ L out, exec (.frameReceive p k ⟨f, m⟩) s = .next
      (if rxBuffer < m.wait + m.size then s.buffered L out
       else if ¬ (s.buffered L out).frameMine (4 * p + k) m.dmac then (s.buffered L out).unhandled p
       else (s.buffered L out).passFrame p k f) := by
  obtain ⟨L, out, hu⟩ := s.rxShare_eq p k (match m.tag with | some x => (x : Nat) | none => s.prioOf p m.dscp) m.wait
  have hbad : ¬(f = .bad ∨ m.size < 64 ∨ 9216 < m.size) := by
    rintro (h | h)
    · exact hf h
    · omega
  refine ⟨L, out, ?_⟩
  rw [← hu]
  refine (if_pos ⟨hr, hup⟩).trans (congrArg _ ((if_neg hbad).trans ?_))
  cases f with
  | pfc qs => exact absurd rfl (hpfc qs)
  | _ => rfl

end

/-! ### A Coroc packet arrives (R268, R272, R396) -/

section
variable {s : State} {i : Nat} {ce : Bool} {x : Pkt}

/-- A new packet of the EPOCH before, that has room, joins those of its EPOCH. -/
theorem State.arrive_early {y : Prior} (he : (s.ent i).isEarly x = true) (hy : (s.ent i).prior = some y) (hk : x.kind < 8)
    (hahead : seqGap y.next x.seq ≤ 2 ^ 30) (hnew : ∀ z ∈ y.rx, z.seq ≠ x.seq)
    (hroom : s.net.rbuf + x.body.length ≤ 0x4000000) : (s.arrive i ce x).mem = s.mem ∧
      ((s.arrive i ce x).ent i).rx = (s.ent i).rx ∧
        ((s.arrive i ce x).ent i).prior = some { y with rx := insertRx y.next x y.rx } := by
  have hfresh : ¬(2 ^ 30 < seqGap y.next x.seq ∨ y.rx.any (fun q => q.seq == x.seq) = true) := by
    rw [not_or, List.any_eq_true]
    exact ⟨Nat.not_lt.2 hahead, fun ⟨z, hz, hs⟩ => hnew z hz (beq_iff_eq.1 hs)⟩
  unfold State.arrive
  dsimp only
  rw [if_pos he, if_neg (Nat.not_le.2 hk), State.arriveEarly, hy]
  dsimp only
  rw [if_neg hfresh, if_neg (Nat.not_lt.2 hroom), State.updEnt_eq, State.ent_setEnt_self]
  exact ⟨rfl, rfl, rfl⟩

/-- An acknowledgement, notice or probe joins the entry's inbox. -/
theorem State.arrive_answer (he : (s.ent i).isEarly x = false) (hk : 8 ≤ x.kind) : (s.arrive i ce x).mem = s.mem ∧
    ((s.arrive i ce x).ent i).inbox = (s.ent i).inbox ++ [x] := by
  unfold State.arrive
  dsimp only
  rw [if_neg (by rw [he]; exact Bool.false_ne_true), if_pos hk, State.updEnt_eq, State.ent_setEnt_self]
  exact ⟨rfl, rfl⟩

/-- A new packet that has room joins the reorder buffer. -/
theorem State.arrive_data (he : (s.ent i).isEarly x = false) (hk : x.kind < 8)
    (hahead : seqGap (s.ent i).rxNext x.seq ≤ 2 ^ 30) (hnew : ∀ z ∈ (s.ent i).rx, z.seq ≠ x.seq)
    (hroom : s.net.rbuf + x.body.length ≤ 0x4000000) : (s.arrive i ce x).mem = s.mem ∧
      ((s.arrive i ce x).ent i).rx = insertRx (s.ent i).rxNext x (s.ent i).rx := by
  have hfresh : ¬(decide (2 ^ 30 < seqGap (s.ent i).rxNext x.seq) || (s.ent i).rx.any (fun q => q.seq == x.seq)) = true := by
    rw [Bool.or_eq_true, not_or, List.any_eq_true, decide_eq_true_eq]
    exact ⟨Nat.not_lt.2 hahead, fun ⟨z, hz, hs⟩ => hnew z hz (beq_iff_eq.1 hs)⟩
  unfold State.arrive
  dsimp only
  rw [if_neg (by rw [he]; exact Bool.false_ne_true), if_neg (Nat.not_le.2 hk), if_neg hfresh, if_neg (Nat.not_lt.2 hroom)]
  generalize hu : State.updEnt (State.updEnt _ i _) i _ = u
  have hmem : u.mem = s.mem := by rw [← hu]; rfl
  have hrx : (u.ent i).rx = insertRx (s.ent i).rxNext x (s.ent i).rx := by
    rw [← hu, State.updEnt_eq, State.ent_setEnt_self, State.updEnt_eq, State.ent_setEnt_self]
    rfl
  split
  · obtain ⟨-, hkeep⟩ := u.sendAck_spec i
    exact ⟨hkeep.mem.trans hmem, hkeep.rx.trans hrx⟩
  · exact ⟨hmem, hrx⟩

end

/-! ### The PTP clock (R285, R286) -/

/-- A Sync of the chosen master gives its receive time. -/
theorem State.takePtp_sync {s : State} {p k : Nat} {tr d snd : Nat} {og : Option Nat} (hh : s.ptpHears p tr = true)
    (hm : s.fromMaster d snd = true) (ha : s.dt.toNat < s.net.ptp.announced + announceLimit) :
    s.takePtp p k tr (.sync d snd og) =
      s.updPtp (fun x => { x with t1 := og, t2 := some (s.ingress p), lastSync := s.dt.toNat }) := by
  have hlive : s.ptpExpire = s := if_neg fun h => Nat.not_le.2 ha h.2
  unfold State.takePtp
  rw [if_neg (not_not.2 hh), hlive]
  exact if_pos hm

theorem exec_ptpDelayRequest_spec {s : State} (hen : s.fld rCtPtpctl 0 1 = 1) (hm : s.net.ptp.master.isSome = true)
    (h2 : s.net.ptp.t2.isSome = true) (hup : s.net.ptp.sub ∈ s.upSubs) (hfree : s.paused s.net.ptp.sub 0 = false) :
    ∃ t, exec .ptpDelayRequest s = .next t ∧ t.net.ptp.t3 = some (s.egress (s.net.ptp.sub / 4)) ∧
      t.net.out = s.net.out ++ [.reply s.net.ptp.sub 4 0 (s.macOf s.net.ptp.sub) (s.tagOf (s.net.ptp.sub / 4) 0)] := by
  have hgo : ¬(s.fld rCtPtpctl 0 1 = 0 ∨ s.net.ptp.master.isNone = true ∨ s.net.ptp.t2.isNone = true ∨
      ¬ s.upSubs.contains s.net.ptp.sub = true) := by
    rw [hen, Option.isNone_eq_false_iff.2 hm, Option.isNone_eq_false_iff.2 h2, List.contains_iff_mem.2 hup]
    decide
  let u := s.updPtp (fun x => { x with t3 := some (s.egress (s.net.ptp.sub / 4)) })
  have hpaused : ¬ u.paused s.net.ptp.sub 0 = true := by
    have he : u.paused s.net.ptp.sub 0 = s.paused s.net.ptp.sub 0 := rfl
    rw [he, hfree]
    exact Bool.false_ne_true
  exact ⟨_, (if_neg hgo).trans (congrArg _ (if_neg hpaused)), rfl, rfl⟩

theorem exec_ptpHoldover_spec {s : State} (hst : s.ptpSt = 1 ∨ s.ptpSt = 2)
    (hdt : s.net.ptp.lastSync + dtMs 3000 ≤ s.dt.toNat) : ∃ t, exec .ptpHoldover s = .next t ∧ t.ptpSt = 3 ∧ t.net = s.net :=
  ⟨_, if_pos ⟨hst, hdt⟩, (s.fld_setFld_self 3 (by decide)).trans (by decide), rfl⟩

/-! ### What a frame that fits leads to -/

section
variable {s : State} {p : Fin 2} {k : Fin 4} {m : FrameMeta} (hr : s.runs = true) (hup : s.subSt p k = 4)
  (hs : 64 ≤ m.size ∧ m.size ≤ 9216)
include hr hup hs

/-- A frame that does not fit goes no further than the receive buffer. -/
theorem exec_frameReceive_full {f : Frame} (hf : f ≠ .bad) (hpfc : ∀ qs, f ≠ .pfc qs) (hfull : rxBuffer < m.wait + m.size) :
    ∃ L out, exec (.frameReceive p k ⟨f, m⟩) s = .next (s.buffered L out) := by
  obtain ⟨L, out, hrun⟩ := exec_frameReceive_sized hr hup hf hpfc hs
  exact ⟨L, out, hrun.trans (congrArg _ (if_pos hfull))⟩

variable (hfit : m.wait + m.size ≤ rxBuffer)
include hfit

/-- A frame for another address is dropped and counted. -/
theorem exec_frameReceive_other {f : Frame} (hf : f ≠ .bad) (hpfc : ∀ qs, f ≠ .pfc qs)
    (hmine : s.frameMine (4 * p + k) m.dmac = false) :
    ∃ L out, exec (.frameReceive p k ⟨f, m⟩) s = .next ((s.buffered L out).unhandled p) := by
  obtain ⟨L, out, hrun⟩ := exec_frameReceive_sized hr hup hf hpfc hs
  have hnot : ¬ (s.buffered L out).frameMine (4 * p + k) m.dmac = true := by
    have he : (s.buffered L out).frameMine (4 * p + k) m.dmac = s.frameMine (4 * p + k) m.dmac := rfl
    rw [he, hmine]
    exact Bool.false_ne_true
  exact ⟨L, out, hrun.trans (congrArg _ ((if_neg (Nat.not_lt.2 hfit)).trans (if_pos hnot)))⟩

theorem exec_frameReceive_mine {f : Frame} (hf : f ≠ .bad) (hpfc : ∀ qs, f ≠ .pfc qs)
    (hmine : s.frameMine (4 * p + k) m.dmac = true) :
    ∃ L out, exec (.frameReceive p k ⟨f, m⟩) s = .next ((s.buffered L out).passFrame p k f) := by
  obtain ⟨L, out, hrun⟩ := exec_frameReceive_sized hr hup hf hpfc hs
  exact ⟨L, out, hrun.trans (congrArg _ ((if_neg (Nat.not_lt.2 hfit)).trans (if_neg (not_not.2 hmine))))⟩

/-- A frame that nothing takes is dropped and counted, for whichever address. -/
theorem exec_frameReceive_stray : ∃ L out, exec (.frameReceive p k ⟨.other, m⟩) s = .next ((s.buffered L out).unhandled p) := by
  cases hmine : s.frameMine (4 * p + k) m.dmac with
  | false => exact exec_frameReceive_other hr hup hs hfit (by simp) (by simp) hmine
  | true => exact exec_frameReceive_mine hr hup hs hfit (by simp) (by simp) hmine

/-- A Coroc frame to an endpoint of a partition is checked there. -/
theorem exec_frameReceive_coroc (hmine : s.frameMine (4 * p + k) m.dmac = true) {v6 : Bool} {dst part : Nat}
    (hpart : s.endpointOf v6 dst = some part) (ce : Bool) (src sport : Nat) (bytes : List Byte) :
    ∃ L out, exec (.frameReceive p k ⟨.udp v6 true ce src dst sport (s.fld rCtCtl 0 16) bytes, m⟩) s =
      .next ((s.buffered L out).takeCoroc part src sport ce (s.ingress p) bytes) := by
  obtain ⟨L, out, hrun⟩ := exec_frameReceive_mine hr hup hs hfit (f := .udp v6 true ce src dst sport (s.fld rCtCtl 0 16) bytes)
    (by simp) (by simp) hmine
  have hpart' : (s.buffered L out).endpointOf v6 dst = some part := hpart
  refine ⟨L, out, hrun.trans (congrArg _ ?_)⟩
  unfold State.passFrame
  dsimp only
  rw [hpart']
  exact if_neg (by rw [not_or, not_not, not_not]; exact ⟨rfl, rfl⟩)

end

/-- The checks of a packet do not look at the receive buffer's shares. -/
theorem State.entryCheck_buffered (s : State) (L : Links) (out : List Out) (part src sport : Nat) (bytes : List Byte) :
    (s.buffered L out).entryCheck part src sport bytes = s.entryCheck part src sport bytes := rfl

theorem State.takeCoroc_of_fail {s : State} {part src sport : Nat} {bytes : List Byte}
    (h : s.entryCheck part src sport bytes = none) (ce : Bool) (rxdt : Nat) :
    s.takeCoroc part src sport ce rxdt bytes = s.authFail := by
  unfold State.takeCoroc
  rw [h]

theorem State.takeCoroc_of_pass {s : State} {part src sport i : Nat} {bytes : List Byte} {q : Pkt}
    (h : s.entryCheck part src sport bytes = some (i, q)) (hboot : bootPkt (bytes.take 48) = false) (ce : Bool) (rxdt : Nat) :
    s.takeCoroc part src sport ce rxdt bytes = s.arrive i ce { q with rxdt := rxdt } := by
  unfold State.takeCoroc
  rw [h]
  exact if_neg fun hb => by rw [hboot] at hb; exact Bool.false_ne_true hb.1

section
variable {s : State} {p : Fin 2} {k : Fin 4} {m : FrameMeta} (hr : s.runs = true) (hup : s.subSt p k = 4)
  (hs : 64 ≤ m.size ∧ m.size ≤ 9216) (hfit : m.wait + m.size ≤ rxBuffer) (hmine : s.frameMine (4 * p + k) m.dmac = true)
  {v6 : Bool} {dst part : Nat} (hpart : s.endpointOf v6 dst = some part) (ce : Bool) {src sport : Nat} {bytes : List Byte}
include hr hup hs hfit hmine hpart

theorem exec_frameReceive_fails (h : s.entryCheck part src sport bytes = none) : ∃ L out,
    exec (.frameReceive p k ⟨.udp v6 true ce src dst sport (s.fld rCtCtl 0 16) bytes, m⟩) s =
      .next (s.buffered L out).authFail := by
  obtain ⟨L, out, hrun⟩ := exec_frameReceive_coroc hr hup hs hfit hmine hpart ce src sport bytes
  rw [State.takeCoroc_of_fail ((s.entryCheck_buffered L out ..).trans h)] at hrun
  exact ⟨L, out, hrun⟩

theorem exec_frameReceive_arrives {i : Nat} {q : Pkt} (h : s.entryCheck part src sport bytes = some (i, q))
    (hboot : bootPkt (bytes.take 48) = false) : ∃ L out,
    exec (.frameReceive p k ⟨.udp v6 true ce src dst sport (s.fld rCtCtl 0 16) bytes, m⟩) s =
      .next ((s.buffered L out).arrive i ce { q with rxdt := s.ingress p }) := by
  obtain ⟨L, out, hrun⟩ := exec_frameReceive_coroc hr hup hs hfit hmine hpart ce src sport bytes
  rw [State.takeCoroc_of_pass ((s.entryCheck_buffered L out ..).trans h) hboot] at hrun
  exact ⟨L, out, hrun⟩

end

/-- Settles O42 (logs 56, 105): by what becomes of a frame at the MAC, at the receive buffer and beyond it. -/
theorem framesAndPtp : Obligations.FramesAndPtp := by
  intro s p k
  refine ⟨fun m hr hup => ⟨fun f hbad => ?_, fun f hf hpfc hs hfull => ?_, fun hs hfit =>
    ⟨?_, fun f hpfc hf hmine => ?_, fun hmine => ⟨fun v6 ce src dst sport bytes part hpart => ⟨fun hnone => ?_,
      fun i q hsome hboot => ?_⟩, fun tr d snd og hh hm ha => ?_⟩⟩⟩, exec_ptpDelayRequest_spec, exec_ptpHoldover_spec⟩
  · exact ⟨_, exec_frameReceive_bad hr hup hbad, s.fld_bsat _ 1 (by decide), rfl, rfl⟩
  · obtain ⟨L, out, hrun⟩ := exec_frameReceive_full hr hup hs hf hpfc hfull
    exact ⟨_, hrun, rfl, rfl, rfl⟩
  · obtain ⟨L, out, hrun⟩ := exec_frameReceive_stray hr hup hs hfit
    exact ⟨_, hrun, (s.buffered L out).unhandled_spec p, rfl⟩
  · obtain ⟨L, out, hrun⟩ := exec_frameReceive_other hr hup hs hfit hf hpfc hmine
    exact ⟨_, hrun, (s.buffered L out).unhandled_spec p, rfl, rfl⟩
  · obtain ⟨L, out, hrun⟩ := exec_frameReceive_fails hr hup hs hfit hmine hpart ce hnone
    exact ⟨_, hrun, (s.buffered L out).fld_bsat rCtRxerr 1 (by decide), rfl, rfl⟩
  · obtain ⟨L, out, hrun⟩ := exec_frameReceive_arrives hr hup hs hfit hmine hpart ce hsome hboot
    refine ⟨fun y hearly hprior hk hahead hnew hroom => ?_, fun hearly => ⟨fun hk => ?_, fun hk hahead hnew hroom => ?_⟩⟩
    · obtain ⟨hmem, hrx, hp⟩ := State.arrive_early (s := s.buffered L out) (ce := ce) hearly hprior hk hahead hnew hroom
      exact ⟨_, hrun, hrx, hmem, hp⟩
    · obtain ⟨hmem, hin⟩ := State.arrive_answer (s := s.buffered L out) (ce := ce) hearly hk
      exact ⟨_, hrun, hin, hmem⟩
    · obtain ⟨hmem, hrx⟩ := State.arrive_data (s := s.buffered L out) (ce := ce) hearly hk hahead hnew hroom
      exact ⟨_, hrun, hrx, hmem⟩
  · obtain ⟨L, out, hrun⟩ := exec_frameReceive_mine hr hup hs hfit (f := .ptp tr (.sync d snd og)) (by simp) (by simp) hmine
    have hsync := State.takePtp_sync (s := s.buffered L out) (p := p) (k := k) (og := og) hh hm ha
    exact ⟨_, hrun.trans (congrArg _ hsync), rfl, rfl, rfl⟩

end Sys2Proof.Machine
end
